-- ==== Sys2Proof/Word.lean ====
section
/-!
DEFINITION. The machine words of the K9600 (spec 00_scope R2, R4): one word is 36 bits, one half 18 bits,
one double 72 bits; binary32 values are held in 32 bits.
-/
namespace Sys2Proof

/-- One word of 36 bits (R2). -/
abbrev Word := BitVec 36

/-- One half of 18 bits (R2). -/
abbrev Half := BitVec 18

/-- A binary32 pattern (R244, R176). -/
abbrev F32 := BitVec 32

/-- A Kamul accumulator of 80 bits (R248). -/
abbrev Acc := BitVec 80

end Sys2Proof
end

