-- ==== Sys2Proof/Syntax.lean ====
section
/-!
DEFINITION. The commands of the K9600, one constructor per row of the table of operations and events, and their
operand types. A command happens at the present tick; its operands are what comes from outside the device (who
writes what, which instance, measured data) or the operands of an instruction.
-/
namespace Sys2Proof

/-- The fabric initiators (R61): each is separate for quoin pairs. -/
inductive Initiator where
  | core (c : Fin 8)
  | press (ch : Fin 128)
  | galley
  | cluster (k : Fin 16)
  | sec
  | pcie
  | eth (m : Fin 2)
  | maelu
  | debug
deriving DecidableEq, Repr

/-- A parity failure in transit (R347). -/
inductive Parity where
  | good
  | request
  | response
deriving DecidableEq, Repr

/-- An edge of SDCLK at a sigma-delta channel (R97): how many ticks before the present one it came, whether it falls, and the
level of SDDAT at it. -/
structure SdEdge where
  age : Nat
  falling : Bool
  level : Bool
deriving DecidableEq, Repr

/-- Operand form of a two-operand instruction: short SR (RD := RD op RS) or long LR (RD := RS op RT) (R262). -/
inductive Alu2 where
  | short (rd rs : Fin 16)
  | long (rd rs rt : Fin 16)
deriving DecidableEq, Repr

/-- ADDI and CMPI: short SI with IMM8 or long LI with IMM21 (R264, R265). -/
inductive ImmOp where
  | short (rd : Fin 16) (imm : BitVec 8)
  | long (rd rs : Fin 16) (imm : BitVec 21)
deriving DecidableEq, Repr

/-- Multiply-accumulate: short MAC or long MACL (R264, R265, R269). -/
inductive MacOp where
  | short (acc : Fin 2) (rd rs : Fin 16)
  | long (acc : Fin 2) (rd rs rt : Fin 16)
deriving DecidableEq, Repr

/-- LDW and STW: short SR with an unsigned offset FN or long LI (R264, R265). -/
inductive MemOp where
  | short (rd rs : Fin 16) (fn : Fin 16)
  | long (rd rs : Fin 16) (imm : BitVec 21)
deriving DecidableEq, Repr

/-- Displacement of BR: short SB or long LB (R264, R265). -/
inductive Disp where
  | short (d : BitVec 8)
  | long (d : BitVec 25)
deriving DecidableEq, Repr

/-- Target of JMP and CALL: long LJ with DISP29 or short Jump through RS, whose RD field must be 0 (R264, R265). -/
inductive Target where
  | disp (d : BitVec 29)
  | reg (rd rs : Fin 16)
deriving DecidableEq, Repr

/-- Direct producers of Galley (R369, R374). -/
inductive Producer where
  | survey (u : Fin 24)
  | sdf (n : Fin 16)
  | trav (e : Fin 64)
  | eth (m : Fin 2)
  | canf (n : Fin 8)
  | uart (n : Fin 8)
  | spi (n : Fin 8)
  | i2c (n : Fin 2)
deriving DecidableEq, Repr

/-- Takers other than cores (R369, R371): an interface controller has one per transmit queue. -/
inductive Taker where
  | trav (e : Fin 64)
  | press (ch : Fin 128)
  | eth (m : Fin 2) (c : Fin 8)
  | canf (n : Fin 8)
  | uart (n : Fin 8)
  | spi (n : Fin 8)
  | i2c (n : Fin 2)
deriving DecidableEq, Repr


/-- An operation of the ROM service runs whole in one command, or starts and finishes in two (R424, R425). -/
inductive RomPhase where
  | whole
  | start
  | finish
deriving DecidableEq, Repr

/-- How an erase ends (R426, R431): verified, some words holding other values, or no journal sector to be made. -/
inductive EraseOutcome where
  | ok
  | verifyFail (held : List (Fin 512 × Word))
  | noJournal
deriving DecidableEq, Repr

/-- The supplies whose monitors reset the device (R458). -/
inductive Supply where
  | vddio
  | vdda
  | vddcore
deriving DecidableEq, Repr

/-- A dword of BAR0 that a host write names beside a folio slot's high dword (R483, R484, R487): a folio slot's low dword, or a
dword of the mailbox. -/
inductive Bar0Dword where
  | folio (slot : Fin 1048576)
  | mailbox (dword : Fin 1536)
deriving DecidableEq, Repr

/-- What a host read names beside a folio slot's low dword (R483, R484, R487): the captured nibble, the mailbox at an octet
offset, a word of BAR2, or the dword of BAR4 that holds eight guard nibbles. -/
inductive HostTarget where
  | bar0High
  | mailbox (ofs : Nat)
  | bar2 (j : Nat)
  | bar4 (j : Nat)
deriving DecidableEq, Repr

/-- The commands: one constructor per row of the table (each with its row's mnemonic and rule). -/
inductive Instr where
  /-- REGISTER_WRITE (R53): A write to a folio register that has no row of its own lands in the register or its shadow, subject to its access code, mode lock and discard rules. -/
  | registerWrite (ini : Initiator) (page : Nat) (off : Nat) (val : Word)
  /-- READ_CLEAR_COUNTER (R95): A read of a counter register that clears on read returns the counts and clears them. -/
  | readClearCounter (ini : Initiator) (page : Nat) (off : Nat)
  /-- QUOIN_VALUE_WRITE (R60): A value write to a guarded register is held pending for its initiator until the complement arrives. -/
  | quoinValueWrite (ini : Initiator) (page : Nat) (off : Nat) (val : Word)
  /-- QUOIN_COMPLEMENT_WRITE (R63): A complement-port write that matches the pending value applies the guarded write as one write, to the shadow or to all three copies. -/
  | quoinComplementWrite (ini : Initiator) (page : Nat) (off : Nat) (val : Word)
  /-- QUOIN_TIMEOUT (R62): A pending quoin value with no further write by its initiator for 4,096 tk is discarded with cause TIMEOUT. -/
  | quoinTimeout (ini : Initiator) (page : Nat)
  /-- BLOCK_ENABLE (R50): A matching FOLIO_CTL pair changes the block enable EN with the meaning that the block chapter gives it. -/
  | blockEnable (ini : Initiator) (page : Nat) (en : Bool)
  /-- BLOCK_RESET (R73): A matching FOLIO_CTL pair with BRST = 1 returns the folio to reset, discards shadows and pending quoin values. -/
  | blockReset (ini : Initiator) (page : Nat)
  /-- BLOCK_RESET_RELEASE (R471): A clocked block reset while LOCK = 0 is released 64 tk after LOCK rises and BRST_PEND clears. -/
  | blockResetRelease (page : Nat)
  /-- FOLIO_GROUP_WRITE (R54): A write of FOLIO_GROUP carries existing shadows to the new group, or applies them at once when GRP becomes 0x1F. -/
  | folioGroupWrite (ini : Initiator) (page : Nat) (val : Word)
  /-- SYS_STROBE (R55): A write of SYS_STROBE fires the named registration groups with application tick S + 4. -/
  | sysStrobe (ini : Initiator) (mask : BitVec 16)
  /-- STROBESRC_WRITE (R59): A write of SYS_STROBESRCg changes the group's hardware source from the next tick and restarts its DIV count. -/
  | strobesrcWrite (ini : Initiator) (g : Fin 16) (val : Word)
  /-- GROUP_APPLY (R55): At application tick A every block of a fired group applies the shadows it captured. -/
  | groupApply (g : Fin 16)
  /-- VOTE_SCRUB (R66): The scrubber votes every triplicated field at least once every 100 µs and once on wake. -/
  | voteScrub
  /-- MERID_CTL_WRITE (R21): A write of MERID_CTL that changes the reference in use drops LOCK, otherwise stores REFSEL, REFMHZ and DISC for later use. -/
  | meridCtlWrite (ini : Initiator) (val : Word)
  /-- REF_LOSS (R22): No reference edge for 400 tk clears REF_OK and drops LOCK. -/
  | refLoss
  /-- LOCK_LOSS (R23): LOCK falls on phase error or reference loss; the PLL enters holdover and the device acts by mode. -/
  | lockLoss
  /-- LOCK_ACQUIRE (R22): After 100 µs of phase error within ±2 ns, LOCK rises and holdover ends. -/
  | lockAcquire
  /-- PEER_TIMING_LOSS (R30): On loss of the peer's timing the PLL moves to its fallback reference without a phase step. -/
  | peerTimingLoss
  /-- TICKH_READ (R24): A read of MERID_TICKH returns counter bits [63:32] and captures bits [31:0] into MERID_TICKL. -/
  | tickhRead (ini : Initiator)
  /-- ALARM_WRITE (R25): A write of MERID_ALMn or MERID_ALMEN arms an alarm, which fires at the next tick and is flagged late if its compare is already past. -/
  | alarmWrite (ini : Initiator) (n : Fin 16) (val : Word)
  /-- ALARM_FIRE (R25): Alarm n fires at the first tick at which the short timestamp reaches its compare value. -/
  | alarmFire (n : Fin 16)
  /-- MERID_STEP (R27): A matching MERID_STEP pair in CONFIG adds a signed tick count to the 64-bit counter. -/
  | meridStep (ini : Initiator) (val : Word)
  /-- DISC_SERVO_UPDATE (R29): Received 802.1AS time adjusts the Meridian rate within ±100 ppm and updates DISC_OK. -/
  | discServoUpdate (offsetNs : Int) (rate : Int)
  /-- LINE_RECAL (R28): The calibration engine trims a tap line against the reference line, at least every 32 µs per line. -/
  | lineRecal (forme : Fin 16) (line : Fin 8)
  /-- CALDONE (R28): CAL_OK rises 50 µs after LOCK rises or after wake, when every line has been calibrated. -/
  | caldone
  /-- PACE_SAMPLING_START (R37): Pace sampling starts at the first tick at which the island has woken and LOCK = 1, or at boot start on holdover. -/
  | paceSamplingStart
  /-- PACE_SAMPLE (R32): Every 10,000 tk PACE takes the slowest monitor reading and raises, keeps or lowers its voltage command. -/
  | paceSample (mons : List Nat)
  /-- PACE_DROOP (R34): A monitor slower than the droop guard between samples raises PACE_SHORT and PACE_DROOP, and in AUTO an immediate 20 mV raise. -/
  | paceDroop (mon : Fin 16) (val : Nat)
  /-- AVS_TRANSACTION (R33): An AVSBus transaction of PACE completes; three consecutive failures raise PACE_AVS_ERR and set AVS_FAIL. -/
  | avsTransaction (answer : Option (BitVec 16 × BitVec 10 × BitVec 16))
  /-- PACE_TARGET_WRITE (R36): A matching PACE_TARGET pair clears HELD and takes effect at the next sample. -/
  | paceTargetWrite (ini : Initiator) (val : Word)
  /-- PACE_VBOUND_WRITE (R36): A matching PACE_VMIN or PACE_VMAX pair moves the command bounds, with out-of-range values discarded under R39. -/
  | paceVboundWrite (ini : Initiator) (upper : Bool) (val : Word)
  /-- PACE_MODE_WRITE (R38): A write of PACE_CTL.MODE = FIXED in CONFIG holds the command at PACE_VFIX. -/
  | paceModeWrite (ini : Initiator) (val : Word)
  /-- CBA_WINDOW (R40): Every 16 tk CBA sets the SHARED allowance and shares it among requesting initiators by weight. -/
  | cbaWindow (events : List (Nat × Nat))
  /-- CBA_CEILING_WRITE (R44): A matching CBA_CEILING pair is accepted for the next window or discarded with CBA_CEIL_LOW. -/
  | cbaCeilingWrite (ini : Initiator) (val : Word)
  /-- SURVEY_TRIGGER (R81): A trigger creates a request for its slot, or is discarded and counted as lost when one is pending. -/
  | surveyTrigger (u : Fin 24) (slot : Fin 16)
  /-- SURV_SWTRIG (R80): A write of SURV_SWTRIG triggers each named slot whose TSRC is software. -/
  | survSwtrig (ini : Initiator) (u : Fin 24) (val : Word)
  /-- SURVEY_COMMIT (R82): In a tick the unit commits to the on-time or late request whose acquisition must start, and handles requests that became late. -/
  | surveyCommit (u : Fin 24)
  /-- SAMPLING_INSTANT (R78): The sampling capacitor is disconnected and conversion of the sample begins. -/
  | samplingInstant (u : Fin 24)
  /-- SURVEY_RESULT (R84): A conversion or burst completes; RAW, the scaled value, SURV_RESs, the latch delivery and the queue record are produced. -/
  | surveyResult (u : Fin 24) (outs : List Nat)
  /-- SURV_RES_READ (R89): A read of SURV_RESs clears NEW and captures the result's timestamp into SURV_RESTS. -/
  | survResRead (ini : Initiator) (u : Fin 24) (slot : Fin 16)
  /-- SURV_CALREQ (R92): A write of SURV_CALREQ.REQ = 1 starts a self-calibration of the unit. -/
  | survCalreq (ini : Initiator) (u : Fin 24) (val : Word)
  /-- CAL_DONE (R92): Self-calibration completes, CAL_OK rises and CAL_DONE is raised. -/
  | calDone (u : Fin 24)
  /-- VDDA_LOW (R93): VDDA crosses the 2.65 V falling or 2.70 V rising threshold and LOWA changes. -/
  | vddaLow (low : Bool)
  /-- SURV_READY (R94): A unit becomes ready 20 µs after enable or wake and raises RDY. -/
  | survReady (u : Fin 24)
  /-- SDF_CLOCK_LOSS (R97): No SDCLK edge for 400 tk sets CLKLOSS, stops delivery and clears the filter. -/
  | sdfClockLoss (n : Fin 16)
  /-- SDF_TRIGGER (R99): A trigger in synchronised mode resets the decimation counter at the first bit at or after T + DLY. -/
  | sdfTrigger (n : Fin 16)
  /-- SDF_SWTRIG (R102): A write of SDF_SWTRIGc triggers the channel when its TSRC is software. -/
  | sdfSwtrig (ini : Initiator) (n : Fin 16) (val : Word)
  /-- SDF_RESULT (R100): A decimation window completes and its result is timestamped, scaled and delivered. -/
  | sdfResult (n : Fin 16) (edges : List SdEdge)
  /-- SDF_RES_READ (R102): A read of SDF_RESc clears NEW and captures the timestamp into SDF_RESTSc. -/
  | sdfResRead (ini : Initiator) (n : Fin 16)
  /-- CONTOUR_CROSSING (R106): The compared quantity crosses a threshold and HI or LO of a comparator rises or falls. -/
  | contourCrossing (k : Fin 64) (vp vn : Nat)
  /-- BLANKING_END (R108): A blanking window expires after BLK ticks and the comparator's trip source is unmasked. -/
  | blankingEnd (k : Fin 64)
  /-- SLOPE_DAC_LOAD (R109): At t0 and every 4 tk after it the DAC is loaded with the ramped high threshold. -/
  | slopeDacLoad (k : Fin 64)
  /-- CONTOUR_READY (R111): A Contour group becomes ready 10 µs after enable or wake. -/
  | contourReady (g : Fin 4)
  /-- FAST_DETECTOR_CHANGE (R112): A fast detector's HI or LO changes after PERS + 1 consecutive bits beyond its threshold. -/
  | fastDetectorChange (n : Fin 16) (edges : List SdEdge)
  /-- TRIPIN_CHANGE (R113): A TRIPIN pin changes level, driving its source at once with FILT = 0 or starting its filter count. -/
  | tripinChange (p : Fin 32) (level : Bool)
  /-- TRIPIN_FILTER_QUALIFY (R113): A TRIPIN pin held active for FILT ticks makes its source active. -/
  | tripinFilterQualify (p : Fin 32)
  /-- TRIP_LATCH (R117): A routed source becomes active at the trip network and latches its classes on the named Formes. -/
  | tripLatch (src : Fin 179)
  /-- TRIP_CLEAR_A (R119): A TRIPNET_CLR pair naming class A clears A on each named Forme unless an A-routed source is active. -/
  | tripClearA (ini : Initiator) (formes : BitVec 16)
  /-- TRIP_CLEAR_B (R119): A TRIPNET_CLR pair naming class B clears BSEEN and BCNT, leaving BACT. -/
  | tripClearB (ini : Initiator) (formes : BitVec 16)
  /-- TRIP_CLEAR_C (R119): A TRIPNET_CLR pair naming class C clears C unless a C-routed source is active. -/
  | tripClearC (ini : Initiator) (formes : BitVec 16)
  /-- TRIP_CLEAR_D (R119): A TRIPNET_CLR pair naming class D clears D. -/
  | tripClearD (ini : Initiator) (formes : BitVec 16)
  /-- SWTRIP (R126): A TRIPNET_SWTRIP pair sets or clears the software trip source, which arrives 4 tk later. -/
  | swtrip (ini : Initiator) (act : Bool)
  /-- ROUTE_WORD_WRITE (R121): A matching route-word pair changes a source's routes from the next tick, latching active sources at once. -/
  | routeWordWrite (ini : Initiator) (src : Fin 179) (val : Word)
  /-- FORME_RUN_START (R135): A write of FORME_RUN.RUN = 1 arms the counter, or returns a stopping counter to RUNNING. -/
  | formeRunStart (ini : Initiator) (f : Fin 16)
  /-- FORME_RUN_STOP (R135): A write of RUN = 0 makes a running counter STOPPING or withdraws an armed start. -/
  | formeRunStop (ini : Initiator) (f : Fin 16)
  /-- FORME_COUNTER_START (R135): The counter starts at its start tick or when CAL_OK returns, with τ = PHASE and all edge shadows applied. -/
  | formeCounterStart (f : Fin 16)
  /-- FORME_BOUNDARY (R518): A running counter ends a period and begins the next, applying staged period values, pending edge shadows and halftone carries. -/
  | formeBoundary (f : Fin 16)
  /-- FORME_COUNTER_STOP (R135): A STOPPING counter reaches its next boundary and stops, raising STOPPED. -/
  | formeCounterStop (f : Fin 16)
  /-- FORME_MID_PERIOD (R133): The counter reaches mid-period; MID is raised and MID or BOTH offers are made. -/
  | formeMidPeriod (f : Fin 16)
  /-- CARRIER_EVENT (R147): A carrier-zero or carrier-peak event is published at the carrier point plus its offset. -/
  | carrierEvent (f : Fin 16) (peak : Bool)
  /-- REF_EDGE (R139): An edge compare matches and the pair's reference signal rises or falls, switching the off-going output and scheduling the other. -/
  | refEdge (f : Fin 16) (n : Fin 4)
  /-- PAIR_EDGE_EVENT (R148): A pair-edge event is published OFS ticks after a selected REF edge. -/
  | pairEdgeEvent (f : Fin 16) (n : Fin 4)
  /-- EDGE_SHADOW_WRITE (R141): A write of a compare or halftone register lands in the pair's edge shadow and is offered under UPD. -/
  | edgeShadowWrite (ini : Initiator) (f : Fin 16) (k : Fin 12) (val : Word)
  /-- LATE_LOAD_DECISION (R142): At the decision tick the whole pair shadow is accepted in the period or deferred to the next boundary. -/
  | lateLoadDecision (f : Fin 16) (n : Fin 4)
  /-- GUTTER_TURN_ON (R153): A pending turn-on reaches its tick after the gutter and the output becomes active. -/
  | gutterTurnOn (f : Fin 16) (n : Fin 4)
  /-- INTERLOCK_RELEASE (R163): A turn-on held by the interlock passes once the other output has been inactive for the floor F. -/
  | interlockRelease (f : Fin 16) (n : Fin 4)
  /-- MIN_PULSE_END (R159): An output held to turn-on + m goes inactive when m expires. -/
  | minPulseEnd (f : Fin 16) (n : Fin 4)
  /-- LATCH_ARRIVAL (R177): A delivery from a sampling unit, Bearing unit or cascade replaces a latch's value and sets it fresh. -/
  | latchArrival (e : Fin 64) (n : Fin 4)
  /-- TRAV_LAT_WRITE (R177): A write of TRAV_LATn is an arrival with the acceptance timestamp. -/
  | travLatWrite (ini : Initiator) (e : Fin 64) (n : Fin 4) (val : Word)
  /-- TRAV_SWTRIG (R179): A write of TRAV_SWTRIG.TRIG = 1 sets the trigger input T fresh. -/
  | travSwtrig (ini : Initiator) (e : Fin 64)
  /-- TRAV_UPDATE (R184): An update starts when REQ is met and spacing permits, computes the control law and writes its output to the destinations. -/
  | travUpdate (e : Fin 64)
  /-- UPDATE_WRITEBACK (R197): An update completes its write-back, updating TRAV_LASTU and TRAV_UCNT and raising DONE. -/
  | updateWriteback (e : Fin 64)
  /-- SETPOINT_ARRIVAL (R182): A set-point take from a Galley queue completes and the prefetched value is held. -/
  | setpointArrival (e : Fin 64)
  /-- FORCED_STATE_CHANGE (R190): ALERT, RECOVERY entry or a disable forces the engine's state after the update in progress completes. -/
  | forcedStateChange (e : Fin 64)
  /-- STARVE (R198): A CLOSED engine starting no update for 16 × LIM tk sets STARVED. -/
  | starve (e : Fin 64)
  /-- OVERLAY_ZERO_FILL (R209): Enabling with INIT = ZERO zeroes points 0 to N − 1 within 256 st. -/
  | overlayZeroFill (e : Fin 64)
  /-- FE_TRIP (R214): The following-error counter reaches FETIME, sets FET and raises FE_TRIP. -/
  | feTrip (e : Fin 64)
  /-- SAFE_ACTION (R215): With SAFE = 1 the engine goes OPEN with SAFEOUT after the update in progress and writes SAFEOUT to its destinations. -/
  | safeAction (e : Fin 64)
  /-- FECLR (R217): A write of TRAV_FECLR.CLR = 1 clears FECNT, FET, COND and SAFE. -/
  | feclr (ini : Initiator) (e : Fin 64)
  /-- BEARING_EDGE (R225): A filtered pin edge is accepted and counts position under the counting mode. -/
  | bearingEdge (u : Fin 16) (a b : Bool)
  /-- INDEX (R227): An accepted index edge captures P and may set the angle origin or zero P. -/
  | bearingIndex (u : Fin 16) (level : Bool)
  /-- BRNG_POSSET (R227): A write of BRNG_POSSET sets P and may make the position valid. -/
  | brngPosset (ini : Initiator) (u : Fin 16) (val : Word)
  /-- BEARING_SAMPLE (R229): At a sample tick the unit takes position, velocity and angle and delivers them to latches. -/
  | bearingSample (u : Fin 16)
  /-- SSI_FRAME_END (R230): An SSI frame ends after the monoflop check and is judged good or an SSI error. -/
  | ssiFrameEnd (u : Fin 16)
  /-- PERIOD_EDGE (R231): A qualifying edge in PERIOD mode updates the measured period and its timestamp. -/
  | periodEdge (u : Fin 16) (level : Bool)
  /-- PER_LOST (R231): No qualifying edge within PTO × 1,024 tk clears PER_VALID. -/
  | perLost (u : Fin 16)
  /-- CORE_RELEASE (R259): A CORE FOLIO_CTL pair with EN = 1 releases a held core at its IP. -/
  | coreRelease (ini : Initiator) (c : Fin 8)
  /-- CORE_HOLD (R259): A CORE FOLIO_CTL pair with EN = 0 holds the core at its next instruction or element boundary. -/
  | coreHold (ini : Initiator) (c : Fin 8)
  /-- LINE_FILL (R239): A fetch-buffer line fill completes for a miss or a prefetch. -/
  | lineFill (c : Fin 8) (second : Bool)
  /-- STORE_ISSUE (R254): The write buffer issues its oldest entry to its target. -/
  | storeIssue (c : Fin 8)
  /-- STORE_ACK (R256): A target acknowledges an issued store, or answers with a fault reported imprecisely. -/
  | storeAck (c : Fin 8) (idx : Nat) (par : Parity)
  /-- EXCEPTION_ENTRY (R300): At a boundary the core enters a vector, writing a frame, the entry-privilege latch and CAUSE. -/
  | exceptionEntry (c : Fin 8)
  /-- INTERRUPT_ENTRY (R302): A delivered interrupt line of priority above RP is taken and its source claimed. -/
  | interruptEntry (c : Fin 8)
  /-- NOP (R279): No operation. -/
  | kNop (c : Fin 8) (arg : BitVec 8)
  /-- DRAIN (R279): Completes when every pending store of the core is acknowledged. -/
  | kDrain (c : Fin 8) (arg : BitVec 8)
  /-- FLUSHI (R279): Waits for stores into the own instruction TCM, then discards fetch-buffer lines and prefetched instructions. -/
  | kFlushi (c : Fin 8) (arg : BitVec 8)
  /-- SYNC_INSTR (R279): SYNC completes when every earlier instruction, load and store has finished. -/
  | kSync (c : Fin 8) (arg : BitVec 8)
  /-- YIELD (R290): The running slot goes behind every READY slot of its priority. -/
  | kYield (c : Fin 8) (arg : BitVec 8)
  /-- WAITEV (R290): Consumes a pending activation or makes the slot WAITING and switches away. -/
  | kWaitev (c : Fin 8) (arg : BitVec 8)
  /-- RETX (R303): Returns from an exception frame, restoring IP and PSW within the entry-privilege latch. -/
  | kRetx (c : Fin 8) (arg : BitVec 8)
  /-- RET (R279): IP := LP. -/
  | kRet (c : Fin 8) (arg : BitVec 8)
  /-- TRAP (R279): Raises vector 13 with n recorded in the cause. -/
  | kTrap (c : Fin 8) (n : BitVec 8)
  /-- RETQ (R273): Restores registers saved with MASKSETk and returns. -/
  | kRetq (c : Fin 8) (arg : BitVec 8) (stop : Option Nat)
  /-- ADD (R266): Integer add. -/
  | kAdd (c : Fin 8) (o : Alu2)
  /-- SUB (R266): Integer subtract. -/
  | kSub (c : Fin 8) (o : Alu2)
  /-- ADC (R266): Add with carry. -/
  | kAdc (c : Fin 8) (o : Alu2)
  /-- SBC (R266): Subtract with carry. -/
  | kSbc (c : Fin 8) (o : Alu2)
  /-- AND (R266): Bitwise AND. -/
  | kAnd (c : Fin 8) (o : Alu2)
  /-- OR (R266): Bitwise OR. -/
  | kOr (c : Fin 8) (o : Alu2)
  /-- XOR (R266): Bitwise XOR. -/
  | kXor (c : Fin 8) (o : Alu2)
  /-- ANDN (R266): a AND NOT b. -/
  | kAndn (c : Fin 8) (o : Alu2)
  /-- SHL (R266): Shift left by a register count. -/
  | kShl (c : Fin 8) (o : Alu2)
  /-- SHR (R266): Logical shift right by a register count. -/
  | kShr (c : Fin 8) (o : Alu2)
  /-- SAR (R266): Arithmetic shift right by a register count. -/
  | kSar (c : Fin 8) (o : Alu2)
  /-- MOV (R266): Register move. -/
  | kMov (c : Fin 8) (o : Alu2)
  /-- NEG (R266): Integer negate. -/
  | kNeg (c : Fin 8) (o : Alu2)
  /-- NOT (R266): Bitwise complement. -/
  | kNot (c : Fin 8) (o : Alu2)
  /-- CMP (R266): Flags of a subtraction. -/
  | kCmp (c : Fin 8) (o : Alu2)
  /-- TST (R266): Flags of an AND. -/
  | kTst (c : Fin 8) (o : Alu2)
  /-- MIN (R266): Signed minimum. -/
  | kMin (c : Fin 8) (rd rs rt : Fin 16)
  /-- MAX (R266): Signed maximum. -/
  | kMax (c : Fin 8) (rd rs rt : Fin 16)
  /-- MINU (R266): Unsigned minimum. -/
  | kMinu (c : Fin 8) (rd rs rt : Fin 16)
  /-- MAXU (R266): Unsigned maximum. -/
  | kMaxu (c : Fin 8) (rd rs rt : Fin 16)
  /-- CLZ (R266): Count leading zeros. -/
  | kClz (c : Fin 8) (rd rs rt : Fin 16)
  /-- POPC (R266): Population count. -/
  | kPopc (c : Fin 8) (rd rs rt : Fin 16)
  /-- ADDI (R264): Add an immediate. -/
  | kAddi (c : Fin 8) (o : ImmOp)
  /-- ANDI (R265): AND with an immediate. -/
  | kAndi (c : Fin 8) (rd rs : Fin 16) (imm : BitVec 21)
  /-- ORI (R265): OR with an immediate. -/
  | kOri (c : Fin 8) (rd rs : Fin 16) (imm : BitVec 21)
  /-- XORI (R265): XOR with an immediate. -/
  | kXori (c : Fin 8) (rd rs : Fin 16) (imm : BitVec 21)
  /-- MOVI (R264): Load an 8-bit immediate. -/
  | kMovi (c : Fin 8) (rd : Fin 16) (imm : BitVec 8)
  /-- CMPI (R264): Flags of a register minus an immediate. -/
  | kCmpi (c : Fin 8) (o : ImmOp)
  /-- LDI (R265): Load a 25-bit immediate. -/
  | kLdi (c : Fin 8) (rd : Fin 16) (imm : BitVec 25)
  /-- LDHI (R265): Load an unsigned immediate shifted left by 11. -/
  | kLdhi (c : Fin 8) (rd : Fin 16) (imm : BitVec 25)
  /-- SHI_SHL (R264): Shift left by an immediate count. -/
  | kShiShl (c : Fin 8) (rd : Fin 16) (cnt : Fin 64)
  /-- SHI_SHR (R264): Logical shift right by an immediate count. -/
  | kShiShr (c : Fin 8) (rd : Fin 16) (cnt : Fin 64)
  /-- SHI_SAR (R264): Arithmetic shift right by an immediate count. -/
  | kShiSar (c : Fin 8) (rd : Fin 16) (cnt : Fin 64)
  /-- SHI_ROR (R264): Rotate right by an immediate count. -/
  | kShiRor (c : Fin 8) (rd : Fin 16) (cnt : Fin 64)
  /-- MUL (R266): Low 36 bits of the signed product. -/
  | kMul (c : Fin 8) (rd rs rt : Fin 16)
  /-- MULH (R265): High word of the signed product. -/
  | kMulh (c : Fin 8) (rd rs rt : Fin 16)
  /-- MULU (R265): Low word of the unsigned product. -/
  | kMulu (c : Fin 8) (rd rs rt : Fin 16)
  /-- MULHU (R265): High word of the unsigned product. -/
  | kMulhu (c : Fin 8) (rd rs rt : Fin 16)
  /-- DIV (R266): Signed division, raising vector 3 on zero divisor or overflow. -/
  | kDiv (c : Fin 8) (rd rs rt : Fin 16)
  /-- DIVU (R266): Unsigned division. -/
  | kDivu (c : Fin 8) (rd rs rt : Fin 16)
  /-- REM (R266): Signed remainder. -/
  | kRem (c : Fin 8) (rd rs rt : Fin 16)
  /-- REMU (R266): Unsigned remainder. -/
  | kRemu (c : Fin 8) (rd rs rt : Fin 16)
  /-- ACC_MUL (R269): Accumulator := exact signed product. -/
  | kAccMul (c : Fin 8) (o : MacOp)
  /-- MAC (R269): Accumulator += exact signed product. -/
  | kMac (c : Fin 8) (o : MacOp)
  /-- MSU (R269): Accumulator −= exact signed product. -/
  | kMsu (c : Fin 8) (o : MacOp)
  /-- ACC_MULU (R269): Accumulator := exact unsigned product. -/
  | kAccMulu (c : Fin 8) (o : MacOp)
  /-- MACU (R269): Accumulator += exact unsigned product. -/
  | kMacu (c : Fin 8) (o : MacOp)
  /-- EXTF (R248): Extract the accumulator to S4.31 with rounding and saturation. -/
  | kExtf (c : Fin 8) (rd acc : Fin 16)
  /-- EXTI (R248): Extract the accumulator to an integer with saturation. -/
  | kExti (c : Fin 8) (rd acc : Fin 16)
  /-- CLRA (R269): Clear an accumulator. -/
  | kClra (c : Fin 8) (rd acc : Fin 16)
  /-- MOVFA_H (R269): Move the accumulator's upper 40 bits to a register pair. -/
  | kMovfaH (c : Fin 8) (rd acc : Fin 16)
  /-- MOVFA_L (R269): Move the accumulator's lower 40 bits to a register pair. -/
  | kMovfaL (c : Fin 8) (rd acc : Fin 16)
  /-- MOVTA_H (R269): Move a register pair into the accumulator's upper 40 bits. -/
  | kMovtaH (c : Fin 8) (rd acc : Fin 16)
  /-- MOVTA_L (R269): Move a register pair into the accumulator's lower 40 bits. -/
  | kMovtaL (c : Fin 8) (rd acc : Fin 16)
  /-- FRMUL (R267): Fraction multiply, rounded and brought into range. -/
  | kFrmul (c : Fin 8) (o : Alu2)
  /-- FRADD (R267): Fraction add. -/
  | kFradd (c : Fin 8) (o : Alu2)
  /-- FRSUB (R267): Fraction subtract. -/
  | kFrsub (c : Fin 8) (o : Alu2)
  /-- FRNEG (R267): Fraction negate. -/
  | kFrneg (c : Fin 8) (o : Alu2)
  /-- FRABS (R267): Fraction absolute value. -/
  | kFrabs (c : Fin 8) (o : Alu2)
  /-- RSHR (R267): Rounding right shift of a fraction. -/
  | kRshr (c : Fin 8) (o : Alu2)
  /-- FRSAT (R267): Bring a fraction into range under SAT. -/
  | kFrsat (c : Fin 8) (o : Alu2)
  /-- FADD (R268): binary32 add. -/
  | kFadd (c : Fin 8) (o : Alu2)
  /-- FSUB (R268): binary32 subtract. -/
  | kFsub (c : Fin 8) (o : Alu2)
  /-- FMUL (R268): binary32 multiply. -/
  | kFmul (c : Fin 8) (o : Alu2)
  /-- FDIV (R268): binary32 divide. -/
  | kFdiv (c : Fin 8) (o : Alu2)
  /-- FSQRT (R268): binary32 square root. -/
  | kFsqrt (c : Fin 8) (o : Alu2)
  /-- FMIN (R268): binary32 minimum. -/
  | kFmin (c : Fin 8) (o : Alu2)
  /-- FMAX (R268): binary32 maximum. -/
  | kFmax (c : Fin 8) (o : Alu2)
  /-- FCMP (R268): Compare binary32 values and set the PSW flags. -/
  | kFcmp (c : Fin 8) (o : Alu2)
  /-- FMOV (R268): binary32 move. -/
  | kFmov (c : Fin 8) (o : Alu2)
  /-- FNEG (R268): binary32 negate. -/
  | kFneg (c : Fin 8) (o : Alu2)
  /-- FABS (R268): binary32 absolute value. -/
  | kFabs (c : Fin 8) (o : Alu2)
  /-- FMAC (R265): Fused FD + FS × FT. -/
  | kFmac (c : Fin 8) (fd fs ft : Fin 16)
  /-- FMSU (R265): Fused FD − FS × FT. -/
  | kFmsu (c : Fin 8) (fd fs ft : Fin 16)
  /-- FITOF (R268): Integer to binary32. -/
  | kFitof (c : Fin 8) (rd rs rt : Fin 16)
  /-- FFTOI (R268): binary32 to integer. -/
  | kFftoi (c : Fin 8) (rd rs rt : Fin 16)
  /-- FRTOF (R268): Fraction to binary32. -/
  | kFrtof (c : Fin 8) (rd rs rt : Fin 16)
  /-- FFTOR (R268): binary32 to fraction. -/
  | kFftor (c : Fin 8) (rd rs rt : Fin 16)
  /-- MOVGF (R265): Move a general register's low 32 bits to an FP register. -/
  | kMovgf (c : Fin 8) (rd rs rt : Fin 16)
  /-- MOVFG (R265): Move an FP register to a general register. -/
  | kMovfg (c : Fin 8) (rd rs rt : Fin 16)
  /-- LDW (R271): Load a word, forwarded from pending stores where covered. -/
  | kLdw (c : Fin 8) (o : MemOp) (par : Parity)
  /-- LDWSP (R264): Load a word relative to SP. -/
  | kLdwsp (c : Fin 8) (rd : Fin 16) (imm : BitVec 8)
  /-- LDH (R265): Load a half, zero-extended. -/
  | kLdh (c : Fin 8) (rd rs : Fin 16) (imm : BitVec 21)
  /-- LDHS (R265): Load a half, sign-extended. -/
  | kLdhs (c : Fin 8) (rd rs : Fin 16) (imm : BitVec 21)
  /-- LDHF (R265): Load an S0.17 half as S4.31. -/
  | kLdhf (c : Fin 8) (rd rs : Fin 16) (imm : BitVec 21)
  /-- LDD (R265): Load a double into a register pair. -/
  | kLdd (c : Fin 8) (rd rs : Fin 16) (imm : BitVec 21)
  /-- FLD (R265): Load a binary32 word into an FP register. -/
  | kFld (c : Fin 8) (rd rs : Fin 16) (imm : BitVec 21)
  /-- STW (R254): Store a word through the write buffer. -/
  | kStw (c : Fin 8) (o : MemOp)
  /-- STWSP (R264): Store a word relative to SP. -/
  | kStwsp (c : Fin 8) (rd : Fin 16) (imm : BitVec 8)
  /-- STH (R265): Store a half. -/
  | kSth (c : Fin 8) (rd rs : Fin 16) (imm : BitVec 21)
  /-- STHF (R265): Store S4.31 as a rounded, saturated S0.17 half. -/
  | kSthf (c : Fin 8) (rd rs : Fin 16) (imm : BitVec 21)
  /-- STD (R265): Store a double. -/
  | kStd (c : Fin 8) (rd rs : Fin 16) (imm : BitVec 21)
  /-- FST (R265): Store an FP register as a word. -/
  | kFst (c : Fin 8) (rd rs : Fin 16) (imm : BitVec 21)
  /-- PUSH (R271): Decrement SP and store, checking the stack limit. -/
  | kPush (c : Fin 8) (rd rs : Fin 16)
  /-- POP (R271): Load and increment SP. -/
  | kPop (c : Fin 8) (rd rs : Fin 16)
  /-- PUSHF (R271): Push an FP register. -/
  | kPushf (c : Fin 8) (rd rs : Fin 16)
  /-- POPF (R271): Pop an FP register. -/
  | kPopf (c : Fin 8) (rd rs : Fin 16)
  /-- BR (R270): Conditional branch by displacement. -/
  | kBr (c : Fin 8) (cond : Fin 16) (d : Disp)
  /-- JMP (R270): Jump by displacement or to a register target. -/
  | kJmp (c : Fin 8) (t : Target)
  /-- CALL (R270): Call writing the next IP into LP. -/
  | kCall (c : Fin 8) (t : Target)
  /-- CALLM (R272): Masked call saving named registers as resumable elements. -/
  | kCallm (c : Fin 8) (mask : BitVec 16) (disp : BitVec 13) (stop : Option Nat)
  /-- CALLMR (R272): Masked call to a register target. -/
  | kCallmr (c : Fin 8) (mask : BitVec 16) (rs : Fin 16) (stop : Option Nat)
  /-- CALLQ (R272): Masked call using MASKSETk. -/
  | kCallq (c : Fin 8) (k rs : Fin 16) (stop : Option Nat)
  /-- RETM (R273): Restore masked registers and return. -/
  | kRetm (c : Fin 8) (mask : BitVec 16) (disp : BitVec 13) (stop : Option Nat)
  /-- BLKMOV (R275): Resumable word-by-word block copy. -/
  | kBlkmov (c : Fin 8) (rd rs rt : Fin 16) (stop : Option Nat)
  /-- VMAC (R276): Resumable vector multiply-accumulate into an accumulator. -/
  | kVmac (c : Fin 8) (acc : Fin 2) (rd rs rt : Fin 16) (stop : Option Nat)
  /-- QPUT (R278): Drain, then offer a word to a Galley queue, waiting under BLOCK. -/
  | kQput (c : Fin 8) (rd rs : Fin 16)
  /-- QTAKE (R278): Take the oldest word of a queue or report empty. -/
  | kQtake (c : Fin 8) (rd rs : Fin 16)
  /-- MOVC_FROM (R243): Read a control register. -/
  | kMovcFrom (c : Fin 8) (rd : Fin 16) (cn : Fin 64)
  /-- MOVC_TO (R243): Write a control register under privilege rules. -/
  | kMovcTo (c : Fin 8) (rd : Fin 16) (cn : Fin 64)
  /-- TASK_ACTIVATION (R288): An activation from the EVC, a watermark or a timer makes a slot READY or is lost if one is pending. -/
  | taskActivation (c : Fin 8) (slot : Fin 32)
  /-- TSC_SWACT (R288): A write of TSC_SWACT activates the named slots. -/
  | tscSwact (ini : Initiator) (c : Fin 8) (mask : BitVec 32)
  /-- SLOT_TIMER_EXPIRY (R288): A slot timer expires and activates its slot. -/
  | slotTimerExpiry (c : Fin 8) (slot : Fin 32)
  /-- TSC_TMR_WRITE (R316): A write of TSC_TMRs restarts the slot timer from the tick of acceptance. -/
  | tscTmrWrite (ini : Initiator) (c : Fin 8) (slot : Fin 32) (val : Word)
  /-- SLOT_ENABLE (R291): A change of TSC_SLOTCFGs.EN makes a slot WAITING or switches away from it. -/
  | slotEnable (ini : Initiator) (c : Fin 8) (slot : Fin 32) (val : Word)
  /-- TASK_SWITCH (R293): At a boundary at D = 0 the core saves the running slot and restores the chosen READY slot. -/
  | taskSwitch (c : Fin 8)
  /-- WD_EXPIRE (R315): The core watchdog expires, raising vector 11 or escalating on a second expiry. -/
  | wdExpire (c : Fin 8)
  /-- WDKICK (R315): A write of 0x0_0000_A5A5 to TSC_WDKICK restarts the core watchdog. -/
  | wdkick (ini : Initiator) (c : Fin 8) (key : Word)
  /-- EVENT_SENSED (R324): A sampled source meets its sensing condition and becomes pending, or the event is lost. -/
  | eventSensed (src : Fin 2048)
  /-- GLITCH_FILTER_SETTLE (R325): A raw input held for LEN ticks becomes the source's filtered level. -/
  | glitchFilterSettle (src : Fin 2048)
  /-- EVENT_DELIVERY (R326): A pending event is delivered to its vector line, slot, Press channel, engine or sampling unit. -/
  | eventDelivery (src : Fin 2048)
  /-- EVC_SRC_ACCESS (R337): An access to EVC_SRC reads or writes the source word at INDEX and increments INDEX with AINC. -/
  | evcSrcAccess (ini : Initiator) (q : Fin 8) (write : Option Word)
  /-- EVC_GATE_WRITE (R328): A write of EVC_GATE withholds or releases VECTOR and SLOT deliveries. -/
  | evcGateWrite (ini : Initiator) (gate : Bool)
  /-- EVC_SWSET (R332): A write of EVC_SWSET makes an event of the named source under its route. -/
  | evcSwset (ini : Initiator) (src : Fin 2048)
  /-- EVC_PEND_DISCARD (R332): Writing 1 to an EVC_PENDw bit discards that pending event. -/
  | evcPendDiscard (ini : Initiator) (q : Fin 8) (w : Fin 8) (mask : BitVec 32)
  /-- WAKE_EDGE (R334): In PARK a selected edge on a wake pin or wake source is caught and requests wake. -/
  | wakeEdge (pin : Bool) (k : Fin 64) (level : Bool)
  /-- PARK_WAKE (R474): A wake request restores pace, resumes islands and moves SYS_MODE from PARK to CONFIG or RECOVERY. -/
  | parkWake (mons : List Nat)
  /-- TAG_GRANT (R344): A waiting request is granted a tag under MAX and the reserve rule. -/
  | tagGrant
  /-- FAB_TIMEOUT (R346): A tag without response after its timeout is retired and the initiator gets a bus error. -/
  | fabTimeout (id : Nat) (took : Bool)
  /-- FAB_LATE (R346): A late response to a retired tag is discarded. -/
  | fabLate (id : Nat)
  /-- ZOMBIE_RELEASE (R346): A retired entry becomes reusable after a further 16n tk. -/
  | zombieRelease (id : Nat)
  /-- MEMORY_INIT_DONE (R352): A RAM region finishes zero initialisation and its MEMP_INIT bit rises. -/
  | memoryInitDone (region : Fin 35)
  /-- RETIRE_MIRROR (R358): A FAB_RETIRE pair to MIRROR starts writing bank b's stores also to the spare. -/
  | retireMirror (ini : Initiator) (bank : Fin 16)
  /-- RETIRE_NONE (R357): A FAB_RETIRE pair returns MIRROR to NONE. -/
  | retireNone (ini : Initiator) (bank : Fin 16)
  /-- RETIRE_SUBST (R359): A FAB_RETIRE pair to SUBST moves bank b's accesses to the spare within 16 st. -/
  | retireSubst (ini : Initiator) (bank : Fin 16)
  /-- FAB_BANKOFF_WRITE (R360): A FAB_BANKOFF pair makes banks or the spare unusable. -/
  | fabBankoffWrite (ini : Initiator) (val : Word)
  /-- MEMP_CLRBLK (R356): A write of MEMP_CLRBLK zeroes a block with a valid code. -/
  | mempClrblk (ini : Initiator) (val : Word)
  /-- MEMP_TAIL_WRITE (R354): A write of MEMP_TAIL advances past read log entries. -/
  | mempTailWrite (ini : Initiator) (val : Word)
  /-- QUEUE_ENABLE (R367): GALLEY_QCMD ENABLE checks a descriptor, sets EN and computes its parity. -/
  | queueEnable (ini : Initiator) (q : Fin 32768)
  /-- QUEUE_DISABLE (R367): GALLEY_QCMD DISABLE clears EN and ends BLOCK waiters and parked takes. -/
  | queueDisable (ini : Initiator) (q : Fin 32768)
  /-- QUEUE_FLUSH (R367): GALLEY_QCMD FLUSH empties the queue and serves BLOCK waiters. -/
  | queueFlush (ini : Initiator) (q : Fin 32768)
  /-- QUEUE_CLRSTAT (R367): GALLEY_QCMD CLRSTAT clears OVF and DROP. -/
  | queueClrstat (ini : Initiator) (q : Fin 32768)
  /-- QUEUE_PUT (R370): A put of a record is accepted, or handled under the queue policy. -/
  | queuePut (p : Producer)
  /-- PUT_COMMIT (R369): After the payload store is acknowledged Galley writes TAIL and the record becomes visible. -/
  | putCommit (q : Fin 32768)
  /-- QUEUE_TAKE (R369): A take reads the oldest word and advances HEAD, or parks or reports empty. -/
  | queueTake (t : Taker)
  /-- PARKED_TAKE_COMPLETE (R371): A parked take completes after a put makes the queue non-empty. -/
  | parkedTakeComplete (q : Fin 32768)
  /-- BLOCK_PUT_SERVED (R370): A waiting BLOCK producer is served as space frees. -/
  | blockPutServed (q : Fin 32768)
  /-- DESC_WR (R367): A fabric store to a descriptor with EN = 1 is discarded with a bus error. -/
  | descWr (ini : Initiator) (q : Fin 32768) (k : Fin 4) (val : Word)
  /-- PRESS_START (R387): PRESS_CHCTLi.START clears the error and trigger and loads the slip at PRESS_CHPTRi. -/
  | pressStart (ini : Initiator) (ch : Fin 128)
  /-- SLIP_LOAD (R378): A slip is fetched and checked, failing with SLIP_ERR or arming or running the channel. -/
  | slipLoad (ch : Fin 128)
  /-- PRESS_SWTRIG (R379): PRESS_CHCTLi.SWTRIG gives the channel a trigger. -/
  | pressSwtrig (ini : Initiator) (ch : Fin 128)
  /-- PRESS_TRIGGER (R379): An event-controller trigger is held, or lost if one is pending. -/
  | pressTrigger (ch : Fin 128)
  /-- PRESS_STOP (R382): PRESS_CHCTLi.STOP stops the channel at its next slip boundary. -/
  | pressStop (ini : Initiator) (ch : Fin 128)
  /-- PRESS_TRANSFER (R380): A channel moves one word or double from source to destination. -/
  | pressTransfer (ch : Fin 128)
  /-- SLIP_COMPLETE (R381): All writes of a slip are acknowledged; completion is signalled and the next slip chained. -/
  | slipComplete (ch : Fin 128)
  /-- PRESS_HALT (R383): A bus error on a Press access halts both halves and puts active channels in HALTED. -/
  | pressHalt
  /-- HCLR (R383): A write of PRESS_GCTL.HCLR = 1 clears HALT. -/
  | hclr (ini : Initiator)
  /-- LANE_LOCK_LOSS (R391): A lane losing symbol lock for 64 symbols takes the link DOWN and raises LINK_FAIL. -/
  | laneLockLoss (lane : Fin 4)
  /-- LINK_UP (R391): Training completes, all lanes are locked and deskewed, and the link restarts at SEQ 0. -/
  | linkUp
  /-- FRAME_SEND (R395): The sender chooses and transmits the next frame by priority. -/
  | frameSend
  /-- BAD_FRAME (R393): A bad or out-of-order frame is discarded and a NAK is sent. -/
  | badFrame (aseq : Option (BitVec 8))
  /-- ACK_FRAME (R393): A received ACK releases the replay entries its ASEQ covers. -/
  | ackFrame (aseq : BitVec 8)
  /-- NAK_FRAME (R394): A received NAK retransmits from the frame after ASEQ. -/
  | nakFrame (aseq : BitVec 8)
  /-- REPLAY_TIMEOUT (R394): An unacknowledged frame is retransmitted after 750 tk, and after three retries the link goes DOWN. -/
  | replayTimeout
  /-- HEART_FRAME (R400): A received HEART updates the peer's role, readiness and alerts. -/
  | heartFrame (seq aseq : BitVec 8) (w0 w1 : Word)
  /-- FOLIO_FRAME (R399): The standby writes each forwarded entry in order as the Maelu initiator. -/
  | folioFrame (seq aseq : BitVec 8) (ws : List Word)
  /-- ENGINE_FRAME (R399): The standby replaces an engine's state words between two updates. -/
  | engineFrame (seq aseq : BitVec 8) (e : Fin 64) (ws : List Word)
  /-- FORME_FRAME (R399): The standby takes GACT values and checks boundary alignment. -/
  | formeFrame (seq aseq : BitVec 8) (f : Fin 16) (ws : List Word)
  /-- OVERLAY_FRAME (R399): The standby writes 32 mirrored Overlay points through the private port. -/
  | overlayFrame (seq aseq : BitVec 8) (e : Fin 64) (k0 : BitVec 10) (ws : List Word)
  /-- MEM_FRAME (R399): The standby stores mirrored shared SRAM words. -/
  | memFrame (seq aseq : BitVec 8) (ofs : BitVec 20) (ws : List Word)
  /-- END_FRAME (R399): The standby records the mirror cycle number. -/
  | endFrame (seq aseq : BitVec 8) (cyc : Word)
  /-- TIME_FRAME (R411): A received TIME frame updates the measured link delay for Meridian slaving. -/
  | timeFrame (aseq : BitVec 8) (w0 w1 : Word)
  /-- TIME_FRAME_SEND (R411): Every 100 µs each device sends a TIME frame. -/
  | timeFrameSend
  /-- ROLE_SOLO (R403): A TWIN_ROLE pair to SOLO stops mirroring and sets SST SOLO. -/
  | roleSolo (ini : Initiator)
  /-- ROLE_ACTIVE (R403): A TWIN_ROLE pair to ACTIVE asserts OWN_OUT or takes over with cause SW. -/
  | roleActive (ini : Initiator)
  /-- ROLE_STANDBY (R403): A TWIN_ROLE pair to STANDBY drops OWN_OUT and releases the pins. -/
  | roleStandby (ini : Initiator)
  /-- HEARTBEAT_TIMEOUT (R404): TO passes without a good HEART and SST becomes LOST with cause LINK or TIMEOUT. -/
  | heartbeatTimeout
  /-- OWN_IN_CHANGE (R390): The peer's OWN_OUT level changes at OWN_IN and is synchronised in 2 tk. -/
  | ownInChange (level : Bool)
  /-- TAKEOVER_DECISION (R406): At the first tick at which READY, OWN_IN low and a cause hold, the standby takes over and asserts OWN_OUT. -/
  | takeoverDecision
  /-- TAKEOVER_COMPLETE (R407): At the first mirror-group tick A at least 8 tk after the decision, SYS_MODE becomes RUN. -/
  | takeoverComplete
  /-- SPLIT (R409): OWN_OUT asserted with OWN_IN high for 1,000 tk raises SPLIT. -/
  | split
  /-- DIVERGE_CLEAR (R401): A W1C of FOLIO_EVT.BLK bit 10 clears the DIVERGE state. -/
  | divergeClear (ini : Initiator)
  /-- FL_PROGRAM_WORD (R428): ROM routine that programs one flash word and seals its block when the eighth word is programmed. -/
  | flProgramWord (c : Fin 8) (ph : RomPhase) (stuck : Option (Word × BitVec 4))
  /-- FL_ERASE_SECTOR (R431): ROM routine that journals and erases one flash sector. -/
  | flEraseSector (c : Fin 8) (ph : RomPhase) (out : EraseOutcome)
  /-- FL_SEAL_BLOCK (R429): ROM routine that programs a block's column word and seals it. -/
  | flSealBlock (c : Fin 8) (ph : RomPhase)
  /-- FL_VERIFY (R430): ROM routine that compares flash with another area. -/
  | flVerify (c : Fin 8)
  /-- FL_STATUS (R427): ROM routine that returns the flash status and caller's bank. -/
  | flStatus (c : Fin 8)
  /-- FL_JOURNAL_SCAN (R433): ROM routine that settles open erase intents and reports SUSPECT sectors. -/
  | flJournalScan (c : Fin 8)
  /-- OTP_PROGRAM_FIELD (R437): ROM routine that programs or queries a Colophon field. -/
  | otpProgramField (c : Fin 8) (ph : RomPhase)
  /-- FL_RT_MARGIN (R421): At the end of each 1,048,576-tick window the corrected-read count is moved and checked against the limit. -/
  | flRtMargin
  /-- CMD_DENY (R438): A store to the ROM command interface from outside the boot ROM is discarded. -/
  | cmdDeny (ini : Initiator) (off : Nat) (val : Word)
  /-- OPTION_LOAD (R436): The Colophon row is read into the triplicated latches and the safe-state copy loaded. -/
  | optionLoad (ok : Bool) (ce : Nat)
  /-- BOOT_START (R463): Core 0 starts the boot ROM when LOCK and its TCMs are ready, or after 5 ms on holdover. -/
  | bootStart
  /-- BOOT_CANDIDATE (R444): The boot ROM verifies one image candidate and either enters CONFIG at ENTRY or records a failure code. -/
  | bootCandidate
  /-- BOOTGO (R446): A host write of BOOTGO makes the ROM verify the image at BOOTBASE. -/
  | bootgo (val : BitVec 32)
  /-- DEBUG_CHALLENGE (R451): SEC_DBGCTL.CHAL draws a fresh nonce into SEC_DBGCHAL. -/
  | debugChallenge (ini : Initiator)
  /-- DEBUG_SUBMIT (R451): SEC_DBGCTL.SUBMIT consumes the challenge and unlocks debug or refuses. -/
  | debugSubmit (ini : Initiator)
  /-- HELLO_FRAME (R452): A host HELLO is verified and answered, opening a session. -/
  | helloFrame
  /-- CMD_FRAME (R453): An authenticated CMD frame's writes are performed in order by SEC. -/
  | cmdFrame
  /-- CLOSE_FRAME (R452): A CLOSE frame ends the host session. -/
  | closeFrame
  /-- RNG_READ (R454): A read of SEC_RNG returns new DRBG output. -/
  | rngRead (ini : Initiator)
  /-- RNG_FAIL (R454): An entropy health-test failure clears RNGOK and stops output. -/
  | rngFail
  /-- POWER_ON_RELEASE (R458): All supplies above threshold for 100 µs release power-on and start START. -/
  | powerOnRelease
  /-- BROWN_OUT (R458): A supply below its falling threshold for its qualification time causes a cold reset. -/
  | brownOut (supply : Supply)
  /-- NRST_IN (R460): A low level on NRST_IN asserts a warm reset. -/
  | nrstIn (low : Bool)
  /-- WARM_RESET (R465): A warm reset forces the power pins safe, drops OWN_OUT and holds outputs. -/
  | warmReset
  /-- WARM_RESET_RELEASE (R465): After at least 2 µs and when every warm source has ended, the reset is released and option load begins. -/
  | warmResetRelease
  /-- SYSTEM_WATCHDOG_EXPIRY (R468): The system watchdog expires and causes a warm reset with cause SWDOG. -/
  | systemWatchdogExpiry
  /-- SWD_WARN (R468): At half the system watchdog timeout SWD_WARN is raised. -/
  | swdWarn
  /-- SWKICK (R468): A write of 0x0_0000_3C3C to RSTC_SWKICK restarts the system watchdog. -/
  | swkick (ini : Initiator) (key : Word)
  /-- SWRST (R470): A matching RSTC_SWRST pair with WARM = 1 causes a warm reset. -/
  | swrst (ini : Initiator)
  /-- HOLDREL (R462): A write of RSTC_HOLDREL releases the pad hold of the named banks. -/
  | holdrel (ini : Initiator) (banks : BitVec 6)
  /-- MODE_CONFIG (R472): A SYS_MODE pair to CONFIG changes mode under the transition table. -/
  | modeConfig (ini : Initiator)
  /-- MODE_RUN (R472): A SYS_MODE pair to RUN is accepted when lock, calibration and pace hold. -/
  | modeRun (ini : Initiator)
  /-- MODE_STANDBY (R472): A SYS_MODE pair to STANDBY is accepted when the role is STANDBY. -/
  | modeStandby (ini : Initiator)
  /-- MODE_RECOVERY (R472): A SYS_MODE pair to RECOVERY forces engines to HOLD and applies the guard gutter. -/
  | modeRecovery (ini : Initiator)
  /-- MODE_PARK (R474): A SYS_MODE pair to PARK makes pins safe, stops Formes and cores and commands VMIN. -/
  | modePark (ini : Initiator)
  /-- PINC_WRITE (R480): A write of PINC_FUNCw or PINC_PADw changes pin functions or pads within 1 µs. -/
  | pincWrite (ini : Initiator) (pad : Bool) (w : Fin 16) (val : Word)
  /-- GPIO_SET (R481): A write of GPIO_SET sets the named OUT bits. -/
  | gpioSet (ini : Initiator) (b : Fin 4) (val : BitVec 32)
  /-- GPIO_CLR (R481): A write of GPIO_CLR clears the named OUT bits. -/
  | gpioClr (ini : Initiator) (b : Fin 4) (val : BitVec 32)
  /-- GPIO_EDGE (R481): A selected edge on a pin sets its FOLIO_EVT bit. -/
  | gpioEdge (p : Fin 128) (level : Bool)
  /-- PCIE_LINK_CHANGE (R482): The PCIe link trains up or goes down. -/
  | pcieLinkChange (up x2 : Bool) (gen : Fin 4)
  /-- BAR0_HIGH_WRITE (R484): A host write of a folio slot's high dword stages the guard nibble. -/
  | bar0HighWrite (val : BitVec 32)
  /-- BAR0_LOW_WRITE (R484): A host write of the low dword writes the whole folio word with the staged nibble. -/
  | bar0LowWrite (slot : Bar0Dword) (val : BitVec 32)
  /-- BAR0_LOW_READ (R484): A host read of the low dword returns bits [31:0] and captures bits [35:32]. -/
  | bar0LowRead (slot : Fin 1048576)
  /-- BAR2_WRITE (R485): A host BAR2 write stores a word with zero guard bits. -/
  | bar2Write (j : Nat) (val : BitVec 32)
  /-- BAR4_WRITE (R485): A host BAR4 write changes the guard nibbles of the enabled words. -/
  | bar4Write (j : Nat) (val : BitVec 32) (be : BitVec 4)
  /-- HOST_READ (R486): A host read completes after earlier host writes to the same target, or with Completer Abort. -/
  | hostRead (t : HostTarget)
  /-- CMDLEN_WRITE (R487): A non-zero CMDLEN hands a host frame to the device. -/
  | cmdlenWrite (n : BitVec 32)
  /-- RSPLEN_WRITE (R487): A host write of RSPLEN = 0 releases the response buffer. -/
  | rsplenWrite (n : BitVec 32)
  /-- MSIX_MESSAGE (R488): An event of the source named by PCIE_MSIXSRCv sends an MSI-X message. -/
  | msixMessage (v : Fin 64)
  /-- ETH_TRANSMIT (R491): A MAC takes a transmit record and sends the frame when its class gate is open. -/
  | ethTransmit (m : Fin 2) (cls : Fin 8)
  /-- ETH_RECEIVE (R491): A received frame is stored in a free buffer and its record posted, or dropped. -/
  | ethReceive (m : Fin 2) (octets : List (BitVec 8)) (fcsErr : Bool)
  /-- GCL_ENTRY (R490): A gate control list interval expires and the next entry's gate states apply. -/
  | gclEntry (m : Fin 2)
  /-- MDIO_GO (R497): ETH_MDIO.GO starts a clause 22 management frame. -/
  | mdioGo (ini : Initiator) (m : Fin 2) (val : Word)
  /-- MDIO_DONE (R497): A management frame completes and BUSY falls. -/
  | mdioDone (m : Fin 2) (data : BitVec 16)
  /-- CAN_TRANSMIT (R492): A CAN FD controller sends a frame from its transmit queue. -/
  | canTransmit (n : Fin 8) (ok : Bool)
  /-- CAN_RECEIVE (R492): A received CAN frame passing the filters is posted to the receive queue. -/
  | canReceive (n : Fin 8) (ok : Bool) (w0 w1 : Word) (data : List (BitVec 8))
  /-- CAN_RECOV (R492): A write of CANF_CTL.RECOV starts bus-off recovery. -/
  | canRecov (ini : Initiator) (n : Fin 8)
  /-- SERIAL_TRANSMIT (R493): A UART, SPI or I²C controller sends a record from its transmit queue. -/
  | serialTransmit (k : Fin 18) (err : Bool)
  /-- SERIAL_RECEIVE (R493): A UART, SPI or I²C controller posts a received record. -/
  | serialReceive (k : Fin 18) (octets : List (BitVec 8)) (flags : BitVec 5)
  /-- AVS_STAT_WRITE (R494): A write to AVS_STAT clears the failed-transaction count. -/
  | avsStatWrite (ini : Initiator) (val : Word)
  /-- BYPASS (R495): JTAG BYPASS instruction. -/
  | bypass
  /-- IDCODE (R495): JTAG IDCODE returns bits [31:0] of Colophon word 0. -/
  | idcode
  /-- SAMPLE_PRELOAD (R495): JTAG SAMPLE/PRELOAD instruction. -/
  | samplePreload (cells board : List Nat)
  /-- EXTEST (R495): JTAG EXTEST drives pins from the boundary register, power pins only while unlocked. -/
  | extest (cells board : List Nat)
  /-- CLAMP (R495): JTAG CLAMP instruction. -/
  | clamp
  /-- HIGHZ (R495): JTAG HIGHZ instruction. -/
  | highz
  /-- HALTREQ (R496): DBG_CTLc.HALTREQ halts the core or enters vector 12. -/
  | haltreq (ini : Initiator) (c : Fin 8)
  /-- STEP (R496): DBG_CTLc.STEP executes one instruction or element and halts again. -/
  | step (ini : Initiator) (c : Fin 8)
  /-- RESUME (R496): DBG_CTLc.RESUME releases a halted core at its saved IP. -/
  | resume (ini : Initiator) (c : Fin 8)
  /-- BREAKPOINT_HIT (R496): A core reaches an enabled breakpoint IP and halts or enters vector 12. -/
  | breakpointHit (c : Fin 8)
  /-- REFERENCE_RETURN (R22): Reference edges arrive again after REF_OK fell; REF_OK rises and the PLL starts the 100 µs phase-error qualification toward LOCK. -/
  | referenceReturn
  /-- SDF_CLOCK_RETURN (R97): SDCLK edges reappear on a channel with CLKLOSS set; CLKLOSS clears, the filter starts its first-use fill and the fast detector's loss forcing ends. -/
  | sdfClockReturn (n : Fin 16)
  /-- PRBS_CHECKER_SYNC (R412): A lane checker receives 32 PRBS bits without error, sets SYNC in TWIN_PRBSn and begins counting errors. -/
  | prbsCheckerSync (lane : Fin 4) (errors : Nat)
  /-- ETH_LINK_STATE (R497): A MAC's SGMII symbol lock or auto-negotiation state changes, updating ETH_STAT.SGSYNC, AN_DONE and the SPEED in force. -/
  | ethLinkState (m : Fin 2) (sync done : Bool) (speed : Fin 4)
  /-- BUS_OFF_RECOVERY_DONE (R492): After CANF_CTL.RECOV, the controller completes the ISO 11898-1 bus-off recovery sequence and returns to error active. -/
  | busOffRecoveryDone (n : Fin 8)
deriving DecidableEq, Repr

end Sys2Proof
end

