-- ==== Sys2Proof/Config.lean ====
section
/-!
DEFINITION. What the spec leaves open. Every constant here is opaque: no proof can see its value, so a claim about
the model holds for whatever the silicon does (each is named in a log entry).
-/
namespace Sys2Proof.Config

/-- Which of two NaN operands propagates (R244 names no order); log entry 11. -/
opaque nanFirst : F32 → F32 → Bool

/-- Whether a fused 0 × ∞ with a quiet NaN as addend signals NV: IEEE 754-2019 leaves it to the implementation (R244);
log entry 200. -/
opaque fmaNanInvalid : F32 → F32 → F32 → Bool

/-- A fresh value of 36 bits, the `n`-th one the machine needs; log entry 12. -/
opaque freeWord : Nat → Word

/-- A NRST_IN low pulse of 50-200 ns causes a warm reset or is ignored (R460); log entry 13. -/
opaque nrstShort : Nat → Bool

/-- SHA-384 of an octet string (R442); log entry 16. -/
opaque sha384 : List (BitVec 8) → BitVec 384

/-- The counter-mode KDF of SP 800-108 with HMAC-SHA-384 (R450): key, label and context, and the number of bits derived;
log entry 16. -/
opaque kdf : List (BitVec 8) → List (BitVec 8) → Nat → Nat

/-- Scalar multiplication on P-384 in affine coordinates; none where the operand is not a point or the result has no affine
coordinates; log entry 16. -/
opaque ecMul : Nat → BitVec 384 × BitVec 384 → Option (BitVec 384 × BitVec 384)

/-- The base point G of P-384 and its order n; log entry 16. -/
def ecBase : BitVec 384 × BitVec 384 :=
  (0xAA87CA22BE8B05378EB1C71EF320AD746E1D3B628BA79B9859F741E082542A385502F25DBF55296C3A545E3872760AB7#384,
   0x3617DE4A96262C6F5D9E98BF9292DC29F8F41DBD289A147CE9DA3113B5F0B8C00A60B1CE1D7E819D7A431D7C90EA0E5F#384)
def ecOrder : Nat := 0xFFFFFFFFFFFFFFFFFFFFFFFFFFFFFFFFFFFFFFFFFFFFFFFFC7634D81F4372DDF581A0DB248B0A77AECEC196ACCC52973

/-- ECDSA P-384 verification (R442, R444, R451, R452): key, digest, signature R and S; log entry 16. -/
opaque ecdsaVerify : BitVec 384 × BitVec 384 → BitVec 384 → BitVec 384 × BitVec 384 → Bool

/-- ECDSA P-384 signature (R452): private key, digest, and the random value it draws; log entry 16. -/
opaque ecdsaSign : Nat → BitVec 384 → BitVec 384 → BitVec 384 × BitVec 384

/-- AES-256-GCM (R450, R453): key, IV, associated octets, and the octets it decrypts with their tag (none where it does not
match), or encrypts and then follows with their tag of 16 octets; log entry 16. -/
opaque gcmOpen : BitVec 256 → BitVec 96 → List (BitVec 8) → BitVec 128 → List (BitVec 8) → Option (List (BitVec 8))
opaque gcmSeal : BitVec 256 → BitVec 96 → List (BitVec 8) → List (BitVec 8) → List (BitVec 8)

/-- Output of the DRBG (R454): of its `s`-th seeding the `n`-th request; log entry 112. -/
opaque drbg : Nat → Nat → BitVec 384

/-- The start-up test of the entropy source passes at the `s`-th seeding (R454); log entry 112. -/
opaque rngStart : Nat → Bool

/-- Charge-per-event factor of an island, scaled by PACE_VCMD in mV, as mA over one window per event (chapter 02, trim
values of the device); log entry 14. -/
opaque chargeFactor : Nat → Nat → Nat

/-- Worst-case current of an enabled RESERVED island at a command voltage in mV (R40), mA; log entry 14. -/
opaque reservedCurrent : Nat → Nat → Nat

/-- Whether the software trip source acts in PARK (R127 says both); log entry 21. -/
opaque parkSoftware : Bool

/-- Ticks by which OWN_OUT falls later than 8 tk after a release in RUN (R403 gives the least alone); log entry 77. -/
opaque ownRelease : Nat → Nat

/-- MEMP_LOGB.WIDX of a UE_GROUP entry, by the word accessed (R354 names no row); log entry 81. -/
opaque groupRow : Nat → Fin 9

/-- The level of a peripheral's output at rest where neither the spec nor its standard fixes it (a running clock, the last data
bit), by pin; log entry 194. -/
opaque restLevel : Nat → Bool

/-- The boot ROM as manufactured, by word address: its contents are not in the spec; log entry 15. -/
opaque romWord : Nat → Word

/-- How many words of instruction TCM a core's port holds ahead of the instruction in execution, modulo 3, by the core and the
instructions it has retired (R280 says at most two); log entry 179. -/
opaque aheadWords : Nat → Nat → Nat

end Sys2Proof.Config
end

