-- ==== Sys2Proof/Machine/Fp32.lean ====
section
/-!
DEFINITION. binary32 arithmetic (R244 for the cores, R176 for the Traverse engines and the scaling of results):
every operation forms the exact value and rounds once; tininess is judged after rounding (R176).
-/
namespace Sys2Proof.Machine

/-- A result with the IEEE flags that it sets: NV, DZ, OF, UF, NX (FPSR.FLG, R243). -/
structure FRes where
  val : F32
  nv : Bool := false
  dz : Bool := false
  of : Bool := false
  uf : Bool := false
  nx : Bool := false
deriving DecidableEq, Repr

/-- Rounding direction RM (FPSR.RM) and flush-to-zero FTZ. -/
structure FMode where
  rm : Nat
  ftz : Bool
deriving DecidableEq, Repr

/-- Nearest-even with flushing: the Traverse engines and every scaling of R85, R101 and R229 (R176). -/
def fmTrav : FMode := ⟨0, true⟩

def f32Sign (x : F32) : Bool := x.getLsbD 31
def f32Exp (x : F32) : Nat := (x.toNat >>> 23) % 256
def f32Man (x : F32) : Nat := x.toNat % 2 ^ 23
def f32Nan (x : F32) : Bool := f32Exp x == 255 && f32Man x != 0
def f32Snan (x : F32) : Bool := f32Nan x && !x.getLsbD 22
def f32Inf (x : F32) : Bool := f32Exp x == 255 && f32Man x == 0
def f32Finite (x : F32) : Bool := f32Exp x != 255
def f32Zero (x : F32) : Bool := f32Exp x == 0 && f32Man x == 0
def f32Subnormal (x : F32) : Bool := f32Exp x == 0 && f32Man x != 0
/-- Finite and not subnormal: what a binary32 register of a folio accepts (R176). -/
def f32Ok (x : F32) : Bool := f32Finite x && !f32Subnormal x

def f32Quiet (x : F32) : F32 := x ||| 0x400000#32
/-- The NaN that an operation generates (R244). -/
def f32DefaultNan : F32 := 0x7FC00000#32
def f32Infinity (s : Bool) : F32 := if s then 0xFF800000#32 else 0x7F800000#32
def f32Max (s : Bool) : F32 := if s then 0xFF7FFFFF#32 else 0x7F7FFFFF#32
def f32ZeroOf (s : Bool) : F32 := if s then 0x80000000#32 else 0#32

/-- A subnormal operand is flushed to zero with its sign under FTZ. -/
def f32In (m : FMode) (x : F32) : F32 := if m.ftz && f32Subnormal x then f32ZeroOf (f32Sign x) else x

/-- Magnitude of a finite value as `mant * 2 ^ exp`. -/
def f32Mag (x : F32) : Nat × Int :=
  if f32Exp x = 0 then (f32Man x, -149) else (f32Man x + 2 ^ 23, (f32Exp x : Int) - 150)

/-- Bit length. -/
def bitLen (n : Nat) : Nat := if n = 0 then 0 else n.log2 + 1

/-- Round `m / 2^s` (with a sticky part below) to an integer, and whether it was inexact. -/
def roundShift (rm : Nat) (sign : Bool) (m s : Nat) (sticky : Bool) : Nat × Bool :=
  let q := m >>> s
  let r := m % 2 ^ s
  let inexact := r != 0 || sticky
  let up :=
    if rm = 0 then
      if s = 0 then false
      else decide (2 * r > 2 ^ s) || (decide (2 * r = 2 ^ s) && (sticky || q % 2 == 1))
    else if rm = 1 then false
    else if rm = 2 then inexact && !sign
    else inexact && sign
  (if up then q + 1 else q, inexact)

/-- Sign, magnitude `m * 2 ^ e` (plus a non-zero part below one unit of `m` when `sticky`) rounded to binary32. -/
def f32Round (fm : FMode) (sign : Bool) (m : Nat) (e : Int) (sticky : Bool) : FRes :=
  if m = 0 then ⟨f32ZeroOf sign, false, false, false, false, false⟩
  else
    -- 24 significant bits, exponent unbounded
    let pad := 24 - bitLen m
    let m1 := m <<< pad
    let s := bitLen m1 - 24
    let (q0, ix) := roundShift fm.rm sign m1 s sticky
    let e1 : Int := e - pad + s
    let (q, eq) := if q0 = 2 ^ 24 then (2 ^ 23, e1 + 1) else (q0, e1)
    let top : Int := eq + 23
    -- tininess after rounding: to nearest, ties to even, where results are flushed (R176), else under RM (R244)
    let qn := if fm.ftz then (roundShift 0 sign m1 s sticky).1 else q0
    let tiny := decide ((if qn = 2 ^ 24 then e1 + 24 else e1 + 23) < -126)
    if fm.ftz && !tiny && decide (top < -126) then
      -- nearest keeps it as the smallest normal value (R176), whatever RM says (log entry 80)
      ⟨BitVec.ofNat 32 (sign.toNat * 2 ^ 31 + 2 ^ 23), false, false, false, false, true⟩
    else if tiny then
      if fm.ftz then ⟨f32ZeroOf sign, false, false, false, true, true⟩
      else
        let k : Int := -149 - e
        let (d, dx) := if 0 < k then roundShift fm.rm sign m k.toNat sticky else (m <<< (-k).toNat, sticky)
        ⟨BitVec.ofNat 32 (sign.toNat * 2 ^ 31 + d), false, false, false, dx, dx⟩
    else if top > 127 then
      let toInf := fm.rm = 0 || (fm.rm = 2 && !sign) || (fm.rm = 3 && sign)
      ⟨if toInf then f32Infinity sign else f32Max sign, false, false, true, false, true⟩
    else ⟨BitVec.ofNat 32 (sign.toNat * 2 ^ 31 + (top + 127).toNat * 2 ^ 23 + (q - 2 ^ 23)), false, false, false, false, ix⟩

/-- NaN result of operands of which at least one is a NaN (R244). -/
def f32NanOf2 (a b : F32) : FRes :=
  let v := if f32Nan a && f32Nan b then (if Config.nanFirst a b then a else b) else if f32Nan a then a else b
  ⟨f32Quiet v, f32Snan a || f32Snan b, false, false, false, false⟩

/-- A generated NaN with the invalid flag. -/
def f32Invalid : FRes := ⟨f32DefaultNan, true, false, false, false, false⟩

/-- An exact result. -/
def f32Exact (v : F32) : FRes := ⟨v, false, false, false, false, false⟩

/-- Exact signed sum of two magnitudes, rounded; the sign of an exact zero follows IEEE 754. -/
def f32SumMag (fm : FMode) (sa : Bool) (ma : Nat) (ea : Int) (sb : Bool) (mb : Nat) (eb : Int) : FRes :=
  let e := min ea eb
  let xa : Int := (if sa then -1 else 1) * ((ma <<< (ea - e).toNat : Nat) : Int)
  let xb : Int := (if sb then -1 else 1) * ((mb <<< (eb - e).toNat : Nat) : Int)
  let x := xa + xb
  if x = 0 then
    f32Exact (f32ZeroOf (if sa = sb then sa else fm.rm = 3))
  else f32Round fm (decide (x < 0)) x.natAbs e false

def fAdd (fm : FMode) (a0 b0 : F32) : FRes :=
  let a := f32In fm a0
  let b := f32In fm b0
  if f32Nan a || f32Nan b then f32NanOf2 a b
  else if f32Inf a then (if f32Inf b && f32Sign a != f32Sign b then f32Invalid else f32Exact a)
  else if f32Inf b then f32Exact b
  else f32SumMag fm (f32Sign a) (f32Mag a).1 (f32Mag a).2 (f32Sign b) (f32Mag b).1 (f32Mag b).2

/-- Sign inverted. -/
def fNegBits (a : F32) : F32 := a ^^^ 0x80000000#32
def fAbsBits (a : F32) : F32 := a &&& 0x7FFFFFFF#32

def fSub (fm : FMode) (a b : F32) : FRes := if f32Nan b then fAdd fm a b else fAdd fm a (fNegBits b)

def fMul (fm : FMode) (a0 b0 : F32) : FRes :=
  let a := f32In fm a0
  let b := f32In fm b0
  let s := f32Sign a != f32Sign b
  if f32Nan a || f32Nan b then f32NanOf2 a b
  else if (f32Inf a && f32Zero b) || (f32Zero a && f32Inf b) then f32Invalid
  else if f32Inf a || f32Inf b then f32Exact (f32Infinity s)
  else f32Round fm s ((f32Mag a).1 * (f32Mag b).1) ((f32Mag a).2 + (f32Mag b).2) false

/-- Fused `c + a × b` with one rounding (R265; 0 × ∞ beside a NaN: log entry 200). -/
def fFma (fm : FMode) (c0 a0 b0 : F32) : FRes :=
  let a := f32In fm a0
  let b := f32In fm b0
  let c := f32In fm c0
  let s := f32Sign a != f32Sign b
  if f32Nan a || f32Nan b then
    let p := f32NanOf2 a b
    if f32Nan c then { f32NanOf2 p.val c with nv := p.nv || f32Snan c } else p
  else if (f32Inf a && f32Zero b) || (f32Zero a && f32Inf b) then
    if f32Nan c then { f32NanOf2 c c with nv := f32Snan c || Config.fmaNanInvalid c a b } else f32Invalid
  else if f32Nan c then f32NanOf2 c c
  else if f32Inf a || f32Inf b then
    (if f32Inf c && f32Sign c != s then f32Invalid else f32Exact (f32Infinity s))
  else if f32Inf c then f32Exact c
  else f32SumMag fm s ((f32Mag a).1 * (f32Mag b).1) ((f32Mag a).2 + (f32Mag b).2) (f32Sign c) (f32Mag c).1 (f32Mag c).2

def fDiv (fm : FMode) (a0 b0 : F32) : FRes :=
  let a := f32In fm a0
  let b := f32In fm b0
  let s := f32Sign a != f32Sign b
  if f32Nan a || f32Nan b then f32NanOf2 a b
  else if (f32Inf a && f32Inf b) || (f32Zero a && f32Zero b) then f32Invalid
  else if f32Inf a then f32Exact (f32Infinity s)
  else if f32Inf b then f32Exact (f32ZeroOf s)
  else if f32Zero b then { val := f32Infinity s, dz := true }
  else if f32Zero a then f32Exact (f32ZeroOf s)
  else
    let n := (f32Mag a).1 <<< 64
    let d := (f32Mag b).1
    f32Round fm s (n / d) ((f32Mag a).2 - (f32Mag b).2 - 64) (n % d != 0)

/-- Integer square root by bits: the largest r with r² ≤ n among numbers of `k` bits above `r`. -/
def isqrt (n : Nat) : Nat → Nat → Nat
  | 0, r => r
  | k + 1, r => if (r + 2 ^ k) * (r + 2 ^ k) ≤ n then isqrt n k (r + 2 ^ k) else isqrt n k r

def fSqrt (fm : FMode) (a0 : F32) : FRes :=
  let a := f32In fm a0
  if f32Nan a then f32NanOf2 a a
  else if f32Zero a then f32Exact a
  else if f32Sign a then f32Invalid
  else if f32Inf a then f32Exact a
  else
    let (m, e) := f32Mag a
    let (m2, e2) := if e % 2 = 0 then (m <<< 80, e - 80) else (m <<< 81, e - 81)
    let r := isqrt m2 54 0
    f32Round fm false r (e2 / 2) (r * r != m2)

/-- Order of two finite or infinite values by magnitude and sign: a < b. -/
def f32Lt (a b : F32) : Bool :=
  let ka : Int := if f32Sign a then -((a.toNat % 2 ^ 31 : Nat) : Int) else (a.toNat % 2 ^ 31 : Nat)
  let kb : Int := if f32Sign b then -((b.toNat % 2 ^ 31 : Nat) : Int) else (b.toNat % 2 ^ 31 : Nat)
  decide (ka < kb)

def f32Eq (a b : F32) : Bool := a == b || (f32Zero a && f32Zero b)

def fMin (fm : FMode) (a0 b0 : F32) : FRes :=
  let a := f32In fm a0
  let b := f32In fm b0
  if f32Nan a || f32Nan b then f32NanOf2 a b
  else if f32Zero a && f32Zero b then f32Exact (if f32Sign a then a else b)
  else f32Exact (if f32Lt b a then b else a)

def fMax (fm : FMode) (a0 b0 : F32) : FRes :=
  let a := f32In fm a0
  let b := f32In fm b0
  if f32Nan a || f32Nan b then f32NanOf2 a b
  else if f32Zero a && f32Zero b then f32Exact (if f32Sign a then b else a)
  else f32Exact (if f32Lt a b then b else a)

/-- An integer times 2^e converted to binary32. -/
def fOfInt (fm : FMode) (x : Int) (e : Int) : FRes := f32Round fm (decide (x < 0)) x.natAbs e false

/-- A fraction num/den converted to binary32 (used where the spec forms a quotient exactly and rounds it). -/
def fOfRat (fm : FMode) (num : Int) (den : Nat) : FRes :=
  if den = 0 then f32Exact 0#32
  else
    let sh := 64 + Nat.log2 den
    f32Round fm (decide (num < 0)) ((num.natAbs <<< sh) / den) (-(sh : Int)) ((num.natAbs <<< sh) % den != 0)

/-- A finite value times 2^k rounded to an integer under RM, with whether it was inexact. -/
def f32ToInt (rm : Nat) (a : F32) (k : Int) : Int × Bool :=
  let (m, e0) := f32Mag a
  let e := e0 + k
  let (q, ix) := if 0 ≤ e then (m <<< e.toNat, false)
    else if (-e).toNat > 64 + 24 then roundShift rm (f32Sign a) (if m = 0 then 0 else 1) 3 false
    else roundShift rm (f32Sign a) m (-e).toNat false
  (if f32Sign a then -(q : Int) else (q : Int), ix)

/-- FFTOI (k = 0) and FFTOR (k = 31): nearer bound and NV outside the 36-bit range, 0 and NV for a NaN (R268). -/
def fToWord (fm : FMode) (a0 : F32) (k : Int) : Word × Bool :=
  let a := f32In fm a0
  if f32Nan a then (0, true)
  else
    let hi : Int := 2 ^ 35 - 1
    let lo : Int := -(2 ^ 35)
    if f32Inf a then (BitVec.ofInt 36 (if f32Sign a then lo else hi), true)
    else
      let x := (f32ToInt fm.rm a k).1
      if x > hi then (BitVec.ofInt 36 hi, true)
      else if x < lo then (BitVec.ofInt 36 lo, true)
      else (BitVec.ofInt 36 x, false)

end Sys2Proof.Machine
end

