-- ==== Sys2Proof/Machine/Tab.lean ====
section
/-!
DEFINITION. Sparse tables by key in one canonical form (keys strictly rising, no entry equal to what an unlisted
key reads as), and the bit-field helpers of register words. Registers, memory words and per-instance records are
all held in such tables, so that equal contents are equal data.
-/
namespace Sys2Proof.Machine

/-- A sparse table: pairs of a key and a value, keys strictly rising. -/
abbrev Tab (α : Type) := List (Nat × α)

/-- The value at key `k`; an unlisted key reads as `d`. -/
def tabGet {α : Type} (d : α) : Tab α → Nat → α
  | [], _ => d
  | (k', v) :: t, k => if k' = k then v else tabGet d t k

/-- Every entry of key `k` removed. -/
def tabErase {α : Type} : Tab α → Nat → Tab α
  | [], _ => []
  | (k', v) :: t, k => if k' = k then tabErase t k else (k', v) :: tabErase t k

/-- An entry put at its place by rising key. -/
def tabInsert {α : Type} : Tab α → Nat → α → Tab α
  | [], k, v => [(k, v)]
  | (k', v') :: t, k, v => if k < k' then (k, v) :: (k', v') :: t else (k', v') :: tabInsert t k v

/-- Key `k` set to `v`; writing the value an unlisted key reads as removes the entry. -/
def tabSet {α : Type} [DecidableEq α] (d : α) (t : Tab α) (k : Nat) (v : α) : Tab α :=
  if v = d then tabErase t k else tabInsert (tabErase t k) k v

/-- Keys strictly rise from above `lo`. -/
def tabSorted {α : Type} : Nat → Tab α → Bool
  | _, [] => true
  | lo, (k, _) :: t => decide (lo ≤ k) && tabSorted (k + 1) t

/-- The canonical form of a table whose unlisted keys read as `d k`. -/
def tabWf {α : Type} [DecidableEq α] (d : Nat → α) (t : Tab α) : Bool :=
  tabSorted 0 t && t.all fun e => decide (e.2 ≠ d e.1)

/-- The entry at key `k` of a table that lists what is present. -/
def tabFind {α : Type} : Tab α → Nat → Option α
  | [], _ => none
  | (k', v) :: t, k => if k' = k then some v else tabFind t k

/-- Key `k` present with `v`. -/
def tabPut {α : Type} (t : Tab α) (k : Nat) (v : α) : Tab α := tabInsert (tabErase t k) k v

/-- Bits [hi:lo] of a word as a number (R4). -/
def fld (w : Word) (hi lo : Nat) : Nat := (w.toNat >>> lo) % 2 ^ (hi + 1 - lo)

/-- Bit `i` of a word. -/
def bit (w : Word) (i : Nat) : Bool := w.getLsbD i

/-- The mask of bits [hi:lo]. -/
def maskOf (hi lo : Nat) : Word := BitVec.ofNat 36 ((2 ^ (hi + 1 - lo) - 1) <<< lo)

/-- Bits [hi:lo] of a word replaced by `v`, cut to the field's width. -/
def setFld (w : Word) (hi lo v : Nat) : Word :=
  (w &&& ~~~(maskOf hi lo)) ||| BitVec.ofNat 36 ((v % 2 ^ (hi + 1 - lo)) <<< lo)

/-- Bit `i` of a word replaced. -/
def setBitW (w : Word) (i : Nat) (b : Bool) : Word := setFld w i i b.toNat

/-- A number of `n` bits read as two's complement. -/
def signed (n v : Nat) : Int := if v % 2 ^ n < 2 ^ (n - 1) then (v % 2 ^ n : Nat) else ((v % 2 ^ n : Nat) : Int) - 2 ^ n

/-- An integer wrapped to `n` bits. -/
def wrapN (n : Nat) (x : Int) : Nat := (x % (2 ^ n : Int)).toNat

/-- A word from an integer, modulo 2^36. -/
def wordOfInt (x : Int) : Word := BitVec.ofNat 36 (wrapN 36 x)

/-- A counter of `n` bits that saturates. -/
def satAdd (n v k : Nat) : Nat := min (2 ^ n - 1) (v + k)

/-- The numbers below `n`, rising. -/
def upTo (n : Nat) : List Nat := List.range n

/-- `f` applied for each index below `n`, rising. -/
def forUpTo {α : Type} (n : Nat) (f : Nat → α → α) (a : α) : α := (upTo n).foldl (fun x i => f i x) a

end Sys2Proof.Machine
end

