-- ==== Sys2Proof/Machine/Flags.lean ====
section
/-!
DEFINITION. The flag computations and results of the Kamul instructions: ALU (R266), multiply and divide (R266),
fraction arithmetic (R246, R247, R267), accumulators (R248, R269), conditions (R270) and FPSR (R243, R244).
-/
namespace Sys2Proof.Machine

/-- Flags an operation writes; `none` leaves a flag as it was (R266). -/
structure FlagW where
  n : Option Bool := none
  z : Option Bool := none
  c : Option Bool := none
  v : Option Bool := none
  /-- SS := 1 (R247); never cleared by an operation -/
  ss : Bool := false
deriving DecidableEq, Repr

/-- PSW bit places (R241). -/
def pswMode : Nat := 35
def pswPrecise : Nat := 34
def pswCompat : Nat := 33
def pswFpa : Nat := 32
def pswResume : Nat := 31
def pswSS : Nat := 4
def pswN : Nat := 3
def pswZ : Nat := 2
def pswC : Nat := 1
def pswV : Nat := 0

/-- A flag bit written when the operation names it. -/
def putFlag (p : Word) (i : Nat) : Option Bool → Word
  | none => p
  | some b => setBitW p i b

/-- The flags of an operation written into PSW. -/
def FlagW.apply (f : FlagW) (p : Word) : Word :=
  let p := putFlag (putFlag (putFlag (putFlag p pswN f.n) pswZ f.z) pswC f.c) pswV f.v
  if f.ss then setBitW p pswSS true else p

/-- N and Z of a word. -/
def flagsNZ (r : Word) : FlagW := { n := some (bit r 35), z := some (r == 0) }

/-- A result and the flags it writes. -/
structure AluRes where
  val : Word
  fl : FlagW
deriving DecidableEq, Repr

/-- a + b + carry with NZCV (R266). -/
def aluAdd (a b : Word) (ci : Bool) : AluRes :=
  let r := a + b + (if ci then 1 else 0)
  let s := a.toInt + b.toInt + ci.toNat
  { val := r
    fl := { flagsNZ r with c := some (decide (a.toNat + b.toNat + ci.toNat ≥ 2 ^ 36)), v := some (decide (r.toInt ≠ s)) } }

/-- a − b − (1 − carry); C is no-borrow (R241, R266). -/
def aluSub (a b : Word) (ci : Bool) : AluRes := aluAdd a (~~~b) ci

/-- Logical results: N and Z only. -/
def aluLogic (r : Word) : AluRes := ⟨r, flagsNZ r⟩

/-- SHL by count 0-63; C takes the last bit shifted out, and stays at count 0 (R266). -/
def aluShl (a : Word) (n : Nat) : AluRes :=
  let r := if n < 36 then a <<< n else 0
  ⟨r, { flagsNZ r with c := if n = 0 then none else some (if n ≤ 36 then bit a (36 - n) else false) }⟩

def aluShr (a : Word) (n : Nat) : AluRes :=
  let r := if n < 36 then a >>> n else 0
  ⟨r, { flagsNZ r with c := if n = 0 then none else some (if n ≤ 36 then bit a (n - 1) else false) }⟩

def aluSar (a : Word) (n : Nat) : AluRes :=
  let r := BitVec.sshiftRight a (min n 36)
  ⟨r, { flagsNZ r with c := if n = 0 then none else some (if n ≤ 36 then bit a (n - 1) else bit a 35) }⟩

/-- ROR by 0-35; C takes the last bit rotated out (R264, log entry 20). -/
def aluRor (a : Word) (n : Nat) : AluRes :=
  let r := BitVec.rotateRight a n
  ⟨r, { flagsNZ r with c := if n = 0 then none else some (bit a (n - 1)) }⟩

/-- Leading zeros from bit 35: 36 for zero. -/
def clzFrom (a : Word) : Nat → Nat
  | 0 => 0
  | n + 1 => if bit a n then 0 else clzFrom a n + 1

def popFrom (a : Word) : Nat → Nat
  | 0 => 0
  | n + 1 => (bit a n).toNat + popFrom a n

def aluClz (a : Word) : AluRes := let r := BitVec.ofNat 36 (clzFrom a 36); ⟨r, { z := some (r == 0) }⟩
def aluPopc (a : Word) : AluRes := let r := BitVec.ofNat 36 (popFrom a 36); ⟨r, { z := some (r == 0) }⟩

/-- MUL: low 36 bits of the signed product; V when it does not fit (R266). -/
def aluMul (a b : Word) : AluRes :=
  let p := a.toInt * b.toInt
  let r := BitVec.ofInt 36 p
  ⟨r, { flagsNZ r with v := some (decide (r.toInt ≠ p)) }⟩

def aluMulu (a b : Word) : AluRes :=
  let p := a.toNat * b.toNat
  let r := BitVec.ofNat 36 p
  ⟨r, { flagsNZ r with v := some (decide (p ≥ 2 ^ 36)) }⟩

/-- MULH, MULHU: bits [71:36]; R266 names no flags for them, so none is written. -/
def aluMulh (a b : Word) : AluRes := ⟨BitVec.ofInt 36 ((a.toInt * b.toInt) >>> 36), {}⟩
def aluMulhu (a b : Word) : AluRes := ⟨BitVec.ofNat 36 ((a.toNat * b.toNat) >>> 36), {}⟩

/-- A division or its vector 3 sub-cause: 0x01 divisor zero, 0x02 signed overflow (R266, R310). -/
def aluDiv (a b : Word) : AluRes ⊕ Nat :=
  if b = 0 then .inr 1
  else if a.toInt = -(2 ^ 35) ∧ b.toInt = -1 then .inr 2
  else let r := BitVec.ofInt 36 (Int.tdiv a.toInt b.toInt); .inl ⟨r, flagsNZ r⟩

def aluRem (a b : Word) : AluRes ⊕ Nat :=
  if b = 0 then .inr 1
  else if a.toInt = -(2 ^ 35) ∧ b.toInt = -1 then .inr 2
  else let r := BitVec.ofInt 36 (Int.tmod a.toInt b.toInt); .inl ⟨r, flagsNZ r⟩

/-- DIVU, REMU: R266 states flags for DIV and REM only, so none is written; a zero divisor raises vector 3. -/
def aluDivu (a b : Word) : AluRes ⊕ Nat := if b = 0 then .inr 1 else .inl ⟨BitVec.ofNat 36 (a.toNat / b.toNat), {}⟩
def aluRemu (a b : Word) : AluRes ⊕ Nat := if b = 0 then .inr 1 else .inl ⟨BitVec.ofNat 36 (a.toNat % b.toNat), {}⟩

/-- x / 2^s rounded to an integer under PSW.RND (R246). -/
def rndShift (rnd : Nat) (x : Int) (s : Nat) : Int :=
  let q := x / (2 ^ s : Int)
  let r := x % (2 ^ s : Int)
  if rnd = 0 then q
  else if rnd = 1 then (2 * x + 2 ^ s) / (2 ^ (s + 1) : Int)
  else if rnd = 2 then
    (if 2 * r > 2 ^ s then q + 1 else if 2 * r = 2 ^ s ∧ s ≠ 0 then (if q % 2 = 0 then q else q + 1) else q)
  else if x < 0 ∧ r ≠ 0 then q + 1 else q

/-- A fraction result, in units of u, brought into range under PSW.SAT (R247); 0b11 acts as GUARD. -/
def satFrac (sat : Nat) (r : Int) : Word × FlagW :=
  if sat = 0 then (BitVec.ofInt 36 r, { v := some (decide (r < -(2 ^ 35) ∨ r ≥ 2 ^ 35)) })
  else if sat = 1 then
    if r > 2 ^ 31 - 1 then (0x07FFFFFFF#36, { v := some true, ss := true })
    else if r < -(2 ^ 31) then (0xF80000000#36, { v := some true, ss := true })
    else (BitVec.ofInt 36 r, { v := some false })
  else
    if r > 2 ^ 35 - 1 then (0x7FFFFFFFF#36, { v := some true, ss := true })
    else if r < -(2 ^ 35) then (0x800000000#36, { v := some true, ss := true })
    else (BitVec.ofInt 36 r, { v := some false })

/-- Fraction functions: N and Z from the result, V and SS under R247, C unchanged (R267). -/
def fracRes (sat : Nat) (r : Int) : AluRes :=
  let (w, f) := satFrac sat r
  ⟨w, { f with n := some (bit w 35), z := some (w == 0) }⟩

def frMul (rnd sat : Nat) (a b : Word) : AluRes := fracRes sat (rndShift rnd (a.toInt * b.toInt) 31)
def frAdd (sat : Nat) (a b : Word) : AluRes := fracRes sat (a.toInt + b.toInt)
def frSub (sat : Nat) (a b : Word) : AluRes := fracRes sat (a.toInt - b.toInt)
def frNeg (sat : Nat) (b : Word) : AluRes := fracRes sat (-b.toInt)
def frAbs (sat : Nat) (b : Word) : AluRes := fracRes sat (if b.toInt < 0 then -b.toInt else b.toInt)
def frShr (rnd sat : Nat) (a b : Word) : AluRes := fracRes sat (rndShift rnd a.toInt (fld b 5 0))
def frSat (sat : Nat) (b : Word) : AluRes := fracRes sat b.toInt

/-- Accumulation: exact sum wrapped to 80 bits; leaving the range sets V and SS (R248). -/
def accSum (acc : Acc) (p : Int) : Acc × FlagW :=
  let x := acc.toInt + p
  let r := BitVec.ofInt 80 x
  (r, if r.toInt = x then {} else { v := some true, ss := true })

/-- The same for the unsigned forms, whose products are unsigned. -/
def accSet (p : Int) : Acc × FlagW := (BitVec.ofInt 80 p, {})

/-- An extraction brought into range: V and SS under R247; N and Z are not named for it (R248, log entry 25). -/
def accRange (sat : Nat) (r : Int) : AluRes :=
  let (w, f) := satFrac sat r
  ⟨w, f⟩

/-- EXTF: the low 31 bits discarded under RND, then range under SAT (R248). -/
def accExtF (rnd sat : Nat) (acc : Acc) : AluRes := accRange sat (rndShift rnd acc.toInt 31)

/-- EXTI: the accumulator as an integer, brought into the 36-bit integer range under SAT (R248): OFF keeps bits [35:0];
UNIT and GUARD take the nearer bound of the integer range. -/
def accExtI (sat : Nat) (acc : Acc) : AluRes := accRange (if sat = 0 then 0 else 2) acc.toInt

/-- A condition code of R270 on a PSW. -/
def condHolds (p : Word) (cc : Nat) : Bool :=
  let n := bit p pswN
  let z := bit p pswZ
  let c := bit p pswC
  let v := bit p pswV
  match cc with
  | 0 => z
  | 1 => !z
  | 2 => c
  | 3 => !c
  | 4 => n
  | 5 => !n
  | 6 => v
  | 7 => !v
  | 8 => c && !z
  | 9 => !c || z
  | 10 => n == v
  | 11 => n != v
  | 12 => !z && n == v
  | 13 => z || n != v
  | 14 => true
  | _ => bit p pswSS

/-- FPSR.RM and FTZ (R243). -/
def fpMode (fpsr : Word) : FMode := ⟨fld fpsr 1 0, bit fpsr 2⟩

/-- The flags of a result in FPSR.FLG order: NV 4, DZ 3, OF 2, UF 1, NX 0. -/
def FRes.flg (r : FRes) : Nat := r.nv.toNat * 16 + r.dz.toNat * 8 + r.of.toNat * 4 + r.uf.toNat * 2 + r.nx.toNat

/-- FPSR with flags added (R243), and the enabled flags that newly set or set again: those that raise vector 4. -/
def fpsrAdd (fpsr : Word) (flg : Nat) : Word × Nat :=
  (setFld fpsr 8 4 (fld fpsr 8 4 ||| flg), flg &&& fld fpsr 16 12)

end Sys2Proof.Machine
end

