-- ==== Sys2Proof/Machine/RegMap.lean ====
section
/-!
DEFINITION. The folio registers of the K9600, chapter by chapter as the spec tables them: for every register its
address (page × 256 + offset) and fields by name, and for the generic write (R8, R53, R60) one record per register
with the access code, staging, guard, triplication and reset value of each field. Reset values that come from the
Colophon row stand here as 0 and are loaded by option load (Machine/Reset.lean); log entry 3.
-/
namespace Sys2Proof.Machine

/-- A field of a folio register: the register's address (page × 256 + offset) and bits [hi:lo] (R8, R48). -/
structure Fd where
  reg : Nat
  hi : Nat
  lo : Nat
deriving DecidableEq, Repr

/-- Access code of a field (R8). -/
inductive Access where
  | rw
  | ro
  | wo
  | w1c
deriving DecidableEq, Repr

/-- A field as its table gives it. -/
structure FieldDef where
  hi : Nat
  lo : Nat
  acc : Access
  reset : Nat
deriving DecidableEq, Repr

/-- A register, or an array of `n` registers `stride` offsets apart, as its table gives it. -/
structure RegDef where
  name : String
  off : Nat
  n : Nat
  stride : Nat
  /-- RWS: staged (R53) -/
  staged : Bool
  /-- "critical": applies at CGRP (R54) -/
  critical : Bool
  /-- RWQ: quoin-guarded (R60) -/
  guarded : Bool
  /-- RWT: triplicated (R66) -/
  trip : Bool
  fields : List FieldDef
deriving DecidableEq, Repr

/-- The blocks of the folio page index (R74). -/
inductive Blk where
  | sys | rstc | pinc | merid | pace | cba | evc | fab | memp | galley | sec | flashc | twin | core | tsc | forme | tripnet | surv | sdf | cont | trav | brng | press | pcie | eth | canf | uart | spi | i2c | avs | gpio | dbg
deriving DecidableEq, Repr

/-- Page index (R74): base page, number of instances and TYPE code of a block. -/
def Blk.pages : Blk → Nat × Nat × Nat
  | .sys => (0x000, 1, 0x001)
  | .rstc => (0x001, 1, 0x002)
  | .pinc => (0x002, 1, 0x003)
  | .merid => (0x003, 1, 0x004)
  | .pace => (0x004, 1, 0x005)
  | .cba => (0x005, 1, 0x006)
  | .evc => (0x006, 8, 0x007)
  | .fab => (0x00E, 1, 0x008)
  | .memp => (0x00F, 1, 0x009)
  | .galley => (0x010, 1, 0x00A)
  | .sec => (0x011, 1, 0x00B)
  | .flashc => (0x012, 1, 0x00C)
  | .twin => (0x013, 1, 0x00D)
  | .core => (0x020, 8, 0x010)
  | .tsc => (0x028, 8, 0x011)
  | .forme => (0x040, 16, 0x020)
  | .tripnet => (0x050, 2, 0x021)
  | .surv => (0x060, 24, 0x030)
  | .sdf => (0x078, 4, 0x031)
  | .cont => (0x07C, 4, 0x032)
  | .trav => (0x080, 64, 0x040)
  | .brng => (0x0C0, 16, 0x050)
  | .press => (0x0D0, 8, 0x060)
  | .pcie => (0x100, 1, 0x100)
  | .eth => (0x101, 2, 0x101)
  | .canf => (0x108, 8, 0x102)
  | .uart => (0x110, 8, 0x103)
  | .spi => (0x118, 8, 0x104)
  | .i2c => (0x120, 2, 0x105)
  | .avs => (0x122, 1, 0x106)
  | .gpio => (0x130, 4, 0x107)
  | .dbg => (0x140, 1, 0x140)

/-- Every block of the page index. -/
def Blk.all : List Blk := [.sys, .rstc, .pinc, .merid, .pace, .cba, .evc, .fab, .memp, .galley, .sec, .flashc, .twin, .core, .tsc, .forme, .tripnet, .surv, .sdf, .cont, .trav, .brng, .press, .pcie, .eth, .canf, .uart, .spi, .i2c, .avs, .gpio, .dbg]

/-- The block and instance of a page, by the page index (R74). -/
def blockOf (page : Nat) : Option (Blk × Nat) :=
  (Blk.all.find? fun b => decide (b.pages.1 ≤ page ∧ page < b.pages.1 + b.pages.2.1)).map fun b => (b, page - b.pages.1)

/-- The page of instance `i` of a block. -/
def pageOf (b : Blk) (i : Nat) : Nat := b.pages.1 + i

/-! ### Header words (R50): field constants by page -/
def FOLIO_ID.at (page : Nat) : Nat := page * 256 + 0x00
def FOLIO_ID.TYPE (page : Nat) : Fd := ⟨page * 256 + 0x00, 35, 24⟩
def FOLIO_ID.INST (page : Nat) : Fd := ⟨page * 256 + 0x00, 23, 16⟩
def FOLIO_ID.MAJOR (page : Nat) : Fd := ⟨page * 256 + 0x00, 15, 8⟩
def FOLIO_ID.MINOR (page : Nat) : Fd := ⟨page * 256 + 0x00, 7, 0⟩
def FOLIO_CAP.at (page : Nat) : Nat := page * 256 + 0x01
def FOLIO_CAP.NTRIP (page : Nat) : Fd := ⟨page * 256 + 0x01, 13, 8⟩
def FOLIO_CAP.CRIT (page : Nat) : Fd := ⟨page * 256 + 0x01, 4, 4⟩
def FOLIO_CAP.TRIPL (page : Nat) : Fd := ⟨page * 256 + 0x01, 3, 3⟩
def FOLIO_CAP.QUOIN (page : Nat) : Fd := ⟨page * 256 + 0x01, 2, 2⟩
def FOLIO_CAP.STAGED (page : Nat) : Fd := ⟨page * 256 + 0x01, 1, 1⟩
def FOLIO_CAP.SELFT (page : Nat) : Fd := ⟨page * 256 + 0x01, 0, 0⟩
def FOLIO_STAT.at (page : Nat) : Nat := page * 256 + 0x02
def FOLIO_STAT.QOFF (page : Nat) : Fd := ⟨page * 256 + 0x02, 23, 16⟩
def FOLIO_STAT.QCAUSE (page : Nat) : Fd := ⟨page * 256 + 0x02, 15, 12⟩
def FOLIO_STAT.MODE_LOCK (page : Nat) : Fd := ⟨page * 256 + 0x02, 5, 5⟩
def FOLIO_STAT.BRST_PEND (page : Nat) : Fd := ⟨page * 256 + 0x02, 4, 4⟩
def FOLIO_STAT.QUOIN_ERR (page : Nat) : Fd := ⟨page * 256 + 0x02, 3, 3⟩
def FOLIO_STAT.VOTE_ERR (page : Nat) : Fd := ⟨page * 256 + 0x02, 2, 2⟩
def FOLIO_STAT.STAGED (page : Nat) : Fd := ⟨page * 256 + 0x02, 1, 1⟩
def FOLIO_STAT.IDLE (page : Nat) : Fd := ⟨page * 256 + 0x02, 0, 0⟩
def FOLIO_CTL.at (page : Nat) : Nat := page * 256 + 0x03
def FOLIO_CTL.BRST (page : Nat) : Fd := ⟨page * 256 + 0x03, 1, 1⟩
def FOLIO_CTL.EN (page : Nat) : Fd := ⟨page * 256 + 0x03, 0, 0⟩
def FOLIO_GROUP.at (page : Nat) : Nat := page * 256 + 0x04
def FOLIO_GROUP.CGRP (page : Nat) : Fd := ⟨page * 256 + 0x04, 11, 8⟩
def FOLIO_GROUP.SHV (page : Nat) : Fd := ⟨page * 256 + 0x04, 7, 7⟩
def FOLIO_GROUP.GRP (page : Nat) : Fd := ⟨page * 256 + 0x04, 4, 0⟩
def FOLIO_EVT.at (page : Nat) : Nat := page * 256 + 0x05
def FOLIO_EVT.MODE_LOCK (page : Nat) : Fd := ⟨page * 256 + 0x05, 35, 35⟩
def FOLIO_EVT.VOTE_FAIL (page : Nat) : Fd := ⟨page * 256 + 0x05, 34, 34⟩
def FOLIO_EVT.VOTE_CORR (page : Nat) : Fd := ⟨page * 256 + 0x05, 33, 33⟩
def FOLIO_EVT.QUOIN (page : Nat) : Fd := ⟨page * 256 + 0x05, 32, 32⟩
def FOLIO_EVT.BLK (page : Nat) : Fd := ⟨page * 256 + 0x05, 31, 0⟩
def FOLIO_EVTEN.at (page : Nat) : Nat := page * 256 + 0x06
def FOLIO_EVTEN.HDR (page : Nat) : Fd := ⟨page * 256 + 0x06, 35, 32⟩
def FOLIO_EVTEN.BLK (page : Nat) : Fd := ⟨page * 256 + 0x06, 31, 0⟩
def FOLIO_VOTE.at (page : Nat) : Nat := page * 256 + 0x07
def FOLIO_VOTE.VOTE (page : Nat) : Fd := ⟨page * 256 + 0x07, 31, 0⟩

/-! ### SYS -/
def SYS_STAT.at : Nat := 0x00008
def SYS_STAT.WHY : Fd := ⟨0x00008, 11, 8⟩
def SYS_STAT.PREV : Fd := ⟨0x00008, 7, 4⟩
def SYS_STAT.MODE : Fd := ⟨0x00008, 3, 0⟩
def SYS_MODE.at : Nat := 0x00010
def SYS_MODE.MODE : Fd := ⟨0x00010, 3, 0⟩
def SYS_STROBE.at : Nat := 0x00018
def SYS_STROBE.MASK : Fd := ⟨0x00018, 15, 0⟩
def SYS_FOLIOERR.at : Nat := 0x00019
def SYS_FOLIOERR.MLPAGE : Fd := ⟨0x00019, 35, 27⟩
def SYS_FOLIOERR.VFPAGE : Fd := ⟨0x00019, 26, 18⟩
def SYS_FOLIOERR.VCPAGE : Fd := ⟨0x00019, 17, 9⟩
def SYS_FOLIOERR.QPAGE : Fd := ⟨0x00019, 8, 0⟩
def SYS_STROBESRC.at (k : Nat) : Nat := (0x00020 + k)
def SYS_STROBESRC.DIV (k : Nat) : Fd := ⟨(0x00020 + k), 19, 12⟩
def SYS_STROBESRC.SRC (k : Nat) : Fd := ⟨(0x00020 + k), 11, 9⟩
def SYS_STROBESRC.INST (k : Nat) : Fd := ⟨(0x00020 + k), 5, 0⟩
/-- The register tables of SYS. -/
def regsSYS : List RegDef := [
  ⟨"SYS_STAT", 0x08, 1, 1, false, false, false, false, [⟨11, 8, .ro, 0x7⟩, ⟨7, 4, .ro, 0x0⟩, ⟨3, 0, .ro, 0x0⟩]⟩,
  ⟨"SYS_MODE", 0x10, 1, 1, false, false, true, false, [⟨3, 0, .rw, 0x0⟩]⟩,
  ⟨"SYS_STROBE", 0x18, 1, 1, false, false, false, false, [⟨15, 0, .wo, 0x0⟩]⟩,
  ⟨"SYS_FOLIOERR", 0x19, 1, 1, false, false, false, false, [⟨35, 27, .ro, 0x0⟩, ⟨26, 18, .ro, 0x0⟩, ⟨17, 9, .ro, 0x0⟩, ⟨8, 0, .ro, 0x0⟩]⟩,
  ⟨"SYS_STROBESRC", 0x20, 16, 1, false, false, false, false, [⟨19, 12, .rw, 0x0⟩, ⟨11, 9, .rw, 0x0⟩, ⟨5, 0, .rw, 0x0⟩]⟩]
/-! ### RSTC -/
def RSTC_STAT.at : Nat := 0x00108
def RSTC_STAT.SWDEN : Fd := ⟨0x00108, 1, 1⟩
def RSTC_STAT.SAFECP : Fd := ⟨0x00108, 0, 0⟩
def RSTC_CAUSE.at : Nat := 0x00109
def RSTC_CAUSE.CRIT : Fd := ⟨0x00109, 11, 11⟩
def RSTC_CAUSE.VOTE : Fd := ⟨0x00109, 10, 10⟩
def RSTC_CAUSE.HOSTREQ : Fd := ⟨0x00109, 9, 9⟩
def RSTC_CAUSE.SWREQ : Fd := ⟨0x00109, 8, 8⟩
def RSTC_CAUSE.CWDOG : Fd := ⟨0x00109, 7, 7⟩
def RSTC_CAUSE.SWDOG : Fd := ⟨0x00109, 6, 6⟩
def RSTC_CAUSE.NRST : Fd := ⟨0x00109, 5, 5⟩
def RSTC_CAUSE.BORCORE : Fd := ⟨0x00109, 4, 4⟩
def RSTC_CAUSE.BORA : Fd := ⟨0x00109, 3, 3⟩
def RSTC_CAUSE.BORIO : Fd := ⟨0x00109, 2, 2⟩
def RSTC_CAUSE.POR : Fd := ⟨0x00109, 0, 0⟩
def RSTC_DETAIL.at : Nat := 0x0010A
def RSTC_DETAIL.VPAGE : Fd := ⟨0x0010A, 35, 27⟩
def RSTC_DETAIL.CORE : Fd := ⟨0x0010A, 26, 24⟩
def RSTC_DETAIL.SUB : Fd := ⟨0x0010A, 23, 16⟩
def RSTC_DETAIL.KIND : Fd := ⟨0x0010A, 1, 0⟩
def RSTC_CRITADDR.at : Nat := 0x0010B
def RSTC_CRITADDR.ADDR : Fd := ⟨0x0010B, 27, 0⟩
def RSTC_SWRST.at : Nat := 0x00110
def RSTC_SWRST.WARM : Fd := ⟨0x00110, 0, 0⟩
def RSTC_SWDOG.at : Nat := 0x00111
def RSTC_SWDOG.EN : Fd := ⟨0x00111, 35, 35⟩
def RSTC_SWDOG.TIME : Fd := ⟨0x00111, 15, 0⟩
def RSTC_SWKICK.at : Nat := 0x00112
def RSTC_SWKICK.KEY : Fd := ⟨0x00112, 35, 0⟩
def RSTC_HOLD.at : Nat := 0x00113
def RSTC_HOLD.HOLD : Fd := ⟨0x00113, 5, 0⟩
def RSTC_HOLDREL.at : Nat := 0x00114
def RSTC_HOLDREL.REL : Fd := ⟨0x00114, 5, 0⟩
/-- The register tables of RSTC. -/
def regsRSTC : List RegDef := [
  ⟨"RSTC_STAT", 0x08, 1, 1, false, false, false, false, [⟨1, 1, .ro, 0x0⟩, ⟨0, 0, .ro, 0x0⟩]⟩,
  ⟨"RSTC_CAUSE", 0x09, 1, 1, false, false, false, false, [⟨11, 11, .w1c, 0x0⟩, ⟨10, 10, .w1c, 0x0⟩, ⟨9, 9, .w1c, 0x0⟩, ⟨8, 8, .w1c, 0x0⟩, ⟨7, 7, .w1c, 0x0⟩, ⟨6, 6, .w1c, 0x0⟩, ⟨5, 5, .w1c, 0x0⟩, ⟨4, 4, .w1c, 0x0⟩, ⟨3, 3, .w1c, 0x0⟩, ⟨2, 2, .w1c, 0x0⟩, ⟨0, 0, .w1c, 0x1⟩]⟩,
  ⟨"RSTC_DETAIL", 0x0A, 1, 1, false, false, false, false, [⟨35, 27, .ro, 0x0⟩, ⟨26, 24, .ro, 0x0⟩, ⟨23, 16, .ro, 0x0⟩, ⟨1, 0, .ro, 0x0⟩]⟩,
  ⟨"RSTC_CRITADDR", 0x0B, 1, 1, false, false, false, false, [⟨27, 0, .ro, 0x0⟩]⟩,
  ⟨"RSTC_SWRST", 0x10, 1, 1, false, false, true, false, [⟨0, 0, .wo, 0x0⟩]⟩,
  ⟨"RSTC_SWDOG", 0x11, 1, 1, false, false, true, false, [⟨35, 35, .rw, 0x0⟩, ⟨15, 0, .rw, 0x3E8⟩]⟩,
  ⟨"RSTC_SWKICK", 0x12, 1, 1, false, false, false, false, [⟨35, 0, .wo, 0x0⟩]⟩,
  ⟨"RSTC_HOLD", 0x13, 1, 1, false, false, false, false, [⟨5, 0, .ro, 0x0⟩]⟩,
  ⟨"RSTC_HOLDREL", 0x14, 1, 1, false, false, false, false, [⟨5, 0, .wo, 0x0⟩]⟩]
/-! ### PINC -/
def PINC_FUNC.at (k : Nat) : Nat := (0x00210 + k)
def PINC_FUNC.FUNC (k : Nat) : Fd := ⟨(0x00210 + k), 31, 0⟩
def PINC_PAD.at (k : Nat) : Nat := (0x00220 + k)
def PINC_PAD.PAD (k : Nat) : Fd := ⟨(0x00220 + k), 31, 0⟩
/-- The register tables of PINC. -/
def regsPINC : List RegDef := [
  ⟨"PINC_FUNC", 0x10, 8, 1, false, false, false, false, [⟨31, 0, .rw, 0x0⟩]⟩,
  ⟨"PINC_PAD", 0x20, 16, 1, false, false, false, false, [⟨31, 0, .rw, 0x0⟩]⟩]
/-! ### MERID -/
def MERID_STAT.at : Nat := 0x00308
def MERID_STAT.REFACT : Fd := ⟨0x00308, 11, 10⟩
def MERID_STAT.HOLDOVER : Fd := ⟨0x00308, 9, 9⟩
def MERID_STAT.DISC_OK : Fd := ⟨0x00308, 8, 8⟩
def MERID_STAT.SLAVE_OK : Fd := ⟨0x00308, 7, 7⟩
def MERID_STAT.CAL_OK : Fd := ⟨0x00308, 6, 6⟩
def MERID_STAT.REF_OK : Fd := ⟨0x00308, 5, 5⟩
def MERID_STAT.LOCK : Fd := ⟨0x00308, 4, 4⟩
def MERID_CTL.at : Nat := 0x00310
def MERID_CTL.REFMHZ : Fd := ⟨0x00310, 23, 18⟩
def MERID_CTL.REFSEL : Fd := ⟨0x00310, 11, 10⟩
def MERID_CTL.DISC : Fd := ⟨0x00310, 9, 8⟩
def MERID_TICKH.at : Nat := 0x00312
def MERID_TICKH.TICK_HI : Fd := ⟨0x00312, 31, 0⟩
def MERID_TICKL.at : Nat := 0x00313
def MERID_TICKL.TICK_LO : Fd := ⟨0x00313, 31, 0⟩
def MERID_TICK36.at : Nat := 0x00314
def MERID_TICK36.TS : Fd := ⟨0x00314, 35, 0⟩
def MERID_RATE.at : Nat := 0x00315
def MERID_RATE.RATE : Fd := ⟨0x00315, 23, 0⟩
def MERID_STEP.at : Nat := 0x00316
def MERID_STEP.STEP : Fd := ⟨0x00316, 35, 0⟩
def MERID_ALM.at (k : Nat) : Nat := (0x00320 + k)
def MERID_ALM.CMP (k : Nat) : Fd := ⟨(0x00320 + k), 35, 0⟩
def MERID_ALMP.at (k : Nat) : Nat := (0x00330 + k)
def MERID_ALMP.PER (k : Nat) : Fd := ⟨(0x00330 + k), 35, 0⟩
def MERID_ALMEN.at : Nat := 0x00340
def MERID_ALMEN.EN : Fd := ⟨0x00340, 15, 0⟩
def MERID_ALMLATE.at : Nat := 0x00341
def MERID_ALMLATE.LATE : Fd := ⟨0x00341, 15, 0⟩
/-- The register tables of MERID. -/
def regsMERID : List RegDef := [
  ⟨"MERID_STAT", 0x08, 1, 1, false, false, false, false, [⟨11, 10, .ro, 0x0⟩, ⟨9, 9, .ro, 0x1⟩, ⟨8, 8, .ro, 0x0⟩, ⟨7, 7, .ro, 0x0⟩, ⟨6, 6, .ro, 0x0⟩, ⟨5, 5, .ro, 0x0⟩, ⟨4, 4, .ro, 0x0⟩]⟩,
  ⟨"MERID_CTL", 0x10, 1, 1, false, false, false, false, [⟨23, 18, .rw, 0x0⟩, ⟨11, 10, .rw, 0x0⟩, ⟨9, 8, .rw, 0x0⟩]⟩,
  ⟨"MERID_TICKH", 0x12, 1, 1, false, false, false, false, [⟨31, 0, .ro, 0x0⟩]⟩,
  ⟨"MERID_TICKL", 0x13, 1, 1, false, false, false, false, [⟨31, 0, .ro, 0x0⟩]⟩,
  ⟨"MERID_TICK36", 0x14, 1, 1, false, false, false, false, [⟨35, 0, .ro, 0x0⟩]⟩,
  ⟨"MERID_RATE", 0x15, 1, 1, false, false, false, false, [⟨23, 0, .rw, 0x0⟩]⟩,
  ⟨"MERID_STEP", 0x16, 1, 1, false, false, true, false, [⟨35, 0, .wo, 0x0⟩]⟩,
  ⟨"MERID_ALM", 0x20, 16, 1, false, false, false, false, [⟨35, 0, .rw, 0x0⟩]⟩,
  ⟨"MERID_ALMP", 0x30, 16, 1, false, false, false, false, [⟨35, 0, .rw, 0x0⟩]⟩,
  ⟨"MERID_ALMEN", 0x40, 1, 1, false, false, false, false, [⟨15, 0, .rw, 0x0⟩]⟩,
  ⟨"MERID_ALMLATE", 0x41, 1, 1, false, false, false, false, [⟨15, 0, .w1c, 0x0⟩]⟩]
/-! ### PACE -/
def PACE_STAT.at : Nat := 0x00408
def PACE_STAT.FIXED : Fd := ⟨0x00408, 5, 5⟩
def PACE_STAT.AVS_FAIL : Fd := ⟨0x00408, 4, 4⟩
def PACE_STAT.DROOP : Fd := ⟨0x00408, 3, 3⟩
def PACE_STAT.SHORT : Fd := ⟨0x00408, 2, 2⟩
def PACE_STAT.HELD : Fd := ⟨0x00408, 1, 1⟩
def PACE_STAT.REG : Fd := ⟨0x00408, 0, 0⟩
def PACE_CTL.at : Nat := 0x00410
def PACE_CTL.MODE : Fd := ⟨0x00410, 8, 8⟩
def PACE_CTL.DROOP : Fd := ⟨0x00410, 7, 4⟩
def PACE_CTL.HYST : Fd := ⟨0x00410, 3, 0⟩
def PACE_TARGET.at : Nat := 0x00411
def PACE_TARGET.TARGET : Fd := ⟨0x00411, 6, 0⟩
def PACE_VMIN.at : Nat := 0x00412
def PACE_VMIN.VMIN : Fd := ⟨0x00412, 9, 0⟩
def PACE_VMAX.at : Nat := 0x00413
def PACE_VMAX.VMAX : Fd := ⟨0x00413, 9, 0⟩
def PACE_VFIX.at : Nat := 0x00414
def PACE_VFIX.VFIX : Fd := ⟨0x00414, 9, 0⟩
def PACE_VCMD.at : Nat := 0x00415
def PACE_VCMD.VCMD : Fd := ⟨0x00415, 9, 0⟩
def PACE_SLOW.at : Nat := 0x00416
def PACE_SLOW.IDX : Fd := ⟨0x00416, 19, 16⟩
def PACE_SLOW.VAL : Fd := ⟨0x00416, 11, 0⟩
def PACE_TELEM.at : Nat := 0x00417
def PACE_TELEM.IMEAS : Fd := ⟨0x00417, 31, 16⟩
def PACE_TELEM.VMEAS : Fd := ⟨0x00417, 9, 0⟩
def PACE_MON.at (k : Nat) : Nat := (0x00420 + k)
def PACE_MON.VAL (k : Nat) : Fd := ⟨(0x00420 + k), 11, 0⟩
/-- The register tables of PACE. -/
def regsPACE : List RegDef := [
  ⟨"PACE_STAT", 0x08, 1, 1, false, false, false, false, [⟨5, 5, .ro, 0x0⟩, ⟨4, 4, .ro, 0x0⟩, ⟨3, 3, .ro, 0x0⟩, ⟨2, 2, .ro, 0x0⟩, ⟨1, 1, .ro, 0x0⟩, ⟨0, 0, .ro, 0x0⟩]⟩,
  ⟨"PACE_CTL", 0x10, 1, 1, false, false, false, false, [⟨8, 8, .rw, 0x0⟩, ⟨7, 4, .rw, 0x4⟩, ⟨3, 0, .rw, 0x2⟩]⟩,
  ⟨"PACE_TARGET", 0x11, 1, 1, false, false, true, false, [⟨6, 0, .rw, 0x30⟩]⟩,
  ⟨"PACE_VMIN", 0x12, 1, 1, false, false, true, false, [⟨9, 0, .rw, 0x2BC⟩]⟩,
  ⟨"PACE_VMAX", 0x13, 1, 1, false, false, true, false, [⟨9, 0, .rw, 0x3B6⟩]⟩,
  ⟨"PACE_VFIX", 0x14, 1, 1, false, false, false, false, [⟨9, 0, .rw, 0x0⟩]⟩,
  ⟨"PACE_VCMD", 0x15, 1, 1, false, false, false, false, [⟨9, 0, .ro, 0x0⟩]⟩,
  ⟨"PACE_SLOW", 0x16, 1, 1, false, false, false, false, [⟨19, 16, .ro, 0x0⟩, ⟨11, 0, .ro, 0x0⟩]⟩,
  ⟨"PACE_TELEM", 0x17, 1, 1, false, false, false, false, [⟨31, 16, .ro, 0x0⟩, ⟨9, 0, .ro, 0x0⟩]⟩,
  ⟨"PACE_MON", 0x20, 16, 1, false, false, false, false, [⟨11, 0, .ro, 0x0⟩]⟩]
/-! ### CBA -/
def CBA_STAT.at : Nat := 0x00508
def CBA_STAT.OVER : Fd := ⟨0x00508, 3, 3⟩
def CBA_STAT.CONFLICT : Fd := ⟨0x00508, 2, 2⟩
def CBA_STAT.THROTTLING : Fd := ⟨0x00508, 1, 1⟩
def CBA_STAT.WIDE : Fd := ⟨0x00508, 0, 0⟩
def CBA_CTL.at : Nat := 0x00510
def CBA_CTL.CONFLICT_POL : Fd := ⟨0x00510, 0, 0⟩
def CBA_CEILING.at : Nat := 0x00511
def CBA_CEILING.CEIL : Fd := ⟨0x00511, 9, 0⟩
def CBA_SLEW.at : Nat := 0x00512
def CBA_SLEW.SLEW : Fd := ⟨0x00512, 6, 0⟩
def CBA_EST.at : Nat := 0x00513
def CBA_EST.TOTAL : Fd := ⟨0x00513, 31, 16⟩
def CBA_EST.SHARED : Fd := ⟨0x00513, 15, 0⟩
def CBA_RESV.at : Nat := 0x00514
def CBA_RESV.RESV : Fd := ⟨0x00514, 15, 0⟩
def CBA_LEAK.at : Nat := 0x00515
def CBA_LEAK.LEAK : Fd := ⟨0x00515, 15, 0⟩
def CBA_WEIGHT.at (k : Nat) : Nat := (0x00520 + k)
def CBA_WEIGHT.W (k : Nat) : Fd := ⟨(0x00520 + k), 3, 0⟩
/-- The register tables of CBA. -/
def regsCBA : List RegDef := [
  ⟨"CBA_STAT", 0x08, 1, 1, false, false, false, false, [⟨3, 3, .ro, 0x0⟩, ⟨2, 2, .ro, 0x0⟩, ⟨1, 1, .ro, 0x0⟩, ⟨0, 0, .ro, 0x0⟩]⟩,
  ⟨"CBA_CTL", 0x10, 1, 1, false, false, true, false, [⟨0, 0, .rw, 0x0⟩]⟩,
  ⟨"CBA_CEILING", 0x11, 1, 1, false, false, true, false, [⟨9, 0, .rw, 0x2BC⟩]⟩,
  ⟨"CBA_SLEW", 0x12, 1, 1, false, false, false, false, [⟨6, 0, .rw, 0x8⟩]⟩,
  ⟨"CBA_EST", 0x13, 1, 1, false, false, false, false, [⟨31, 16, .ro, 0x0⟩, ⟨15, 0, .ro, 0x0⟩]⟩,
  ⟨"CBA_RESV", 0x14, 1, 1, false, false, false, false, [⟨15, 0, .ro, 0x0⟩]⟩,
  ⟨"CBA_LEAK", 0x15, 1, 1, false, false, false, false, [⟨15, 0, .ro, 0x0⟩]⟩,
  ⟨"CBA_WEIGHT", 0x20, 9, 1, false, false, false, false, [⟨3, 0, .rw, 0x4⟩]⟩,
  ⟨"CBA_WEIGHT", 0x29, 1, 1, false, false, false, false, [⟨3, 0, .rw, 0x2⟩]⟩,
  ⟨"CBA_WEIGHT", 0x2A, 1, 1, false, false, false, false, [⟨3, 0, .rw, 0x1⟩]⟩,
  ⟨"CBA_WEIGHT", 0x2B, 1, 1, false, false, false, false, [⟨3, 0, .rw, 0x8⟩]⟩,
  ⟨"CBA_WEIGHT", 0x2C, 2, 1, false, false, false, false, [⟨3, 0, .rw, 0x2⟩]⟩,
  ⟨"CBA_WEIGHT", 0x2E, 2, 1, false, false, false, false, [⟨3, 0, .rw, 0x0⟩]⟩]
/-! ### EVC -/
def EVC_IDX.at (i : Nat) : Nat := (0x00610 + i * 256)
def EVC_IDX.AINC (i : Nat) : Fd := ⟨(0x00610 + i * 256), 8, 8⟩
def EVC_IDX.INDEX (i : Nat) : Fd := ⟨(0x00610 + i * 256), 7, 0⟩
def EVC_SRC.at (i : Nat) : Nat := (0x00611 + i * 256)
def EVC_SRC.WORD (i : Nat) : Fd := ⟨(0x00611 + i * 256), 35, 0⟩
def EVC_PEND.at (i : Nat) (k : Nat) : Nat := (0x00620 + i * 256 + k)
def EVC_PEND.PEND (i : Nat) (k : Nat) : Fd := ⟨(0x00620 + i * 256 + k), 31, 0⟩
def EVC_LOST.at (i : Nat) (k : Nat) : Nat := (0x00628 + i * 256 + k)
def EVC_LOST.LOST (i : Nat) (k : Nat) : Fd := ⟨(0x00628 + i * 256 + k), 31, 0⟩
def EVC_INSV.at (i : Nat) (k : Nat) : Nat := (0x00630 + i * 256 + k)
def EVC_INSV.INSV (i : Nat) (k : Nat) : Fd := ⟨(0x00630 + i * 256 + k), 31, 0⟩
def EVC_LEVEL.at (i : Nat) (k : Nat) : Nat := (0x00638 + i * 256 + k)
def EVC_LEVEL.LEVEL (i : Nat) (k : Nat) : Fd := ⟨(0x00638 + i * 256 + k), 31, 0⟩
def EVC_STAT.at : Nat := 0x00608
def EVC_STAT.LASTLOST : Fd := ⟨0x00608, 18, 8⟩
def EVC_STAT.TEST : Fd := ⟨0x00608, 2, 2⟩
def EVC_STAT.FILT : Fd := ⟨0x00608, 1, 1⟩
def EVC_STAT.GATE : Fd := ⟨0x00608, 0, 0⟩
def EVC_GATE.at : Nat := 0x00640
def EVC_GATE.GATE : Fd := ⟨0x00640, 0, 0⟩
def EVC_GFILT.at : Nat := 0x00641
def EVC_GFILT.LEN : Fd := ⟨0x00641, 7, 0⟩
def EVC_SWSET.at : Nat := 0x00642
def EVC_SWSET.SRC : Fd := ⟨0x00642, 10, 0⟩
def EVC_ISRC.at (k : Nat) : Nat := (0x00648 + k)
def EVC_ISRC.VALID (k : Nat) : Fd := ⟨(0x00648 + k), 35, 35⟩
def EVC_ISRC.SRC (k : Nat) : Fd := ⟨(0x00648 + k), 10, 0⟩
def EVC_WAKEEN.at (k : Nat) : Nat := (0x00668 + k)
def EVC_WAKEEN.EN (k : Nat) : Fd := ⟨(0x00668 + k), 31, 0⟩
def EVC_WAKEEDG.at (k : Nat) : Nat := (0x0066A + k)
def EVC_WAKEEDG.EDG (k : Nat) : Fd := ⟨(0x0066A + k), 31, 0⟩
def EVC_WAKEFLG.at (k : Nat) : Nat := (0x0066E + k)
def EVC_WAKEFLG.FLG (k : Nat) : Fd := ⟨(0x0066E + k), 31, 0⟩
def EVC_WAKELOST.at (k : Nat) : Nat := (0x00670 + k)
def EVC_WAKELOST.LOST (k : Nat) : Fd := ⟨(0x00670 + k), 31, 0⟩
def EVC_WAKETS.at : Nat := 0x00672
def EVC_WAKETS.TS : Fd := ⟨0x00672, 35, 0⟩
def EVC_WAKESRC.at (k : Nat) : Nat := (0x00674 + k)
def EVC_WAKESRC.EN (k : Nat) : Fd := ⟨(0x00674 + k), 35, 35⟩
def EVC_WAKESRC.SRC (k : Nat) : Fd := ⟨(0x00674 + k), 10, 0⟩
/-- The register tables of EVC. -/
def regsEVC : List RegDef := [
  ⟨"EVC_IDX", 0x10, 1, 1, false, false, false, false, [⟨8, 8, .rw, 0x0⟩, ⟨7, 0, .rw, 0x0⟩]⟩,
  ⟨"EVC_SRC", 0x11, 1, 1, false, false, false, false, [⟨35, 0, .rw, 0x0⟩]⟩,
  ⟨"EVC_PEND", 0x20, 8, 1, false, false, false, false, [⟨31, 0, .w1c, 0x0⟩]⟩,
  ⟨"EVC_LOST", 0x28, 8, 1, false, false, false, false, [⟨31, 0, .w1c, 0x0⟩]⟩,
  ⟨"EVC_INSV", 0x30, 8, 1, false, false, false, false, [⟨31, 0, .ro, 0x0⟩]⟩,
  ⟨"EVC_LEVEL", 0x38, 8, 1, false, false, false, false, [⟨31, 0, .ro, 0x0⟩]⟩]
/-- The register tables of EVC (page 006 only). -/
def regsEVC0 : List RegDef := [
  ⟨"EVC_STAT", 0x08, 1, 1, false, false, false, false, [⟨18, 8, .ro, 0x0⟩, ⟨2, 2, .ro, 0x0⟩, ⟨1, 1, .ro, 0x1⟩, ⟨0, 0, .ro, 0x0⟩]⟩,
  ⟨"EVC_GATE", 0x40, 1, 1, false, false, false, false, [⟨0, 0, .rw, 0x0⟩]⟩,
  ⟨"EVC_GFILT", 0x41, 1, 1, false, false, false, false, [⟨7, 0, .rw, 0x1⟩]⟩,
  ⟨"EVC_SWSET", 0x42, 1, 1, false, false, false, false, [⟨10, 0, .wo, 0x0⟩]⟩,
  ⟨"EVC_ISRC", 0x48, 32, 1, false, false, false, false, [⟨35, 35, .ro, 0x0⟩, ⟨10, 0, .ro, 0x0⟩]⟩,
  ⟨"EVC_WAKEEN", 0x68, 2, 1, false, false, false, false, [⟨31, 0, .rw, 0x0⟩]⟩,
  ⟨"EVC_WAKEEDG", 0x6A, 4, 1, false, false, false, false, [⟨31, 0, .rw, 0x0⟩]⟩,
  ⟨"EVC_WAKEFLG", 0x6E, 2, 1, false, false, false, false, [⟨31, 0, .w1c, 0x0⟩]⟩,
  ⟨"EVC_WAKELOST", 0x70, 2, 1, false, false, false, false, [⟨31, 0, .w1c, 0x0⟩]⟩,
  ⟨"EVC_WAKETS", 0x72, 1, 1, false, false, false, false, [⟨35, 0, .ro, 0x0⟩]⟩,
  ⟨"EVC_WAKESRC", 0x74, 8, 1, false, false, false, false, [⟨35, 35, .rw, 0x0⟩, ⟨10, 0, .rw, 0x0⟩]⟩]
/-! ### FAB -/
def FAB_STAT.at : Nat := 0x00E08
def FAB_STAT.ZOMBIE : Fd := ⟨0x00E08, 29, 16⟩
def FAB_STAT.INUSE : Fd := ⟨0x00E08, 13, 0⟩
def FAB_PEAK.at : Nat := 0x00E09
def FAB_PEAK.PEAK : Fd := ⟨0x00E09, 13, 0⟩
def FAB_ERRADDR.at : Nat := 0x00E0B
def FAB_ERRADDR.ADDR : Fd := ⟨0x00E0B, 27, 0⟩
def FAB_ERRINFO.at : Nat := 0x00E0C
def FAB_ERRINFO.CAUSE : Fd := ⟨0x00E0C, 8, 6⟩
def FAB_ERRINFO.HOLDER : Fd := ⟨0x00E0C, 5, 0⟩
def FAB_TAGTIMEOUT.at : Nat := 0x00E10
def FAB_TAGTIMEOUT.TO : Fd := ⟨0x00E10, 15, 0⟩
def FAB_RETIRE.at : Nat := 0x00E11
def FAB_RETIRE.MODE : Fd := ⟨0x00E11, 5, 4⟩
def FAB_RETIRE.BANK : Fd := ⟨0x00E11, 3, 0⟩
def FAB_BANKOFF.at : Nat := 0x00E12
def FAB_BANKOFF.OFF : Fd := ⟨0x00E12, 16, 0⟩
def FAB_QUOTA.at (k : Nat) : Nat := (0x00E20 + k)
def FAB_QUOTA.RSV (k : Nat) : Fd := ⟨(0x00E20 + k), 29, 16⟩
def FAB_QUOTA.MAX (k : Nat) : Fd := ⟨(0x00E20 + k), 13, 0⟩
def FAB_TAGUSE.at (k : Nat) : Nat := (0x00E50 + k)
def FAB_TAGUSE.HELD (k : Nat) : Fd := ⟨(0x00E50 + k), 13, 0⟩
/-- The register tables of FAB. -/
def regsFAB : List RegDef := [
  ⟨"FAB_STAT", 0x08, 1, 1, false, false, false, false, [⟨29, 16, .ro, 0x0⟩, ⟨13, 0, .ro, 0x0⟩]⟩,
  ⟨"FAB_PEAK", 0x09, 1, 1, false, false, false, false, [⟨13, 0, .ro, 0x0⟩]⟩,
  ⟨"FAB_ERRADDR", 0x0B, 1, 1, false, false, false, false, [⟨27, 0, .ro, 0x0⟩]⟩,
  ⟨"FAB_ERRINFO", 0x0C, 1, 1, false, false, false, false, [⟨8, 6, .ro, 0x0⟩, ⟨5, 0, .ro, 0x0⟩]⟩,
  ⟨"FAB_TAGTIMEOUT", 0x10, 1, 1, false, false, false, false, [⟨15, 0, .rw, 0x271⟩]⟩,
  ⟨"FAB_RETIRE", 0x11, 1, 1, false, false, true, false, [⟨5, 4, .rw, 0x0⟩, ⟨3, 0, .rw, 0x0⟩]⟩,
  ⟨"FAB_BANKOFF", 0x12, 1, 1, false, false, true, false, [⟨16, 0, .rw, 0x0⟩]⟩,
  ⟨"FAB_QUOTA", 0x20, 16, 1, false, false, false, false, [⟨29, 16, .rw, 0x0⟩, ⟨13, 0, .rw, 0x10⟩]⟩,
  ⟨"FAB_QUOTA", 0x30, 1, 1, false, false, false, false, [⟨29, 16, .rw, 0x0⟩, ⟨13, 0, .rw, 0x1000⟩]⟩,
  ⟨"FAB_QUOTA", 0x31, 1, 1, false, false, false, false, [⟨29, 16, .rw, 0x40⟩, ⟨13, 0, .rw, 0x100⟩]⟩,
  ⟨"FAB_QUOTA", 0x32, 16, 1, false, false, false, false, [⟨29, 16, .rw, 0x8⟩, ⟨13, 0, .rw, 0x10⟩]⟩,
  ⟨"FAB_QUOTA", 0x42, 1, 1, false, false, false, false, [⟨29, 16, .rw, 0x0⟩, ⟨13, 0, .rw, 0x10⟩]⟩,
  ⟨"FAB_QUOTA", 0x43, 1, 1, false, false, false, false, [⟨29, 16, .rw, 0x0⟩, ⟨13, 0, .rw, 0x100⟩]⟩,
  ⟨"FAB_QUOTA", 0x44, 2, 1, false, false, false, false, [⟨29, 16, .rw, 0x0⟩, ⟨13, 0, .rw, 0x40⟩]⟩,
  ⟨"FAB_QUOTA", 0x46, 1, 1, false, false, false, false, [⟨29, 16, .rw, 0x80⟩, ⟨13, 0, .rw, 0x200⟩]⟩,
  ⟨"FAB_QUOTA", 0x47, 1, 1, false, false, false, false, [⟨29, 16, .rw, 0x0⟩, ⟨13, 0, .rw, 0x8⟩]⟩,
  ⟨"FAB_TAGUSE", 0x50, 40, 1, false, false, false, false, [⟨13, 0, .ro, 0x0⟩]⟩]
/-! ### MEMP -/
def MEMP_STAT.at : Nat := 0x00F08
def MEMP_STAT.UNREAD : Fd := ⟨0x00F08, 22, 16⟩
def MEMP_STAT.HEAD : Fd := ⟨0x00F08, 6, 0⟩
def MEMP_INIT.at : Nat := 0x00F09
def MEMP_INIT.DONE : Fd := ⟨0x00F09, 34, 0⟩
def MEMP_WRAP.at : Nat := 0x00F0A
def MEMP_WRAP.CNT : Fd := ⟨0x00F0A, 17, 0⟩
def MEMP_TAIL.at : Nat := 0x00F10
def MEMP_TAIL.TAIL : Fd := ⟨0x00F10, 6, 0⟩
def MEMP_LOGSEL.at : Nat := 0x00F11
def MEMP_LOGSEL.SEL : Fd := ⟨0x00F11, 5, 0⟩
def MEMP_LOGA.at : Nat := 0x00F12
def MEMP_LOGA.CLASS : Fd := ⟨0x00F12, 35, 33⟩
def MEMP_LOGA.ADDR : Fd := ⟨0x00F12, 27, 0⟩
def MEMP_LOGB.at : Nat := 0x00F13
def MEMP_LOGB.REGION : Fd := ⟨0x00F13, 35, 30⟩
def MEMP_LOGB.WIDX : Fd := ⟨0x00F13, 29, 26⟩
def MEMP_LOGB.BIT : Fd := ⟨0x00F13, 25, 20⟩
def MEMP_LOGB.RSYN : Fd := ⟨0x00F13, 19, 16⟩
def MEMP_LOGB.ROWS : Fd := ⟨0x00F13, 15, 7⟩
def MEMP_LOGB.COUNT : Fd := ⟨0x00F13, 6, 0⟩
def MEMP_CLRBLK.at : Nat := 0x00F14
def MEMP_CLRBLK.BLK : Fd := ⟨0x00F14, 27, 3⟩
def MEMP_CNT.at (k : Nat) : Nat := (0x00F20 + k)
def MEMP_CNT.CE (k : Nat) : Fd := ⟨(0x00F20 + k), 35, 18⟩
def MEMP_CNT.UE (k : Nat) : Fd := ⟨(0x00F20 + k), 17, 0⟩
/-- The register tables of MEMP. -/
def regsMEMP : List RegDef := [
  ⟨"MEMP_STAT", 0x08, 1, 1, false, false, false, false, [⟨22, 16, .ro, 0x0⟩, ⟨6, 0, .ro, 0x0⟩]⟩,
  ⟨"MEMP_INIT", 0x09, 1, 1, false, false, false, false, [⟨34, 0, .ro, 0x0⟩]⟩,
  ⟨"MEMP_WRAP", 0x0A, 1, 1, false, false, false, false, [⟨17, 0, .ro, 0x0⟩]⟩,
  ⟨"MEMP_TAIL", 0x10, 1, 1, false, false, false, false, [⟨6, 0, .rw, 0x0⟩]⟩,
  ⟨"MEMP_LOGSEL", 0x11, 1, 1, false, false, false, false, [⟨5, 0, .rw, 0x0⟩]⟩,
  ⟨"MEMP_LOGA", 0x12, 1, 1, false, false, false, false, [⟨35, 33, .ro, 0x0⟩, ⟨27, 0, .ro, 0x0⟩]⟩,
  ⟨"MEMP_LOGB", 0x13, 1, 1, false, false, false, false, [⟨35, 30, .ro, 0x0⟩, ⟨29, 26, .ro, 0x0⟩, ⟨25, 20, .ro, 0x0⟩, ⟨19, 16, .ro, 0x0⟩, ⟨15, 7, .ro, 0x0⟩, ⟨6, 0, .ro, 0x0⟩]⟩,
  ⟨"MEMP_CLRBLK", 0x14, 1, 1, false, false, false, false, [⟨27, 3, .wo, 0x0⟩]⟩,
  ⟨"MEMP_CNT", 0x20, 37, 1, false, false, false, false, [⟨35, 18, .ro, 0x0⟩, ⟨17, 0, .ro, 0x0⟩]⟩]
/-! ### GALLEY -/
def GALLEY_STAT.at : Nat := 0x01008
def GALLEY_STAT.PARKED : Fd := ⟨0x01008, 23, 16⟩
def GALLEY_STAT.INFL : Fd := ⟨0x01008, 4, 0⟩
def GALLEY_ERRQ.at : Nat := 0x01009
def GALLEY_ERRQ.CODE : Fd := ⟨0x01009, 18, 16⟩
def GALLEY_ERRQ.QUEUE : Fd := ⟨0x01009, 14, 0⟩
def GALLEY_LASTWM.at : Nat := 0x0100A
def GALLEY_LASTWM.Q : Fd := ⟨0x0100A, 14, 0⟩
def GALLEY_LASTOVF.at : Nat := 0x0100B
def GALLEY_LASTOVF.Q : Fd := ⟨0x0100B, 14, 0⟩
def GALLEY_QCMD.at : Nat := 0x01010
def GALLEY_QCMD.OP : Fd := ⟨0x01010, 18, 16⟩
def GALLEY_QCMD.QUEUE : Fd := ⟨0x01010, 14, 0⟩
/-- The register tables of GALLEY. -/
def regsGALLEY : List RegDef := [
  ⟨"GALLEY_STAT", 0x08, 1, 1, false, false, false, false, [⟨23, 16, .ro, 0x0⟩, ⟨4, 0, .ro, 0x0⟩]⟩,
  ⟨"GALLEY_ERRQ", 0x09, 1, 1, false, false, false, false, [⟨18, 16, .ro, 0x0⟩, ⟨14, 0, .ro, 0x0⟩]⟩,
  ⟨"GALLEY_LASTWM", 0x0A, 1, 1, false, false, false, false, [⟨14, 0, .ro, 0x0⟩]⟩,
  ⟨"GALLEY_LASTOVF", 0x0B, 1, 1, false, false, false, false, [⟨14, 0, .ro, 0x0⟩]⟩,
  ⟨"GALLEY_QCMD", 0x10, 1, 1, false, false, false, false, [⟨18, 16, .wo, 0x0⟩, ⟨14, 0, .wo, 0x0⟩]⟩]
/-! ### SEC -/
def SEC_STAT.at : Nat := 0x01108
def SEC_STAT.BOOTSRC : Fd := ⟨0x01108, 15, 13⟩
def SEC_STAT.KEYIDX : Fd := ⟨0x01108, 12, 12⟩
def SEC_STAT.OPEN : Fd := ⟨0x01108, 11, 11⟩
def SEC_STAT.VER : Fd := ⟨0x01108, 10, 4⟩
def SEC_STAT.EVAL : Fd := ⟨0x01108, 3, 3⟩
def SEC_STAT.SESS : Fd := ⟨0x01108, 2, 2⟩
def SEC_STAT.DBGUNL : Fd := ⟨0x01108, 1, 1⟩
def SEC_STAT.RNGOK : Fd := ⟨0x01108, 0, 0⟩
def SEC_BOOTST.at : Nat := 0x01109
def SEC_BOOTST.HOST : Fd := ⟨0x01109, 11, 8⟩
def SEC_BOOTST.BANK1 : Fd := ⟨0x01109, 7, 4⟩
def SEC_BOOTST.BANK0 : Fd := ⟨0x01109, 3, 0⟩
def SEC_CFG.at : Nat := 0x01110
def SEC_CFG.HOSTAUTH : Fd := ⟨0x01110, 1, 1⟩
def SEC_CFG.SESSEN : Fd := ⟨0x01110, 0, 0⟩
def SEC_RNG.at : Nat := 0x01111
def SEC_RNG.VALID : Fd := ⟨0x01111, 35, 35⟩
def SEC_RNG.RND : Fd := ⟨0x01111, 31, 0⟩
def SEC_DBGCTL.at : Nat := 0x01112
def SEC_DBGCTL.SUBMIT : Fd := ⟨0x01112, 1, 1⟩
def SEC_DBGCTL.CHAL : Fd := ⟨0x01112, 0, 0⟩
def SEC_DEVPUB.at (k : Nat) : Nat := (0x01120 + k)
def SEC_DEVPUB.VAL (k : Nat) : Fd := ⟨(0x01120 + k), 35, 0⟩
def SEC_DBGCHAL.at (k : Nat) : Nat := (0x01136 + k)
def SEC_DBGCHAL.VAL (k : Nat) : Fd := ⟨(0x01136 + k), 35, 0⟩
def SEC_DBGRESP.at (k : Nat) : Nat := (0x01141 + k)
def SEC_DBGRESP.VAL (k : Nat) : Fd := ⟨(0x01141 + k), 35, 0⟩
/-- The register tables of SEC. -/
def regsSEC : List RegDef := [
  ⟨"SEC_STAT", 0x08, 1, 1, false, false, false, false, [⟨15, 13, .ro, 0x0⟩, ⟨12, 12, .ro, 0x0⟩, ⟨11, 11, .ro, 0x0⟩, ⟨10, 4, .ro, 0x0⟩, ⟨3, 3, .ro, 0x0⟩, ⟨2, 2, .ro, 0x0⟩, ⟨1, 1, .ro, 0x0⟩, ⟨0, 0, .ro, 0x0⟩]⟩,
  ⟨"SEC_BOOTST", 0x09, 1, 1, false, false, false, false, [⟨11, 8, .ro, 0xF⟩, ⟨7, 4, .ro, 0xF⟩, ⟨3, 0, .ro, 0xF⟩]⟩,
  ⟨"SEC_CFG", 0x10, 1, 1, false, false, true, false, [⟨1, 1, .rw, 0x0⟩, ⟨0, 0, .rw, 0x0⟩]⟩,
  ⟨"SEC_RNG", 0x11, 1, 1, false, false, false, false, [⟨35, 35, .ro, 0x0⟩, ⟨31, 0, .ro, 0x0⟩]⟩,
  ⟨"SEC_DBGCTL", 0x12, 1, 1, false, false, false, false, [⟨1, 1, .wo, 0x0⟩, ⟨0, 0, .wo, 0x0⟩]⟩,
  ⟨"SEC_DEVPUB", 0x20, 22, 1, false, false, false, false, [⟨35, 0, .ro, 0x0⟩]⟩,
  ⟨"SEC_DBGCHAL", 0x36, 11, 1, false, false, false, false, [⟨35, 0, .ro, 0x0⟩]⟩,
  ⟨"SEC_DBGRESP", 0x41, 44, 1, false, false, false, false, [⟨35, 0, .wo, 0x0⟩]⟩]
/-! ### FLASHC -/
def FLASHC_STAT.at : Nat := 0x01208
def FLASHC_STAT.BUSY1 : Fd := ⟨0x01208, 35, 35⟩
def FLASHC_STAT.BUSY0 : Fd := ⟨0x01208, 34, 34⟩
def FLASHC_STAT.OP : Fd := ⟨0x01208, 33, 32⟩
def FLASHC_STAT.LDTRY : Fd := ⟨0x01208, 28, 26⟩
def FLASHC_STAT.OTPCE : Fd := ⟨0x01208, 23, 16⟩
def FLASHC_STAT.SUSPCNT : Fd := ⟨0x01208, 12, 0⟩
def FLASHC_MCNT.at : Nat := 0x01209
def FLASHC_MCNT.PREV : Fd := ⟨0x01209, 35, 18⟩
def FLASHC_MCNT.CUR : Fd := ⟨0x01209, 17, 0⟩
def FLASHC_ERRADDR.at : Nat := 0x0120A
def FLASHC_ERRADDR.ADDR : Fd := ⟨0x0120A, 27, 0⟩
def FLASHC_READ.at : Nat := 0x01210
def FLASHC_READ.RT : Fd := ⟨0x01210, 5, 0⟩
def FLASHC_MARGIN.at : Nat := 0x01211
def FLASHC_MARGIN.LIM : Fd := ⟨0x01211, 17, 0⟩
/-- The register tables of FLASHC. -/
def regsFLASHC : List RegDef := [
  ⟨"FLASHC_STAT", 0x08, 1, 1, false, false, false, false, [⟨35, 35, .ro, 0x0⟩, ⟨34, 34, .ro, 0x0⟩, ⟨33, 32, .ro, 0x0⟩, ⟨28, 26, .ro, 0x1⟩, ⟨23, 16, .ro, 0x0⟩, ⟨12, 0, .ro, 0x0⟩]⟩,
  ⟨"FLASHC_MCNT", 0x09, 1, 1, false, false, false, false, [⟨35, 18, .ro, 0x0⟩, ⟨17, 0, .ro, 0x0⟩]⟩,
  ⟨"FLASHC_ERRADDR", 0x0A, 1, 1, false, false, false, false, [⟨27, 0, .ro, 0x0⟩]⟩,
  ⟨"FLASHC_READ", 0x10, 1, 1, false, false, false, false, [⟨5, 0, .rw, 0x18⟩]⟩,
  ⟨"FLASHC_MARGIN", 0x11, 1, 1, false, false, false, false, [⟨17, 0, .rw, 0x10⟩]⟩]
/-! ### TWIN -/
def TWIN_STAT.at : Nat := 0x01308
def TWIN_STAT.CAUSE : Fd := ⟨0x01308, 35, 33⟩
def TWIN_STAT.SST : Fd := ⟨0x01308, 32, 30⟩
def TWIN_STAT.ROLE : Fd := ⟨0x01308, 29, 28⟩
def TWIN_STAT.PROLE : Fd := ⟨0x01308, 27, 26⟩
def TWIN_STAT.READY : Fd := ⟨0x01308, 25, 25⟩
def TWIN_STAT.PREADY : Fd := ⟨0x01308, 24, 24⟩
def TWIN_STAT.ALIGN : Fd := ⟨0x01308, 23, 23⟩
def TWIN_STAT.ENGOK : Fd := ⟨0x01308, 22, 22⟩
def TWIN_STAT.OVFULL : Fd := ⟨0x01308, 21, 21⟩
def TWIN_STAT.SLVHB : Fd := ⟨0x01308, 20, 20⟩
def TWIN_STAT.OWNOUT : Fd := ⟨0x01308, 19, 19⟩
def TWIN_STAT.OWNIN : Fd := ⟨0x01308, 18, 18⟩
def TWIN_STAT.PALERT : Fd := ⟨0x01308, 15, 0⟩
def TWIN_LSTAT.at : Nat := 0x01309
def TWIN_LSTAT.LST : Fd := ⟨0x01309, 9, 8⟩
def TWIN_LSTAT.LOCK : Fd := ⟨0x01309, 7, 4⟩
def TWIN_LSTAT.TEST : Fd := ⟨0x01309, 3, 0⟩
def TWIN_LCNT.at : Nat := 0x0130A
def TWIN_LCNT.NAK : Fd := ⟨0x0130A, 35, 24⟩
def TWIN_LCNT.RETX : Fd := ⟨0x0130A, 23, 12⟩
def TWIN_LCNT.FAIL : Fd := ⟨0x0130A, 11, 0⟩
def TWIN_MCYC.at : Nat := 0x0130B
def TWIN_MCYC.CYC : Fd := ⟨0x0130B, 35, 0⟩
def TWIN_MCNT.at : Nat := 0x0130C
def TWIN_MCNT.SKIP : Fd := ⟨0x0130C, 35, 18⟩
def TWIN_MCNT.REFUSED : Fd := ⟨0x0130C, 17, 0⟩
def TWIN_HBAGE.at : Nat := 0x0130D
def TWIN_HBAGE.AGE : Fd := ⟨0x0130D, 31, 0⟩
def TWIN_ROLE.at : Nat := 0x01310
def TWIN_ROLE.ROLE : Fd := ⟨0x01310, 1, 0⟩
def TWIN_SCFG.at : Nat := 0x01311
def TWIN_SCFG.OWNTK : Fd := ⟨0x01311, 35, 35⟩
def TWIN_SCFG.RECREL : Fd := ⟨0x01311, 34, 34⟩
def TWIN_SCFG.OWNFILT : Fd := ⟨0x01311, 33, 30⟩
def TWIN_SCFG.TSRC : Fd := ⟨0x01311, 29, 27⟩
def TWIN_TIMEOUT.at : Nat := 0x01312
def TWIN_TIMEOUT.TO : Fd := ⟨0x01312, 13, 0⟩
def TWIN_MCFG.at : Nat := 0x01313
def TWIN_MCFG.MEN : Fd := ⟨0x01313, 35, 35⟩
def TWIN_MCFG.FEN : Fd := ⟨0x01313, 34, 34⟩
def TWIN_MCFG.OEN : Fd := ⟨0x01313, 33, 33⟩
def TWIN_MCFG.GRP : Fd := ⟨0x01313, 3, 0⟩
def TWIN_ENGSEL.at (k : Nat) : Nat := (0x01314 + k)
def TWIN_ENGSEL.SEL (k : Nat) : Fd := ⟨(0x01314 + k), 31, 0⟩
def TWIN_FMSEL.at : Nat := 0x01316
def TWIN_FMSEL.SEL : Fd := ⟨0x01316, 15, 0⟩
def TWIN_PAGESEL.at (k : Nat) : Nat := (0x01318 + k)
def TWIN_PAGESEL.SEL (k : Nat) : Fd := ⟨(0x01318 + k), 35, 0⟩
def TWIN_MEM.at (k : Nat) : Nat := (0x0131C + k)
def TWIN_MEM.BASE (k : Nat) : Fd := ⟨(0x0131C + k), 35, 16⟩
def TWIN_MEM.LEN (k : Nat) : Fd := ⟨(0x0131C + k), 8, 0⟩
def TWIN_LCTL.at : Nat := 0x01320
def TWIN_LCTL.TXPOL : Fd := ⟨0x01320, 11, 8⟩
def TWIN_LCTL.RXPOL : Fd := ⟨0x01320, 7, 4⟩
def TWIN_LCTL.SWING : Fd := ⟨0x01320, 3, 2⟩
def TWIN_LCTL.EQ : Fd := ⟨0x01320, 1, 0⟩
def TWIN_TEST.at : Nat := 0x01321
def TWIN_TEST.PAT : Fd := ⟨0x01321, 15, 8⟩
def TWIN_TEST.GEN : Fd := ⟨0x01321, 7, 4⟩
def TWIN_TEST.CHK : Fd := ⟨0x01321, 3, 0⟩
def TWIN_PRBS.at (k : Nat) : Nat := (0x01322 + k)
def TWIN_PRBS.SYNC (k : Nat) : Fd := ⟨(0x01322 + k), 35, 35⟩
def TWIN_PRBS.ERR (k : Nat) : Fd := ⟨(0x01322 + k), 31, 0⟩
def TWIN_INJ.at : Nat := 0x01326
def TWIN_INJ.KIND : Fd := ⟨0x01326, 35, 33⟩
def TWIN_INJ.RETX : Fd := ⟨0x01326, 32, 32⟩
def TWIN_INJ.SKIP : Fd := ⟨0x01326, 31, 24⟩
def TWIN_INJ.COUNT : Fd := ⟨0x01326, 23, 16⟩
def TWIN_INJ.PIDX : Fd := ⟨0x01326, 15, 8⟩
def TWIN_INJ.DLY : Fd := ⟨0x01326, 7, 0⟩
def TWIN_INJMASK.at : Nat := 0x01327
def TWIN_INJMASK.MASK : Fd := ⟨0x01327, 35, 0⟩
/-- The register tables of TWIN. -/
def regsTWIN : List RegDef := [
  ⟨"TWIN_STAT", 0x08, 1, 1, false, false, false, false, [⟨35, 33, .ro, 0x0⟩, ⟨32, 30, .ro, 0x0⟩, ⟨29, 28, .ro, 0x0⟩, ⟨27, 26, .ro, 0x0⟩, ⟨25, 25, .ro, 0x0⟩, ⟨24, 24, .ro, 0x0⟩, ⟨23, 23, .ro, 0x0⟩, ⟨22, 22, .ro, 0x0⟩, ⟨21, 21, .ro, 0x0⟩, ⟨20, 20, .ro, 0x0⟩, ⟨19, 19, .ro, 0x0⟩, ⟨18, 18, .ro, 0x0⟩, ⟨15, 0, .ro, 0x0⟩]⟩,
  ⟨"TWIN_LSTAT", 0x09, 1, 1, false, false, false, false, [⟨9, 8, .ro, 0x0⟩, ⟨7, 4, .ro, 0x0⟩, ⟨3, 0, .ro, 0x0⟩]⟩,
  ⟨"TWIN_LCNT", 0x0A, 1, 1, false, false, false, false, [⟨35, 24, .ro, 0x0⟩, ⟨23, 12, .ro, 0x0⟩, ⟨11, 0, .ro, 0x0⟩]⟩,
  ⟨"TWIN_MCYC", 0x0B, 1, 1, false, false, false, false, [⟨35, 0, .ro, 0x0⟩]⟩,
  ⟨"TWIN_MCNT", 0x0C, 1, 1, false, false, false, false, [⟨35, 18, .ro, 0x0⟩, ⟨17, 0, .ro, 0x0⟩]⟩,
  ⟨"TWIN_HBAGE", 0x0D, 1, 1, false, false, false, false, [⟨31, 0, .ro, 0xFFFFFFFF⟩]⟩,
  ⟨"TWIN_ROLE", 0x10, 1, 1, false, false, true, false, [⟨1, 0, .rw, 0x0⟩]⟩,
  ⟨"TWIN_SCFG", 0x11, 1, 1, false, false, true, false, [⟨35, 35, .rw, 0x1⟩, ⟨34, 34, .rw, 0x0⟩, ⟨33, 30, .rw, 0x2⟩, ⟨29, 27, .rw, 0x0⟩]⟩,
  ⟨"TWIN_TIMEOUT", 0x12, 1, 1, false, false, false, false, [⟨13, 0, .rw, 0x64⟩]⟩,
  ⟨"TWIN_MCFG", 0x13, 1, 1, false, false, false, false, [⟨35, 35, .rw, 0x0⟩, ⟨34, 34, .rw, 0x0⟩, ⟨33, 33, .rw, 0x0⟩, ⟨3, 0, .rw, 0x0⟩]⟩,
  ⟨"TWIN_ENGSEL", 0x14, 2, 1, false, false, false, false, [⟨31, 0, .rw, 0x0⟩]⟩,
  ⟨"TWIN_FMSEL", 0x16, 1, 1, false, false, false, false, [⟨15, 0, .rw, 0x0⟩]⟩,
  ⟨"TWIN_PAGESEL", 0x18, 4, 1, false, false, false, false, [⟨35, 0, .rw, 0x0⟩]⟩,
  ⟨"TWIN_MEM", 0x1C, 4, 1, false, false, false, false, [⟨35, 16, .rw, 0x0⟩, ⟨8, 0, .rw, 0x0⟩]⟩,
  ⟨"TWIN_LCTL", 0x20, 1, 1, false, false, false, false, [⟨11, 8, .rw, 0x0⟩, ⟨7, 4, .rw, 0x0⟩, ⟨3, 2, .rw, 0x0⟩, ⟨1, 0, .rw, 0x0⟩]⟩,
  ⟨"TWIN_TEST", 0x21, 1, 1, false, false, false, false, [⟨15, 8, .rw, 0x0⟩, ⟨7, 4, .rw, 0x0⟩, ⟨3, 0, .rw, 0x0⟩]⟩,
  ⟨"TWIN_PRBS", 0x22, 4, 1, false, false, false, false, [⟨35, 35, .ro, 0x0⟩, ⟨31, 0, .ro, 0x0⟩]⟩,
  ⟨"TWIN_INJ", 0x26, 1, 1, false, false, false, false, [⟨35, 33, .rw, 0x0⟩, ⟨32, 32, .rw, 0x0⟩, ⟨31, 24, .rw, 0x0⟩, ⟨23, 16, .rw, 0x0⟩, ⟨15, 8, .rw, 0x0⟩, ⟨7, 0, .rw, 0x0⟩]⟩,
  ⟨"TWIN_INJMASK", 0x27, 1, 1, false, false, false, false, [⟨35, 0, .rw, 0x0⟩]⟩]
/-! ### CORE -/
def CORE_STAT.at (i : Nat) : Nat := (0x02008 + i * 256)
def CORE_STAT.COMPAT (i : Nat) : Fd := ⟨(0x02008 + i * 256), 9, 9⟩
def CORE_STAT.SUP (i : Nat) : Fd := ⟨(0x02008 + i * 256), 8, 8⟩
def CORE_STAT.WBN (i : Nat) : Fd := ⟨(0x02008 + i * 256), 6, 4⟩
def CORE_STAT.WBEMPTY (i : Nat) : Fd := ⟨(0x02008 + i * 256), 3, 3⟩
def CORE_STAT.WAIT (i : Nat) : Fd := ⟨(0x02008 + i * 256), 2, 2⟩
def CORE_STAT.HELD (i : Nat) : Fd := ⟨(0x02008 + i * 256), 1, 1⟩
def CORE_STAT.RUN (i : Nat) : Fd := ⟨(0x02008 + i * 256), 0, 0⟩
def CORE_IPMON.at (i : Nat) : Nat := (0x02009 + i * 256)
def CORE_IPMON.IP (i : Nat) : Fd := ⟨(0x02009 + i * 256), 28, 0⟩
def CORE_FBCNT.at (i : Nat) : Nat := (0x0200A + i * 256)
def CORE_FBCNT.HIT (i : Nat) : Fd := ⟨(0x0200A + i * 256), 35, 18⟩
def CORE_FBCNT.MISS (i : Nat) : Fd := ⟨(0x0200A + i * 256), 17, 0⟩
def CORE_STALL.at (i : Nat) : Nat := (0x0200B + i * 256)
def CORE_STALL.WBFULL (i : Nat) : Fd := ⟨(0x0200B + i * 256), 35, 18⟩
def CORE_STALL.SPLIT (i : Nat) : Fd := ⟨(0x0200B + i * 256), 17, 0⟩
def CORE_FBCFG.at (i : Nat) : Nat := (0x02010 + i * 256)
def CORE_FBCFG.PREF (i : Nat) : Fd := ⟨(0x02010 + i * 256), 0, 0⟩
/-- The register tables of CORE. -/
def regsCORE : List RegDef := [
  ⟨"CORE_STAT", 0x08, 1, 1, false, false, false, false, [⟨9, 9, .ro, 0x0⟩, ⟨8, 8, .ro, 0x1⟩, ⟨6, 4, .ro, 0x0⟩, ⟨3, 3, .ro, 0x1⟩, ⟨2, 2, .ro, 0x0⟩, ⟨1, 1, .ro, 0x0⟩, ⟨0, 0, .ro, 0x0⟩]⟩,
  ⟨"CORE_IPMON", 0x09, 1, 1, false, false, false, false, [⟨28, 0, .ro, 0x0⟩]⟩,
  ⟨"CORE_FBCNT", 0x0A, 1, 1, false, false, false, false, [⟨35, 18, .ro, 0x0⟩, ⟨17, 0, .ro, 0x0⟩]⟩,
  ⟨"CORE_STALL", 0x0B, 1, 1, false, false, false, false, [⟨35, 18, .ro, 0x0⟩, ⟨17, 0, .ro, 0x0⟩]⟩,
  ⟨"CORE_FBCFG", 0x10, 1, 1, false, false, false, false, [⟨0, 0, .rw, 0x1⟩]⟩]
/-! ### TSC -/
def TSC_STAT.at (i : Nat) : Nat := (0x02808 + i * 256)
def TSC_STAT.FPV (i : Nat) : Fd := ⟨(0x02808 + i * 256), 16, 16⟩
def TSC_STAT.FPOWN (i : Nat) : Fd := ⟨(0x02808 + i * 256), 15, 11⟩
def TSC_STAT.IDLE (i : Nat) : Fd := ⟨(0x02808 + i * 256), 10, 10⟩
def TSC_STAT.RP (i : Nat) : Fd := ⟨(0x02808 + i * 256), 9, 8⟩
def TSC_STAT.DEPTH (i : Nat) : Fd := ⟨(0x02808 + i * 256), 7, 5⟩
def TSC_STAT.RUN (i : Nat) : Fd := ⟨(0x02808 + i * 256), 4, 0⟩
def TSC_READY.at (i : Nat) : Nat := (0x02809 + i * 256)
def TSC_READY.READY (i : Nat) : Fd := ⟨(0x02809 + i * 256), 31, 0⟩
def TSC_WAITING.at (i : Nat) : Nat := (0x0280A + i * 256)
def TSC_WAITING.WAIT (i : Nat) : Fd := ⟨(0x0280A + i * 256), 31, 0⟩
def TSC_LOST.at (i : Nat) : Nat := (0x0280B + i * 256)
def TSC_LOST.LOST (i : Nat) : Fd := ⟨(0x0280B + i * 256), 31, 0⟩
def TSC_BANK.at (i : Nat) : Nat := (0x02810 + i * 256)
def TSC_BANK.BANKS (i : Nat) : Fd := ⟨(0x02810 + i * 256), 35, 0⟩
def TSC_SWACT.at (i : Nat) : Nat := (0x02811 + i * 256)
def TSC_SWACT.ACT (i : Nat) : Fd := ⟨(0x02811 + i * 256), 31, 0⟩
def TSC_IPRI.at (i : Nat) (k : Nat) : Nat := (0x02812 + i * 256 + k)
def TSC_IPRI.PRI (i : Nat) (k : Nat) : Fd := ⟨(0x02812 + i * 256 + k), 31, 0⟩
def TSC_WDOG.at (i : Nat) : Nat := (0x02815 + i * 256)
def TSC_WDOG.EN (i : Nat) : Fd := ⟨(0x02815 + i * 256), 35, 35⟩
def TSC_WDOG.TIME (i : Nat) : Fd := ⟨(0x02815 + i * 256), 31, 0⟩
def TSC_WDKICK.at (i : Nat) : Nat := (0x02816 + i * 256)
def TSC_WDKICK.KEY (i : Nat) : Fd := ⟨(0x02816 + i * 256), 35, 0⟩
def TSC_SLOTCFG.at (i : Nat) (k : Nat) : Nat := (0x02820 + i * 256 + k)
def TSC_SLOTCFG.EN (i : Nat) (k : Nat) : Fd := ⟨(0x02820 + i * 256 + k), 35, 35⟩
def TSC_SLOTCFG.SUP (i : Nat) (k : Nat) : Fd := ⟨(0x02820 + i * 256 + k), 34, 34⟩
def TSC_SLOTCFG.PRI (i : Nat) (k : Nat) : Fd := ⟨(0x02820 + i * 256 + k), 27, 24⟩
def TSC_SLOTCFG.ASRC (i : Nat) (k : Nat) : Fd := ⟨(0x02820 + i * 256 + k), 23, 22⟩
def TSC_SLOTCFG.TSBIDX (i : Nat) (k : Nat) : Fd := ⟨(0x02820 + i * 256 + k), 8, 0⟩
def TSC_SLOTPAR.at (i : Nat) (k : Nat) : Nat := (0x02840 + i * 256 + k)
def TSC_SLOTPAR.QUEUE (i : Nat) (k : Nat) : Fd := ⟨(0x02840 + i * 256 + k), 14, 0⟩
def TSC_TMR.at (i : Nat) (k : Nat) : Nat := (0x02860 + i * 256 + k)
def TSC_TMR.PERIODIC (i : Nat) (k : Nat) : Fd := ⟨(0x02860 + i * 256 + k), 35, 35⟩
def TSC_TMR.PER (i : Nat) (k : Nat) : Fd := ⟨(0x02860 + i * 256 + k), 31, 0⟩
/-- The register tables of TSC. -/
def regsTSC : List RegDef := [
  ⟨"TSC_STAT", 0x08, 1, 1, false, false, false, false, [⟨16, 16, .ro, 0x0⟩, ⟨15, 11, .ro, 0x0⟩, ⟨10, 10, .ro, 0x0⟩, ⟨9, 8, .ro, 0x0⟩, ⟨7, 5, .ro, 0x0⟩, ⟨4, 0, .ro, 0x0⟩]⟩,
  ⟨"TSC_READY", 0x09, 1, 1, false, false, false, false, [⟨31, 0, .ro, 0x0⟩]⟩,
  ⟨"TSC_WAITING", 0x0A, 1, 1, false, false, false, false, [⟨31, 0, .ro, 0x0⟩]⟩,
  ⟨"TSC_LOST", 0x0B, 1, 1, false, false, false, false, [⟨31, 0, .w1c, 0x0⟩]⟩,
  ⟨"TSC_BANK", 0x10, 1, 1, false, false, false, false, [⟨35, 0, .rw, 0x0⟩]⟩,
  ⟨"TSC_SWACT", 0x11, 1, 1, false, false, false, false, [⟨31, 0, .wo, 0x0⟩]⟩,
  ⟨"TSC_IPRI", 0x12, 3, 1, false, false, false, false, [⟨31, 0, .rw, 0x0⟩]⟩,
  ⟨"TSC_WDOG", 0x15, 1, 1, false, false, true, false, [⟨35, 35, .rw, 0x0⟩, ⟨31, 0, .rw, 0x3E8⟩]⟩,
  ⟨"TSC_WDKICK", 0x16, 1, 1, false, false, false, false, [⟨35, 0, .wo, 0x0⟩]⟩,
  ⟨"TSC_SLOTCFG", 0x20, 1, 1, false, false, false, false, [⟨35, 35, .rw, 0x1⟩, ⟨34, 34, .rw, 0x1⟩, ⟨27, 24, .rw, 0x0⟩, ⟨23, 22, .rw, 0x0⟩, ⟨8, 0, .rw, 0x1FF⟩]⟩,
  ⟨"TSC_SLOTCFG", 0x21, 31, 1, false, false, false, false, [⟨35, 35, .rw, 0x0⟩, ⟨34, 34, .rw, 0x1⟩, ⟨27, 24, .rw, 0x0⟩, ⟨23, 22, .rw, 0x0⟩, ⟨8, 0, .rw, 0x1FF⟩]⟩,
  ⟨"TSC_SLOTPAR", 0x40, 32, 1, false, false, false, false, [⟨14, 0, .rw, 0x0⟩]⟩,
  ⟨"TSC_TMR", 0x60, 32, 1, false, false, false, false, [⟨35, 35, .rw, 0x0⟩, ⟨31, 0, .rw, 0x0⟩]⟩]
/-! ### FORME -/
def FORME_STAT.at (i : Nat) : Nat := (0x04008 + i * 256)
def FORME_STAT.PEND (i : Nat) : Fd := ⟨(0x04008 + i * 256), 11, 8⟩
def FORME_STAT.CALWAIT (i : Nat) : Fd := ⟨(0x04008 + i * 256), 5, 5⟩
def FORME_STAT.DIR (i : Nat) : Fd := ⟨(0x04008 + i * 256), 4, 4⟩
def FORME_STAT.CST (i : Nat) : Fd := ⟨(0x04008 + i * 256), 1, 0⟩
def FORME_CNT.at (i : Nat) : Nat := (0x04009 + i * 256)
def FORME_CNT.CNT (i : Nat) : Fd := ⟨(0x04009 + i * 256), 23, 0⟩
def FORME_PCNT.at (i : Nat) : Nat := (0x0400A + i * 256)
def FORME_PCNT.PCNT (i : Nat) : Fd := ⟨(0x0400A + i * 256), 35, 0⟩
def FORME_BTS.at (i : Nat) : Nat := (0x0400B + i * 256)
def FORME_BTS.TS (i : Nat) : Fd := ⟨(0x0400B + i * 256), 35, 0⟩
def FORME_LLCNT.at (i : Nat) : Nat := (0x0400C + i * 256)
def FORME_LLCNT.ACC (i : Nat) : Fd := ⟨(0x0400C + i * 256), 35, 18⟩
def FORME_LLCNT.DEF (i : Nat) : Fd := ⟨(0x0400C + i * 256), 17, 0⟩
def FORME_PSTAT.at (i : Nat) : Nat := (0x0400D + i * 256)
def FORME_PSTAT.PAIR (i : Nat) : Fd := ⟨(0x0400D + i * 256), 31, 0⟩
def FORME_SWCNT.at (i : Nat) : Nat := (0x0400E + i * 256)
def FORME_SWCNT.CNT (i : Nat) : Fd := ⟨(0x0400E + i * 256), 35, 0⟩
def FORME_PADST.at (i : Nat) : Nat := (0x0400F + i * 256)
def FORME_PADST.LVL (i : Nat) : Fd := ⟨(0x0400F + i * 256), 15, 8⟩
def FORME_PADST.SRC (i : Nat) : Fd := ⟨(0x0400F + i * 256), 7, 0⟩
def FORME_MODE.at (i : Nat) : Nat := (0x04010 + i * 256)
def FORME_MODE.PRE (i : Nat) : Fd := ⟨(0x04010 + i * 256), 19, 16⟩
def FORME_MODE.UPD (i : Nat) : Fd := ⟨(0x04010 + i * 256), 10, 8⟩
def FORME_MODE.CMODE (i : Nat) : Fd := ⟨(0x04010 + i * 256), 1, 0⟩
def FORME_PERIOD.at (i : Nat) : Nat := (0x04011 + i * 256)
def FORME_PERIOD.PERIOD (i : Nat) : Fd := ⟨(0x04011 + i * 256), 24, 0⟩
def FORME_SYNC.at (i : Nat) : Nat := (0x04012 + i * 256)
def FORME_SYNC.SSRC (i : Nat) : Fd := ⟨(0x04012 + i * 256), 35, 34⟩
def FORME_SYNC.ACT (i : Nat) : Fd := ⟨(0x04012 + i * 256), 33, 33⟩
def FORME_SYNC.SINST (i : Nat) : Fd := ⟨(0x04012 + i * 256), 32, 29⟩
def FORME_SYNC.PHASE (i : Nat) : Fd := ⟨(0x04012 + i * 256), 24, 0⟩
def FORME_RUN.at (i : Nat) : Nat := (0x04013 + i * 256)
def FORME_RUN.RUN (i : Nat) : Fd := ⟨(0x04013 + i * 256), 0, 0⟩
def FORME_LATEG.at (i : Nat) : Nat := (0x04014 + i * 256)
def FORME_LATEG.GUARD (i : Nat) : Fd := ⟨(0x04014 + i * 256), 7, 0⟩
def FORME_EVCZ.at (i : Nat) : Nat := (0x04015 + i * 256)
def FORME_EVCZ.OFS (i : Nat) : Fd := ⟨(0x04015 + i * 256), 17, 0⟩
def FORME_EVCP.at (i : Nat) : Nat := (0x04016 + i * 256)
def FORME_EVCP.OFS (i : Nat) : Fd := ⟨(0x04016 + i * 256), 17, 0⟩
def FORME_EVED.at (i : Nat) (k : Nat) : Nat := (0x04018 + i * 256 + k)
def FORME_EVED.SEL (i : Nat) (k : Nat) : Fd := ⟨(0x04018 + i * 256 + k), 13, 12⟩
def FORME_EVED.OFS (i : Nat) (k : Nat) : Fd := ⟨(0x04018 + i * 256 + k), 11, 0⟩
def FORME_CMPA.at (i : Nat) (k : Nat) : Nat := (0x04020 + i * 256 + k)
def FORME_CMPA.TICK (i : Nat) (k : Nat) : Fd := ⟨(0x04020 + i * 256 + k), 28, 5⟩
def FORME_CMPA.FINE (i : Nat) (k : Nat) : Fd := ⟨(0x04020 + i * 256 + k), 4, 0⟩
def FORME_CMPB.at (i : Nat) (k : Nat) : Nat := (0x04024 + i * 256 + k)
def FORME_CMPB.TICK (i : Nat) (k : Nat) : Fd := ⟨(0x04024 + i * 256 + k), 28, 5⟩
def FORME_CMPB.FINE (i : Nat) (k : Nat) : Fd := ⟨(0x04024 + i * 256 + k), 4, 0⟩
def FORME_HT.at (i : Nat) (k : Nat) : Nat := (0x04028 + i * 256 + k)
def FORME_HT.HTB (i : Nat) (k : Nat) : Fd := ⟨(0x04028 + i * 256 + k), 15, 8⟩
def FORME_HT.HTA (i : Nat) (k : Nat) : Fd := ⟨(0x04028 + i * 256 + k), 7, 0⟩
def FORME_PCFG.at (i : Nat) (k : Nat) : Nat := (0x04030 + i * 256 + k)
def FORME_PCFG.PMODE (i : Nat) (k : Nat) : Fd := ⟨(0x04030 + i * 256 + k), 13, 12⟩
def FORME_PCFG.POLB (i : Nat) (k : Nat) : Fd := ⟨(0x04030 + i * 256 + k), 9, 9⟩
def FORME_PCFG.POLA (i : Nat) (k : Nat) : Fd := ⟨(0x04030 + i * 256 + k), 8, 8⟩
def FORME_PCFG.DISB (i : Nat) (k : Nat) : Fd := ⟨(0x04030 + i * 256 + k), 3, 2⟩
def FORME_PCFG.DISA (i : Nat) (k : Nat) : Fd := ⟨(0x04030 + i * 256 + k), 1, 0⟩
def FORME_GUTUP.at (i : Nat) (k : Nat) : Nat := (0x04034 + i * 256 + k)
def FORME_GUTUP.TICK (i : Nat) (k : Nat) : Fd := ⟨(0x04034 + i * 256 + k), 16, 5⟩
def FORME_GUTUP.FINE (i : Nat) (k : Nat) : Fd := ⟨(0x04034 + i * 256 + k), 4, 0⟩
def FORME_GUTDN.at (i : Nat) (k : Nat) : Nat := (0x04038 + i * 256 + k)
def FORME_GUTDN.TICK (i : Nat) (k : Nat) : Fd := ⟨(0x04038 + i * 256 + k), 16, 5⟩
def FORME_GUTDN.FINE (i : Nat) (k : Nat) : Fd := ⟨(0x04038 + i * 256 + k), 4, 0⟩
def FORME_MINP.at (i : Nat) : Nat := (0x0403C + i * 256)
def FORME_MINP.POL (i : Nat) : Fd := ⟨(0x0403C + i * 256), 16, 16⟩
def FORME_MINP.MIN (i : Nat) : Fd := ⟨(0x0403C + i * 256), 9, 0⟩
def FORME_GUARD.at (i : Nat) : Nat := (0x0403D + i * 256)
def FORME_GUARD.GUT (i : Nat) : Fd := ⟨(0x0403D + i * 256), 16, 0⟩
def FORME_ILK.at (i : Nat) : Nat := (0x0403E + i * 256)
def FORME_ILK.FLOOR (i : Nat) : Fd := ⟨(0x0403E + i * 256), 15, 8⟩
def FORME_ILK.DIS (i : Nat) : Fd := ⟨(0x0403E + i * 256), 3, 0⟩
def FORME_GFLOOR.at (i : Nat) (k : Nat) : Nat := (0x04040 + i * 256 + k)
def FORME_GFLOOR.FLUP (i : Nat) (k : Nat) : Fd := ⟨(0x04040 + i * 256 + k), 27, 16⟩
def FORME_GFLOOR.FLDN (i : Nat) (k : Nat) : Fd := ⟨(0x04040 + i * 256 + k), 11, 0⟩
def FORME_GCEIL.at (i : Nat) (k : Nat) : Nat := (0x04044 + i * 256 + k)
def FORME_GCEIL.CLUP (i : Nat) (k : Nat) : Fd := ⟨(0x04044 + i * 256 + k), 27, 16⟩
def FORME_GCEIL.CLDN (i : Nat) (k : Nat) : Fd := ⟨(0x04044 + i * 256 + k), 11, 0⟩
def FORME_TRIM.at (i : Nat) (k : Nat) : Nat := (0x04048 + i * 256 + k)
def FORME_TRIM.EN (i : Nat) (k : Nat) : Fd := ⟨(0x04048 + i * 256 + k), 35, 35⟩
def FORME_TRIM.UPEN (i : Nat) (k : Nat) : Fd := ⟨(0x04048 + i * 256 + k), 34, 34⟩
def FORME_TRIM.DNEN (i : Nat) (k : Nat) : Fd := ⟨(0x04048 + i * 256 + k), 33, 33⟩
def FORME_TRIM.CMP (i : Nat) (k : Nat) : Fd := ⟨(0x04048 + i * 256 + k), 29, 24⟩
def FORME_TRIM.MARGIN (i : Nat) (k : Nat) : Fd := ⟨(0x04048 + i * 256 + k), 7, 0⟩
def FORME_GACT.at (i : Nat) (k : Nat) : Nat := (0x0404C + i * 256 + k)
def FORME_GACT.UP (i : Nat) (k : Nat) : Fd := ⟨(0x0404C + i * 256 + k), 33, 17⟩
def FORME_GACT.DN (i : Nat) (k : Nat) : Fd := ⟨(0x0404C + i * 256 + k), 16, 0⟩
def FORME_GMEAS.at (i : Nat) (k : Nat) : Nat := (0x04050 + i * 256 + k)
def FORME_GMEAS.MUP (i : Nat) (k : Nat) : Fd := ⟨(0x04050 + i * 256 + k), 27, 16⟩
def FORME_GMEAS.MDN (i : Nat) (k : Nat) : Fd := ⟨(0x04050 + i * 256 + k), 11, 0⟩
/-- The register tables of FORME. -/
def regsFORME : List RegDef := [
  ⟨"FORME_STAT", 0x08, 1, 1, false, false, false, false, [⟨11, 8, .ro, 0x0⟩, ⟨5, 5, .ro, 0x0⟩, ⟨4, 4, .ro, 0x0⟩, ⟨1, 0, .ro, 0x0⟩]⟩,
  ⟨"FORME_CNT", 0x09, 1, 1, false, false, false, false, [⟨23, 0, .ro, 0x0⟩]⟩,
  ⟨"FORME_PCNT", 0x0A, 1, 1, false, false, false, false, [⟨35, 0, .ro, 0x0⟩]⟩,
  ⟨"FORME_BTS", 0x0B, 1, 1, false, false, false, false, [⟨35, 0, .ro, 0x0⟩]⟩,
  ⟨"FORME_LLCNT", 0x0C, 1, 1, false, false, false, false, [⟨35, 18, .ro, 0x0⟩, ⟨17, 0, .ro, 0x0⟩]⟩,
  ⟨"FORME_PSTAT", 0x0D, 1, 1, false, false, false, false, [⟨31, 0, .ro, 0x8080808⟩]⟩,
  ⟨"FORME_SWCNT", 0x0E, 1, 1, false, false, false, false, [⟨35, 0, .ro, 0x0⟩]⟩,
  ⟨"FORME_PADST", 0x0F, 1, 1, false, false, false, false, [⟨15, 8, .ro, 0x0⟩, ⟨7, 0, .ro, 0xAA⟩]⟩,
  ⟨"FORME_MODE", 0x10, 1, 1, true, true, false, false, [⟨19, 16, .rw, 0x0⟩, ⟨10, 8, .rw, 0x0⟩, ⟨1, 0, .rw, 0x0⟩]⟩,
  ⟨"FORME_PERIOD", 0x11, 1, 1, true, true, false, false, [⟨24, 0, .rw, 0x64⟩]⟩,
  ⟨"FORME_SYNC", 0x12, 1, 1, true, true, false, false, [⟨35, 34, .rw, 0x0⟩, ⟨33, 33, .rw, 0x0⟩, ⟨32, 29, .rw, 0x0⟩, ⟨24, 0, .rw, 0x0⟩]⟩,
  ⟨"FORME_RUN", 0x13, 1, 1, false, false, false, false, [⟨0, 0, .rw, 0x0⟩]⟩,
  ⟨"FORME_LATEG", 0x14, 1, 1, true, true, false, false, [⟨7, 0, .rw, 0x10⟩]⟩,
  ⟨"FORME_EVCZ", 0x15, 1, 1, true, true, false, false, [⟨17, 0, .rw, 0x0⟩]⟩,
  ⟨"FORME_EVCP", 0x16, 1, 1, true, true, false, false, [⟨17, 0, .rw, 0x0⟩]⟩,
  ⟨"FORME_EVED", 0x18, 4, 1, true, true, false, false, [⟨13, 12, .rw, 0x0⟩, ⟨11, 0, .rw, 0x0⟩]⟩,
  ⟨"FORME_CMPA", 0x20, 4, 1, false, false, false, false, [⟨28, 5, .rw, 0xFFFFFF⟩, ⟨4, 0, .rw, 0x1F⟩]⟩,
  ⟨"FORME_CMPB", 0x24, 4, 1, false, false, false, false, [⟨28, 5, .rw, 0xFFFFFF⟩, ⟨4, 0, .rw, 0x1F⟩]⟩,
  ⟨"FORME_HT", 0x28, 4, 1, false, false, false, false, [⟨15, 8, .rw, 0x0⟩, ⟨7, 0, .rw, 0x0⟩]⟩,
  ⟨"FORME_PCFG", 0x30, 4, 1, true, true, true, false, [⟨13, 12, .rw, 0x0⟩, ⟨9, 9, .rw, 0x0⟩, ⟨8, 8, .rw, 0x0⟩, ⟨3, 2, .rw, 0x0⟩, ⟨1, 0, .rw, 0x0⟩]⟩,
  ⟨"FORME_GUTUP", 0x34, 4, 1, true, true, true, true, [⟨16, 5, .rw, 0x0⟩, ⟨4, 0, .rw, 0x0⟩]⟩,
  ⟨"FORME_GUTDN", 0x38, 4, 1, true, true, true, true, [⟨16, 5, .rw, 0x0⟩, ⟨4, 0, .rw, 0x0⟩]⟩,
  ⟨"FORME_MINP", 0x3C, 1, 1, true, true, false, false, [⟨16, 16, .rw, 0x0⟩, ⟨9, 0, .rw, 0x0⟩]⟩,
  ⟨"FORME_GUARD", 0x3D, 1, 1, false, false, false, false, [⟨16, 0, .ro, 0x0⟩]⟩,
  ⟨"FORME_ILK", 0x3E, 1, 1, false, false, false, false, [⟨15, 8, .ro, 0x0⟩, ⟨3, 0, .ro, 0x0⟩]⟩,
  ⟨"FORME_GFLOOR", 0x40, 4, 1, true, true, true, true, [⟨27, 16, .rw, 0x0⟩, ⟨11, 0, .rw, 0x0⟩]⟩,
  ⟨"FORME_GCEIL", 0x44, 4, 1, true, true, true, false, [⟨27, 16, .rw, 0xFFF⟩, ⟨11, 0, .rw, 0xFFF⟩]⟩,
  ⟨"FORME_TRIM", 0x48, 4, 1, true, true, false, false, [⟨35, 35, .rw, 0x0⟩, ⟨34, 34, .rw, 0x1⟩, ⟨33, 33, .rw, 0x1⟩, ⟨29, 24, .rw, 0x0⟩, ⟨7, 0, .rw, 0x20⟩]⟩,
  ⟨"FORME_GACT", 0x4C, 4, 1, false, false, false, false, [⟨33, 17, .ro, 0x0⟩, ⟨16, 0, .ro, 0x0⟩]⟩,
  ⟨"FORME_GMEAS", 0x50, 4, 1, false, false, false, false, [⟨27, 16, .ro, 0xFFF⟩, ⟨11, 0, .ro, 0xFFF⟩]⟩]
/-! ### TRIPNET -/
def TRIPNET_ROUTEA.at (k : Nat) : Nat := (0x05010 + k)
def TRIPNET_ROUTEA.CLS1 (k : Nat) : Fd := ⟨(0x05010 + k), 35, 34⟩
def TRIPNET_ROUTEA.FM1 (k : Nat) : Fd := ⟨(0x05010 + k), 33, 18⟩
def TRIPNET_ROUTEA.CLS0 (k : Nat) : Fd := ⟨(0x05010 + k), 17, 16⟩
def TRIPNET_ROUTEA.FM0 (k : Nat) : Fd := ⟨(0x05010 + k), 15, 0⟩
def TRIPNET_LIVE.at (k : Nat) : Nat := (0x05108 + k)
def TRIPNET_LIVE.LIVE (k : Nat) : Fd := ⟨(0x05108 + k), 31, 0⟩
def TRIPNET_ROUTEB.at (k : Nat) : Nat := (0x05110 + k)
def TRIPNET_ROUTEB.CLS1 (k : Nat) : Fd := ⟨(0x05110 + k), 35, 34⟩
def TRIPNET_ROUTEB.FM1 (k : Nat) : Fd := ⟨(0x05110 + k), 33, 18⟩
def TRIPNET_ROUTEB.CLS0 (k : Nat) : Fd := ⟨(0x05110 + k), 17, 16⟩
def TRIPNET_ROUTEB.FM0 (k : Nat) : Fd := ⟨(0x05110 + k), 15, 0⟩
def TRIPNET_CLR.at : Nat := 0x05154
def TRIPNET_CLR.CLS : Fd := ⟨0x05154, 19, 16⟩
def TRIPNET_CLR.FM : Fd := ⟨0x05154, 15, 0⟩
def TRIPNET_SWTRIP.at : Nat := 0x05155
def TRIPNET_SWTRIP.ACT : Fd := ⟨0x05155, 0, 0⟩
def TRIPNET_INPOL.at : Nat := 0x05156
def TRIPNET_INPOL.POL : Fd := ⟨0x05156, 31, 0⟩
def TRIPNET_INFILT.at (k : Nat) : Nat := (0x05158 + k)
def TRIPNET_INFILT.FILT (k : Nat) : Fd := ⟨(0x05158 + k), 31, 0⟩
def TRIPNET_FSTAT.at (k : Nat) : Nat := (0x05160 + k)
def TRIPNET_FSTAT.FIRST (k : Nat) : Fd := ⟨(0x05160 + k), 31, 24⟩
def TRIPNET_FSTAT.BCNT (k : Nat) : Fd := ⟨(0x05160 + k), 23, 16⟩
def TRIPNET_FSTAT.C_LIVE (k : Nat) : Fd := ⟨(0x05160 + k), 9, 9⟩
def TRIPNET_FSTAT.TRIP_LIVE (k : Nat) : Fd := ⟨(0x05160 + k), 8, 8⟩
def TRIPNET_FSTAT.ALERT (k : Nat) : Fd := ⟨(0x05160 + k), 5, 5⟩
def TRIPNET_FSTAT.D (k : Nat) : Fd := ⟨(0x05160 + k), 4, 4⟩
def TRIPNET_FSTAT.C (k : Nat) : Fd := ⟨(0x05160 + k), 3, 3⟩
def TRIPNET_FSTAT.BSEEN (k : Nat) : Fd := ⟨(0x05160 + k), 2, 2⟩
def TRIPNET_FSTAT.BACT (k : Nat) : Fd := ⟨(0x05160 + k), 1, 1⟩
def TRIPNET_FSTAT.A (k : Nat) : Fd := ⟨(0x05160 + k), 0, 0⟩
def TRIPNET_FTS.at (k : Nat) : Nat := (0x05170 + k)
def TRIPNET_FTS.TS (k : Nat) : Fd := ⟨(0x05170 + k), 35, 0⟩
/-- The register tables of TRIPNET (page 050 only). -/
def regsTRIPNET0 : List RegDef := [
  ⟨"TRIPNET_ROUTEA", 0x10, 80, 1, false, false, true, true, [⟨35, 34, .rw, 0x0⟩, ⟨33, 18, .rw, 0x0⟩, ⟨17, 16, .rw, 0x0⟩, ⟨15, 0, .rw, 0x0⟩]⟩,
  ⟨"TRIPNET_ROUTEA", 0x60, 32, 1, false, false, true, true, [⟨35, 34, .rw, 0x0⟩, ⟨33, 18, .rw, 0x0⟩, ⟨17, 16, .rw, 0x0⟩, ⟨15, 0, .rw, 0xFFFF⟩]⟩]
/-- The register tables of TRIPNET (page 051 only). -/
def regsTRIPNET1 : List RegDef := [
  ⟨"TRIPNET_LIVE", 0x08, 6, 1, false, false, false, false, [⟨31, 0, .ro, 0x0⟩]⟩,
  ⟨"TRIPNET_ROUTEB", 0x10, 67, 1, false, false, true, true, [⟨35, 34, .rw, 0x0⟩, ⟨33, 18, .rw, 0x0⟩, ⟨17, 16, .rw, 0x0⟩, ⟨15, 0, .rw, 0x0⟩]⟩,
  ⟨"TRIPNET_CLR", 0x54, 1, 1, false, false, true, false, [⟨19, 16, .wo, 0x0⟩, ⟨15, 0, .wo, 0x0⟩]⟩,
  ⟨"TRIPNET_SWTRIP", 0x55, 1, 1, false, false, true, false, [⟨0, 0, .rw, 0x0⟩]⟩,
  ⟨"TRIPNET_INPOL", 0x56, 1, 1, false, false, true, false, [⟨31, 0, .rw, 0x0⟩]⟩,
  ⟨"TRIPNET_INFILT", 0x58, 4, 1, false, false, true, false, [⟨31, 0, .rw, 0x0⟩]⟩,
  ⟨"TRIPNET_FSTAT", 0x60, 16, 1, false, false, false, false, [⟨31, 24, .ro, 0xFF⟩, ⟨23, 16, .ro, 0x0⟩, ⟨9, 9, .ro, 0x0⟩, ⟨8, 8, .ro, 0x0⟩, ⟨5, 5, .ro, 0x0⟩, ⟨4, 4, .ro, 0x0⟩, ⟨3, 3, .ro, 0x0⟩, ⟨2, 2, .ro, 0x0⟩, ⟨1, 1, .ro, 0x0⟩, ⟨0, 0, .ro, 0x0⟩]⟩,
  ⟨"TRIPNET_FTS", 0x70, 16, 1, false, false, false, false, [⟨35, 0, .ro, 0x0⟩]⟩]
/-! ### SURV -/
def SURV_STAT.at (i : Nat) : Nat := (0x06008 + i * 256)
def SURV_STAT.BUSY (i : Nat) : Fd := ⟨(0x06008 + i * 256), 5, 5⟩
def SURV_STAT.LOWA (i : Nat) : Fd := ⟨(0x06008 + i * 256), 4, 4⟩
def SURV_STAT.CALBUSY (i : Nat) : Fd := ⟨(0x06008 + i * 256), 3, 3⟩
def SURV_STAT.CAL_OK (i : Nat) : Fd := ⟨(0x06008 + i * 256), 2, 2⟩
def SURV_STAT.RDY (i : Nat) : Fd := ⟨(0x06008 + i * 256), 1, 1⟩
def SURV_RESTS.at (i : Nat) : Nat := (0x06009 + i * 256)
def SURV_RESTS.TS (i : Nat) : Fd := ⟨(0x06009 + i * 256), 35, 0⟩
def SURV_PEND.at (i : Nat) : Nat := (0x0600A + i * 256)
def SURV_PEND.PEND (i : Nat) : Fd := ⟨(0x0600A + i * 256), 15, 0⟩
def SURV_CNT.at (i : Nat) : Nat := (0x0600B + i * 256)
def SURV_CNT.LATE (i : Nat) : Fd := ⟨(0x0600B + i * 256), 35, 24⟩
def SURV_CNT.SKIP (i : Nat) : Fd := ⟨(0x0600B + i * 256), 23, 12⟩
def SURV_CNT.LOST (i : Nat) : Fd := ⟨(0x0600B + i * 256), 11, 0⟩
def SURV_CTL.at (i : Nat) : Nat := (0x06010 + i * 256)
def SURV_CTL.VREF (i : Nat) : Fd := ⟨(0x06010 + i * 256), 8, 8⟩
def SURV_SHEETEN.at (i : Nat) : Nat := (0x06011 + i * 256)
def SURV_SHEETEN.EN (i : Nat) : Fd := ⟨(0x06011 + i * 256), 15, 0⟩
def SURV_SWTRIG.at (i : Nat) : Nat := (0x06012 + i * 256)
def SURV_SWTRIG.TRIG (i : Nat) : Fd := ⟨(0x06012 + i * 256), 15, 0⟩
def SURV_CALREQ.at (i : Nat) : Nat := (0x06013 + i * 256)
def SURV_CALREQ.REQ (i : Nat) : Fd := ⟨(0x06013 + i * 256), 0, 0⟩
def SURV_CFG.at (i : Nat) (k : Nat) : Nat := (0x06020 + i * 256 + k)
def SURV_CFG.ACQ (i : Nat) (k : Nat) : Fd := ⟨(0x06020 + i * 256 + k), 35, 28⟩
def SURV_CFG.OSRL (i : Nat) (k : Nat) : Fd := ⟨(0x06020 + i * 256 + k), 27, 25⟩
def SURV_CFG.RES (i : Nat) (k : Nat) : Fd := ⟨(0x06020 + i * 256 + k), 24, 24⟩
def SURV_CFG.LATEPOL (i : Nat) (k : Nat) : Fd := ⟨(0x06020 + i * 256 + k), 23, 23⟩
def SURV_CFG.EVL (i : Nat) (k : Nat) : Fd := ⟨(0x06020 + i * 256 + k), 22, 20⟩
def SURV_CFG.MUX (i : Nat) (k : Nat) : Fd := ⟨(0x06020 + i * 256 + k), 2, 0⟩
def SURV_TRIG.at (i : Nat) (k : Nat) : Nat := (0x06030 + i * 256 + k)
def SURV_TRIG.DLY (i : Nat) (k : Nat) : Fd := ⟨(0x06030 + i * 256 + k), 35, 20⟩
def SURV_TRIG.TSRC (i : Nat) (k : Nat) : Fd := ⟨(0x06030 + i * 256 + k), 15, 12⟩
def SURV_TRIG.PAIR (i : Nat) (k : Nat) : Fd := ⟨(0x06030 + i * 256 + k), 9, 8⟩
def SURV_TRIG.INST (i : Nat) (k : Nat) : Fd := ⟨(0x06030 + i * 256 + k), 3, 0⟩
def SURV_DEST.at (i : Nat) (k : Nat) : Nat := (0x06040 + i * 256 + k)
def SURV_DEST.LEN (i : Nat) (k : Nat) : Fd := ⟨(0x06040 + i * 256 + k), 35, 35⟩
def SURV_DEST.QEN (i : Nat) (k : Nat) : Fd := ⟨(0x06040 + i * 256 + k), 34, 34⟩
def SURV_DEST.FMT (i : Nat) (k : Nat) : Fd := ⟨(0x06040 + i * 256 + k), 33, 33⟩
def SURV_DEST.ENG (i : Nat) (k : Nat) : Fd := ⟨(0x06040 + i * 256 + k), 31, 26⟩
def SURV_DEST.LAT (i : Nat) (k : Nat) : Fd := ⟨(0x06040 + i * 256 + k), 25, 24⟩
def SURV_DEST.QUEUE (i : Nat) (k : Nat) : Fd := ⟨(0x06040 + i * 256 + k), 14, 0⟩
def SURV_GAIN.at (i : Nat) (k : Nat) : Nat := (0x06050 + i * 256 + k)
def SURV_GAIN.GAIN (i : Nat) (k : Nat) : Fd := ⟨(0x06050 + i * 256 + k), 31, 0⟩
def SURV_OFS.at (i : Nat) (k : Nat) : Nat := (0x06060 + i * 256 + k)
def SURV_OFS.OFS (i : Nat) (k : Nat) : Fd := ⟨(0x06060 + i * 256 + k), 31, 0⟩
def SURV_RES.at (i : Nat) (k : Nat) : Nat := (0x06070 + i * 256 + k)
def SURV_RES.NEW (i : Nat) (k : Nat) : Fd := ⟨(0x06070 + i * 256 + k), 35, 35⟩
def SURV_RES.LATE (i : Nat) (k : Nat) : Fd := ⟨(0x06070 + i * 256 + k), 34, 34⟩
def SURV_RES.CLIP (i : Nat) (k : Nat) : Fd := ⟨(0x06070 + i * 256 + k), 33, 33⟩
def SURV_RES.LOWA (i : Nat) (k : Nat) : Fd := ⟨(0x06070 + i * 256 + k), 32, 32⟩
def SURV_RES.SEQ (i : Nat) (k : Nat) : Fd := ⟨(0x06070 + i * 256 + k), 31, 25⟩
def SURV_RES.RAW (i : Nat) (k : Nat) : Fd := ⟨(0x06070 + i * 256 + k), 24, 0⟩
/-- The register tables of SURV. -/
def regsSURV : List RegDef := [
  ⟨"SURV_STAT", 0x08, 1, 1, false, false, false, false, [⟨5, 5, .ro, 0x0⟩, ⟨4, 4, .ro, 0x0⟩, ⟨3, 3, .ro, 0x0⟩, ⟨2, 2, .ro, 0x0⟩, ⟨1, 1, .ro, 0x0⟩]⟩,
  ⟨"SURV_RESTS", 0x09, 1, 1, false, false, false, false, [⟨35, 0, .ro, 0x0⟩]⟩,
  ⟨"SURV_PEND", 0x0A, 1, 1, false, false, false, false, [⟨15, 0, .ro, 0x0⟩]⟩,
  ⟨"SURV_CNT", 0x0B, 1, 1, false, false, false, false, [⟨35, 24, .ro, 0x0⟩, ⟨23, 12, .ro, 0x0⟩, ⟨11, 0, .ro, 0x0⟩]⟩,
  ⟨"SURV_CTL", 0x10, 1, 1, false, false, false, false, [⟨8, 8, .rw, 0x0⟩]⟩,
  ⟨"SURV_SHEETEN", 0x11, 1, 1, true, true, false, false, [⟨15, 0, .rw, 0x0⟩]⟩,
  ⟨"SURV_SWTRIG", 0x12, 1, 1, false, false, false, false, [⟨15, 0, .wo, 0x0⟩]⟩,
  ⟨"SURV_CALREQ", 0x13, 1, 1, false, false, false, false, [⟨0, 0, .wo, 0x0⟩]⟩,
  ⟨"SURV_CFG", 0x20, 16, 1, true, true, false, false, [⟨35, 28, .rw, 0x28⟩, ⟨27, 25, .rw, 0x0⟩, ⟨24, 24, .rw, 0x0⟩, ⟨23, 23, .rw, 0x0⟩, ⟨22, 20, .rw, 0x0⟩, ⟨2, 0, .rw, 0x0⟩]⟩,
  ⟨"SURV_TRIG", 0x30, 16, 1, true, true, false, false, [⟨35, 20, .rw, 0x0⟩, ⟨15, 12, .rw, 0x0⟩, ⟨9, 8, .rw, 0x0⟩, ⟨3, 0, .rw, 0x0⟩]⟩,
  ⟨"SURV_DEST", 0x40, 16, 1, true, true, false, false, [⟨35, 35, .rw, 0x0⟩, ⟨34, 34, .rw, 0x0⟩, ⟨33, 33, .rw, 0x0⟩, ⟨31, 26, .rw, 0x0⟩, ⟨25, 24, .rw, 0x0⟩, ⟨14, 0, .rw, 0x0⟩]⟩,
  ⟨"SURV_GAIN", 0x50, 16, 1, true, true, false, false, [⟨31, 0, .rw, 0x3F800000⟩]⟩,
  ⟨"SURV_OFS", 0x60, 16, 1, true, true, false, false, [⟨31, 0, .rw, 0x0⟩]⟩,
  ⟨"SURV_RES", 0x70, 16, 1, false, false, false, false, [⟨35, 35, .ro, 0x0⟩, ⟨34, 34, .ro, 0x0⟩, ⟨33, 33, .ro, 0x0⟩, ⟨32, 32, .ro, 0x0⟩, ⟨31, 25, .ro, 0x0⟩, ⟨24, 0, .ro, 0x0⟩]⟩]
/-! ### SDF -/
def SDF_STAT.at (i : Nat) : Nat := (0x07808 + i * 256)
def SDF_STAT.CLKLOSS (i : Nat) : Fd := ⟨(0x07808 + i * 256), 11, 8⟩
def SDF_STAT.FILL (i : Nat) : Fd := ⟨(0x07808 + i * 256), 7, 4⟩
def SDF_STAT.RUN (i : Nat) : Fd := ⟨(0x07808 + i * 256), 3, 0⟩
def SDF_CTL.at (i : Nat) (k : Nat) : Nat := (0x07810 + i * 256 + k * 16)
def SDF_CTL.CDIV (i : Nat) (k : Nat) : Fd := ⟨(0x07810 + i * 256 + k * 16), 35, 28⟩
def SDF_CTL.CKOUT (i : Nat) (k : Nat) : Fd := ⟨(0x07810 + i * 256 + k * 16), 27, 27⟩
def SDF_CTL.CKEDGE (i : Nat) (k : Nat) : Fd := ⟨(0x07810 + i * 256 + k * 16), 26, 26⟩
def SDF_CTL.ORD (i : Nat) (k : Nat) : Fd := ⟨(0x07810 + i * 256 + k * 16), 25, 24⟩
def SDF_CTL.OSRM1 (i : Nat) (k : Nat) : Fd := ⟨(0x07810 + i * 256 + k * 16), 23, 16⟩
def SDF_CTL.SYNC (i : Nat) (k : Nat) : Fd := ⟨(0x07810 + i * 256 + k * 16), 15, 15⟩
def SDF_CTL.EN (i : Nat) (k : Nat) : Fd := ⟨(0x07810 + i * 256 + k * 16), 14, 14⟩
def SDF_TRIG.at (i : Nat) (k : Nat) : Nat := (0x07811 + i * 256 + k * 16)
def SDF_TRIG.DLY (i : Nat) (k : Nat) : Fd := ⟨(0x07811 + i * 256 + k * 16), 35, 20⟩
def SDF_TRIG.TSRC (i : Nat) (k : Nat) : Fd := ⟨(0x07811 + i * 256 + k * 16), 15, 12⟩
def SDF_TRIG.PAIR (i : Nat) (k : Nat) : Fd := ⟨(0x07811 + i * 256 + k * 16), 9, 8⟩
def SDF_TRIG.INST (i : Nat) (k : Nat) : Fd := ⟨(0x07811 + i * 256 + k * 16), 3, 0⟩
def SDF_DEST.at (i : Nat) (k : Nat) : Nat := (0x07812 + i * 256 + k * 16)
def SDF_DEST.LEN (i : Nat) (k : Nat) : Fd := ⟨(0x07812 + i * 256 + k * 16), 35, 35⟩
def SDF_DEST.QEN (i : Nat) (k : Nat) : Fd := ⟨(0x07812 + i * 256 + k * 16), 34, 34⟩
def SDF_DEST.FMT (i : Nat) (k : Nat) : Fd := ⟨(0x07812 + i * 256 + k * 16), 33, 33⟩
def SDF_DEST.ENG (i : Nat) (k : Nat) : Fd := ⟨(0x07812 + i * 256 + k * 16), 31, 26⟩
def SDF_DEST.LAT (i : Nat) (k : Nat) : Fd := ⟨(0x07812 + i * 256 + k * 16), 25, 24⟩
def SDF_DEST.QUEUE (i : Nat) (k : Nat) : Fd := ⟨(0x07812 + i * 256 + k * 16), 14, 0⟩
def SDF_GAIN.at (i : Nat) (k : Nat) : Nat := (0x07813 + i * 256 + k * 16)
def SDF_GAIN.GAIN (i : Nat) (k : Nat) : Fd := ⟨(0x07813 + i * 256 + k * 16), 31, 0⟩
def SDF_OFS.at (i : Nat) (k : Nat) : Nat := (0x07814 + i * 256 + k * 16)
def SDF_OFS.OFS (i : Nat) (k : Nat) : Fd := ⟨(0x07814 + i * 256 + k * 16), 31, 0⟩
def SDF_RES.at (i : Nat) (k : Nat) : Nat := (0x07815 + i * 256 + k * 16)
def SDF_RES.NEW (i : Nat) (k : Nat) : Fd := ⟨(0x07815 + i * 256 + k * 16), 35, 35⟩
def SDF_RES.LATE (i : Nat) (k : Nat) : Fd := ⟨(0x07815 + i * 256 + k * 16), 34, 34⟩
def SDF_RES.CLIP (i : Nat) (k : Nat) : Fd := ⟨(0x07815 + i * 256 + k * 16), 33, 33⟩
def SDF_RES.LOWA (i : Nat) (k : Nat) : Fd := ⟨(0x07815 + i * 256 + k * 16), 32, 32⟩
def SDF_RES.SEQ (i : Nat) (k : Nat) : Fd := ⟨(0x07815 + i * 256 + k * 16), 31, 25⟩
def SDF_RES.RAW (i : Nat) (k : Nat) : Fd := ⟨(0x07815 + i * 256 + k * 16), 24, 0⟩
def SDF_RESTS.at (i : Nat) (k : Nat) : Nat := (0x07816 + i * 256 + k * 16)
def SDF_RESTS.TS (i : Nat) (k : Nat) : Fd := ⟨(0x07816 + i * 256 + k * 16), 35, 0⟩
def SDF_SWTRIG.at (i : Nat) (k : Nat) : Nat := (0x07817 + i * 256 + k * 16)
def SDF_SWTRIG.TRIG (i : Nat) (k : Nat) : Fd := ⟨(0x07817 + i * 256 + k * 16), 0, 0⟩
def SDF_FDCTL.at (i : Nat) (k : Nat) : Nat := (0x07850 + i * 256 + k)
def SDF_FDCTL.EN (i : Nat) (k : Nat) : Fd := ⟨(0x07850 + i * 256 + k), 35, 35⟩
def SDF_FDCTL.LOSSTRIP (i : Nat) (k : Nat) : Fd := ⟨(0x07850 + i * 256 + k), 34, 34⟩
def SDF_FDCTL.TRIPSEL (i : Nat) (k : Nat) : Fd := ⟨(0x07850 + i * 256 + k), 33, 32⟩
def SDF_FDCTL.FM (i : Nat) (k : Nat) : Fd := ⟨(0x07850 + i * 256 + k), 21, 16⟩
def SDF_FDCTL.PERS (i : Nat) (k : Nat) : Fd := ⟨(0x07850 + i * 256 + k), 11, 8⟩
def SDF_FDTHR.at (i : Nat) (k : Nat) : Nat := (0x07854 + i * 256 + k)
def SDF_FDTHR.FDHI (i : Nat) (k : Nat) : Fd := ⟨(0x07854 + i * 256 + k), 21, 16⟩
def SDF_FDTHR.FDLO (i : Nat) (k : Nat) : Fd := ⟨(0x07854 + i * 256 + k), 5, 0⟩
def SDF_FDSTAT.at (i : Nat) : Nat := (0x07858 + i * 256)
def SDF_FDSTAT.LOSS (i : Nat) : Fd := ⟨(0x07858 + i * 256), 11, 8⟩
def SDF_FDSTAT.LO (i : Nat) : Fd := ⟨(0x07858 + i * 256), 7, 4⟩
def SDF_FDSTAT.HI (i : Nat) : Fd := ⟨(0x07858 + i * 256), 3, 0⟩
/-- The register tables of SDF. -/
def regsSDF : List RegDef := [
  ⟨"SDF_STAT", 0x08, 1, 1, false, false, false, false, [⟨11, 8, .ro, 0x0⟩, ⟨7, 4, .ro, 0x0⟩, ⟨3, 0, .ro, 0x0⟩]⟩,
  ⟨"SDF_CTL", 0x10, 4, 16, true, true, false, false, [⟨35, 28, .rw, 0x28⟩, ⟨27, 27, .rw, 0x0⟩, ⟨26, 26, .rw, 0x0⟩, ⟨25, 24, .rw, 0x3⟩, ⟨23, 16, .rw, 0x3F⟩, ⟨15, 15, .rw, 0x0⟩, ⟨14, 14, .rw, 0x0⟩]⟩,
  ⟨"SDF_TRIG", 0x11, 4, 16, true, true, false, false, [⟨35, 20, .rw, 0x0⟩, ⟨15, 12, .rw, 0x0⟩, ⟨9, 8, .rw, 0x0⟩, ⟨3, 0, .rw, 0x0⟩]⟩,
  ⟨"SDF_DEST", 0x12, 4, 16, true, true, false, false, [⟨35, 35, .rw, 0x0⟩, ⟨34, 34, .rw, 0x0⟩, ⟨33, 33, .rw, 0x0⟩, ⟨31, 26, .rw, 0x0⟩, ⟨25, 24, .rw, 0x0⟩, ⟨14, 0, .rw, 0x0⟩]⟩,
  ⟨"SDF_GAIN", 0x13, 4, 16, true, true, false, false, [⟨31, 0, .rw, 0x3F800000⟩]⟩,
  ⟨"SDF_OFS", 0x14, 4, 16, true, true, false, false, [⟨31, 0, .rw, 0x0⟩]⟩,
  ⟨"SDF_RES", 0x15, 4, 16, false, false, false, false, [⟨35, 35, .ro, 0x0⟩, ⟨34, 34, .ro, 0x0⟩, ⟨33, 33, .ro, 0x0⟩, ⟨32, 32, .ro, 0x0⟩, ⟨31, 25, .ro, 0x0⟩, ⟨24, 0, .ro, 0x0⟩]⟩,
  ⟨"SDF_RESTS", 0x16, 4, 16, false, false, false, false, [⟨35, 0, .ro, 0x0⟩]⟩,
  ⟨"SDF_SWTRIG", 0x17, 4, 16, false, false, false, false, [⟨0, 0, .wo, 0x0⟩]⟩,
  ⟨"SDF_FDCTL", 0x50, 4, 1, true, true, true, false, [⟨35, 35, .rw, 0x0⟩, ⟨34, 34, .rw, 0x1⟩, ⟨33, 32, .rw, 0x0⟩, ⟨21, 16, .rw, 0x10⟩, ⟨11, 8, .rw, 0x0⟩]⟩,
  ⟨"SDF_FDTHR", 0x54, 4, 1, true, true, true, false, [⟨21, 16, .rw, 0x10⟩, ⟨5, 0, .rw, 0x0⟩]⟩,
  ⟨"SDF_FDSTAT", 0x58, 1, 1, false, false, false, false, [⟨11, 8, .ro, 0x0⟩, ⟨7, 4, .ro, 0x0⟩, ⟨3, 0, .ro, 0x0⟩]⟩]
/-! ### CONT -/
def CONT_LEVEL.at (i : Nat) : Nat := (0x07C08 + i * 256)
def CONT_LEVEL.LO (i : Nat) : Fd := ⟨(0x07C08 + i * 256), 31, 16⟩
def CONT_LEVEL.HI (i : Nat) : Fd := ⟨(0x07C08 + i * 256), 15, 0⟩
def CONT_STAT.at (i : Nat) : Nat := (0x07C09 + i * 256)
def CONT_STAT.LOWA (i : Nat) : Fd := ⟨(0x07C09 + i * 256), 17, 17⟩
def CONT_STAT.RDY (i : Nat) : Fd := ⟨(0x07C09 + i * 256), 16, 16⟩
def CONT_STAT.BLANKED (i : Nat) : Fd := ⟨(0x07C09 + i * 256), 15, 0⟩
def CONT_GCTL.at (i : Nat) : Nat := (0x07C10 + i * 256)
def CONT_GCTL.VREF (i : Nat) : Fd := ⟨(0x07C10 + i * 256), 0, 0⟩
def CONT_CFG.at (i : Nat) (k : Nat) : Nat := (0x07C20 + i * 256 + k)
def CONT_CFG.EN (i : Nat) (k : Nat) : Fd := ⟨(0x07C20 + i * 256 + k), 35, 35⟩
def CONT_CFG.TRIPSEL (i : Nat) (k : Nat) : Fd := ⟨(0x07C20 + i * 256 + k), 34, 33⟩
def CONT_CFG.MODE (i : Nat) (k : Nat) : Fd := ⟨(0x07C20 + i * 256 + k), 32, 32⟩
def CONT_CFG.PSEL (i : Nat) (k : Nat) : Fd := ⟨(0x07C20 + i * 256 + k), 31, 26⟩
def CONT_CFG.NSEL (i : Nat) (k : Nat) : Fd := ⟨(0x07C20 + i * 256 + k), 25, 20⟩
def CONT_CFG.FORME (i : Nat) (k : Nat) : Fd := ⟨(0x07C20 + i * 256 + k), 19, 16⟩
def CONT_CFG.PAIR (i : Nat) (k : Nat) : Fd := ⟨(0x07C20 + i * 256 + k), 15, 14⟩
def CONT_CFG.HYS (i : Nat) (k : Nat) : Fd := ⟨(0x07C20 + i * 256 + k), 13, 8⟩
def CONT_THR.at (i : Nat) (k : Nat) : Nat := (0x07C30 + i * 256 + k)
def CONT_THR.THRH (i : Nat) (k : Nat) : Fd := ⟨(0x07C30 + i * 256 + k), 27, 16⟩
def CONT_THR.THRL (i : Nat) (k : Nat) : Fd := ⟨(0x07C30 + i * 256 + k), 11, 0⟩
def CONT_BLANK.at (i : Nat) (k : Nat) : Nat := (0x07C40 + i * 256 + k)
def CONT_BLANK.BLKEV (i : Nat) (k : Nat) : Fd := ⟨(0x07C40 + i * 256 + k), 12, 12⟩
def CONT_BLANK.EDGE (i : Nat) (k : Nat) : Fd := ⟨(0x07C40 + i * 256 + k), 11, 8⟩
def CONT_BLANK.BLK (i : Nat) (k : Nat) : Fd := ⟨(0x07C40 + i * 256 + k), 7, 0⟩
def CONT_SLOPE.at (i : Nat) (k : Nat) : Nat := (0x07C50 + i * 256 + k)
def CONT_SLOPE.RSTART (i : Nat) (k : Nat) : Fd := ⟨(0x07C50 + i * 256 + k), 17, 16⟩
def CONT_SLOPE.SLOPE (i : Nat) (k : Nat) : Fd := ⟨(0x07C50 + i * 256 + k), 15, 0⟩
/-- The register tables of CONT. -/
def regsCONT : List RegDef := [
  ⟨"CONT_LEVEL", 0x08, 1, 1, false, false, false, false, [⟨31, 16, .ro, 0x0⟩, ⟨15, 0, .ro, 0x0⟩]⟩,
  ⟨"CONT_STAT", 0x09, 1, 1, false, false, false, false, [⟨17, 17, .ro, 0x0⟩, ⟨16, 16, .ro, 0x0⟩, ⟨15, 0, .ro, 0x0⟩]⟩,
  ⟨"CONT_GCTL", 0x10, 1, 1, false, false, false, false, [⟨0, 0, .rw, 0x0⟩]⟩,
  ⟨"CONT_CFG", 0x20, 16, 1, true, true, true, false, [⟨35, 35, .rw, 0x0⟩, ⟨34, 33, .rw, 0x0⟩, ⟨32, 32, .rw, 0x0⟩, ⟨31, 26, .rw, 0x0⟩, ⟨25, 20, .rw, 0x3F⟩, ⟨19, 16, .rw, 0x0⟩, ⟨15, 14, .rw, 0x0⟩, ⟨13, 8, .rw, 0x0⟩]⟩,
  ⟨"CONT_THR", 0x30, 16, 1, true, true, true, false, [⟨27, 16, .rw, 0xFFF⟩, ⟨11, 0, .rw, 0x0⟩]⟩,
  ⟨"CONT_BLANK", 0x40, 16, 1, true, true, false, false, [⟨12, 12, .rw, 0x0⟩, ⟨11, 8, .rw, 0x0⟩, ⟨7, 0, .rw, 0x0⟩]⟩,
  ⟨"CONT_SLOPE", 0x50, 16, 1, true, true, false, false, [⟨17, 16, .rw, 0x0⟩, ⟨15, 0, .rw, 0x0⟩]⟩]
/-! ### TRAV -/
def TRAV_STAT.at (i : Nat) : Nat := (0x08008 + i * 256)
def TRAV_STAT.DEPTH (i : Nat) : Fd := ⟨(0x08008 + i * 256), 23, 21⟩
def TRAV_STAT.STARVED (i : Nat) : Fd := ⟨(0x08008 + i * 256), 20, 20⟩
def TRAV_STAT.ALERT (i : Nat) : Fd := ⟨(0x08008 + i * 256), 19, 19⟩
def TRAV_STAT.FIRST (i : Nat) : Fd := ⟨(0x08008 + i * 256), 18, 18⟩
def TRAV_STAT.SATLO (i : Nat) : Fd := ⟨(0x08008 + i * 256), 17, 17⟩
def TRAV_STAT.SATHI (i : Nat) : Fd := ⟨(0x08008 + i * 256), 16, 16⟩
def TRAV_STAT.FRESH (i : Nat) : Fd := ⟨(0x08008 + i * 256), 12, 8⟩
def TRAV_STAT.STATE (i : Nat) : Fd := ⟨(0x08008 + i * 256), 1, 0⟩
def TRAV_CNT.at (i : Nat) : Nat := (0x08009 + i * 256)
def TRAV_CNT.WAIT (i : Nat) : Fd := ⟨(0x08009 + i * 256), 35, 27⟩
def TRAV_CNT.OVR (i : Nat) : Fd := ⟨(0x08009 + i * 256), 26, 18⟩
def TRAV_CNT.NUM (i : Nat) : Fd := ⟨(0x08009 + i * 256), 17, 9⟩
def TRAV_CNT.SPU (i : Nat) : Fd := ⟨(0x08009 + i * 256), 8, 0⟩
def TRAV_UCNT.at (i : Nat) : Nat := (0x0800A + i * 256)
def TRAV_UCNT.CNT (i : Nat) : Fd := ⟨(0x0800A + i * 256), 35, 0⟩
def TRAV_LASTU.at (i : Nat) : Nat := (0x0800B + i * 256)
def TRAV_LASTU.U (i : Nat) : Fd := ⟨(0x0800B + i * 256), 31, 0⟩
def TRAV_STATE.at (i : Nat) : Nat := (0x08010 + i * 256)
def TRAV_STATE.REQ (i : Nat) : Fd := ⟨(0x08010 + i * 256), 1, 0⟩
def TRAV_INCFG.at (i : Nat) : Nat := (0x08011 + i * 256)
def TRAV_INCFG.REQ (i : Nat) : Fd := ⟨(0x08011 + i * 256), 12, 8⟩
def TRAV_INCFG.YSEL (i : Nat) : Fd := ⟨(0x08011 + i * 256), 1, 0⟩
def TRAV_SPCFG.at (i : Nat) : Nat := (0x08012 + i * 256)
def TRAV_SPCFG.SRC (i : Nat) : Fd := ⟨(0x08012 + i * 256), 35, 34⟩
def TRAV_SPCFG.SPLAT (i : Nat) : Fd := ⟨(0x08012 + i * 256), 33, 32⟩
def TRAV_SPCFG.QUEUE (i : Nat) : Fd := ⟨(0x08012 + i * 256), 14, 0⟩
def TRAV_SP.at (i : Nat) : Nat := (0x08013 + i * 256)
def TRAV_SP.SP (i : Nat) : Fd := ⟨(0x08013 + i * 256), 31, 0⟩
def TRAV_OUTCFG.at (i : Nat) : Nat := (0x08014 + i * 256)
def TRAV_OUTCFG.EDGE (i : Nat) : Fd := ⟨(0x08014 + i * 256), 35, 35⟩
def TRAV_OUTCFG.CASC (i : Nat) : Fd := ⟨(0x08014 + i * 256), 34, 34⟩
def TRAV_OUTCFG.QEN (i : Nat) : Fd := ⟨(0x08014 + i * 256), 33, 33⟩
def TRAV_OUTCFG.OMODE (i : Nat) : Fd := ⟨(0x08014 + i * 256), 31, 30⟩
def TRAV_OUTCFG.ESEL (i : Nat) : Fd := ⟨(0x08014 + i * 256), 29, 29⟩
def TRAV_OUTCFG.FORME (i : Nat) : Fd := ⟨(0x08014 + i * 256), 27, 24⟩
def TRAV_OUTCFG.PMASK (i : Nat) : Fd := ⟨(0x08014 + i * 256), 23, 20⟩
def TRAV_OUTCFG.CENG (i : Nat) : Fd := ⟨(0x08014 + i * 256), 19, 14⟩
def TRAV_OUTCFG.CLAT (i : Nat) : Fd := ⟨(0x08014 + i * 256), 13, 12⟩
def TRAV_OUTQ.at (i : Nat) : Nat := (0x08015 + i * 256)
def TRAV_OUTQ.QUEUE (i : Nat) : Fd := ⟨(0x08015 + i * 256), 14, 0⟩
def TRAV_CFG.at (i : Nat) : Nat := (0x08016 + i * 256)
def TRAV_CFG.DEN (i : Nat) : Fd := ⟨(0x08016 + i * 256), 35, 35⟩
def TRAV_CFG.AW (i : Nat) : Fd := ⟨(0x08016 + i * 256), 34, 34⟩
def TRAV_CFG.NORM (i : Nat) : Fd := ⟨(0x08016 + i * 256), 33, 33⟩
def TRAV_CFG.NSEL (i : Nat) : Fd := ⟨(0x08016 + i * 256), 31, 30⟩
def TRAV_CFG.ALRT (i : Nat) : Fd := ⟨(0x08016 + i * 256), 29, 28⟩
def TRAV_CFG.OPENSEL (i : Nat) : Fd := ⟨(0x08016 + i * 256), 27, 27⟩
def TRAV_CFG.FFEN (i : Nat) : Fd := ⟨(0x08016 + i * 256), 23, 20⟩
def TRAV_CFG.FFSEL (i : Nat) : Fd := ⟨(0x08016 + i * 256), 7, 0⟩
def TRAV_SWTRIG.at (i : Nat) : Nat := (0x08017 + i * 256)
def TRAV_SWTRIG.TRIG (i : Nat) : Fd := ⟨(0x08017 + i * 256), 0, 0⟩
def TRAV_OPENOUT.at (i : Nat) : Nat := (0x08018 + i * 256)
def TRAV_OPENOUT.OUT (i : Nat) : Fd := ⟨(0x08018 + i * 256), 31, 0⟩
def TRAV_STARVE.at (i : Nat) : Nat := (0x08019 + i * 256)
def TRAV_STARVE.LIM (i : Nat) : Fd := ⟨(0x08019 + i * 256), 23, 0⟩
def TRAV_KP.at (i : Nat) : Nat := (0x08020 + i * 256)
def TRAV_KP.VAL (i : Nat) : Fd := ⟨(0x08020 + i * 256), 31, 0⟩
def TRAV_KI.at (i : Nat) : Nat := (0x08021 + i * 256)
def TRAV_KI.VAL (i : Nat) : Fd := ⟨(0x08021 + i * 256), 31, 0⟩
def TRAV_KD.at (i : Nat) : Nat := (0x08022 + i * 256)
def TRAV_KD.VAL (i : Nat) : Fd := ⟨(0x08022 + i * 256), 31, 0⟩
def TRAV_DFC.at (i : Nat) : Nat := (0x08023 + i * 256)
def TRAV_DFC.VAL (i : Nat) : Fd := ⟨(0x08023 + i * 256), 31, 0⟩
def TRAV_FF.at (i : Nat) (k : Nat) : Nat := (0x08024 + i * 256 + k)
def TRAV_FF.VAL (i : Nat) (k : Nat) : Fd := ⟨(0x08024 + i * 256 + k), 31, 0⟩
def TRAV_BIAS.at (i : Nat) : Nat := (0x08028 + i * 256)
def TRAV_BIAS.VAL (i : Nat) : Fd := ⟨(0x08028 + i * 256), 31, 0⟩
def TRAV_IMIN.at (i : Nat) : Nat := (0x08029 + i * 256)
def TRAV_IMIN.VAL (i : Nat) : Fd := ⟨(0x08029 + i * 256), 31, 0⟩
def TRAV_IMAX.at (i : Nat) : Nat := (0x0802A + i * 256)
def TRAV_IMAX.VAL (i : Nat) : Fd := ⟨(0x0802A + i * 256), 31, 0⟩
def TRAV_OMIN.at (i : Nat) : Nat := (0x0802B + i * 256)
def TRAV_OMIN.VAL (i : Nat) : Fd := ⟨(0x0802B + i * 256), 31, 0⟩
def TRAV_OMAX.at (i : Nat) : Nat := (0x0802C + i * 256)
def TRAV_OMAX.VAL (i : Nat) : Fd := ⟨(0x0802C + i * 256), 31, 0⟩
def TRAV_RATE.at (i : Nat) : Nat := (0x0802D + i * 256)
def TRAV_RATE.VAL (i : Nat) : Fd := ⟨(0x0802D + i * 256), 31, 0⟩
def TRAV_LAT.at (i : Nat) (k : Nat) : Nat := (0x08030 + i * 256 + k)
def TRAV_LAT.VAL (i : Nat) (k : Nat) : Fd := ⟨(0x08030 + i * 256 + k), 31, 0⟩
def TRAV_LATTS.at (i : Nat) (k : Nat) : Nat := (0x08034 + i * 256 + k)
def TRAV_LATTS.TS (i : Nat) (k : Nat) : Fd := ⟨(0x08034 + i * 256 + k), 35, 0⟩
def TRAV_OVCFG.at (i : Nat) : Nat := (0x08040 + i * 256)
def TRAV_OVCFG.EN (i : Nat) : Fd := ⟨(0x08040 + i * 256), 35, 35⟩
def TRAV_OVCFG.INIT (i : Nat) : Fd := ⟨(0x08040 + i * 256), 34, 34⟩
def TRAV_OVCFG.PSRC (i : Nat) : Fd := ⟨(0x08040 + i * 256), 33, 32⟩
def TRAV_OVCFG.BUNIT (i : Nat) : Fd := ⟨(0x08040 + i * 256), 31, 28⟩
def TRAV_OVCFG.MULT (i : Nat) : Fd := ⟨(0x08040 + i * 256), 27, 24⟩
def TRAV_OVCFG.NM1 (i : Nat) : Fd := ⟨(0x08040 + i * 256), 21, 12⟩
def TRAV_OVCFG.LEAD (i : Nat) : Fd := ⟨(0x08040 + i * 256), 9, 0⟩
def TRAV_OVL.at (i : Nat) : Nat := (0x08041 + i * 256)
def TRAV_OVL.VAL (i : Nat) : Fd := ⟨(0x08041 + i * 256), 31, 0⟩
def TRAV_OVQ.at (i : Nat) : Nat := (0x08042 + i * 256)
def TRAV_OVQ.VAL (i : Nat) : Fd := ⟨(0x08042 + i * 256), 31, 0⟩
def TRAV_OVGAIN.at (i : Nat) : Nat := (0x08043 + i * 256)
def TRAV_OVGAIN.VAL (i : Nat) : Fd := ⟨(0x08043 + i * 256), 31, 0⟩
def TRAV_OVLIM.at (i : Nat) : Nat := (0x08044 + i * 256)
def TRAV_OVLIM.VAL (i : Nat) : Fd := ⟨(0x08044 + i * 256), 31, 0⟩
def TRAV_OVPER.at (i : Nat) : Nat := (0x08045 + i * 256)
def TRAV_OVPER.PER (i : Nat) : Fd := ⟨(0x08045 + i * 256), 31, 0⟩
def TRAV_OVORG.at (i : Nat) : Nat := (0x08046 + i * 256)
def TRAV_OVORG.ORG (i : Nat) : Fd := ⟨(0x08046 + i * 256), 35, 0⟩
def TRAV_OVWJ.at (i : Nat) : Nat := (0x08047 + i * 256)
def TRAV_OVWJ.WARM (i : Nat) : Fd := ⟨(0x08047 + i * 256), 15, 8⟩
def TRAV_OVWJ.JIT (i : Nat) : Fd := ⟨(0x08047 + i * 256), 7, 0⟩
def TRAV_OVCTL.at (i : Nat) : Nat := (0x08048 + i * 256)
def TRAV_OVCTL.LFRZ (i : Nat) : Fd := ⟨(0x08048 + i * 256), 0, 0⟩
def TRAV_OVSTAT.at (i : Nat) : Nat := (0x08049 + i * 256)
def TRAV_OVSTAT.IDX (i : Nat) : Fd := ⟨(0x08049 + i * 256), 25, 16⟩
def TRAV_OVSTAT.WCNT (i : Nat) : Fd := ⟨(0x08049 + i * 256), 15, 8⟩
def TRAV_OVSTAT.PLOCK (i : Nat) : Fd := ⟨(0x08049 + i * 256), 6, 6⟩
def TRAV_OVSTAT.REV (i : Nat) : Fd := ⟨(0x08049 + i * 256), 5, 5⟩
def TRAV_OVSTAT.JFRZ (i : Nat) : Fd := ⟨(0x08049 + i * 256), 4, 4⟩
def TRAV_OVSTAT.LEARN (i : Nat) : Fd := ⟨(0x08049 + i * 256), 3, 3⟩
def TRAV_OVSTAT.OVST (i : Nat) : Fd := ⟨(0x08049 + i * 256), 2, 0⟩
def TRAV_OVPASS.at (i : Nat) : Nat := (0x0804A + i * 256)
def TRAV_OVPASS.TP (i : Nat) : Fd := ⟨(0x0804A + i * 256), 35, 0⟩
def TRAV_OVLCNT.at (i : Nat) : Nat := (0x0804B + i * 256)
def TRAV_OVLCNT.LRN (i : Nat) : Fd := ⟨(0x0804B + i * 256), 35, 18⟩
def TRAV_OVLCNT.JFZ (i : Nat) : Fd := ⟨(0x0804B + i * 256), 17, 0⟩
def TRAV_FECFG.at (i : Nat) : Nat := (0x08050 + i * 256)
def TRAV_FECFG.EN (i : Nat) : Fd := ⟨(0x08050 + i * 256), 35, 35⟩
def TRAV_FECFG.SAFE (i : Nat) : Fd := ⟨(0x08050 + i * 256), 34, 34⟩
def TRAV_FECFG.TRIP (i : Nat) : Fd := ⟨(0x08050 + i * 256), 33, 33⟩
def TRAV_FELIMIT.at (i : Nat) : Nat := (0x08051 + i * 256)
def TRAV_FELIMIT.LIM (i : Nat) : Fd := ⟨(0x08051 + i * 256), 31, 0⟩
def TRAV_FETIME.at (i : Nat) : Nat := (0x08052 + i * 256)
def TRAV_FETIME.TIME (i : Nat) : Fd := ⟨(0x08052 + i * 256), 31, 0⟩
def TRAV_SAFEOUT.at (i : Nat) : Nat := (0x08053 + i * 256)
def TRAV_SAFEOUT.OUT (i : Nat) : Fd := ⟨(0x08053 + i * 256), 31, 0⟩
def TRAV_FESTAT.at (i : Nat) : Nat := (0x08054 + i * 256)
def TRAV_FESTAT.COND (i : Nat) : Fd := ⟨(0x08054 + i * 256), 2, 2⟩
def TRAV_FESTAT.SAFE (i : Nat) : Fd := ⟨(0x08054 + i * 256), 1, 1⟩
def TRAV_FESTAT.FET (i : Nat) : Fd := ⟨(0x08054 + i * 256), 0, 0⟩
def TRAV_FECNT.at (i : Nat) : Nat := (0x08055 + i * 256)
def TRAV_FECNT.CNT (i : Nat) : Fd := ⟨(0x08055 + i * 256), 31, 0⟩
def TRAV_FECLR.at (i : Nat) : Nat := (0x08056 + i * 256)
def TRAV_FECLR.CLR (i : Nat) : Fd := ⟨(0x08056 + i * 256), 0, 0⟩
def TRAV_STW.at (i : Nat) (k : Nat) : Nat := (0x08060 + i * 256 + k)
def TRAV_STW.W (i : Nat) (k : Nat) : Fd := ⟨(0x08060 + i * 256 + k), 35, 0⟩
/-- The register tables of TRAV. -/
def regsTRAV : List RegDef := [
  ⟨"TRAV_STAT", 0x08, 1, 1, false, false, false, false, [⟨23, 21, .ro, 0x0⟩, ⟨20, 20, .ro, 0x0⟩, ⟨19, 19, .ro, 0x0⟩, ⟨18, 18, .ro, 0x1⟩, ⟨17, 17, .ro, 0x0⟩, ⟨16, 16, .ro, 0x0⟩, ⟨12, 8, .ro, 0x0⟩, ⟨1, 0, .ro, 0x0⟩]⟩,
  ⟨"TRAV_CNT", 0x09, 1, 1, false, false, false, false, [⟨35, 27, .ro, 0x0⟩, ⟨26, 18, .ro, 0x0⟩, ⟨17, 9, .ro, 0x0⟩, ⟨8, 0, .ro, 0x0⟩]⟩,
  ⟨"TRAV_UCNT", 0x0A, 1, 1, false, false, false, false, [⟨35, 0, .ro, 0x0⟩]⟩,
  ⟨"TRAV_LASTU", 0x0B, 1, 1, false, false, false, false, [⟨31, 0, .ro, 0x0⟩]⟩,
  ⟨"TRAV_STATE", 0x10, 1, 1, true, true, false, false, [⟨1, 0, .rw, 0x0⟩]⟩,
  ⟨"TRAV_INCFG", 0x11, 1, 1, true, true, false, false, [⟨12, 8, .rw, 0x1⟩, ⟨1, 0, .rw, 0x0⟩]⟩,
  ⟨"TRAV_SPCFG", 0x12, 1, 1, true, true, false, false, [⟨35, 34, .rw, 0x0⟩, ⟨33, 32, .rw, 0x1⟩, ⟨14, 0, .rw, 0x0⟩]⟩,
  ⟨"TRAV_SP", 0x13, 1, 1, true, false, false, false, [⟨31, 0, .rw, 0x0⟩]⟩,
  ⟨"TRAV_OUTCFG", 0x14, 1, 1, true, true, false, false, [⟨35, 35, .rw, 0x0⟩, ⟨34, 34, .rw, 0x0⟩, ⟨33, 33, .rw, 0x0⟩, ⟨31, 30, .rw, 0x0⟩, ⟨29, 29, .rw, 0x0⟩, ⟨27, 24, .rw, 0x0⟩, ⟨23, 20, .rw, 0x0⟩, ⟨19, 14, .rw, 0x0⟩, ⟨13, 12, .rw, 0x0⟩]⟩,
  ⟨"TRAV_OUTQ", 0x15, 1, 1, true, true, false, false, [⟨14, 0, .rw, 0x0⟩]⟩,
  ⟨"TRAV_CFG", 0x16, 1, 1, true, true, false, false, [⟨35, 35, .rw, 0x0⟩, ⟨34, 34, .rw, 0x1⟩, ⟨33, 33, .rw, 0x0⟩, ⟨31, 30, .rw, 0x0⟩, ⟨29, 28, .rw, 0x1⟩, ⟨27, 27, .rw, 0x0⟩, ⟨23, 20, .rw, 0x0⟩, ⟨7, 0, .rw, 0x0⟩]⟩,
  ⟨"TRAV_SWTRIG", 0x17, 1, 1, false, false, false, false, [⟨0, 0, .wo, 0x0⟩]⟩,
  ⟨"TRAV_OPENOUT", 0x18, 1, 1, true, false, false, false, [⟨31, 0, .rw, 0x0⟩]⟩,
  ⟨"TRAV_STARVE", 0x19, 1, 1, true, true, false, false, [⟨23, 0, .rw, 0x0⟩]⟩,
  ⟨"TRAV_KP", 0x20, 1, 1, true, true, false, false, [⟨31, 0, .rw, 0x0⟩]⟩,
  ⟨"TRAV_KI", 0x21, 1, 1, true, true, false, false, [⟨31, 0, .rw, 0x0⟩]⟩,
  ⟨"TRAV_KD", 0x22, 1, 1, true, true, false, false, [⟨31, 0, .rw, 0x0⟩]⟩,
  ⟨"TRAV_DFC", 0x23, 1, 1, true, true, false, false, [⟨31, 0, .rw, 0x3F800000⟩]⟩,
  ⟨"TRAV_FF", 0x24, 4, 1, true, true, false, false, [⟨31, 0, .rw, 0x0⟩]⟩,
  ⟨"TRAV_BIAS", 0x28, 1, 1, true, true, false, false, [⟨31, 0, .rw, 0x0⟩]⟩,
  ⟨"TRAV_IMIN", 0x29, 1, 1, true, true, false, false, [⟨31, 0, .rw, 0xBF800000⟩]⟩,
  ⟨"TRAV_IMAX", 0x2A, 1, 1, true, true, false, false, [⟨31, 0, .rw, 0x3F800000⟩]⟩,
  ⟨"TRAV_OMIN", 0x2B, 1, 1, true, true, false, false, [⟨31, 0, .rw, 0x0⟩]⟩,
  ⟨"TRAV_OMAX", 0x2C, 1, 1, true, true, false, false, [⟨31, 0, .rw, 0x3F800000⟩]⟩,
  ⟨"TRAV_RATE", 0x2D, 1, 1, true, true, false, false, [⟨31, 0, .rw, 0x0⟩]⟩,
  ⟨"TRAV_LAT", 0x30, 4, 1, false, false, false, false, [⟨31, 0, .rw, 0x0⟩]⟩,
  ⟨"TRAV_LATTS", 0x34, 4, 1, false, false, false, false, [⟨35, 0, .ro, 0x0⟩]⟩,
  ⟨"TRAV_OVCFG", 0x40, 1, 1, true, true, false, false, [⟨35, 35, .rw, 0x0⟩, ⟨34, 34, .rw, 0x0⟩, ⟨33, 32, .rw, 0x0⟩, ⟨31, 28, .rw, 0x0⟩, ⟨27, 24, .rw, 0x0⟩, ⟨21, 12, .rw, 0x3F⟩, ⟨9, 0, .rw, 0x0⟩]⟩,
  ⟨"TRAV_OVL", 0x41, 1, 1, true, true, false, false, [⟨31, 0, .rw, 0x0⟩]⟩,
  ⟨"TRAV_OVQ", 0x42, 1, 1, true, true, false, false, [⟨31, 0, .rw, 0x0⟩]⟩,
  ⟨"TRAV_OVGAIN", 0x43, 1, 1, true, true, false, false, [⟨31, 0, .rw, 0x3F800000⟩]⟩,
  ⟨"TRAV_OVLIM", 0x44, 1, 1, true, true, false, false, [⟨31, 0, .rw, 0x0⟩]⟩,
  ⟨"TRAV_OVPER", 0x45, 1, 1, true, true, false, false, [⟨31, 0, .rw, 0x1312D00⟩]⟩,
  ⟨"TRAV_OVORG", 0x46, 1, 1, true, true, false, false, [⟨35, 0, .rw, 0x0⟩]⟩,
  ⟨"TRAV_OVWJ", 0x47, 1, 1, true, true, false, false, [⟨15, 8, .rw, 0x4⟩, ⟨7, 0, .rw, 0x8⟩]⟩,
  ⟨"TRAV_OVCTL", 0x48, 1, 1, false, false, false, false, [⟨0, 0, .rw, 0x0⟩]⟩,
  ⟨"TRAV_OVSTAT", 0x49, 1, 1, false, false, false, false, [⟨25, 16, .ro, 0x0⟩, ⟨15, 8, .ro, 0x0⟩, ⟨6, 6, .ro, 0x0⟩, ⟨5, 5, .ro, 0x0⟩, ⟨4, 4, .ro, 0x0⟩, ⟨3, 3, .ro, 0x0⟩, ⟨2, 0, .ro, 0x0⟩]⟩,
  ⟨"TRAV_OVPASS", 0x4A, 1, 1, false, false, false, false, [⟨35, 0, .ro, 0x0⟩]⟩,
  ⟨"TRAV_OVLCNT", 0x4B, 1, 1, false, false, false, false, [⟨35, 18, .ro, 0x0⟩, ⟨17, 0, .ro, 0x0⟩]⟩,
  ⟨"TRAV_FECFG", 0x50, 1, 1, true, true, true, false, [⟨35, 35, .rw, 0x0⟩, ⟨34, 34, .rw, 0x0⟩, ⟨33, 33, .rw, 0x0⟩]⟩,
  ⟨"TRAV_FELIMIT", 0x51, 1, 1, true, true, false, false, [⟨31, 0, .rw, 0x7F7FFFFF⟩]⟩,
  ⟨"TRAV_FETIME", 0x52, 1, 1, true, true, false, false, [⟨31, 0, .rw, 0xF4240⟩]⟩,
  ⟨"TRAV_SAFEOUT", 0x53, 1, 1, true, true, false, false, [⟨31, 0, .rw, 0x0⟩]⟩,
  ⟨"TRAV_FESTAT", 0x54, 1, 1, false, false, false, false, [⟨2, 2, .ro, 0x0⟩, ⟨1, 1, .ro, 0x0⟩, ⟨0, 0, .ro, 0x0⟩]⟩,
  ⟨"TRAV_FECNT", 0x55, 1, 1, false, false, false, false, [⟨31, 0, .ro, 0x0⟩]⟩,
  ⟨"TRAV_FECLR", 0x56, 1, 1, false, false, false, false, [⟨0, 0, .wo, 0x0⟩]⟩,
  ⟨"TRAV_STW", 0x60, 6, 1, true, true, false, false, [⟨31, 0, .rw, 0x0⟩]⟩,
  ⟨"TRAV_STW", 0x66, 1, 1, false, false, false, false, [⟨35, 0, .ro, 0x0⟩]⟩,
  ⟨"TRAV_STW", 0x67, 1, 1, true, true, false, false, [⟨35, 0, .rw, 0x0⟩]⟩,
  ⟨"TRAV_STW", 0x68, 1, 1, true, true, false, false, [⟨31, 0, .rw, 0x0⟩]⟩,
  ⟨"TRAV_STW", 0x69, 2, 1, false, false, false, false, [⟨35, 0, .ro, 0x0⟩]⟩,
  ⟨"TRAV_STW", 0x6B, 1, 1, true, true, false, false, [⟨31, 0, .rw, 0x0⟩]⟩,
  ⟨"TRAV_STW", 0x6C, 3, 1, true, true, false, false, [⟨35, 0, .rw, 0x0⟩]⟩,
  ⟨"TRAV_STW", 0x6F, 1, 1, true, true, false, false, [⟨31, 0, .rw, 0x0⟩]⟩,
  ⟨"TRAV_STW", 0x70, 16, 1, false, false, false, false, [⟨35, 0, .ro, 0x0⟩]⟩]
/-! ### BRNG -/
def BRNG_STAT.at (i : Nat) : Nat := (0x0C008 + i * 256)
def BRNG_STAT.LVL (i : Nat) : Fd := ⟨(0x0C008 + i * 256), 7, 5⟩
def BRNG_STAT.DIR (i : Nat) : Fd := ⟨(0x0C008 + i * 256), 4, 4⟩
def BRNG_STAT.SSIBUSY (i : Nat) : Fd := ⟨(0x0C008 + i * 256), 3, 3⟩
def BRNG_STAT.PER_VALID (i : Nat) : Fd := ⟨(0x0C008 + i * 256), 2, 2⟩
def BRNG_STAT.VEL_VALID (i : Nat) : Fd := ⟨(0x0C008 + i * 256), 1, 1⟩
def BRNG_STAT.POS_VALID (i : Nat) : Fd := ⟨(0x0C008 + i * 256), 0, 0⟩
def BRNG_POS.at (i : Nat) : Nat := (0x0C009 + i * 256)
def BRNG_POS.P (i : Nat) : Fd := ⟨(0x0C009 + i * 256), 35, 0⟩
def BRNG_ANGLE.at (i : Nat) : Nat := (0x0C00A + i * 256)
def BRNG_ANGLE.ANGLE (i : Nat) : Fd := ⟨(0x0C00A + i * 256), 31, 0⟩
def BRNG_VEL.at (i : Nat) : Nat := (0x0C00B + i * 256)
def BRNG_VEL.VEL (i : Nat) : Fd := ⟨(0x0C00B + i * 256), 31, 0⟩
def BRNG_CFG.at (i : Nat) : Nat := (0x0C010 + i * 256)
def BRNG_CFG.FILT (i : Nat) : Fd := ⟨(0x0C010 + i * 256), 15, 10⟩
def BRNG_CFG.ZMODE (i : Nat) : Fd := ⟨(0x0C010 + i * 256), 9, 8⟩
def BRNG_CFG.SWAP (i : Nat) : Fd := ⟨(0x0C010 + i * 256), 3, 3⟩
def BRNG_CFG.MODE (i : Nat) : Fd := ⟨(0x0C010 + i * 256), 2, 0⟩
def BRNG_CPR.at (i : Nat) : Nat := (0x0C011 + i * 256)
def BRNG_CPR.CPR (i : Nat) : Fd := ⟨(0x0C011 + i * 256), 31, 0⟩
def BRNG_AOFS.at (i : Nat) : Nat := (0x0C012 + i * 256)
def BRNG_AOFS.AOFS (i : Nat) : Fd := ⟨(0x0C012 + i * 256), 31, 0⟩
def BRNG_AORG.at (i : Nat) : Nat := (0x0C013 + i * 256)
def BRNG_AORG.AORG (i : Nat) : Fd := ⟨(0x0C013 + i * 256), 35, 0⟩
def BRNG_POSSET.at (i : Nat) : Nat := (0x0C014 + i * 256)
def BRNG_POSSET.P (i : Nat) : Fd := ⟨(0x0C014 + i * 256), 35, 0⟩
def BRNG_SMP.at (i : Nat) : Nat := (0x0C015 + i * 256)
def BRNG_SMP.DLY (i : Nat) : Fd := ⟨(0x0C015 + i * 256), 35, 20⟩
def BRNG_SMP.TSRC (i : Nat) : Fd := ⟨(0x0C015 + i * 256), 15, 12⟩
def BRNG_SMP.PAIR (i : Nat) : Fd := ⟨(0x0C015 + i * 256), 9, 8⟩
def BRNG_SMP.INST (i : Nat) : Fd := ⟨(0x0C015 + i * 256), 3, 0⟩
def BRNG_SPER.at (i : Nat) : Nat := (0x0C016 + i * 256)
def BRNG_SPER.SPER (i : Nat) : Fd := ⟨(0x0C016 + i * 256), 24, 0⟩
def BRNG_VSCALE.at (i : Nat) : Nat := (0x0C017 + i * 256)
def BRNG_VSCALE.VSCALE (i : Nat) : Fd := ⟨(0x0C017 + i * 256), 31, 0⟩
def BRNG_VSTALL.at (i : Nat) : Nat := (0x0C018 + i * 256)
def BRNG_VSTALL.VSTALL (i : Nat) : Fd := ⟨(0x0C018 + i * 256), 23, 0⟩
def BRNG_SSI.at (i : Nat) : Nat := (0x0C019 + i * 256)
def BRNG_SSI.CKH (i : Nat) : Fd := ⟨(0x0C019 + i * 256), 35, 28⟩
def BRNG_SSI.SDLY (i : Nat) : Fd := ⟨(0x0C019 + i * 256), 27, 20⟩
def BRNG_SSI.TMONO (i : Nat) : Fd := ⟨(0x0C019 + i * 256), 19, 12⟩
def BRNG_SSI.GRAY (i : Nat) : Fd := ⟨(0x0C019 + i * 256), 11, 11⟩
def BRNG_SSI.LISTEN (i : Nat) : Fd := ⟨(0x0C019 + i * 256), 10, 10⟩
def BRNG_SSI.NBITS (i : Nat) : Fd := ⟨(0x0C019 + i * 256), 5, 0⟩
def BRNG_PCFG.at (i : Nat) : Nat := (0x0C01A + i * 256)
def BRNG_PCFG.PEDGE (i : Nat) : Fd := ⟨(0x0C01A + i * 256), 17, 16⟩
def BRNG_PCFG.PTO (i : Nat) : Fd := ⟨(0x0C01A + i * 256), 15, 0⟩
def BRNG_DEST.at (i : Nat) (k : Nat) : Nat := (0x0C01C + i * 256 + k)
def BRNG_DEST.LEN (i : Nat) (k : Nat) : Fd := ⟨(0x0C01C + i * 256 + k), 35, 35⟩
def BRNG_DEST.DSEL (i : Nat) (k : Nat) : Fd := ⟨(0x0C01C + i * 256 + k), 34, 33⟩
def BRNG_DEST.ENG (i : Nat) (k : Nat) : Fd := ⟨(0x0C01C + i * 256 + k), 31, 26⟩
def BRNG_DEST.LAT (i : Nat) (k : Nat) : Fd := ⟨(0x0C01C + i * 256 + k), 25, 24⟩
def BRNG_ZCAP.at (i : Nat) : Nat := (0x0C020 + i * 256)
def BRNG_ZCAP.ZCAP (i : Nat) : Fd := ⟨(0x0C020 + i * 256), 35, 0⟩
def BRNG_ZTS.at (i : Nat) : Nat := (0x0C021 + i * 256)
def BRNG_ZTS.ZTS (i : Nat) : Fd := ⟨(0x0C021 + i * 256), 35, 0⟩
def BRNG_ETS.at (i : Nat) : Nat := (0x0C022 + i * 256)
def BRNG_ETS.ETS (i : Nat) : Fd := ⟨(0x0C022 + i * 256), 35, 0⟩
def BRNG_PER.at (i : Nat) : Nat := (0x0C023 + i * 256)
def BRNG_PER.PER (i : Nat) : Fd := ⟨(0x0C023 + i * 256), 35, 0⟩
def BRNG_STS.at (i : Nat) : Nat := (0x0C024 + i * 256)
def BRNG_STS.STS (i : Nat) : Fd := ⟨(0x0C024 + i * 256), 35, 0⟩
def BRNG_SPOS.at (i : Nat) : Nat := (0x0C025 + i * 256)
def BRNG_SPOS.SPOS (i : Nat) : Fd := ⟨(0x0C025 + i * 256), 35, 0⟩
def BRNG_ERRCNT.at (i : Nat) : Nat := (0x0C026 + i * 256)
def BRNG_ERRCNT.QERR (i : Nat) : Fd := ⟨(0x0C026 + i * 256), 35, 18⟩
def BRNG_ERRCNT.SSI (i : Nat) : Fd := ⟨(0x0C026 + i * 256), 17, 0⟩
/-- The register tables of BRNG. -/
def regsBRNG : List RegDef := [
  ⟨"BRNG_STAT", 0x08, 1, 1, false, false, false, false, [⟨7, 5, .ro, 0x0⟩, ⟨4, 4, .ro, 0x0⟩, ⟨3, 3, .ro, 0x0⟩, ⟨2, 2, .ro, 0x0⟩, ⟨1, 1, .ro, 0x0⟩, ⟨0, 0, .ro, 0x0⟩]⟩,
  ⟨"BRNG_POS", 0x09, 1, 1, false, false, false, false, [⟨35, 0, .ro, 0x0⟩]⟩,
  ⟨"BRNG_ANGLE", 0x0A, 1, 1, false, false, false, false, [⟨31, 0, .ro, 0x0⟩]⟩,
  ⟨"BRNG_VEL", 0x0B, 1, 1, false, false, false, false, [⟨31, 0, .ro, 0x0⟩]⟩,
  ⟨"BRNG_CFG", 0x10, 1, 1, true, false, false, false, [⟨15, 10, .rw, 0x0⟩, ⟨9, 8, .rw, 0x0⟩, ⟨3, 3, .rw, 0x0⟩, ⟨2, 0, .rw, 0x0⟩]⟩,
  ⟨"BRNG_CPR", 0x11, 1, 1, true, false, false, false, [⟨31, 0, .rw, 0x1000⟩]⟩,
  ⟨"BRNG_AOFS", 0x12, 1, 1, true, false, false, false, [⟨31, 0, .rw, 0x0⟩]⟩,
  ⟨"BRNG_AORG", 0x13, 1, 1, false, false, false, false, [⟨35, 0, .rw, 0x0⟩]⟩,
  ⟨"BRNG_POSSET", 0x14, 1, 1, false, false, false, false, [⟨35, 0, .wo, 0x0⟩]⟩,
  ⟨"BRNG_SMP", 0x15, 1, 1, true, false, false, false, [⟨35, 20, .rw, 0x0⟩, ⟨15, 12, .rw, 0x0⟩, ⟨9, 8, .rw, 0x0⟩, ⟨3, 0, .rw, 0x0⟩]⟩,
  ⟨"BRNG_SPER", 0x16, 1, 1, true, false, false, false, [⟨24, 0, .rw, 0x64⟩]⟩,
  ⟨"BRNG_VSCALE", 0x17, 1, 1, true, false, false, false, [⟨31, 0, .rw, 0x4E6E6B28⟩]⟩,
  ⟨"BRNG_VSTALL", 0x18, 1, 1, true, false, false, false, [⟨23, 0, .rw, 0xF4240⟩]⟩,
  ⟨"BRNG_SSI", 0x19, 1, 1, true, false, false, false, [⟨35, 28, .rw, 0x32⟩, ⟨27, 20, .rw, 0x0⟩, ⟨19, 12, .rw, 0xA0⟩, ⟨11, 11, .rw, 0x0⟩, ⟨10, 10, .rw, 0x0⟩, ⟨5, 0, .rw, 0x19⟩]⟩,
  ⟨"BRNG_PCFG", 0x1A, 1, 1, true, false, false, false, [⟨17, 16, .rw, 0x1⟩, ⟨15, 0, .rw, 0x0⟩]⟩,
  ⟨"BRNG_DEST", 0x1C, 2, 1, true, false, false, false, [⟨35, 35, .rw, 0x0⟩, ⟨34, 33, .rw, 0x0⟩, ⟨31, 26, .rw, 0x0⟩, ⟨25, 24, .rw, 0x0⟩]⟩,
  ⟨"BRNG_ZCAP", 0x20, 1, 1, false, false, false, false, [⟨35, 0, .ro, 0x0⟩]⟩,
  ⟨"BRNG_ZTS", 0x21, 1, 1, false, false, false, false, [⟨35, 0, .ro, 0x0⟩]⟩,
  ⟨"BRNG_ETS", 0x22, 1, 1, false, false, false, false, [⟨35, 0, .ro, 0x0⟩]⟩,
  ⟨"BRNG_PER", 0x23, 1, 1, false, false, false, false, [⟨35, 0, .ro, 0x0⟩]⟩,
  ⟨"BRNG_STS", 0x24, 1, 1, false, false, false, false, [⟨35, 0, .ro, 0x0⟩]⟩,
  ⟨"BRNG_SPOS", 0x25, 1, 1, false, false, false, false, [⟨35, 0, .ro, 0x0⟩]⟩,
  ⟨"BRNG_ERRCNT", 0x26, 1, 1, false, false, false, false, [⟨35, 18, .ro, 0x0⟩, ⟨17, 0, .ro, 0x0⟩]⟩]
/-! ### PRESS -/
def PRESS_CHCFG.at (i : Nat) (k : Nat) : Nat := (0x0D010 + i * 256 + k)
def PRESS_CHCFG.TAGS (i : Nat) (k : Nat) : Fd := ⟨(0x0D010 + i * 256 + k), 13, 8⟩
def PRESS_CHCFG.PRI (i : Nat) (k : Nat) : Fd := ⟨(0x0D010 + i * 256 + k), 1, 0⟩
def PRESS_CHPTR.at (i : Nat) (k : Nat) : Nat := (0x0D020 + i * 256 + k)
def PRESS_CHPTR.SLIP (i : Nat) (k : Nat) : Fd := ⟨(0x0D020 + i * 256 + k), 27, 0⟩
def PRESS_CHCTL.at (i : Nat) (k : Nat) : Nat := (0x0D030 + i * 256 + k)
def PRESS_CHCTL.SWTRIG (i : Nat) (k : Nat) : Fd := ⟨(0x0D030 + i * 256 + k), 2, 2⟩
def PRESS_CHCTL.STOP (i : Nat) (k : Nat) : Fd := ⟨(0x0D030 + i * 256 + k), 1, 1⟩
def PRESS_CHCTL.START (i : Nat) (k : Nat) : Fd := ⟨(0x0D030 + i * 256 + k), 0, 0⟩
def PRESS_CHSTAT.at (i : Nat) (k : Nat) : Nat := (0x0D040 + i * 256 + k)
def PRESS_CHSTAT.ERR (i : Nat) (k : Nat) : Fd := ⟨(0x0D040 + i * 256 + k), 35, 32⟩
def PRESS_CHSTAT.STOPREQ (i : Nat) (k : Nat) : Fd := ⟨(0x0D040 + i * 256 + k), 5, 5⟩
def PRESS_CHSTAT.TPEND (i : Nat) (k : Nat) : Fd := ⟨(0x0D040 + i * 256 + k), 4, 4⟩
def PRESS_CHSTAT.TLOST (i : Nat) (k : Nat) : Fd := ⟨(0x0D040 + i * 256 + k), 3, 3⟩
def PRESS_CHSTAT.STATE (i : Nat) (k : Nat) : Fd := ⟨(0x0D040 + i * 256 + k), 2, 0⟩
def PRESS_CHREM.at (i : Nat) (k : Nat) : Nat := (0x0D050 + i * 256 + k)
def PRESS_CHREM.REM (i : Nat) (k : Nat) : Fd := ⟨(0x0D050 + i * 256 + k), 35, 0⟩
def PRESS_GSTAT.at : Nat := 0x0D008
def PRESS_GSTAT.TAGS : Fd := ⟨0x0D008, 12, 0⟩
def PRESS_HALTADDR.at : Nat := 0x0D009
def PRESS_HALTADDR.CAUSE : Fd := ⟨0x0D009, 30, 28⟩
def PRESS_HALTADDR.ADDR : Fd := ⟨0x0D009, 27, 0⟩
def PRESS_HALT.at : Nat := 0x0D00A
def PRESS_HALT.HALT : Fd := ⟨0x0D00A, 0, 0⟩
def PRESS_GCTL.at : Nat := 0x0D060
def PRESS_GCTL.HEN : Fd := ⟨0x0D060, 1, 1⟩
def PRESS_GCTL.HCLR : Fd := ⟨0x0D060, 0, 0⟩
/-- The register tables of PRESS. -/
def regsPRESS : List RegDef := [
  ⟨"PRESS_CHCFG", 0x10, 16, 1, false, false, false, false, [⟨13, 8, .rw, 0x10⟩, ⟨1, 0, .rw, 0x0⟩]⟩,
  ⟨"PRESS_CHPTR", 0x20, 16, 1, false, false, false, false, [⟨27, 0, .rw, 0x0⟩]⟩,
  ⟨"PRESS_CHCTL", 0x30, 16, 1, false, false, false, false, [⟨2, 2, .wo, 0x0⟩, ⟨1, 1, .wo, 0x0⟩, ⟨0, 0, .wo, 0x0⟩]⟩,
  ⟨"PRESS_CHSTAT", 0x40, 16, 1, false, false, false, false, [⟨35, 32, .ro, 0x0⟩, ⟨5, 5, .ro, 0x0⟩, ⟨4, 4, .ro, 0x0⟩, ⟨3, 3, .ro, 0x0⟩, ⟨2, 0, .ro, 0x0⟩]⟩,
  ⟨"PRESS_CHREM", 0x50, 16, 1, false, false, false, false, [⟨35, 0, .ro, 0x0⟩]⟩]
/-- The register tables of PRESS (page 0D0 only). -/
def regsPRESS0 : List RegDef := [
  ⟨"PRESS_GSTAT", 0x08, 1, 1, false, false, false, false, [⟨12, 0, .ro, 0x0⟩]⟩,
  ⟨"PRESS_HALTADDR", 0x09, 1, 1, false, false, false, false, [⟨30, 28, .ro, 0x0⟩, ⟨27, 0, .ro, 0x0⟩]⟩,
  ⟨"PRESS_HALT", 0x0A, 1, 1, false, false, false, false, [⟨0, 0, .ro, 0x0⟩]⟩,
  ⟨"PRESS_GCTL", 0x60, 1, 1, false, false, false, false, [⟨1, 1, .rw, 0x1⟩, ⟨0, 0, .wo, 0x0⟩]⟩]
/-! ### PCIE -/
def PCIE_STAT.at : Nat := 0x10008
def PCIE_STAT.WIDTH : Fd := ⟨0x10008, 8, 8⟩
def PCIE_STAT.SPEED : Fd := ⟨0x10008, 5, 4⟩
def PCIE_STAT.LINK : Fd := ⟨0x10008, 1, 0⟩
def PCIE_ERRADDR.at : Nat := 0x10009
def PCIE_ERRADDR.ADDR : Fd := ⟨0x10009, 27, 0⟩
def PCIE_W2BASE.at : Nat := 0x10010
def PCIE_W2BASE.WIN : Fd := ⟨0x10010, 3, 0⟩
def PCIE_MSIXSRC.at (k : Nat) : Nat := (0x10040 + k)
def PCIE_MSIXSRC.EN (k : Nat) : Fd := ⟨(0x10040 + k), 35, 35⟩
def PCIE_MSIXSRC.SRC (k : Nat) : Fd := ⟨(0x10040 + k), 10, 0⟩
/-- The register tables of PCIE. -/
def regsPCIE : List RegDef := [
  ⟨"PCIE_STAT", 0x08, 1, 1, false, false, false, false, [⟨8, 8, .ro, 0x0⟩, ⟨5, 4, .ro, 0x0⟩, ⟨1, 0, .ro, 0x0⟩]⟩,
  ⟨"PCIE_ERRADDR", 0x09, 1, 1, false, false, false, false, [⟨27, 0, .ro, 0x0⟩]⟩,
  ⟨"PCIE_W2BASE", 0x10, 1, 1, false, false, false, false, [⟨3, 0, .rw, 0x4⟩]⟩,
  ⟨"PCIE_MSIXSRC", 0x40, 64, 1, false, false, false, false, [⟨35, 35, .rw, 0x0⟩, ⟨10, 0, .rw, 0x0⟩]⟩]
/-! ### ETH -/
def ETH_STAT.at (i : Nat) : Nat := (0x10108 + i * 256)
def ETH_STAT.SGSYNC (i : Nat) : Fd := ⟨(0x10108 + i * 256), 4, 4⟩
def ETH_STAT.AN_DONE (i : Nat) : Fd := ⟨(0x10108 + i * 256), 3, 3⟩
def ETH_STAT.SPEED (i : Nat) : Fd := ⟨(0x10108 + i * 256), 1, 0⟩
def ETH_CTL.at (i : Nat) : Nat := (0x10110 + i * 256)
def ETH_CTL.TXEN (i : Nat) : Fd := ⟨(0x10110 + i * 256), 35, 35⟩
def ETH_CTL.RXEN (i : Nat) : Fd := ⟨(0x10110 + i * 256), 34, 34⟩
def ETH_CTL.IF (i : Nat) : Fd := ⟨(0x10110 + i * 256), 33, 33⟩
def ETH_CTL.SGAN (i : Nat) : Fd := ⟨(0x10110 + i * 256), 32, 32⟩
def ETH_CTL.PROMISC (i : Nat) : Fd := ⟨(0x10110 + i * 256), 31, 31⟩
def ETH_CTL.TSALL (i : Nat) : Fd := ⟨(0x10110 + i * 256), 30, 30⟩
def ETH_CTL.SPEED (i : Nat) : Fd := ⟨(0x10110 + i * 256), 29, 28⟩
def ETH_MACH.at (i : Nat) : Nat := (0x10111 + i * 256)
def ETH_MACH.ADDR (i : Nat) : Fd := ⟨(0x10111 + i * 256), 15, 0⟩
def ETH_MACL.at (i : Nat) : Nat := (0x10112 + i * 256)
def ETH_MACL.ADDR (i : Nat) : Fd := ⟨(0x10112 + i * 256), 31, 0⟩
def ETH_TSOFS.at (i : Nat) : Nat := (0x10113 + i * 256)
def ETH_TSOFS.OFS (i : Nat) : Fd := ⟨(0x10113 + i * 256), 17, 0⟩
def ETH_GCLBASE.at (i : Nat) : Nat := (0x10114 + i * 256)
def ETH_GCLBASE.BASE (i : Nat) : Fd := ⟨(0x10114 + i * 256), 27, 0⟩
def ETH_GCLLEN.at (i : Nat) : Nat := (0x10115 + i * 256)
def ETH_GCLLEN.LEN (i : Nat) : Fd := ⟨(0x10115 + i * 256), 8, 0⟩
def ETH_GCLSTART.at (i : Nat) : Nat := (0x10116 + i * 256)
def ETH_GCLSTART.START (i : Nat) : Fd := ⟨(0x10116 + i * 256), 35, 0⟩
def ETH_TXQ.at (i : Nat) (k : Nat) : Nat := (0x10118 + i * 256 + k)
def ETH_TXQ.Q (i : Nat) (k : Nat) : Fd := ⟨(0x10118 + i * 256 + k), 14, 0⟩
def ETH_DONEQ.at (i : Nat) : Nat := (0x10120 + i * 256)
def ETH_DONEQ.Q (i : Nat) : Fd := ⟨(0x10120 + i * 256), 14, 0⟩
def ETH_FREEQ.at (i : Nat) : Nat := (0x10121 + i * 256)
def ETH_FREEQ.Q (i : Nat) : Fd := ⟨(0x10121 + i * 256), 14, 0⟩
def ETH_RXQ.at (i : Nat) : Nat := (0x10122 + i * 256)
def ETH_RXQ.Q (i : Nat) : Fd := ⟨(0x10122 + i * 256), 14, 0⟩
def ETH_MDIO.at (i : Nat) : Nat := (0x10123 + i * 256)
def ETH_MDIO.GO (i : Nat) : Fd := ⟨(0x10123 + i * 256), 35, 35⟩
def ETH_MDIO.WR (i : Nat) : Fd := ⟨(0x10123 + i * 256), 34, 34⟩
def ETH_MDIO.BUSY (i : Nat) : Fd := ⟨(0x10123 + i * 256), 33, 33⟩
def ETH_MDIO.PHYAD (i : Nat) : Fd := ⟨(0x10123 + i * 256), 30, 26⟩
def ETH_MDIO.REGAD (i : Nat) : Fd := ⟨(0x10123 + i * 256), 25, 21⟩
def ETH_MDIO.DATA (i : Nat) : Fd := ⟨(0x10123 + i * 256), 15, 0⟩
/-- The register tables of ETH. -/
def regsETH : List RegDef := [
  ⟨"ETH_STAT", 0x08, 1, 1, false, false, false, false, [⟨4, 4, .ro, 0x0⟩, ⟨3, 3, .ro, 0x0⟩, ⟨1, 0, .ro, 0x0⟩]⟩,
  ⟨"ETH_CTL", 0x10, 1, 1, false, false, false, false, [⟨35, 35, .rw, 0x0⟩, ⟨34, 34, .rw, 0x0⟩, ⟨33, 33, .rw, 0x0⟩, ⟨32, 32, .rw, 0x0⟩, ⟨31, 31, .rw, 0x0⟩, ⟨30, 30, .rw, 0x0⟩, ⟨29, 28, .rw, 0x0⟩]⟩,
  ⟨"ETH_MACH", 0x11, 1, 1, false, false, false, false, [⟨15, 0, .rw, 0x0⟩]⟩,
  ⟨"ETH_MACL", 0x12, 1, 1, false, false, false, false, [⟨31, 0, .rw, 0x0⟩]⟩,
  ⟨"ETH_TSOFS", 0x13, 1, 1, false, false, false, false, [⟨17, 0, .rw, 0x0⟩]⟩,
  ⟨"ETH_GCLBASE", 0x14, 1, 1, false, false, false, false, [⟨27, 0, .rw, 0x0⟩]⟩,
  ⟨"ETH_GCLLEN", 0x15, 1, 1, false, false, false, false, [⟨8, 0, .rw, 0x0⟩]⟩,
  ⟨"ETH_GCLSTART", 0x16, 1, 1, false, false, false, false, [⟨35, 0, .rw, 0x0⟩]⟩,
  ⟨"ETH_TXQ", 0x18, 8, 1, false, false, false, false, [⟨14, 0, .rw, 0x0⟩]⟩,
  ⟨"ETH_DONEQ", 0x20, 1, 1, false, false, false, false, [⟨14, 0, .rw, 0x0⟩]⟩,
  ⟨"ETH_FREEQ", 0x21, 1, 1, false, false, false, false, [⟨14, 0, .rw, 0x0⟩]⟩,
  ⟨"ETH_RXQ", 0x22, 1, 1, false, false, false, false, [⟨14, 0, .rw, 0x0⟩]⟩,
  ⟨"ETH_MDIO", 0x23, 1, 1, false, false, false, false, [⟨35, 35, .wo, 0x0⟩, ⟨34, 34, .rw, 0x0⟩, ⟨33, 33, .ro, 0x0⟩, ⟨30, 26, .rw, 0x0⟩, ⟨25, 21, .rw, 0x0⟩, ⟨15, 0, .rw, 0x0⟩]⟩]
/-! ### CANF -/
def CANF_STAT.at (i : Nat) : Nat := (0x10808 + i * 256)
def CANF_STAT.STATE (i : Nat) : Fd := ⟨(0x10808 + i * 256), 17, 16⟩
def CANF_STAT.REC (i : Nat) : Fd := ⟨(0x10808 + i * 256), 15, 8⟩
def CANF_STAT.TEC (i : Nat) : Fd := ⟨(0x10808 + i * 256), 7, 0⟩
def CANF_CTL.at (i : Nat) : Nat := (0x10810 + i * 256)
def CANF_CTL.EN (i : Nat) : Fd := ⟨(0x10810 + i * 256), 35, 35⟩
def CANF_CTL.FDEN (i : Nat) : Fd := ⟨(0x10810 + i * 256), 34, 34⟩
def CANF_CTL.TDCEN (i : Nat) : Fd := ⟨(0x10810 + i * 256), 33, 33⟩
def CANF_CTL.RECOV (i : Nat) : Fd := ⟨(0x10810 + i * 256), 32, 32⟩
def CANF_CTL.LOM (i : Nat) : Fd := ⟨(0x10810 + i * 256), 31, 31⟩
def CANF_CTL.TDCO (i : Nat) : Fd := ⟨(0x10810 + i * 256), 11, 0⟩
def CANF_NBT.at (i : Nat) : Nat := (0x10811 + i * 256)
def CANF_NBT.TQ (i : Nat) : Fd := ⟨(0x10811 + i * 256), 35, 24⟩
def CANF_NBT.SEG1 (i : Nat) : Fd := ⟨(0x10811 + i * 256), 23, 16⟩
def CANF_NBT.SEG2 (i : Nat) : Fd := ⟨(0x10811 + i * 256), 15, 8⟩
def CANF_NBT.SJW (i : Nat) : Fd := ⟨(0x10811 + i * 256), 7, 0⟩
def CANF_DBT.at (i : Nat) : Nat := (0x10812 + i * 256)
def CANF_DBT.TQ (i : Nat) : Fd := ⟨(0x10812 + i * 256), 35, 24⟩
def CANF_DBT.SEG1 (i : Nat) : Fd := ⟨(0x10812 + i * 256), 23, 16⟩
def CANF_DBT.SEG2 (i : Nat) : Fd := ⟨(0x10812 + i * 256), 15, 8⟩
def CANF_DBT.SJW (i : Nat) : Fd := ⟨(0x10812 + i * 256), 7, 0⟩
def CANF_TXQ.at (i : Nat) : Nat := (0x10813 + i * 256)
def CANF_TXQ.Q (i : Nat) : Fd := ⟨(0x10813 + i * 256), 14, 0⟩
def CANF_RXQ.at (i : Nat) : Nat := (0x10814 + i * 256)
def CANF_RXQ.Q (i : Nat) : Fd := ⟨(0x10814 + i * 256), 14, 0⟩
def CANF_ID.at (i : Nat) (k : Nat) : Nat := (0x10820 + i * 256 + k)
def CANF_ID.EN (i : Nat) (k : Nat) : Fd := ⟨(0x10820 + i * 256 + k), 35, 35⟩
def CANF_ID.IDE (i : Nat) (k : Nat) : Fd := ⟨(0x10820 + i * 256 + k), 33, 33⟩
def CANF_ID.ID (i : Nat) (k : Nat) : Fd := ⟨(0x10820 + i * 256 + k), 28, 0⟩
def CANF_MASK.at (i : Nat) (k : Nat) : Nat := (0x10828 + i * 256 + k)
def CANF_MASK.MASK (i : Nat) (k : Nat) : Fd := ⟨(0x10828 + i * 256 + k), 28, 0⟩
/-- The register tables of CANF. -/
def regsCANF : List RegDef := [
  ⟨"CANF_STAT", 0x08, 1, 1, false, false, false, false, [⟨17, 16, .ro, 0x0⟩, ⟨15, 8, .ro, 0x0⟩, ⟨7, 0, .ro, 0x0⟩]⟩,
  ⟨"CANF_CTL", 0x10, 1, 1, false, false, false, false, [⟨35, 35, .rw, 0x0⟩, ⟨34, 34, .rw, 0x0⟩, ⟨33, 33, .rw, 0x0⟩, ⟨32, 32, .wo, 0x0⟩, ⟨31, 31, .rw, 0x0⟩, ⟨11, 0, .rw, 0x0⟩]⟩,
  ⟨"CANF_NBT", 0x11, 1, 1, false, false, false, false, [⟨35, 24, .rw, 0x19⟩, ⟨23, 16, .rw, 0x3F⟩, ⟨15, 8, .rw, 0x10⟩, ⟨7, 0, .rw, 0x10⟩]⟩,
  ⟨"CANF_DBT", 0x12, 1, 1, false, false, false, false, [⟨35, 24, .rw, 0x19⟩, ⟨23, 16, .rw, 0xE⟩, ⟨15, 8, .rw, 0x5⟩, ⟨7, 0, .rw, 0x5⟩]⟩,
  ⟨"CANF_TXQ", 0x13, 1, 1, false, false, false, false, [⟨14, 0, .rw, 0x0⟩]⟩,
  ⟨"CANF_RXQ", 0x14, 1, 1, false, false, false, false, [⟨14, 0, .rw, 0x0⟩]⟩,
  ⟨"CANF_ID", 0x20, 8, 1, false, false, false, false, [⟨35, 35, .rw, 0x0⟩, ⟨33, 33, .rw, 0x0⟩, ⟨28, 0, .rw, 0x0⟩]⟩,
  ⟨"CANF_MASK", 0x28, 8, 1, false, false, false, false, [⟨28, 0, .rw, 0x0⟩]⟩]
/-! ### UART -/
def UART_STAT.at (i : Nat) : Nat := (0x11008 + i * 256)
def UART_STAT.RXBUSY (i : Nat) : Fd := ⟨(0x11008 + i * 256), 1, 1⟩
def UART_STAT.TXBUSY (i : Nat) : Fd := ⟨(0x11008 + i * 256), 0, 0⟩
def UART_CTL.at (i : Nat) : Nat := (0x11010 + i * 256)
def UART_CTL.EN (i : Nat) : Fd := ⟨(0x11010 + i * 256), 35, 35⟩
def UART_CTL.DBITS (i : Nat) : Fd := ⟨(0x11010 + i * 256), 33, 32⟩
def UART_CTL.PAR (i : Nat) : Fd := ⟨(0x11010 + i * 256), 31, 30⟩
def UART_CTL.STOP2 (i : Nat) : Fd := ⟨(0x11010 + i * 256), 29, 29⟩
def UART_CTL.DIV (i : Nat) : Fd := ⟨(0x11010 + i * 256), 15, 0⟩
def UART_TXQ.at (i : Nat) : Nat := (0x11011 + i * 256)
def UART_TXQ.Q (i : Nat) : Fd := ⟨(0x11011 + i * 256), 14, 0⟩
def UART_RXQ.at (i : Nat) : Nat := (0x11012 + i * 256)
def UART_RXQ.Q (i : Nat) : Fd := ⟨(0x11012 + i * 256), 14, 0⟩
/-- The register tables of UART. -/
def regsUART : List RegDef := [
  ⟨"UART_STAT", 0x08, 1, 1, false, false, false, false, [⟨1, 1, .ro, 0x0⟩, ⟨0, 0, .ro, 0x0⟩]⟩,
  ⟨"UART_CTL", 0x10, 1, 1, false, false, false, false, [⟨35, 35, .rw, 0x0⟩, ⟨33, 32, .rw, 0x3⟩, ⟨31, 30, .rw, 0x0⟩, ⟨29, 29, .rw, 0x0⟩, ⟨15, 0, .rw, 0x21E9⟩]⟩,
  ⟨"UART_TXQ", 0x11, 1, 1, false, false, false, false, [⟨14, 0, .rw, 0x0⟩]⟩,
  ⟨"UART_RXQ", 0x12, 1, 1, false, false, false, false, [⟨14, 0, .rw, 0x0⟩]⟩]
/-! ### SPI -/
def SPI_STAT.at (i : Nat) : Nat := (0x11808 + i * 256)
def SPI_STAT.RXBUSY (i : Nat) : Fd := ⟨(0x11808 + i * 256), 1, 1⟩
def SPI_STAT.TXBUSY (i : Nat) : Fd := ⟨(0x11808 + i * 256), 0, 0⟩
def SPI_CTL.at (i : Nat) : Nat := (0x11810 + i * 256)
def SPI_CTL.EN (i : Nat) : Fd := ⟨(0x11810 + i * 256), 35, 35⟩
def SPI_CTL.TARGET (i : Nat) : Fd := ⟨(0x11810 + i * 256), 34, 34⟩
def SPI_CTL.MODE (i : Nat) : Fd := ⟨(0x11810 + i * 256), 33, 32⟩
def SPI_CTL.LSBF (i : Nat) : Fd := ⟨(0x11810 + i * 256), 31, 31⟩
def SPI_CTL.DIV (i : Nat) : Fd := ⟨(0x11810 + i * 256), 7, 0⟩
def SPI_TXQ.at (i : Nat) : Nat := (0x11811 + i * 256)
def SPI_TXQ.Q (i : Nat) : Fd := ⟨(0x11811 + i * 256), 14, 0⟩
def SPI_RXQ.at (i : Nat) : Nat := (0x11812 + i * 256)
def SPI_RXQ.Q (i : Nat) : Fd := ⟨(0x11812 + i * 256), 14, 0⟩
/-- The register tables of SPI. -/
def regsSPI : List RegDef := [
  ⟨"SPI_STAT", 0x08, 1, 1, false, false, false, false, [⟨1, 1, .ro, 0x0⟩, ⟨0, 0, .ro, 0x0⟩]⟩,
  ⟨"SPI_CTL", 0x10, 1, 1, false, false, false, false, [⟨35, 35, .rw, 0x0⟩, ⟨34, 34, .rw, 0x0⟩, ⟨33, 32, .rw, 0x0⟩, ⟨31, 31, .rw, 0x0⟩, ⟨7, 0, .rw, 0x32⟩]⟩,
  ⟨"SPI_TXQ", 0x11, 1, 1, false, false, false, false, [⟨14, 0, .rw, 0x0⟩]⟩,
  ⟨"SPI_RXQ", 0x12, 1, 1, false, false, false, false, [⟨14, 0, .rw, 0x0⟩]⟩]
/-! ### I2C -/
def I2C_STAT.at (i : Nat) : Nat := (0x12008 + i * 256)
def I2C_STAT.RXBUSY (i : Nat) : Fd := ⟨(0x12008 + i * 256), 1, 1⟩
def I2C_STAT.TXBUSY (i : Nat) : Fd := ⟨(0x12008 + i * 256), 0, 0⟩
def I2C_CTL.at (i : Nat) : Nat := (0x12010 + i * 256)
def I2C_CTL.EN (i : Nat) : Fd := ⟨(0x12010 + i * 256), 35, 35⟩
def I2C_CTL.TARGET (i : Nat) : Fd := ⟨(0x12010 + i * 256), 34, 34⟩
def I2C_CTL.SPEED (i : Nat) : Fd := ⟨(0x12010 + i * 256), 33, 32⟩
def I2C_CTL.A10 (i : Nat) : Fd := ⟨(0x12010 + i * 256), 31, 31⟩
def I2C_CTL.OWNADDR (i : Nat) : Fd := ⟨(0x12010 + i * 256), 9, 0⟩
def I2C_TXQ.at (i : Nat) : Nat := (0x12011 + i * 256)
def I2C_TXQ.Q (i : Nat) : Fd := ⟨(0x12011 + i * 256), 14, 0⟩
def I2C_RXQ.at (i : Nat) : Nat := (0x12012 + i * 256)
def I2C_RXQ.Q (i : Nat) : Fd := ⟨(0x12012 + i * 256), 14, 0⟩
/-- The register tables of I2C. -/
def regsI2C : List RegDef := [
  ⟨"I2C_STAT", 0x08, 1, 1, false, false, false, false, [⟨1, 1, .ro, 0x0⟩, ⟨0, 0, .ro, 0x0⟩]⟩,
  ⟨"I2C_CTL", 0x10, 1, 1, false, false, false, false, [⟨35, 35, .rw, 0x0⟩, ⟨34, 34, .rw, 0x0⟩, ⟨33, 32, .rw, 0x0⟩, ⟨31, 31, .rw, 0x0⟩, ⟨9, 0, .rw, 0x0⟩]⟩,
  ⟨"I2C_TXQ", 0x11, 1, 1, false, false, false, false, [⟨14, 0, .rw, 0x0⟩]⟩,
  ⟨"I2C_RXQ", 0x12, 1, 1, false, false, false, false, [⟨14, 0, .rw, 0x0⟩]⟩]
/-! ### AVS -/
def AVS_STAT.at : Nat := 0x12208
def AVS_STAT.FAILS : Fd := ⟨0x12208, 31, 16⟩
def AVS_STAT.LAST : Fd := ⟨0x12208, 15, 0⟩
def AVS_CTL.at : Nat := 0x12210
def AVS_CTL.DIV : Fd := ⟨0x12210, 7, 0⟩
/-- The register tables of AVS. -/
def regsAVS : List RegDef := [
  ⟨"AVS_STAT", 0x08, 1, 1, false, false, false, false, [⟨31, 16, .ro, 0x0⟩, ⟨15, 0, .ro, 0x0⟩]⟩,
  ⟨"AVS_CTL", 0x10, 1, 1, false, false, false, false, [⟨7, 0, .rw, 0x32⟩]⟩]
/-! ### GPIO -/
def GPIO_IN.at (i : Nat) : Nat := (0x13008 + i * 256)
def GPIO_IN.IN (i : Nat) : Fd := ⟨(0x13008 + i * 256), 31, 0⟩
def GPIO_OUT.at (i : Nat) : Nat := (0x13010 + i * 256)
def GPIO_OUT.OUT (i : Nat) : Fd := ⟨(0x13010 + i * 256), 31, 0⟩
def GPIO_OE.at (i : Nat) : Nat := (0x13011 + i * 256)
def GPIO_OE.OE (i : Nat) : Fd := ⟨(0x13011 + i * 256), 31, 0⟩
def GPIO_SET.at (i : Nat) : Nat := (0x13012 + i * 256)
def GPIO_SET.SET (i : Nat) : Fd := ⟨(0x13012 + i * 256), 31, 0⟩
def GPIO_CLR.at (i : Nat) : Nat := (0x13013 + i * 256)
def GPIO_CLR.CLR (i : Nat) : Fd := ⟨(0x13013 + i * 256), 31, 0⟩
def GPIO_EDGE.at (i : Nat) (k : Nat) : Nat := (0x13014 + i * 256 + k)
def GPIO_EDGE.EDGE (i : Nat) (k : Nat) : Fd := ⟨(0x13014 + i * 256 + k), 31, 0⟩
/-- The register tables of GPIO. -/
def regsGPIO : List RegDef := [
  ⟨"GPIO_IN", 0x08, 1, 1, false, false, false, false, [⟨31, 0, .ro, 0x0⟩]⟩,
  ⟨"GPIO_OUT", 0x10, 1, 1, false, false, false, false, [⟨31, 0, .rw, 0x0⟩]⟩,
  ⟨"GPIO_OE", 0x11, 1, 1, false, false, false, false, [⟨31, 0, .rw, 0x0⟩]⟩,
  ⟨"GPIO_SET", 0x12, 1, 1, false, false, false, false, [⟨31, 0, .wo, 0x0⟩]⟩,
  ⟨"GPIO_CLR", 0x13, 1, 1, false, false, false, false, [⟨31, 0, .wo, 0x0⟩]⟩,
  ⟨"GPIO_EDGE", 0x14, 2, 1, false, false, false, false, [⟨31, 0, .rw, 0x0⟩]⟩]
/-! ### DBG -/
def DBG_CTL.at (k : Nat) : Nat := (0x14010 + k)
def DBG_CTL.HALTREQ (k : Nat) : Fd := ⟨(0x14010 + k), 35, 35⟩
def DBG_CTL.STEP (k : Nat) : Fd := ⟨(0x14010 + k), 34, 34⟩
def DBG_CTL.RESUME (k : Nat) : Fd := ⟨(0x14010 + k), 33, 33⟩
def DBG_CTL.MON (k : Nat) : Fd := ⟨(0x14010 + k), 32, 32⟩
def DBG_CTL.HALTED (k : Nat) : Fd := ⟨(0x14010 + k), 31, 31⟩
def DBG_CTL.BPEN (k : Nat) : Fd := ⟨(0x14010 + k), 3, 0⟩
def DBG_BP.at (k : Nat) : Nat := (0x14020 + k)
def DBG_BP.IP (k : Nat) : Fd := ⟨(0x14020 + k), 28, 0⟩
/-- The register tables of DBG. -/
def regsDBG : List RegDef := [
  ⟨"DBG_CTL", 0x10, 8, 1, false, false, false, false, [⟨35, 35, .wo, 0x0⟩, ⟨34, 34, .wo, 0x0⟩, ⟨33, 33, .wo, 0x0⟩, ⟨32, 32, .rw, 0x0⟩, ⟨31, 31, .ro, 0x0⟩, ⟨3, 0, .rw, 0x0⟩]⟩,
  ⟨"DBG_BP", 0x20, 32, 1, false, false, false, false, [⟨28, 0, .rw, 0x0⟩]⟩]
/-- The header words (R50). -/
def regsHeader : List RegDef := [
  ⟨"FOLIO_ID", 0x00, 1, 1, false, false, false, false, [⟨35, 24, .ro, 0x0⟩, ⟨23, 16, .ro, 0x0⟩, ⟨15, 8, .ro, 0x1⟩, ⟨7, 0, .ro, 0x1⟩]⟩,
  ⟨"FOLIO_CAP", 0x01, 1, 1, false, false, false, false, [⟨13, 8, .ro, 0x0⟩, ⟨4, 4, .ro, 0x0⟩, ⟨3, 3, .ro, 0x0⟩, ⟨2, 2, .ro, 0x0⟩, ⟨1, 1, .ro, 0x0⟩, ⟨0, 0, .ro, 0x0⟩]⟩,
  ⟨"FOLIO_STAT", 0x02, 1, 1, false, false, false, false, [⟨23, 16, .ro, 0x0⟩, ⟨15, 12, .ro, 0x0⟩, ⟨5, 5, .w1c, 0x0⟩, ⟨4, 4, .ro, 0x0⟩, ⟨3, 3, .w1c, 0x0⟩, ⟨2, 2, .w1c, 0x0⟩, ⟨1, 1, .ro, 0x0⟩, ⟨0, 0, .ro, 0x1⟩]⟩,
  ⟨"FOLIO_CTL", 0x03, 1, 1, false, false, true, false, [⟨1, 1, .wo, 0x0⟩, ⟨0, 0, .rw, 0x0⟩]⟩,
  ⟨"FOLIO_GROUP", 0x04, 1, 1, false, false, false, false, [⟨11, 8, .rw, 0x0⟩, ⟨7, 7, .rw, 0x0⟩, ⟨4, 0, .rw, 0x0⟩]⟩,
  ⟨"FOLIO_EVT", 0x05, 1, 1, false, false, false, false, [⟨35, 35, .w1c, 0x0⟩, ⟨34, 34, .w1c, 0x0⟩, ⟨33, 33, .w1c, 0x0⟩, ⟨32, 32, .w1c, 0x0⟩, ⟨31, 0, .w1c, 0x0⟩]⟩,
  ⟨"FOLIO_EVTEN", 0x06, 1, 1, false, false, false, false, [⟨35, 32, .rw, 0xF⟩, ⟨31, 0, .rw, 0x0⟩]⟩,
  ⟨"FOLIO_VOTE", 0x07, 1, 1, false, false, false, false, [⟨31, 0, .w1c, 0x0⟩]⟩]

/-- The block registers of instance `i` of a block. -/
def Blk.regs : Blk → Nat → List RegDef
  | .sys, _ => regsSYS
  | .rstc, _ => regsRSTC
  | .pinc, _ => regsPINC
  | .merid, _ => regsMERID
  | .pace, _ => regsPACE
  | .cba, _ => regsCBA
  | .evc, i => if i = 0 then regsEVC0 ++ regsEVC else regsEVC
  | .fab, _ => regsFAB
  | .memp, _ => regsMEMP
  | .galley, _ => regsGALLEY
  | .sec, _ => regsSEC
  | .flashc, _ => regsFLASHC
  | .twin, _ => regsTWIN
  | .core, _ => regsCORE
  | .tsc, _ => regsTSC
  | .forme, _ => regsFORME
  | .tripnet, i => if i = 0 then regsTRIPNET0 else regsTRIPNET1
  | .surv, _ => regsSURV
  | .sdf, _ => regsSDF
  | .cont, _ => regsCONT
  | .trav, _ => regsTRAV
  | .brng, _ => regsBRNG
  | .press, i => if i = 0 then regsPRESS0 ++ regsPRESS else regsPRESS
  | .pcie, _ => regsPCIE
  | .eth, _ => regsETH
  | .canf, _ => regsCANF
  | .uart, _ => regsUART
  | .spi, _ => regsSPI
  | .i2c, _ => regsI2C
  | .avs, _ => regsAVS
  | .gpio, _ => regsGPIO
  | .dbg, _ => regsDBG

/-- The register of a block's list that holds an offset, with its index in its array. -/
def findReg (l : List RegDef) (off : Nat) : Option (RegDef × Nat) :=
  (l.find? fun r => decide (r.off ≤ off ∧ (off - r.off) % r.stride = 0 ∧ (off - r.off) / r.stride < r.n)).map
    fun r => (r, (off - r.off) / r.stride)

/-- The register at an offset of a page; none for a reserved offset or an unlisted page (R9, R51). -/
def regAt (page off : Nat) : Option (RegDef × Nat) :=
  match blockOf page with
  | none => none
  | some (b, i) => if off < 8 then findReg regsHeader off else findReg (b.regs i) off

/-- The bits of a register under an access code. -/
def RegDef.mask (r : RegDef) (a : Access) : Word :=
  r.fields.foldl (fun m f => if f.acc = a then m ||| maskOf f.hi f.lo else m) 0

/-- The reset value that a register's table states. -/
def RegDef.reset (r : RegDef) : Word := r.fields.foldl (fun m f => setFld m f.hi f.lo f.reset) 0

/-- FOLIO_CAP.SELFT (R50, R10): the block lies in a self-timed island. -/
def Blk.selfTimed : Blk → Bool
  | .core | .tsc | .trav | .fab | .memp | .galley | .press | .evc | .sec | .flashc | .pace | .cba => true
  | _ => false

/-- FOLIO_CTL.EN at reset, as each block chapter or R516 states it; PINC, FAB and MEMP and the blocks whose chapter
states no value are log entry 4. -/
def Blk.enReset : Blk → Nat → Nat
  | .core, i => if i = 0 then 1 else 0
  | .sys, _ | .rstc, _ | .pinc, _ | .merid, _ | .pace, _ | .cba, _ | .evc, _ | .fab, _ | .memp, _ | .galley, _ | .sec, _
  | .flashc, _ | .tsc, _ | .tripnet, _ | .press, _ => 1
  | _, _ => 0

/-- FOLIO_CAP.NTRIP (R130, R173). -/
def Blk.ntrip : Blk → Nat → Nat
  | .forme, _ => 12
  | .tripnet, i => if i = 0 then 28 else 17
  | _, _ => 0

/-- FOLIO_CAP.CRIT (R54): only FORME, TRAV, SURV, SDF and CONT have critical fields. -/
def Blk.crit : Blk → Bool
  | .forme | .trav | .surv | .sdf | .cont => true
  | _ => false

/-- The stated reset value of a header word of a page (R50). -/
def headerReset (b : Blk) (i off : Nat) : Word :=
  let rs := b.regs i
  if off = 0 then BitVec.ofNat 36 (b.pages.2.2 * 0x1000000 + i * 0x10000 + 0x0101)
  else if off = 1 then
    BitVec.ofNat 36 (b.ntrip i * 0x100 + b.crit.toNat * 16 + (rs.any (·.trip)).toNat * 8 + (rs.any (·.guarded)).toNat * 4
      + (rs.any (·.staged)).toNat * 2 + b.selfTimed.toNat)
  else if off = 2 then 1
  else if off = 3 then BitVec.ofNat 36 (b.enReset i)
  else if off = 4 then (if b.crit then 0 else 0x1F)
  else if off = 6 then BitVec.ofNat 36 0xF00000000
  else 0

/-- The stated reset value of the register at an address; 0 where there is none (R9). -/
def regReset (key : Nat) : Word :=
  match blockOf (key / 256) with
  | none => 0
  | some (b, i) =>
    if key % 256 < 8 then headerReset b i (key % 256)
    else match findReg (b.regs i) (key % 256) with
      | some (r, _) => r.reset
      | none => 0

end Sys2Proof.Machine
end

