-- ==== Sys2Proof/Machine/State.lean ====
section
/-!
DEFINITION. The state of the K9600 as plain data: the folio registers (one sparse table by address, Machine/RegMap.lean
gives names and reset values), the state the blocks hold beside their registers, the memories, and the queue of
commands waiting. The tables are canonical, so that equal contents are equal data.
-/
namespace Sys2Proof.Machine

/-- The three stored copies of a triplicated value (R66). -/
structure Tri where
  a : Word
  b : Word
  c : Word
deriving DecidableEq, Repr

/-- A shadow of a staged register (R53): the values landed and not yet applied, newest first, each with the tick at
which it landed. A shadow of a triplicated register is itself triplicated (R70). The values landed up to two ticks
before an application tick are the ones captured (R56). -/
structure Shadow where
  landed : List (Nat × Tri)
deriving DecidableEq, Repr

/-- A pending value of a quoin pair held by a folio (R60, R61). -/
structure QuoinPend where
  page : Nat
  off : Nat
  ini : Initiator
  val : Word
  tick : Nat
deriving DecidableEq, Repr

/-- Folio mechanics beside the registers themselves (chapter 03). -/
structure FolioSt where
  /-- copies of triplicated registers that do not all equal the applied value -/
  copies : Tab Tri
  shadows : Tab Shadow
  quoin : List QuoinPend
  /-- group firings decided and not yet applied: (group, application tick A) (R55) -/
  fires : List (Nat × Nat)
  /-- those of them that SYS_STROBE asked for, which PARK leaves (R58) -/
  strobed : List (Nat × Nat)
  /-- application tick of each group's last firing: in one tick a group applies once (R55) -/
  applied : Tab Nat
  /-- source events counted toward DIV, per group (R59) -/
  divCnt : Tab Nat
  /-- SYS_STROBESRCg takes effect from the tick after acceptance: tick of the last write and the word before it (R59) -/
  srcWas : Tab (Nat × Word)
  /-- captured values of Traverse registers that wait for the end of the update in progress (R57) -/
  defer : List (Nat × Word)
  /-- block resets waiting for LOCK: page and the tick of release once LOCK has risen (R471) -/
  brst : Tab (Option Nat)
  /-- their pages whose EN = 1 was written meanwhile and acts at the release (R471) -/
  brstEn : List Nat
  /-- tick at which the shadow that applied last had landed (R157) -/
  took : Nat
deriving DecidableEq, Repr

/-- Meridian beside its registers (R21-R30). -/
structure MeridSt where
  /-- the 64-bit tick counter -/
  counter : BitVec 64
  /-- REFSEL that governs the reference in use, its REFMHZ (R21) -/
  peerFollow : Bool
  /-- tick from which the phase error has lain within ±2 ns (R22) -/
  goodFrom : Nat
  /-- tick at which LOCK last rose, or at which wake re-armed calibration (R28) -/
  calFrom : Nat
  /-- tap lines calibrated since calFrom: 8 × Forme + line -/
  linesDone : List Nat
  /-- ticks at which alarms that were already past when armed or written fire late (R25) -/
  late : Tab Nat
  /-- consecutive 802.1AS sync intervals within ±1 µs (R29) -/
  discGood : Nat
  /-- alarms whose firing in this tick has already fired its registration groups (R55, R143) -/
  alarmRegd : List Nat
deriving DecidableEq, Repr

/-- Pace control beside its registers (R32-R38). -/
structure PaceSt where
  sampling : Bool
  /-- samples taken since sampling started (R37) -/
  samples : Nat
  /-- tick of the next sample -/
  nextSample : Nat
  lowCount : Nat
  /-- consecutive samples with s ≤ PACE_TARGET since the last droop (R34) -/
  goodRun : Nat
  /-- raises of the present 10,000-tick interval in mV (R35) -/
  raised : Nat
  /-- the last raise was refused under R43 -/
  refused : Bool
  /-- consecutive failed AVSBus transactions (R33) -/
  avsFails : Nat
  /-- a new target awaits the next sample (R36) -/
  targetNew : Bool
  /-- PACE_TARGET in force, in u: a write takes effect at the next sample (R36) -/
  target : Nat
  /-- PACE_HELD has yet to be raised for the present target (R37) -/
  heldArmed : Bool
  /-- command saved over PARK (R46) -/
  saved : Nat
  /-- consecutive samples with VMEAS below 660 mV (R458) -/
  lowV : Nat
  /-- a command is waiting to be sent over AVSBus (R33) -/
  toSend : Bool
deriving DecidableEq, Repr

/-- Current budget arbiter beside its registers (R40-R44). -/
structure CbaSt where
  /-- windows since CBA left reset or since wake (R41) -/
  window : Nat
  nextWindow : Nat
  /-- SHARED_used of the previous window, mA -/
  used : Nat
  /-- ALLOW of the present window, mA -/
  allow : Nat
  /-- shares of the SHARED initiators that request in the present window, mA -/
  shares : Tab Nat
  /-- consecutive samples in which the CBA_LEAK clamp acted (R42) -/
  clamped : Nat
  /-- ceiling in force; an accepted write takes effect at the next window (R44), 10 mA units -/
  ceiling : Nat
  /-- running sum and number of the total estimates of the present pace interval (R42) -/
  estSum : Nat
  estNum : Nat
  /-- events of SHARED initiators that wait for an allowance (R40) -/
  held : Tab Nat
deriving DecidableEq, Repr

/-- Phase of the reset controller (R463-R465). -/
inductive ResetPhase where
  | asserted
  | optionLoad
  | loadHold
  | started
deriving DecidableEq, Repr

/-- Reset sources (R459); the numbers are the bits of RSTC_CAUSE. -/
inductive ResetSource where
  | por
  | borio
  | bora
  | borcore
  | nrst
  | swdog
  | cwdog
  | swreq
  | hostreq
  | vote
  | crit
deriving DecidableEq, Repr

/-- An accepted SYS_MODE pair (R473): its tick, with SYS_STAT and PACE_CTL.MODE before it. -/
structure ModePair where
  tick : Nat
  stat : Word
  fixed : Bool
deriving DecidableEq, Repr

/-- Reset and pin controller state beside the registers (chapter 20). -/
structure RstcSt where
  phase : ResetPhase
  /-- the present or last reset was cold -/
  cold : Bool
  /-- tick of the assertion -/
  assertTick : Nat
  /-- NRST_IN is low -/
  nrstLow : Bool
  /-- tick at which NRST_IN last fell -/
  nrstTick : Nat
  /-- a reset holds NRST_OUT low (R460) -/
  nrstOutLow : Bool
  /-- tick at which NRST_OUT last fell: it stays low for 10 µs at least (R460) -/
  nrstOutTick : Nat
  /-- sources that fired in the tick of the assertion (R459, R473) -/
  fired : List ResetSource
  /-- OWN_OUT is high-impedance: after POR or a VDDIO brown-out, until option load completes (R390, R475) -/
  ownFloat : Bool
  /-- level at pin OWN_IN, which is sampled once options are loaded (R475) -/
  ownPin : Bool
  /-- pad-ring copy of the power-pin safe states: Colophon words 32-39 (R461) -/
  safeCopy : Option (List Word)
  /-- levels captured by the pad hold latches, by pin: 0 low, 1 high, absent high-impedance (R462) -/
  held : Tab Nat
  /-- option load attempts of this reset (R464) -/
  attempts : Nat
  /-- tick at which option load completed -/
  loadTick : Nat
  /-- system watchdog: oscillator cycles counted, and whether SWD_WARN was raised (R468) -/
  swdCount : Nat
  swdWarned : Bool
  /-- boot ROM started (R463) -/
  booted : Bool
  /-- a vote failure with policy RECOVERY was met during PARK (R71) -/
  parkRecovery : Bool
  /-- tick at which SYS_MODE last left PARK or started (R474) -/
  wakeTick : Nat
  /-- a wake request is pending (R334, R474) -/
  wakeReq : Bool
  /-- warm reset sources that have asserted in the present step, with KIND-free details (R459, R467) -/
  req : List ResetSource
  /-- the last accepted pair that changed SYS_MODE (R473) -/
  modeFrom : Option ModePair
  /-- a PARK pair was accepted and its entry waits for a flash operation (R440, R474) -/
  parkEntry : Bool
deriving DecidableEq, Repr

/-- Event controller state beside its registers (chapter 14). -/
structure EvcSt where
  /-- source words (R322) -/
  words : Tab Word
  /-- words replaced at the tick named: the old word still governs that tick (R323) -/
  wasWords : Tab (Nat × Word)
  /-- raw inputs of level sources that are active -/
  raw : Tab Bool
  /-- pulses driven and not yet sensed: source ↦ tick (R320) -/
  pulses : Tab Nat
  /-- pulse sources already sensed in this tick -/
  sensed : List Nat
  /-- edges of this tick on sources in service: pending after a RETX of the same tick, else lost (R331) -/
  late : List Nat
  /-- sources that became pending in this tick, and those that lost an event in it: a W1C does not clear them (R331) -/
  fresh : List Nat
  freshLost : List Nat
  /-- sources whose pending bit a W1C cleared in this tick: a claim of the same tick prevails (R331) -/
  cleared : List Nat
  /-- software events, pending from the next tick (R332) -/
  swDue : List Nat
  /-- frames n of EVC_ISRCn whose source a block reset cleared: their RETX ends nothing (R333) -/
  voidFrames : List Nat
  /-- tick since which a raw input has its level (R325) -/
  rawSince : Tab Nat
  /-- stability counts restart at this tick (R325) -/
  filtFrom : Nat
  /-- filtered inputs that are active while the filter is in force -/
  filt : Tab Bool
  /-- levels at the last sensing (R324) -/
  prev : Tab Bool
  /-- tick of the last GATE write and the value before it (R328) -/
  gateTick : Nat
  gateWas : Bool
  /-- VECTOR lines delivered, 48 × core + line (R326) -/
  lines : List Nat
  /-- internal wake latches k set (R334) -/
  wakeLatch : Tab Bool
  /-- wake sources that saw a further edge -/
  wakeMore : Tab Bool
  /-- loss of lock during PARK awaits wake (R334) -/
  wakeLock : Bool
  /-- levels of the wake pins WAKE00-WAKE63 -/
  wakePins : Tab Bool
deriving DecidableEq, Repr

/-- An input pin of a Bearing unit before its filter: its level and the tick of its last change (R224). -/
structure BrPin where
  raw : Bool
  since : Nat
deriving DecidableEq, Repr

/-- An SSI frame in progress (R230). -/
structure SsiFrame where
  /-- tick and timestamp of the first falling edge of the clock, and the data level then -/
  start : Nat
  stamp : Word
  startHigh : Bool
  /-- rising edges of the clock so far, and the tick of its last edge -/
  rises : Nat
  edgeAt : Nat
  /-- ticks at which data bits are to be sampled -/
  sampleAt : List Nat
  /-- bits read so far, MSB first -/
  got : Nat
  bits : Nat
  /-- tick one cycle after the last bit, and whether the data were low then -/
  checkAt : Option Nat
  low : Option Bool
deriving DecidableEq, Repr

/-- One Bearing unit beside its registers (chapter 10). The filtered levels stand in BRNG_STAT.LVL, P in BRNG_POS. -/
structure BrngSt where
  /-- velocity v in counts per tick as a fraction (R229) -/
  vNum : Int
  vDen : Nat
  /-- reference edge and last counted edge or frame: timestamp and position (R229, R230) -/
  ref : Option (Word × Word)
  edge : Option (Word × Word)
  /-- last qualifying edge of PERIOD mode: timestamp and accept tick (R231) -/
  per : Option (Word × Nat)
  /-- next periodic sample (R229) -/
  nextSample : Nat
  /-- the SSI frame in progress (R230) -/
  frame : Option SsiFrame
  /-- tick of the last BRNG_POSSET and of the last index edge: a count of that tick is lost, or applies first (R227) -/
  setAt : Option Nat
  idxAt : Option Nat
  /-- BRA, BRB and BRZ -/
  pinA : BrPin
  pinB : BrPin
  pinZ : BrPin
deriving DecidableEq, Repr

/-- Host and field interfaces beside their registers (chapter 21). -/
structure HostSt where
  /-- staged high nibble of BAR0 writes (R484) -/
  stage : Nat
  /-- captured high nibble of BAR0 reads (R484) -/
  capture : Nat
  /-- value that the last host read returned; none while it completed with Completer Abort -/
  readBack : Option (BitVec 32)
  /-- mailbox registers (R487) -/
  bootBase : Nat
  bootWaiting : Bool
  bootBusy : Bool
  bootCode : Nat
  cmdLen : Nat
  rspLen : Nat
  h2d : Tab (BitVec 8)
  d2h : Tab (BitVec 8)
  /-- a command frame was handed over and is held (R487) -/
  held : Bool
  /-- MSI-X messages sent and not yet taken by the host: vectors, oldest first (R488) -/
  msix : List Nat
  /-- MSI-X pending bits: vectors whose source event awaits its message (R488) -/
  msixDue : List Nat
  /-- MSI-X as the host has configured it: messages enabled and the function not masked; masked vectors (R488) -/
  msixOn : Bool
  msixMask : List Nat
  /-- link in L1 for PARK (R498) -/
  l1 : Bool
  /-- OUT bits that GPIO_CLR cleared, by bank, with its tick: they prevail over GPIO_SET of that tick (R481) -/
  gpioClr : Tab (Nat × Word)
  /-- pads that stand at another level than GPIO_IN shows, and since when (R481) -/
  gpioFrom : Tab Nat
deriving DecidableEq, Repr

/-- One Ethernet MAC beside its registers (R489-R491). -/
structure EthSt where
  /-- gate control list of the cycle in progress: base, length, start (R490) -/
  gclBase : Nat
  gclLen : Nat
  gclStart : Nat
  /-- short timestamp at which the cycle in progress began (R490) -/
  gclAnchor : Nat
  /-- present entry, with the short timestamps of its start and its end -/
  gclIdx : Nat
  gclFrom : Nat
  gclEnd : Nat
  /-- gates open, one bit per class -/
  gates : Nat
  /-- the last frame sent: buffer, timestamp -/
  lastTx : Option (Nat × Nat)
  /-- octets of the last frame that left the pins, from the destination address on, without its FCS -/
  lastFrame : List (BitVec 8)
  /-- tick up to which the MAC sends: a frame and its interframe gap (R489) -/
  busyTo : Nat
  /-- classes whose frame has been reported as waiting under R489, one bit each -/
  late : Nat
  /-- management frame in progress: write, PHYAD, REGAD, data (R497) -/
  mdio : Option (Bool × Nat × Nat × Nat)
deriving DecidableEq, Repr

/-- One CAN FD controller beside its registers (R492). -/
structure CanSt where
  /-- bus-off recovery started by RECOV -/
  recovering : Bool
  /-- the last frame sent: words 0 and 1 of its record -/
  lastTx : List Word
  /-- its data octets -/
  lastData : List (BitVec 8)
deriving DecidableEq, Repr

/-- One UART, SPI or I²C controller beside its registers (R493). -/
structure SerSt where
  /-- octets last shifted out, as in R5 -/
  lastTx : Word
  /-- SPI chip select driven low (R497) -/
  csLow : Bool
  /-- what the last record put on the line, in order: bits 0 and 1, for I²C 2 a START and 3 a STOP (R493) -/
  line : List Nat
  /-- an I²C target has been addressed by the transfer in progress (R493) -/
  addressed : Bool
deriving DecidableEq, Repr

/-- JTAG instruction in force (R495). -/
inductive TapInstr where
  | bypass
  | idcode
  | samplePreload
  | extest
  | clamp
  | highz
deriving DecidableEq, Repr

/-- TAP and boundary register (R495), halted cores (R496). -/
structure JtagSt where
  instr : TapInstr
  /-- boundary register cells by pin number; power pins 0-127, then OWN_OUT 128, NRST_OUT 129, GP pins 200-327 -/
  cells : Tab Bool
  /-- pin levels that the boundary register captured -/
  seen : Tab Bool
  /-- data register captured by the last instruction -/
  dr : BitVec 32
  /-- pins driven from the boundary register -/
  driving : Bool
  /-- pins high-impedance under HIGHZ -/
  floated : Bool
deriving DecidableEq, Repr

/-- An entry of a core's posted write buffer or an issued store (R254): target word address, the bits it writes, its
value, the slot that issued it, and whether the issue has got its tag (R342). -/
structure StoreEntry where
  addr : Nat
  mask : Word
  val : Word
  /-- second word of an aligned double, kept with the first (R253) -/
  val2 : Option Word
  /-- first word of a split store (R252): the entry after it completes the access -/
  split : Bool
  /-- second word of a split store -/
  second : Bool
  slot : Nat
  /-- instructions retired by the core when the store had retired (R257) -/
  stamp : Nat
  /-- the store instruction lies in the boot ROM (R438) -/
  rom : Bool
  tag : Option Nat
  /-- the core was reset since: its answer is discarded (R258) -/
  orphan : Bool
deriving DecidableEq, Repr

/-- An exception raised and not yet entered (R306-R310). -/
structure Exc where
  vec : Nat
  sub : Nat
  /-- the instruction is precise: the saved IP is this; none: the first unretired instruction at entry -/
  ip : Option Nat
  faddr : Option Word
  /-- culprit of vectors 3 and 4 -/
  arith : Option Nat
  trapn : Nat
  store : Bool
  splitPartial : Bool
  /-- slot that issued a faulting store -/
  slot : Nat
  /-- instructions retired by the core when the culprit completed (R312) -/
  stamp : Nat
  /-- registers whose result the culprit still owes (R281): G0-G15 are 0-15, F0-F15 16-31, the PSW flags 32 -/
  owes : List Nat := []
deriving DecidableEq, Repr

/-- A register context (R292): what a bank keeps and a TSB saves. -/
structure Ctx where
  g : Tab Word
  acc0 : Acc
  acc1 : Acc
  psw : Word
  ip : Nat
deriving DecidableEq, Repr

/-- A line of the fetch buffer (R239): its word address and four words. -/
structure FbLine where
  addr : Nat
  words : List Word
deriving DecidableEq, Repr

/-- One Kamul core with its task scheduler, beside the CORE and TSC folios (chapters 11-13). -/
structure CoreSt where
  /-- registers of the running context: G0-G15, ACC0, ACC1, PSW, IP (R241) -/
  ctx : Ctx
  /-- F0-F15 and FPSR: one set per core (R298) -/
  f : Tab F32
  fpsr : Word
  tsbp : Word
  slim : Word
  maskset : Tab Word
  cause : Word
  arithSrc : Word
  faddr : Word
  saveIp : Tab Word
  savePsw : Tab Word
  /-- exception depth D and running priority RP (R300, R302) -/
  depth : Nat
  rp : Nat
  /-- hidden entry-privilege latches: level ↦ (MODE, RP) (R300) -/
  latch : Tab (Bool × Nat)
  /-- exceptions raised and not yet entered, in order of occurrence -/
  excs : List Exc
  /-- debug: a halt request, a breakpoint or step awaits vector 12 or halts (R496) -/
  halted : Bool
  stepping : Bool
  /-- the breakpoint at IP was taken and the core resumed from it (R496) -/
  bpSkip : Bool
  /-- the core stopped on NEST (R305) -/
  stopped : Bool
  /-- write buffer and issued stores, oldest first (R254) -/
  wbuf : List StoreEntry
  issued : List StoreEntry
  /-- the store at the head waited for a buffer entry and has been counted -/
  wbWaiting : Bool
  /-- the instruction that waits has been fetched: its IP and the instructions retired then (R259) -/
  fetched : Option (Nat × Nat)
  /-- elements that the masked or block instruction at IP has done while it waits at a handshake (R272) -/
  prog : Option Nat
  /-- DRAIN or SYNC waits and is not interruptible (R279) -/
  draining : Bool
  /-- fetch buffer, most recently used first (R239) -/
  fbuf : List FbLine
  /-- lines filled on demand for the instruction that is being fetched (R259) -/
  filled : List Nat
  /-- words of instruction TCM held by the port: that of the instruction in execution and up to two after it (R280) -/
  pre : Tab Word
  /-- while a store of the core acts on a folio: whether its instruction lies in the boot ROM (R438) -/
  romStore : Option Bool
  /-- half address of the last retired instruction (CORE_IPMON) -/
  lastIp : Nat
  /-- instructions retired -/
  retCnt : Nat
  /-- watchdog: tick from which it counts; an expiry without a kick since (R315) -/
  wdFrom : Nat
  wdOnce : Bool
  /-- RUNNING slot (R287) -/
  run : Nat
  /-- READY slots in order of activation (R289) -/
  ready : List Nat
  /-- READY slots whose pending activation is the one that made them READY (R288) -/
  fresh : List Nat
  /-- RUNNING or preempted slots that hold one pending activation (R288) -/
  pend : List Nat
  /-- slot whose values the FP registers hold; none: FPV = 0 (R298) -/
  fpOwn : Option Nat
  /-- the RUNNING slot gave way: YIELD (R290), WAITEV, or its EN was cleared (R291) -/
  giveWay : Bool
  waiting : Bool
  /-- the registers in place are those of `run` and not yet saved (R290) -/
  inPlace : Bool
  /-- banks that are not stale and whose slot is switched out (R292) -/
  banks : Tab Ctx
  /-- slot timers: slot ↦ due tick (R316) -/
  timers : Tab Nat
deriving DecidableEq, Repr

/-- An entry of the fabric tag table (R342): holder, address, tick of issue, and since when it is retired (R346). -/
structure TagSt where
  holder : Nat
  addr : Nat
  issued : Nat
  zombie : Option Nat
  /-- granted to a request that waits to be made again with it (R344) -/
  granted : Bool
deriving DecidableEq, Repr

/-- Atlas fabric beside the FAB folio (R342-R346). -/
structure FabSt where
  tags : Tab TagSt
  next : Nat
  /-- requests waiting at their handshake: holder and address, in order -/
  waiting : List (Nat × Nat)
  /-- holder granted last, for round robin (R344) -/
  lastGrant : Nat
deriving DecidableEq, Repr

/-- An entry of the MEMP log (R354, R363): MEMP_LOGA and MEMP_LOGB. -/
structure LogEntry where
  a : Word
  b : Word
deriving DecidableEq, Repr

/-- Stored-data protection beside the MEMP folio. -/
structure MempSt where
  log : Tab LogEntry
deriving DecidableEq, Repr

/-- Stored code of a protection block as its distance from a valid code (R348, R349): row syndromes RS(0)-RS(8) of four
bits each, RS(r) in bits [4r+3:4r], and the column syndrome K. -/
structure Flaw where
  rs : BitVec 36
  k : Word
deriving DecidableEq, Repr

/-- The memories: data words as stored, by physical word address (a bank's spare copy stands at 0x0410_0000 on), and
the code of every block that is not CLEAN, by the address of its first word. -/
structure MemSt where
  words : Tab Word
  flaws : Tab Flaw
deriving DecidableEq, Repr

/-- A flash or OTP operation in progress (R424): kind as FLASHC_STAT.OP, its address or field, its value, the calling
core, and the EVC_GATE value saved under STALL_OK (R425). -/
structure FlashOp where
  kind : Nat
  addr : Nat
  val : Word
  /-- calling core; 8: the core was reset since -/
  core : Nat
  gate : Option Word
  /-- exception depth and slot of the call: another call of the core is a second one (R424) -/
  depth : Nat
  run : Nat
deriving DecidableEq, Repr

/-- Flash and Colophon beside their words and registers (chapter 18). -/
structure FlashSt where
  /-- seal flags of blocks, by word address / 8 (R418) -/
  seals : Tab Bool
  /-- program masks of blocks (R417) -/
  pmask : Tab (BitVec 8)
  /-- seal words of sectors: 0 erased, 1 programmed, 2 partly programmed (R417, R433) -/
  sealWord : Tab Nat
  op : Option FlashOp
  /-- status of the last operation (R427) -/
  last : Nat
  /-- tick at which the present margin window began (R421) -/
  winFrom : Nat
  /-- Colophon row as programmed (R435) -/
  otp : Tab Word
  /-- fields programmed with any value -/
  otpDone : List Nat
  /-- copies of Colophon latches that differ from the latch value (R436) -/
  latchCopies : Tab Tri
  /-- row parity and column word of the groups of multi-word Colophon fields, by a group's first word (R436) -/
  otpFlaws : Tab Flaw
  /-- the three fuses of each bit of words 70-72, where they are not alike; `otp` holds their majority (R436) -/
  fuses : Tab Tri
deriving DecidableEq, Repr

/-- A request of a Survey slot (R81, R82) with the configuration taken at its trigger tick (R91). -/
structure SurvReq where
  slot : Nat
  req : Nat
  late : Bool
  cfg : Word
  dst : Word
  gain : F32
  ofs : F32
deriving DecidableEq, Repr

/-- A committed conversion or burst (R82, R83). -/
structure SurvConv where
  r : SurvReq
  /-- first sampling instant -/
  ts : Nat
  /-- instants that have passed -/
  taken : Nat
  /-- short timestamp of the first instant -/
  stamp : Word
  lowA : Bool
  /-- entered PARK or lost EN after its instant: updates SURV_RESs alone (R94) -/
  quiet : Bool
deriving DecidableEq, Repr

/-- One Survey unit beside its registers (chapter 04). -/
structure SurvSt where
  reqs : List SurvReq
  /-- committed conversions whose result is not ready, in order -/
  convs : List SurvConv
  /-- last_ts and cyc of R82 -/
  last : Option (Nat × Nat)
  /-- tick from which readiness counts (R94) -/
  readyFrom : Nat
  /-- results delivered per slot, modulo 128 (R86) -/
  seq : Tab Nat
  /-- timestamp of the result in SURV_RESs (R89) -/
  stamps : Tab Word
deriving DecidableEq, Repr

/-- Configuration of a sigma-delta channel as a trigger took it (R91, R102). -/
structure SdfCfg where
  ctl : Word
  dst : Word
  gain : F32
  ofs : F32
deriving DecidableEq, Repr

/-- One sigma-delta channel beside its registers (R97-R101). -/
structure SdfSt where
  /-- bits in the filter since the first-use rule began, newest first, each with the tick of its sampling (R98) -/
  bits : List (Bool × Nat)
  /-- bits since the decimation counter was reset or a window ended (R99) -/
  count : Nat
  /-- the first result after a clock loss is due -/
  afterLoss : Bool
  /-- triggers that wait for the first bit at or after their tick, each with the configuration it took (R91, R99) -/
  sync : List (Nat × SdfCfg)
  /-- configuration of the trigger whose results are delivered (R91) -/
  cap : Option SdfCfg
  /-- results delivered since enable, modulo 128 (R86) -/
  seq : Nat
  /-- timestamp of the result in SDF_RESc -/
  stamp : Word
  /-- tick from which readiness counts (R94) -/
  readyFrom : Nat
  /-- tick of the last edge of SDCLK, or from which the clock is watched (R97) -/
  edgeAt : Nat
  /-- tick of a first edge, of those that sample, of an SDCLK that the channel drives (R97) -/
  clkFrom : Nat
deriving DecidableEq, Repr

/-- One fast detector beside its registers (R112). -/
structure FdSt where
  /-- bits since the clock was last present, newest first, at most the 32 that FM can name -/
  bits : List Bool
  /-- consecutive bits whose count was at least FDHI, below FDHI, at most FDLO, above FDLO -/
  geHi : Nat
  ltHi : Nat
  leLo : Nat
  gtLo : Nat
deriving DecidableEq, Repr

/-- What a result brings about after its conversion (R89, R90, R101). -/
inductive LandKind where
  /-- SURV_RESs or SDF_RESc takes the result word and its timestamp -/
  | result (slot : Nat) (word stamp : Word)
  /-- a record is offered to Galley -/
  | record (queue : Nat) (words : List Word)
  /-- a Bearing sample completes: BRNG_SPOS and BRNG_VEL (R233) -/
  | sample (pos vel : Word)
deriving DecidableEq, Repr

/-- A result on its way: the tick at which it lands, and its unit (Survey 0-23, sigma-delta channel 24-39, Bearing 40-55). -/
structure Landing where
  tick : Nat
  unit : Nat
  kind : LandKind
deriving DecidableEq, Repr

/-- A trigger event of a tick, not yet held against the slots that name it (R80): code, instance, pair and tick. -/
structure TrigEvt where
  code : Nat
  inst : Nat
  pair : Nat
  tick : Nat
deriving DecidableEq, Repr

/-- A record offered to Galley's direct producer port and not yet taken (R88): producer (Survey unit 0-23, sigma-delta
channel 24-39, Traverse engine 40-103), queue, words. -/
structure Offer where
  producer : Nat
  queue : Nat
  words : List Word
deriving DecidableEq, Repr

/-- A delivery on its way to a Traverse input latch (R87): the rank orders deliveries of one tick. -/
structure Arrival where
  eng : Nat
  lat : Nat
  val : F32
  stamp : Word
  tick : Nat
  rank : Nat
deriving DecidableEq, Repr

/-- A commutation measurement in progress (R160): the kind of transition, its start tick, and the tick of the turn-on
that closed it, in which an end still counts. -/
structure Meas where
  rising : Bool
  start : Nat
  closed : Option Nat
deriving DecidableEq, Repr

/-- One Contour comparator beside its registers (R104-R111). -/
structure CompSt where
  /-- thresholds in use, and the DAC loads not yet settled: (tick by which it is settled, value), oldest first -/
  hUse : Nat
  lUse : Nat
  hLoads : List (Nat × Nat)
  lLoads : List (Nat × Nat)
  /-- blanked before this tick, and BLKEV as the window took it (R108, R110) -/
  blankTo : Nat
  blkEv : Bool
  /-- running ramp: t0, SLOPE and RSTART it follows (R109) -/
  ramp : Option (Nat × Nat × Nat)
  /-- tick of the last DAC load of the ramp -/
  loadAt : Option Nat
  meas : Option Meas
deriving DecidableEq, Repr

/-- A clear accepted in a tick, for sources that rise later in it (R119, R121): the classes named, and FSTATf, FTSf and
the tick of FIRST as they were before it. -/
structure ClrRec where
  tick : Nat
  cls : Nat
  stat : Word
  fts : Word
  firstAt : Nat
deriving DecidableEq, Repr

/-- Trip network beside its registers (R113-R127). -/
structure TripSt where
  /-- sources that became active and are to latch: source and tick (R117, R121) -/
  due : List (Nat × Nat)
  /-- tick at which a source last fell -/
  fell : Tab Nat
  /-- routes of a source written in the tick named: the old word still governs that tick (R121) -/
  routeWas : Tab (Nat × Word)
  /-- pin levels of TRIPIN, and the tick from which an active level is held -/
  pins : Tab Bool
  pinFrom : Tab Nat
  /-- writes of SWTRIP on their way: arrival tick and ACT (R126) -/
  swDue : List (Nat × Bool)
  /-- sources to judge afresh at a tick, which latch if they are active in it (R121, R123) -/
  judge : List (Nat × Nat)
  /-- the clears of each Forme's last tick of a clear, in their order (R119) -/
  clears : Tab (List ClrRec)
  /-- tick of the boundary at which class B of a Forme last ended (R117, R118) -/
  bEnd : Tab Nat
  /-- tick at which FIRST of a Forme was recorded (R120) -/
  firstAt : Tab Nat
deriving DecidableEq, Repr

/-- One output of a pair (R153-R163). Times are in 1/32 tick. -/
structure OutSt where
  on : Bool
  onAt : Nat
  offAt : Nat
  /-- scheduled turn-on, and whether the interlock holds it (R163) -/
  turnOn : Option (Nat × Bool)
  /-- a turn-off delayed by R159 or by OVERLAP (R164) -/
  turnOff : Option Nat
  /-- gutter of the complementary turn-on that moves to the held turn-off (R159) -/
  after : Option Nat
deriving DecidableEq, Repr

/-- A LATE offer whose check is not complete: its tick u and the shadow offered (R141, R145). -/
structure LateOffer where
  u : Nat
  a : Word
  b : Word
  ht : Word
deriving DecidableEq, Repr

/-- One pair of a Forme beside its registers (chapters 06 and 07). -/
structure PairSt where
  /-- edge shadow: CMPA, CMPB and HT as last written (R141) -/
  shA : Word
  shB : Word
  shHt : Word
  /-- the shadow was written and has not been offered -/
  unoffered : Bool
  /-- LATE offers in progress, oldest first (R145) -/
  lates : List LateOffer
  /-- tick of the last landing, and who landed each field in it: 0 a folio write, e + 1 engine e (R144) -/
  landAt : Nat
  rankA : Nat
  rankB : Nat
  rankHA : Nat
  rankHB : Nat
  /-- GROUP offer to make in this tick, after the boundary if one falls in it (R141, R143) -/
  groupOffer : Bool
  /-- compares that an accepted offer gives to fired edges from the next boundary (R142) -/
  nextA : Option Word
  nextB : Option Word
  /-- halftone accumulators and carries (R140) -/
  accA : Nat
  accB : Nat
  carryA : Bool
  carryB : Bool
  firedA : Bool
  firedB : Bool
  ref : Bool
  oa : OutSt
  ob : OutSt
  /-- held off until the first REF edge (R154), until a resume tick (R167), until the end of a trip (R169) -/
  first : Bool
  resume : Bool
  trip : Bool
  /-- tick at which the pair resumed (R170) -/
  resumedAt : Option Nat
  /-- the guard gutter is in force for the rising, the falling gutter after a vote failure: tick from which a landing ends
  it; or in RECOVERY (R157) -/
  guardUp : Option Nat
  guardDn : Option Nat
  guardRec : Bool
  /-- measurements taken in the present period (R161) -/
  measUp : Option Nat
  measDn : Option Nat
  /-- the interlock held or refused a turn-on since the last read of FORME_PSTAT (R163) -/
  ilk : Bool
  /-- NOMEAS was raised since trim was enabled (R162) -/
  nomeasTold : Bool
  /-- ticks of pair-edge events on their way (R148) -/
  edgeDue : List Nat
  /-- pad source in force: 0 logic, 1 disable states, 2 safe states (R165) -/
  src : Nat
deriving DecidableEq, Repr

/-- A carrier point whose event is not yet published (R147): peak or zero, its tick, the duration D that clamps its
offset, whether it lies at the boundary that ends the period in force, and whether it was published. -/
structure CarPt where
  peak : Bool
  tick : Nat
  dur : Nat
  ahead : Bool
  told : Bool
deriving DecidableEq, Repr

/-- One Forme beside its registers (chapter 06). -/
structure FormeSt where
  /-- start tick of an armed counter (R135); none: it waits for a sync event -/
  startAt : Option Nat
  /-- tick at which the period in force ends -/
  nextB : Nat
  /-- P in steps, K and CMODE of the period in force (R134) -/
  p : Nat
  k : Nat
  cm : Nat
  /-- tick of the start or of the last resync -/
  t0 : Nat
  midDone : Bool
  /-- the boundary, the mid-period tick that is due has already fired its registration groups (R55, R143) -/
  regd : Bool
  midRegd : Bool
  points : List CarPt
  pairs : Tab PairSt
deriving DecidableEq, Repr


/-- A Traverse update between its start and its write-back (R184, R197). -/
structure Upd where
  err : F32
  uo : F32
  /-- the update learns at index `idx` (R208) -/
  learn : Bool
  idx : Nat
  closed : Bool
  abandoned : Bool
deriving DecidableEq, Repr

/-- One Traverse engine beside its registers and state words (chapters 08 and 09). -/
structure TravSt where
  /-- cascade depth of each latch (R177) -/
  depth : Tab Nat
  /-- tick at which the last update started (R180), and at which REQ was met since -/
  lastStart : Option Nat
  metAt : Option Nat
  upd : Option Upd
  /-- prefetched set-point, and whether one has arrived since enable (R182) -/
  pre : Option F32
  spSeen : Bool
  /-- TRAV_STATE applied and not yet taken at the start of an update (R187) -/
  stateReq : Option Nat
  /-- forced changes that wait for the update in progress (R190, R215) -/
  fAlert : Bool
  fRecov : Bool
  fDis : Bool
  fSafe : Bool
  /-- the limit or rate limit acted in the last update (R201) -/
  satWas : Bool
  /-- tick of the FECNT value held in TRAV_FECNT, and start of its two-tick phase (R214) -/
  feAt : Nat
  /-- previous update ACTIVE (R211), φp valid (R205), wraps seen since the phase became valid (R206) -/
  prevAct : Bool
  phValid : Bool
  wrapCnt : Nat
  /-- points 0 to N − 1 are to be zeroed (R209) -/
  zeroFill : Bool
  /-- a COND on its way to the counter, with the tick of its arrival (R213, R217) -/
  condAt : Option (Nat × Bool)
deriving DecidableEq, Repr



/-- A producer that waits under POL = BLOCK (R370): a core (who = 0-7, with the place of its QPUT) or a Press channel
(who = 8 + channel). -/
structure QWait where
  queue : Nat
  who : Nat
  word : Word
  ip : Nat
  depth : Nat
  run : Nat
deriving DecidableEq, Repr

/-- A put whose payload is written and whose TAIL is not (R369): its record length and the fill before it. -/
structure QPost where
  queue : Nat
  n : Nat
  f0 : Nat
  /-- its tag (R342, R369), and its direct producer -/
  tag : Nat
  who : Option Nat
deriving DecidableEq, Repr

/-- The record that an interface controller reads from one of its queues (R369, R371): the words taken so far; `bad`: it
is abandoned, and its remaining words are taken and discarded. -/
structure IfRec where
  words : List Word
  bad : Bool
deriving DecidableEq, Repr

/-- Galley beside its folio and the descriptors in Galley RAM (chapter 16). Takers are numbered as `Taker.key` says. -/
structure GalleySt where
  /-- BLOCK producers in arrival order -/
  waiters : List QWait
  /-- parked takes in order: taker and queue (R371) -/
  parked : List (Nat × Nat)
  /-- takers whose take was refused or cancelled, and its queue: they take again at the next update, or after ENABLE -/
  refused : List (Nat × Nat)
  posted : List QPost
  /-- accepted commands of GALLEY_QCMD not yet performed: OP and queue (R367) -/
  cmds : List (Nat × Nat)
  /-- set-point words on their way to Traverse engines (R182) -/
  setp : Tab Word
  /-- records of interface controllers in progress or complete, by taker -/
  recs : Tab IfRec
  /-- Press half ↦ the channel whose request was served last (R385) -/
  turn : Tab Nat
deriving DecidableEq, Repr

/-- One Press channel beside its registers (chapter 16). -/
structure PressSt where
  /-- the eight words of the loaded slip; empty: none -/
  slip : List Word
  /-- words written so far -/
  moved : Nat
  /-- words that the triggers so far allow (R377 TMODE) -/
  credit : Nat
  /-- words read from the source and not yet written, oldest first -/
  hand : List Word
deriving DecidableEq, Repr



/-- A Maelu frame without its link fields (R392). -/
structure TwinFrame where
  typ : Nat
  param : Nat
  payload : List Word
deriving DecidableEq, Repr

/-- A sequenced frame in the replay buffer (R394): its SEQ, the tick of its last transmission, its retransmissions so
far, and whether it is to be sent again. -/
structure ReplayEntry where
  frame : TwinFrame
  seq : Nat
  sentAt : Nat
  tries : Nat
  again : Bool
deriving DecidableEq, Repr

/-- A frame of a mirror cycle still to be sent (R396): TYPE, its engine, Forme or window, and its content once captured
(R397). -/
structure MirrorItem where
  typ : Nat
  idx : Nat
  payload : Option (List Word)
  /-- MEM: offset and length of the window at A -/
  base : Nat
  len : Nat
deriving DecidableEq, Repr

/-- Twin supervisor and Maelu link beside the TWIN folio (chapter 17). -/
structure TwinSt where
  /-- SEQ of the next sequenced frame, and of the last one received in order -/
  txSeq : Nat
  rxSeq : Nat
  /-- a gap is open: its NAK was sent or is due (R393) -/
  gap : Bool
  ackDue : Bool
  nakDue : Bool
  timeDue : Bool
  replay : List ReplayEntry
  /-- forwarded writes not yet sent: page and offset, value (R398) -/
  fwd : List (Word × Word)
  /-- frames of the mirror cycle, HEART first -/
  cycle : List MirrorItem
  /-- frames put on the lanes by the last transmission, as words with their CRC (R392, R413) -/
  lastTx : List (List Word)
  /-- the octets of those frames on lanes 0-3 (R392) -/
  lanes : List (List (BitVec 8))
  /-- injection (R413): frames passed, frames affected, a frame held back with its release tick, one to be swapped -/
  injPassed : Nat
  injDone : Nat
  delayed : List (Nat × Nat × List Word)
  swap : Option (List Word)
  /-- OVERLAY: next point of each engine (R397) -/
  k0 : Tab Nat
  /-- tick from which TO counts, and TO in force in microseconds (R404) -/
  toFrom : Nat
  toUs : Nat
  /-- tick of the last good HEART -/
  hbAt : Option Nat
  /-- LINK_FAIL was raised, or the link was not UP, since the last good HEART -/
  linkBad : Bool
  /-- OWN_IN has fallen since the last good HEART; tick from which it is low; tick from which OWN_OUT and OWN_IN are both high -/
  ownFell : Bool
  ownLowFrom : Option Nat
  splitFrom : Option Nat
  splitTold : Bool
  /-- tick at which OWN_OUT falls after a release in RUN (R403) -/
  relAt : Option Nat
  /-- since STANDBY was entered: a HEART from an ACTIVE peer, engines received, Overlay points received (as a mask) -/
  heartActive : Bool
  engGot : List Nat
  ovGot : Tab Nat
  /-- ALERT bits of the last HEART (R400) -/
  peerAlert : Nat
  /-- every FORME frame of the cycle being received was aligned (R399) -/
  cycOk : Bool
  notReadyTold : Bool
  /-- a ROLE = ACTIVE write in STANDBY asks for a takeover (R403) -/
  swReq : Bool
  /-- takeover decision tick (R407), and the tick A of the mirror group that completes it -/
  t0 : Option Nat
  completeAt : Option Nat
  /-- state words and GACT values received and to be taken between updates, at the next boundary (R399) -/
  engPend : Tab (List Word)
  gactPend : Tab (List Word)
  /-- TWIN_PAGESEL as taken at the last A (R396) -/
  pageSel : Tab Word
  /-- TIME exchange (R411): short timestamps of the last TIME frames sent, newest first, timestamps of the last one received (the peer's
  sending, this device's receipt), and the link delay in ticks -/
  timeSent : List Word
  timePeer : Word
  timeRecv : Word
  delay : Nat
  /-- tick of the next TIME frame -/
  nextTime : Nat
deriving DecidableEq, Repr



/-- Security engine beside the SEC folio (chapter 19). -/
structure SecSt where
  /-- a challenge stands in SEC_DBGCHAL; refusals since the last reset (R451) -/
  chal : Bool
  refusals : Nat
  /-- SEC_DBGRESP as written: it reads 0 -/
  resp : Tab Word
  /-- debug was unlocked since the last reset (R455) -/
  dbgSince : Bool
  /-- session key Ks, last accepted SEQ, consecutive frames that failed (R452, R453) -/
  key : BitVec 256
  lastSeq : Nat
  fails : Nat
  /-- seedings of the random source so far, and requests since the last one (R454) -/
  seed : Nat
  rng : Nat
  /-- the image that waits for its anti-rollback update: BOOTSRC code and header words (R449) -/
  raising : Option (Nat × List Word)
deriving DecidableEq, Repr


/-- The whole device but its memories and the queue of waiting commands. -/
structure Dev where
  /-- the present tick, counted from the model's start -/
  now : Nat
  /-- folio registers by page × 256 + offset; an unlisted one reads as `regReset` says -/
  regs : Tab Word
  /-- folio mechanics (chapter 03) -/
  folio : FolioSt
  /-- Meridian (chapter 02) -/
  merid : MeridSt
  /-- pace control (chapter 02) -/
  pace : PaceSt
  /-- current budget arbiter (chapter 02) -/
  cba : CbaSt
  /-- reset and pin control (chapter 20) -/
  rstc : RstcSt
  /-- event controller (chapter 14) -/
  evc : EvcSt
  /-- Bearing units by instance (chapter 10); an unlisted one is at `brngInit` -/
  brng : Tab BrngSt
  /-- PCIe, mailbox and MSI-X (chapter 21) -/
  host : HostSt
  /-- Ethernet MACs (chapter 21) -/
  eth : Tab EthSt
  /-- CAN FD controllers (chapter 21) -/
  can : Tab CanSt
  /-- UART 0-7, SPI 8-13, I²C 14-17 (chapter 21) -/
  ser : Tab SerSt
  /-- boundary register (chapter 21) -/
  jtag : JtagSt
  /-- Kamul cores; an unlisted one is at `coreInit` -/
  core : Tab CoreSt
  /-- Atlas fabric (chapter 15) -/
  fab : FabSt
  /-- MEMP log (chapter 15) -/
  memp : MempSt
  /-- flash and Colophon (chapter 18) -/
  flash : FlashSt
  /-- Colophon latches loaded at option load (R436) -/
  latch : Tab Word
  /-- guard gutter of the Colophon in force (R157) -/
  guard : Word
  /-- Survey units (chapter 04); an unlisted one is idle -/
  surv : Tab SurvSt
  /-- sigma-delta channels (chapter 04) -/
  sdf : Tab SdfSt
  /-- trigger events published and not yet taken: Survey slot 16·u + s or 0x1000 + channel, and trigger tick (R80) -/
  trigDue : List (Nat × Nat)
  /-- trigger events of this tick, not yet held against the configurations in force at its end (R91) -/
  trigRaw : List TrigEvt
  /-- the cores and engines have acted in this tick: the model's own field (log entry 6) -/
  ran : Bool
  /-- results on their way to their registers and records on their way to Galley (R90, R101) -/
  landings : List Landing
  /-- voltages at the analog pins AIN000-AIN143 in microvolts (R104) -/
  ain : Tab Nat
  /-- records offered to Galley and not yet taken (R88) -/
  offers : List Offer
  /-- deliveries on their way to Traverse latches (R87) -/
  arrivals : List Arrival
  /-- VDDA lies below the thresholds of R93 -/
  vddaLow : Bool
  /-- Contour comparators (chapter 05); an unlisted one is at `compInit` -/
  comp : Tab CompSt
  /-- tick from which the readiness of a Contour group counts (R111) -/
  contFrom : Tab Nat
  /-- fast detectors (R112) -/
  fd : Tab FdSt
  /-- trip network (chapter 05) -/
  trip : TripSt
  /-- Formes (chapters 06 and 07); an unlisted one is at `formeInit` -/
  forme : Tab FormeSt
  /-- Traverse engines (chapters 08 and 09); an unlisted one is at `travInit` -/
  trav : Tab TravSt
  /-- Galley (chapter 16) -/
  galley : GalleySt
  /-- Press channels (chapter 16); an unlisted one is at `pressInit` -/
  press : Tab PressSt
  /-- a bus error of a Press access that is to halt both halves: cause and word address (R383) -/
  pressErr : Option (Nat × Nat)
  /-- twin supervisor and Maelu link (chapter 17) -/
  twin : TwinSt
  /-- security engine (chapter 19) -/
  sec : SecSt
  /-- the model's own: free values taken so far (log entry 12) -/
  freeCount : Nat
deriving DecidableEq, Repr

/-- The machine. -/
structure State where
  dev : Dev
  mem : MemSt
  /-- commands waiting, first in first out -/
  pending : List Instr
deriving DecidableEq, Repr

/-- No step of this model faults: every stop the spec gives (a reset hold, a halted core, a discarded write) is state
that the commands keep, so this type has no constructor. Safe. -/
inductive Fault where
deriving DecidableEq, Repr

/-- Why a command has no meaning. -/
inductive Refusal where
  /-- Raised by the dispatch alone, for a command that has no meaning yet; safe, because nothing is claimed of it. -/
  | notModelled (mnemonic : String)
deriving DecidableEq, Repr

/-- A core after its reset (R241, R291, R298, R311). -/
def coreInit (c : Nat) : CoreSt where
  ctx := { g := [(14, 0x00117FC0#36)], acc0 := 0, acc1 := 0, psw := 0x800000000#36, ip := if c = 0 then 0 else 0x200000 }
  f := []
  fpsr := 0
  tsbp := 0x00117FC0#36
  slim := 0x00110020#36
  maskset := []
  cause := 0
  arithSrc := 0
  faddr := 0
  saveIp := []
  savePsw := []
  depth := 0
  rp := 0
  latch := []
  excs := []
  halted := false
  stepping := false
  bpSkip := false
  stopped := false
  wbuf := []
  issued := []
  wbWaiting := false
  fetched := none
  prog := none
  draining := false
  fbuf := []
  filled := []
  pre := []
  romStore := none
  lastIp := if c = 0 then 0 else 0x200000
  retCnt := 0
  wdFrom := 0
  wdOnce := false
  run := 0
  ready := []
  fresh := []
  pend := []
  fpOwn := none
  giveWay := false
  waiting := false
  inPlace := true
  banks := []
  timers := []

/-- The device at the moment a cold reset is asserted (R458, R463): registers at their table values, every block record empty;
the model's own choices are in the log entries that the fields' docstrings name. -/
def Dev.reset : Dev where
  now := 0
  regs := []
  folio := ⟨[], [], [], [], [], [], [], [], [], [], [], 0⟩
  merid := ⟨0, false, 0, 0, [], [], 0, []⟩
  pace := { sampling := false, samples := 0, nextSample := 0, lowCount := 0, goodRun := 0, raised := 0, refused := false, avsFails := 0, targetNew := false, target := 48, heldArmed := true, saved := 0, lowV := 0, toSend := false }
  cba := { window := 0, nextWindow := 0, used := 0, allow := 0, shares := [], clamped := 0, ceiling := 0, estSum := 0, estNum := 0, held := [] }
  rstc := { phase := .asserted, cold := true, assertTick := 0, nrstLow := false, nrstTick := 0, nrstOutLow := true, nrstOutTick := 0, fired := [], ownFloat := true, ownPin := false, safeCopy := none, held := [], attempts := 0, loadTick := 0, swdCount := 0, swdWarned := false, booted := false, parkRecovery := false, wakeTick := 0, wakeReq := false, req := [], modeFrom := none, parkEntry := false }
  evc := { words := [], wasWords := [], raw := [], pulses := [], sensed := [], late := [], fresh := [], freshLost := [], cleared := [], swDue := [], voidFrames := [], rawSince := [], filtFrom := 0, filt := [], prev := [], gateTick := 0, gateWas := false, lines := [], wakeLatch := [], wakeMore := [], wakeLock := false, wakePins := [] }
  brng := []
  host := { stage := 0, capture := 0, readBack := none, bootBase := 0, bootWaiting := false, bootBusy := false, bootCode := 0xF, cmdLen := 0, rspLen := 0, h2d := [], d2h := [], held := false, msix := [], msixDue := [], msixOn := true, msixMask := [], l1 := false, gpioClr := [], gpioFrom := [] }
  eth := []
  can := []
  ser := []
  jtag := { instr := .idcode, cells := [], seen := [], dr := 0, driving := false, floated := false }
  core := []
  fab := ⟨[], 0, [], 0⟩
  memp := ⟨[]⟩
  flash := { seals := [], pmask := [], sealWord := [], op := none, last := 0, winFrom := 0, otp := [(1, 0xA1)], otpDone := [], latchCopies := [], otpFlaws := [], fuses := [] }
  latch := []
  guard := 0
  surv := []
  sdf := []
  trigDue := []
  trigRaw := []
  ran := false
  landings := []
  ain := []
  offers := []
  arrivals := []
  vddaLow := false
  comp := []
  contFrom := []
  fd := []
  trip := ⟨[], [], [], [], [], [], [], [], [], []⟩
  forme := []
  trav := []
  galley := ⟨[], [], [], [], [], [], [], []⟩
  press := []
  pressErr := none
  twin := { txSeq := 0, rxSeq := 255, gap := false, ackDue := false, nakDue := false, timeDue := false, replay := [], fwd := [], cycle := [], lastTx := [], lanes := [], injPassed := 0, injDone := 0, delayed := [], swap := none, k0 := [], toFrom := 0, toUs := 100, hbAt := none, linkBad := true, ownFell := false, ownLowFrom := some 0, splitFrom := none, splitTold := false, relAt := none, heartActive := false, engGot := [], ovGot := [], peerAlert := 0, cycOk := true, notReadyTold := false, swReq := false, t0 := none, completeAt := none, engPend := [], gactPend := [], pageSel := [], timeSent := [], timePeer := 0, timeRecv := 0, delay := 0, nextTime := 0 }
  sec := ⟨false, 0, [], false, 0, 0, 0, 0, 0, none⟩
  freeCount := 0

/-- The machine right after power-on: memory with nothing listed, no command waiting (log entry 1). -/
def State.reset : State where
  dev := Dev.reset
  mem := ⟨[], []⟩
  pending := []

end Sys2Proof.Machine
end

