-- ==== Sys2Proof/Machine/Ops.lean ====
section
/-!
DEFINITION. The named operations over folio registers: reading and writing registers and fields, triplicated copies
and their vote (R66), raising events (R72, R320), the error records of the header (R52, R62, R517), shadows and
registration groups (R53-R56).
-/
namespace Sys2Proof.Machine

/-! ### Modes (R18) -/
def mStart : Nat := 0
def mConfig : Nat := 1
def mRun : Nat := 2
def mStandby : Nat := 3
def mRecovery : Nat := 4
def mPark : Nat := 5

/-! ### Registers -/

/-- The majority of three equal-or-not values; none when all three differ (R66). -/
def vote3 (t : Tri) : Option Word :=
  if t.a = t.b ∨ t.a = t.c then some t.a else if t.b = t.c then some t.b else none

/-- Guard gutter of the Colophon, as FORME_GUARD holds it (R157). -/
def guardGutter (d : Dev) : Word := d.guard

/-- The keys that form one triplicated field with a register: four consecutive route words (R122), one register else. -/
def voteUnit (key : Nat) : List Nat :=
  if (key / 256 = 0x50 ∨ key / 256 = 0x51) ∧ 0x10 ≤ key % 256 then
    let o := key % 256 - 0x10
    (upTo 4).map fun i => key / 256 * 256 + 0x10 + o / 4 * 4 + i
  else [key]

/-- Fallback value of a triplicated register (R68, R122, R173). -/
def fallbackOf (d : Dev) (key : Nat) : Word :=
  if key / 256 = 0x50 ∨ key / 256 = 0x51 then 0xFFFF
  else
    let g := guardGutter d
    if key % 256 < 0x40 then g else setFld (setFld 0 27 16 (fld g 16 5)) 11 0 (fld g 16 5)

/-- Copy `i` of a register (0-2). -/
def copyOf (d : Dev) (i key : Nat) : Word :=
  match tabFind d.folio.copies key with
  | none => tabGet (regReset key) d.regs key
  | some t => if i = 0 then t.a else if i = 1 then t.b else t.c

/-- Which copy of a triplicated field wins the vote on whole field values (R66). -/
def voteUnitOf (d : Dev) (key : Nat) : Option Nat :=
  let c := fun i => (voteUnit key).map (copyOf d i)
  if c 0 = c 1 ∨ c 0 = c 2 then some 0 else if c 1 = c 2 then some 1 else none

/-- A register as every use reads it: the applied value, voted when its copies disagree; a failed vote gives the
fallback value that its policy puts in force (R66, R68). -/
def rd (d : Dev) (key : Nat) : Word :=
  if d.folio.copies = [] then tabGet (regReset key) d.regs key
  else match voteUnitOf d key with
    | some i => copyOf d i key
    | none => fallbackOf d key

/-- A register written, all three copies together (R63, R66). -/
def wr (d : Dev) (key : Nat) (v : Word) : Dev :=
  { d with regs := tabSet (regReset key) d.regs key v, folio := { d.folio with copies := tabErase d.folio.copies key } }

/-- A field read as a number. -/
def gf (d : Dev) (f : Fd) : Nat := fld (rd d f.reg) f.hi f.lo

/-- A field written. -/
def pf (d : Dev) (f : Fd) (n : Nat) : Dev := wr d f.reg (setFld (rd d f.reg) f.hi f.lo n)

/-- A one-bit field. -/
def gb (d : Dev) (f : Fd) : Bool := gf d f == 1
def pb (d : Dev) (f : Fd) (b : Bool) : Dev := pf d f b.toNat

/-- A counter field advanced, saturating at its width. -/
def incF (d : Dev) (f : Fd) (k : Nat) : Dev := pf d f (satAdd (f.hi + 1 - f.lo) (gf d f) k)

/-- Bit `i` of a bit-array field, above its low end. -/
def gbit (d : Dev) (f : Fd) (i : Nat) : Bool := decide (i ≤ f.hi - f.lo) && bit (rd d f.reg) (f.lo + i)
def pbit (d : Dev) (f : Fd) (i : Nat) (b : Bool) : Dev :=
  if i ≤ f.hi - f.lo then wr d f.reg (setBitW (rd d f.reg) (f.lo + i) b) else d

/-- The operating mode (R18). -/
def mode (d : Dev) : Nat := gf d SYS_MODE.MODE

/-- The low 36 bits of the tick counter (R24). -/
def shortTs (d : Dev) : Word := BitVec.ofNat 36 d.merid.counter.toNat

def withFolio (d : Dev) (f : FolioSt → FolioSt) : Dev := { d with folio := f d.folio }

/-- A fresh free value (log entry 12). -/
def takeFree (d : Dev) : Dev × Word := ({ d with freeCount := d.freeCount + 1 }, Config.freeWord d.freeCount)

/-! ### Events (R72, R319, R320) -/

/-- The source that a block event of a folio drives (the event tables of the chapters). -/
def srcOf (b : Blk) (i bt : Nat) : Option Nat :=
  match b with
  | .sys => if bt = 0 then some 2034 else if bt = 1 then some 1943 else none
  | .rstc => if bt < 2 then some 2035 else none
  | .pinc => if bt = 1 then some 2047 else none
  | .dbg => if bt < 2 then some 2047 else none
  | .merid => if bt < 7 then some (1936 + bt) else none
  | .pace => if bt < 6 then some (1944 + bt) else none
  | .cba => if bt < 4 then some (1952 + bt) else none
  | .evc => if bt = 0 then some 2017 else if bt = 1 then some 2018 else if bt = 2 then some 2016 else none
  | .fab => if bt = 0 then some 2020 else if bt < 3 then some 2021 else if bt = 3 then some 2022 else if bt = 4 then some 2023 else none
  | .memp => if bt < 3 then some (2024 + bt) else if bt < 5 then some 2027 else none
  | .galley => if bt < 5 then some 1824 else none
  | .sec => if bt < 6 then some 2033 else none
  | .flashc => if bt < 4 then some 2032 else none
  | .twin => if bt < 3 then some 2028 else if bt < 10 then some 2029 else if bt < 13 then some 2030 else if bt = 13 then some 2031 else none
  | .tsc => if bt < 4 then some (2008 + i) else none
  | .core => none
  | .forme => if bt < 28 then some (32 * i + bt) else none
  | .tripnet => if i = 1 ∧ bt = 0 then some 2000 else none
  | .surv => if bt < 13 then some (512 + 16 * i + bt) else none
  | .sdf => if bt < 16 then some (if bt % 4 = 0 then 1968 + 2 * (4 * i + bt / 4) else 1969 + 2 * (4 * i + bt / 4)) else none
  | .cont => if bt < 3 then some (2004 + i) else none
  | .trav =>
    let e := 1152 + 8 * i
    if bt < 4 then some (e + bt) else if bt < 6 then some (e + 4) else if bt = 6 then some (e + 5)
    else if bt < 10 then some (e + 6) else if bt < 17 then some (e + 7) else none
  | .brng => if bt < 8 then some (1664 + 8 * i + bt) else none
  | .press => some (1840 + i)
  | .pcie => if bt < 5 then some 2036 else none
  | .eth => if bt < 3 then some (2037 + i) else none
  | .canf => if bt < 4 then some (if i < 4 then 1956 + i else 1960 + i) else none
  | .uart => if bt < 4 then some 2039 else none
  | .spi => if bt < 4 then some 2040 else none
  | .i2c => if bt < 4 then some 2041 else none
  | .avs => if bt < 2 then some 2042 else none
  | .gpio => some (2043 + i)

/-- The FOLIO_EVT.BLK bit of a block's CFG_ERR (R517 and the event tables); none where the block has none. -/
def cfgBit (b : Blk) (chan : Nat) : Option Nat :=
  match b with
  | .sys | .rstc | .pinc | .evc | .avs | .dbg => some 1
  | .merid => some 6
  | .fab | .memp | .pcie => some 4
  | .flashc | .tsc | .canf | .uart | .spi | .i2c => some 3
  | .twin | .forme => some 13
  | .surv | .trav => some 11
  | .sdf => some (4 * chan + 3)
  | .cont => some 0
  | .brng => some 7
  | .eth => some 2
  | _ => none

/-- MSI-X vectors that listen to a source: PCIE_MSIXSRCv with EN = 1 (R488); an unlisted register reads EN = 0. -/
def msixOf (d : Dev) (src : Nat) : List Nat :=
  d.regs.filterMap fun e => if e.1 / 64 = 0x10040 / 64 ∧ bit e.2 35 ∧ fld e.2 10 0 = src then some (e.1 % 64) else none

/-- Pending bits of MSI-X vectors are set (R488). -/
def msixPend (due vs : List Nat) : List Nat := due ++ vs.filter fun v => decide (v ∉ due)

/-- A one-tick pulse of an event source (R320); MSI-X takes it directly (R488). -/
def drive (d : Dev) (src : Nat) : Dev :=
  { d with evc := { d.evc with pulses := tabPut d.evc.pulses src d.now }
           host := { d.host with msixDue := msixPend d.host.msixDue (msixOf d src) } }

/-- A level source takes a level; MSI-X takes its rising edge (R320, R488). -/
def setLevel (d : Dev) (src : Nat) (b : Bool) : Dev :=
  let was := tabGet false d.evc.raw src
  let d1 := { d with evc := { d.evc with
    raw := tabSet false d.evc.raw src b
    rawSince := if was = b then d.evc.rawSince else tabPut d.evc.rawSince src d.now } }
  if b ∧ ¬ was then { d1 with host := { d1.host with msixDue := msixPend d1.host.msixDue (msixOf d1 src) } } else d1

/-- A block event: the FOLIO_EVT bit, and the source when enabled (R47, R96, R320). -/
def raiseEvt (d : Dev) (page bt : Nat) : Dev :=
  let d1 := pbit d (FOLIO_EVT.BLK page) bt true
  match blockOf page with
  | none => d1
  | some (b, i) =>
    match srcOf b i bt with
    | none => d1
    | some s => if gbit d1 (FOLIO_EVTEN.BLK page) bt then drive d1 s else d1

/-- A header event, 0 QUOIN, 1 VOTE_CORR, 2 VOTE_FAIL, 3 MODE_LOCK, with SYS_FOLIOERR (R72). -/
def raiseHdr (d : Dev) (page k : Nat) : Dev :=
  let d1 := wr d (FOLIO_EVT.at page) (setBitW (rd d (FOLIO_EVT.at page)) (32 + k) true)
  let d2 := wr d1 SYS_FOLIOERR.at (setFld (rd d1 SYS_FOLIOERR.at) (9 * k + 8) (9 * k) page)
  if bit (rd d2 (FOLIO_EVTEN.at page)) (32 + k) then drive d2 (1960 + k) else d2

/-- A write discarded because of the mode (R52). -/
def modeLock (d : Dev) (page : Nat) : Dev := raiseHdr (pb d (FOLIO_STAT.MODE_LOCK page) true) page 3

/-- A failed quoin pair (R62). -/
def quoinFail (d : Dev) (page off cause : Nat) : Dev :=
  let d1 := pb (pf (pf d (FOLIO_STAT.QCAUSE page) cause) (FOLIO_STAT.QOFF page) off) (FOLIO_STAT.QUOIN_ERR page) true
  raiseHdr d1 page 0

/-- CFG_ERR of the block of a page (R517). -/
def cfgErr (d : Dev) (page off : Nat) : Dev :=
  match blockOf page with
  | none => d
  | some (b, _) =>
    let chan := if b = .sdf then (if off ≥ 0x50 then (off - 0x50) % 4 else (off - 0x10) / 16) else 0
    match cfgBit b chan with
    | none => d
    | some k => raiseEvt d page k

/-! ### Causes of a warm reset (R459, R467, R469) -/

/-- A warm reset source asserts: the reset follows in the same step (Machine/Reset.lean). -/
def warmReq (d : Dev) (src : ResetSource) : Dev :=
  { d with rstc := { d.rstc with req := if src ∈ d.rstc.req then d.rstc.req else d.rstc.req ++ [src] } }

/-- A critical error of a kind at a word address (R467). -/
def critError (d : Dev) (kind a : Nat) : Dev :=
  warmReq (pf (pf d RSTC_DETAIL.KIND kind) RSTC_CRITADDR.ADDR a) .crit

/-- Core watchdog escalation (R469): 1 a second expiry, 2 NEST. -/
def cwdEscalate (d : Dev) (c sub : Nat) : Dev :=
  warmReq (pf (pf d RSTC_DETAIL.CORE c) RSTC_DETAIL.SUB sub) .cwdog

/-! ### Trip sources (R115, R121) -/

/-- Present state of trip source `s` (TRIPNET_LIVE). -/
def live (d : Dev) (s : Nat) : Bool := gbit d (TRIPNET_LIVE.LIVE (s / 32)) (s % 32)

/-- Source `s` takes a state at the trip network: a rise is to latch, a fall is remembered for its tick (R117, R121). -/
def setLive (d : Dev) (s : Nat) (b : Bool) : Dev :=
  if live d s = b then d
  else
    let d1 := pbit d (TRIPNET_LIVE.LIVE (s / 32)) (s % 32) b
    { d1 with trip := if b then { d1.trip with due := d1.trip.due ++ [(s, d.now)] }
                      else { d1.trip with fell := tabPut d1.trip.fell s d.now } }

/-! ### Shadows (R53-R56, R70) -/

/-- A register is critical (R54). -/
def isCritical (key : Nat) : Bool := match regAt (key / 256) (key % 256) with
  | some (r, _) => r.critical
  | none => false

/-- The group at which a staged register applies; none: at once (R54). -/
def groupOf (d : Dev) (key : Nat) : Option Nat :=
  if isCritical key then some (gf d (FOLIO_GROUP.CGRP (key / 256)))
  else
    let g := gf d (FOLIO_GROUP.GRP (key / 256))
    if g = 0x1F then none else some g

/-- FOLIO_STAT.STAGED follows the shadows of the page, those that wait for an operation to end included (R53, R57). -/
def fixStaged (d : Dev) (page : Nat) : Dev :=
  pb d (FOLIO_STAT.STAGED page) ((d.folio.shadows.any fun e => decide (e.1 / 256 = page)) ||
    d.folio.defer.any fun e => decide (e.1 / 256 = page))

/-- A captured value that waits for the end of the operation in progress (R57). -/
def deferVal (d : Dev) (key : Nat) : Option Word := (d.folio.defer.reverse.find? fun e => e.1 == key).map (·.2)

/-- The newest value of a shadow, voted; none when there is no shadow or its vote fails (R53, R70). -/
def shadowVal (d : Dev) (key : Nat) : Option Word :=
  match tabFind d.folio.shadows key with
  | some ⟨(_, t) :: _⟩ => vote3 t
  | _ => deferVal d key

/-- Vote index of a triplicated register in its folio (R122, R173). -/
def voteIndex (key : Nat) : Nat :=
  let o := key % 256
  if key / 256 = 0x50 ∨ key / 256 = 0x51 then (o - 0x10) / 4
  else if o < 0x38 then o - 0x34 else if o < 0x40 then 4 + (o - 0x38) else 8 + (o - 0x40)

/-- A vote's outcome recorded: FOLIO_VOTE, and header event 1 VOTE_CORR or 2 VOTE_FAIL with VOTE_ERR (R67, R68). -/
def voteMark (d : Dev) (key k : Nat) : Dev :=
  let page := key / 256
  let d1 := if k = 2 then pb d (FOLIO_STAT.VOTE_ERR page) true else d
  raiseHdr (pbit d1 (FOLIO_VOTE.VOTE page) (voteIndex key) true) page k

/-- Landings that a capture can still name: the new one, those of the last two ticks and the newest before them. -/
def pruneLanded (now : Nat) : List (Nat × Tri) → List (Nat × Tri)
  | [] => []
  | e :: t => if e.1 + 2 ≤ now then [e] else e :: pruneLanded now t

/-- A write lands in a shadow (R53). -/
def landShadow (d : Dev) (key : Nat) (v : Word) : Dev :=
  let old := match tabFind d.folio.shadows key with
    | some s => s.landed
    | none => []
  let sh : Shadow := ⟨(d.now, ⟨v, v, v⟩) :: pruneLanded d.now (old.filter fun e => decide (e.1 ≠ d.now))⟩
  fixStaged (withFolio d fun f => { f with shadows := tabPut f.shadows key sh }) (key / 256)

/-- The landing captured for application tick `a`: the newest at or before a − 2 (R56), and the later ones. -/
def splitLanded (a : Nat) : List (Nat × Tri) → List (Nat × Tri) × Option (Nat × Tri)
  | [] => ([], none)
  | e :: t => if e.1 + 2 ≤ a then ([], some e) else
    let (later, c) := splitLanded a t
    (e :: later, c)

/-- One captured shadow applied at tick `a`; whether something applied. -/
def applyShadow (d : Dev) (key a : Nat) : Dev × Bool :=
  match tabFind d.folio.shadows key with
  | none => (d, false)
  | some s =>
    match splitLanded a s.landed with
    | (_, none) => (d, false)
    | (later, some (at_, t)) =>
      let d1 := withFolio d fun f => { f with took := at_, shadows := if later = [] then tabErase f.shadows key else tabPut f.shadows key ⟨later⟩ }
      match vote3 t with
      | some v => (fixStaged (wr (if t.a = t.b ∧ t.b = t.c then d1 else voteMark d1 key 1) key v) (key / 256), true)
      | none =>
        -- R70: the vote failure of a shadow discards it and applies no policy
        (fixStaged (voteMark d1 key 2) (key / 256), false)

/-- A shadow applied whole at once: the newest landing (R54, change of GRP to 0x1F). -/
def applyNow (d : Dev) (key : Nat) : Dev :=
  match shadowVal d key with
  | some v => fixStaged (wr (withFolio d fun f => { f with took := d.now, shadows := tabErase f.shadows key }) key v) (key / 256)
  | none => d

/-- Every shadow of a page discarded (R58). -/
def dropShadows (d : Dev) (page : Nat) : Dev :=
  fixStaged (withFolio d fun f => { f with shadows := f.shadows.filter (fun e => decide (e.1 / 256 ≠ page))
                                           defer := f.defer.filter fun e => decide (e.1 / 256 ≠ page) }) page

/-! ### Registration groups (R55, R58, R59) -/

/-- Group `g` fires with application tick `a`; several sources in one tick fire it once (R55). -/
def fire (d : Dev) (g a : Nat) : Dev :=
  if (g, a) ∈ d.folio.fires ∨ tabFind d.folio.applied g = some a then d else withFolio d fun f => { f with fires := f.fires ++ [(g, a)] }

/-- A group fires by SYS_STROBE: in PARK too (R58). -/
def fireStrobe (d : Dev) (g a : Nat) : Dev :=
  withFolio (fire d g a) fun f => { f with strobed := if (g, a) ∈ f.strobed then f.strobed else f.strobed ++ [(g, a)] }

/-- At PARK entry only what SYS_STROBE asked for stays to be applied (R58). -/
def firesPark (d : Dev) : Dev := withFolio d fun f => { f with fires := f.fires.filter fun x => decide (x ∈ f.strobed) }

/-- A group's firing at tick `a` is taken up. -/
def takeFire (d : Dev) (g a : Nat) : Dev :=
  withFolio d fun f => { f with fires := f.fires.erase (g, a), strobed := f.strobed.erase (g, a), applied := tabPut f.applied g a }

/-- SYS_STROBESRCg as it governs the present tick: a change takes effect from the tick after the write (R59). -/
def strobeSrc (d : Dev) (g : Nat) : Word :=
  match tabFind d.folio.srcWas g with
  | some (t, w) => if t = d.now then w else rd d (SYS_STROBESRC.at g)
  | none => rd d (SYS_STROBESRC.at g)

/-- A hardware source event (SRC code, instance) with application tick `a`: each group that names it counts DIV and
fires on every (DIV + 1)th (R55, R59); in PARK no group fires from hardware (R58). -/
def sourceEvent (d : Dev) (src inst a : Nat) : Dev :=
  if mode d = mPark then d
  else forUpTo 16 (fun g d =>
    let w := strobeSrc d g
    if fld w 11 9 = src ∧ fld w 5 0 = inst then
      let n := tabGet 0 d.folio.divCnt g + 1
      if n > fld w 19 12 then fire (withFolio d fun f => { f with divCnt := tabSet 0 f.divCnt g 0 }) g a
      else withFolio d fun f => { f with divCnt := tabSet 0 f.divCnt g n }
    else d) d

end Sys2Proof.Machine
end

