-- ==== Sys2Proof/Machine/Mem.lean ====
section
/-!
DEFINITION. The address space, the row-and-column code, the MEMP log, bank retirement and fabric tags (chapter 15).
-/
namespace Sys2Proof.Machine

/-- Regions of the memory map (R338, R237). -/
inductive Region where
  | rom
  | itcm (core : Nat)
  | dtcm (core : Nat)
  | sram (bank : Nat)
  | galley
  | overlay
  | flash (bank : Nat)
  | colophon
  | folio
  | none
deriving DecidableEq, Repr

/-- The region of a word address; the local views are reached only by their core (R338, R339). -/
def regionOf (core : Option Nat) (a : Nat) : Region :=
  if a < 0x4000 then .rom
  else if 0x100000 ≤ a ∧ a < 0x108000 then (match core with | some c => .itcm c | none => .none)
  else if 0x110000 ≤ a ∧ a < 0x118000 then (match core with | some c => .dtcm c | none => .none)
  else if 0x2000000 ≤ a ∧ a < 0x2200000 ∧ a % 0x10000 < 0x8000 ∧ a / 0x10000 % 4 < 2 then
    (if a / 0x10000 % 4 = 0 then .itcm ((a - 0x2000000) / 0x40000) else .dtcm ((a - 0x2000000) / 0x40000))
  else if 0x4000000 ≤ a ∧ a < 0x4100000 then .sram ((a - 0x4000000) / 0x10000)
  else if 0x5000000 ≤ a ∧ a < 0x5020000 then .galley
  else if 0x6000000 ≤ a ∧ a < 0x6010000 then .overlay
  else if 0x8000000 ≤ a ∧ a < 0x8200000 then .flash 0
  else if 0x8200000 ≤ a ∧ a < 0x8400000 then .flash 1
  else if 0x8400000 ≤ a ∧ a < 0x8400100 then .colophon
  else if 0xF000000 ≤ a ∧ a < 0xF100000 then .folio
  else .none

/-- The first address of the spare bank's copy in `MemSt`: the spare has no address of its own (R338). -/
def spareBase : Nat := 0x4100000

/-- Region number of MEMP (R355); none for regions without the code. -/
def mempRegion (r : Region) (spare : Bool) : Option Nat :=
  match r with
  | .sram b => some (if spare then 16 else b)
  | .itcm c => some (17 + c)
  | .dtcm c => some (25 + c)
  | .galley => some 33
  | .overlay => some 34
  | .flash _ => some 35
  | .rom => some 36
  | _ => none

/-- FAB_RETIRE.MODE = SUBST of this bank: the spare serves its addresses (R359). -/
def substOf (d : Dev) (b : Nat) : Bool := gf d FAB_RETIRE.MODE == 2 && gf d FAB_RETIRE.BANK == b
def mirrorOf (d : Dev) (b : Nat) : Bool := gf d FAB_RETIRE.MODE == 1 && gf d FAB_RETIRE.BANK == b

/-- The physical word that serves an address: local views are the TCM itself, a substituted bank is the spare. -/
def physOf (d : Dev) (r : Region) (a : Nat) : Nat :=
  match r with
  | .itcm c => 0x2000000 + c * 0x40000 + a % 0x8000
  | .dtcm c => 0x2010000 + c * 0x40000 + a % 0x8000
  | .sram b => if substOf d b then spareBase + a % 0x10000 else a
  | _ => a

/-- Result of an access: a word, a bus error, an uncorrectable error, or a wait at the handshake. -/
inductive BusRes where
  | ok (w : Word)
  | err
  | ecc
  | wait
deriving DecidableEq, Repr

/-! ### The row-and-column code (R348, R349) -/

def Flaw.row (f : Flaw) (r : Nat) : Nat := fld f.rs (4 * r + 3) (4 * r)
def Flaw.setRow (f : Flaw) (r v : Nat) : Flaw := { f with rs := setFld f.rs (4 * r + 3) (4 * r) v }

/-- The place of a number's only set bit. -/
def onlyBit (n : Nat) : Option Nat := if n ≠ 0 ∧ 2 ^ n.log2 = n then some n.log2 else none

/-- Rows with a non-zero syndrome, rising. -/
def Flaw.rows (f : Flaw) : List Nat := (upTo 9).filter fun r => decide (f.row r ≠ 0)

/-- Class code of R349, with the row and bit of a correctable data or column bit. -/
def classify (f : Flaw) : Nat × Nat × Nat :=
  match f.rows with
  | [] => if f.k = 0 then (0, 0, 0x3F) else (4, 0, 0x3F)
  | [r] =>
    match onlyBit (f.row r) with
    | some g =>
      if f.k = 0 then (3, r, 0x3F)
      else match onlyBit f.k.toNat with
        | some j => if j / 9 = g then (if r < 8 then (1, r, j) else (2, r, j)) else (6, r, 0x3F)
        | none => (6, r, 0x3F)
    | none => (6, r, 0x3F)
  | r :: _ => if f.k = 0 then (5, r, 0x3F) else (6, r, 0x3F)

def flawZero : Flaw := ⟨0, 0⟩

/-- The code state of the block that holds a physical word. -/
def flawOf (m : MemSt) (p : Nat) : Flaw := tabGet flawZero m.flaws (p / 8 * 8)
def putFlaw (m : MemSt) (p : Nat) (f : Flaw) : MemSt := { m with flaws := tabSet flawZero m.flaws (p / 8 * 8) f }

/-- What a word that nothing has written reads as: the boot ROM as manufactured, flash erased (R417), RAM zero (R352;
log entry 5). -/
def memDefault (p : Nat) : Word :=
  if p < 0x4000 then Config.romWord p else if 0x8000000 ≤ p ∧ p < 0x8400000 then 0xFFFFFFFFF#36 else 0

/-- A data word as stored. -/
def storedWord (m : MemSt) (p : Nat) : Word := tabGet (memDefault p) m.words p
def putWord (m : MemSt) (p : Nat) (v : Word) : MemSt := { m with words := tabSet (memDefault p) m.words p v }

/-- The word as the code delivers it: the bad bit of an SBE_DATA word inverted (R349). -/
def deliveredWord (m : MemSt) (p : Nat) : Word :=
  let (c, r, j) := classify (flawOf m p)
  if c = 1 ∧ r = p % 8 then storedWord m p ^^^ BitVec.ofNat 36 (2 ^ j) else storedWord m p

/-- Code after a store of word `p` into a correctable block (R351): the stored word is good, C follows the corrected
data, a bad bit elsewhere keeps its class. -/
def flawAfterStore (f : Flaw) (w : Nat) : Flaw :=
  let (c, r, _) := classify f
  if c = 1 then (if r = w then flawZero else f)
  else if c = 3 ∧ r ≠ w ∧ r ≠ 8 then f
  else flawZero

/-! ### MEMP log (R354, R355) -/

/-- MEMP_LOGA and MEMP_LOGB of an access to word `a` of a block that is not CLEAN. The row index of UE_GROUP, where no
row syndrome is non-zero, is left open: a free value of 0-8; the address of a UE_MULTI of row 8 alone is the word
accessed (log entry 81). -/
def logEntry (f : Flaw) (cls : Nat × Nat × Nat) (region a : Nat) : LogEntry :=
  let (c, r, j) := cls
  let rows := f.rows
  let low := (rows.filter fun r => decide (r ≤ 7)).headD (a % 8)
  let addr := if c = 5 ∨ c = 6 then (a / 8 * 8 + low) else a
  let widx := if c = 4 then (Config.groupRow a).val else if c = 5 ∨ c = 6 then (if rows = [8] then 8 else low) else r
  let mask := rows.foldl (fun m r => m + 2 ^ r) 0
  ⟨setFld (setFld 0 35 33 c) 27 0 addr,
   setFld (setFld (setFld (setFld (setFld (setFld 0 35 30 region) 29 26 widx) 25 20 (if c = 1 ∨ c = 2 then j else 0x3F)) 19 16 (f.row widx)) 15 7 mask) 6 0 1⟩

def mempPage : Nat := 0xF

/-- UNREAD = (HEAD − TAIL) mod 128, shown in MEMP_STAT. -/
def fixUnread (d : Dev) : Dev := pf d MEMP_STAT.UNREAD ((gf d MEMP_STAT.HEAD + 128 - gf d MEMP_TAIL.TAIL) % 128)

/-- One access logged or coalesced into the newest entry (R354, R355); none while MEMP is disabled or in PARK (R361). -/
def logAs (d : Dev) (f : Flaw) (cls : Nat × Nat × Nat) (region a : Nat) : Dev :=
  if !gb d (FOLIO_CTL.EN mempPage) || mode d == mPark then d
  else
    let e := logEntry f cls region a
    let c := fld e.a 35 33
    let d := if c < 4 then incF d (MEMP_CNT.CE region) 1 else incF d (MEMP_CNT.UE region) 1
    let head := gf d MEMP_STAT.HEAD
    let newest := tabGet ⟨0, 0⟩ d.memp.log ((head + 63) % 64)
    let count := fld newest.b 6 0
    if newest.a = e.a ∧ fld newest.b 29 20 = fld e.b 29 20 ∧ c ≠ 0 then
      { d with memp := { d.memp with log := tabSet ⟨0, 0⟩ d.memp.log ((head + 63) % 64) ⟨newest.a, setFld newest.b 6 0 (min 127 (count + 1))⟩ } }
    else
      let full := gf d MEMP_STAT.UNREAD == 64
      let d := { d with memp := { d.memp with log := tabSet ⟨0, 0⟩ d.memp.log (head % 64) e } }
      let d := pf d MEMP_STAT.HEAD ((head + 1) % 128)
      let d := if full then raiseEvt (incF (pf d MEMP_TAIL.TAIL ((gf d MEMP_TAIL.TAIL + 1) % 128)) MEMP_WRAP.CNT 1) mempPage 3 else d
      let d := fixUnread d
      let d := raiseEvt d mempPage (if c < 4 then 0 else 1)
      if gf d MEMP_STAT.UNREAD = 48 ∧ ¬ full then raiseEvt d mempPage 2 else d

def logAccess (d : Dev) (f : Flaw) (region a : Nat) : Dev := logAs d f (classify f) region a

/-! ### Bank availability, initialisation, tags -/

/-- Holder index of an initiator (R343); a core's data port. -/
def holderOf : Initiator → Nat
  | .core c => 2 * c.val + 1
  | .press _ => 16
  | .galley => 17
  | .cluster k => 18 + k.val
  | .sec => 34
  | .pcie => 35
  | .eth m => 36 + m.val
  | .maelu => 38
  | .debug => 39

/-- The core of an initiator. -/
def coreOf : Initiator → Option Nat
  | .core c => some c.val
  | _ => none

def fabPage : Nat := 0xE

/-- FAB_ERRADDR and FAB_ERRINFO of a parity error, timeout or access to an unusable bank (R347, R346, R360). -/
def fabError (d : Dev) (addr holder cause evt : Nat) : Dev :=
  raiseEvt (pf (pf (pf d FAB_ERRADDR.ADDR addr) FAB_ERRINFO.CAUSE cause) FAB_ERRINFO.HOLDER holder) fabPage evt

/-- The bank that serves an address is marked unusable (R360). -/
def bankOff (d : Dev) (r : Region) : Bool :=
  match r with
  | .sram b => gbit d FAB_BANKOFF.OFF b || (substOf d b && gbit d FAB_BANKOFF.OFF 16)
  | _ => false

/-- The region still waits for its initialisation (R352). -/
def initWait (d : Dev) (r : Region) : Bool :=
  match r with
  | .flash _ | .rom | .colophon | .folio | .none => false
  | _ => match mempRegion r (match r with | .sram b => substOf d b | _ => false) with
    | some k => !gbit d MEMP_INIT.DONE k
    | none => false

/-- Tags held by a holder. -/
def heldBy (d : Dev) (h : Nat) : Nat := gf d (FAB_TAGUSE.HELD h)

/-- The free count of R344, in which a retired entry counts (R346). -/
def freeTags (d : Dev) : Nat := 8192 - gf d FAB_STAT.INUSE

/-- An entry of the table stands ready: a retired one is not reused yet (R346). -/
def tagLeft (d : Dev) : Bool := decide (gf d FAB_STAT.INUSE + gf d FAB_STAT.ZOMBIE < 8192)

/-- Sum over all holders of max(0, RSV − held) (R344). -/
def reservedTags (d : Dev) : Nat :=
  (upTo 40).foldl (fun a h => a + (gf d (FAB_QUOTA.RSV h) - heldBy d h)) 0

/-- A tag can be granted to a holder (R344). -/
def canTag (d : Dev) (h : Nat) : Bool :=
  tagLeft d && decide (heldBy d h < gf d (FAB_QUOTA.MAX h)) && (decide (heldBy d h < gf d (FAB_QUOTA.RSV h)) || decide (freeTags d > reservedTags d))

def withFab (d : Dev) (f : FabSt → FabSt) : Dev := { d with fab := f d.fab }

/-- A tag taken by a holder for an address: its number is answered (R342). -/
def takeTag (d : Dev) (h a : Nat) : Dev × Nat :=
  let id := d.fab.next
  let d := withFab d fun f => { f with tags := tabPut f.tags id ⟨h, a, d.now, none, false⟩, next := id + 1, lastGrant := h }
  let d := incF (incF d (FAB_TAGUSE.HELD h) 1) FAB_STAT.INUSE 1
  (if gf d FAB_STAT.INUSE > gf d FAB_PEAK.PEAK then pf d FAB_PEAK.PEAK (gf d FAB_STAT.INUSE) else d, id)

/-- The waiting request that is granted next: round robin by holder index from the last grant (R344). -/
def nextWaiting (d : Dev) : Option (Nat × Nat) :=
  let ok := d.fab.waiting.filter fun w => canTag d w.1
  let after := ok.filter fun w => decide (w.1 > d.fab.lastGrant)
  let best := fun (l : List (Nat × Nat)) => l.foldl (fun b w => match b with
    | none => some w
    | some x => if w.1 < x.1 then some w else some x) none
  match best after with
  | some w => some w
  | none => best ok

/-- A tag's entry freed from its holder. -/
def dropTag (d : Dev) (id : Nat) : Dev :=
  match tabFind d.fab.tags id with
  | none => d
  | some t =>
    let d := withFab d fun f => { f with tags := tabErase f.tags id }
    if t.zombie.isSome then pf d FAB_STAT.ZOMBIE (gf d FAB_STAT.ZOMBIE - 1)
    else pf (pf d (FAB_TAGUSE.HELD t.holder) (heldBy d t.holder - 1)) FAB_STAT.INUSE (gf d FAB_STAT.INUSE - 1)

/-- A request that starts and ends within one step touches the table's peak (R342). -/
def brushTag (d : Dev) : Dev :=
  let n := gf d FAB_STAT.INUSE + 1
  if n > gf d FAB_PEAK.PEAK then pf d FAB_PEAK.PEAK n else d

/-! ### Accesses -/

def setDev (s : State) (d : Dev) : State := { s with dev := d }
def setMem (s : State) (m : MemSt) : State := { s with mem := m }

/-- Who may load from the boot ROM and the Colophon view (R339). -/
def seesRom (ini : Initiator) (sup : Bool) : Bool :=
  match ini with
  | .core _ => sup
  | .sec => true
  | .debug => true
  | _ => false

/-- A Colophon word as the read view delivers it: words 62-69 to the security engine alone (R339). -/
def colophonView (d : Dev) (ini : Initiator) (k : Nat) : Word :=
  if 62 ≤ k ∧ k ≤ 69 ∧ ini ≠ .sec then 0
  else tabGet 0 d.latch k

/-- A flash word: coded only where its block is sealed (R418, R419), see Machine/Flash.lean for programming. -/
def flashSealed (d : Dev) (p : Nat) : Bool := tabGet false d.flash.seals (p / 8)

def flashPage : Nat := 0x12

/-- A flash read that was corrected, or refused for row parity: counted with its address (R421); FL_UE for a refused or
uncorrectable one (R439). -/
def flashCount (d : Dev) (a c : Nat) (refused : Bool) : Dev :=
  let d := if c < 4 || refused then pf (incF d FLASHC_MCNT.CUR 1) FLASHC_ERRADDR.ADDR a else d
  if c ≥ 4 || refused then raiseEvt d flashPage 1 else d

/-- The bank is programming or erasing (R419). -/
def flashBusy (d : Dev) (bank : Nat) : Bool := if bank = 0 then gb d FLASHC_STAT.BUSY0 else gb d FLASHC_STAT.BUSY1

/-- A load or fetch of one flash word: a busy bank answers a bus error (R419); a sealed block is checked and corrected
like any stored data, an unsealed one by row parity alone, where a refusal is logged as UE_MULTI (R418). -/
def flashLoad (bank a : Nat) (s : State) : State × BusRes :=
  if flashBusy s.dev bank then (s, .err)
  else
    let f := flawOf s.mem a
    if flashSealed s.dev a then
      let c := (classify f).1
      let s1 := if c = 0 then s else setDev s (flashCount (logAccess s.dev f 35 a) a c false)
      if c ≥ 4 then (s1, .ecc) else (s1, .ok (deliveredWord s1.mem a))
    else if f.row (a % 8) = 0 then (s, .ok (storedWord s.mem a))
    else
      let g := flawZero.setRow (a % 8) (f.row (a % 8))
      (setDev s (flashCount (logAs s.dev g (6, a % 8, 0x3F) 35 a) a 6 true), .err)

/-- A load or fetch of one word outside folio space under a holder's index (R339, R343, R349-R355). -/
def memLoadAs (h : Nat) (ini : Initiator) (sup : Bool) (a : Nat) (s : State) : State × BusRes :=
  let r := regionOf (coreOf ini) a
  if bankOff s.dev r then (setDev s (fabError s.dev a h 4 3), .err)
  else if initWait s.dev r then (s, .wait)
  else match r with
  | .none | .folio => (s, .err)
  | .colophon => if seesRom ini sup then (s, .ok (colophonView s.dev ini (a % 0x100))) else (s, .err)
  | .flash b => flashLoad b a s
  | _ =>
    if r = .rom ∧ seesRom ini sup = false then (s, .err) else
    let p := physOf s.dev r a
    let f := flawOf s.mem p
    let c := (classify f).1
    let sp := match r with | .sram b => substOf s.dev b | _ => false
    let s1 := if c = 0 then s else setDev s (logAccess s.dev f ((mempRegion r sp).getD 0) a)
    if c ≥ 4 then (s1, .ecc) else (s1, .ok (deliveredWord s1.mem p))

/-- A load by an initiator, a core's through its data port. -/
def memLoad (ini : Initiator) (sup : Bool) (a : Nat) (s : State) : State × BusRes := memLoadAs (holderOf ini) ini sup a s

/-- Bits under `mask` of one RAM word stored, as one target performs it (R351). -/
def storeAt (s : State) (r : Region) (sp : Bool) (p a : Nat) (mask v : Word) : State × BusRes :=
  let f := flawOf s.mem p
  let c := (classify f).1
  let hit := c = 1 ∧ (classify f).2.1 = p % 8
  let s1 := if c = 0 ∨ hit then s else setDev s (logAccess s.dev f ((mempRegion r sp).getD 0) a)
  if c ≥ 4 then (s1, .ecc)
  else
    let w := (deliveredWord s1.mem p &&& ~~~mask) ||| (v &&& mask)
    (setMem s1 (putFlaw (putWord s1.mem p w) p (flawAfterStore f (p % 8))), .ok w)

/-- A store outside folio space (R339, R351, R358, R360): loads-only regions and unmapped addresses answer a bus
error; under MIRROR the spare takes the same store, and either bank's error is the answer (log entry 82). -/
def memStore (ini : Initiator) (a : Nat) (mask v : Word) (s : State) : State × BusRes :=
  let r := regionOf (coreOf ini) a
  if bankOff s.dev r then (setDev s (fabError s.dev a (holderOf ini) 4 3), .err)
  else if initWait s.dev r then (s, .wait)
  else match r with
  | .sram b =>
    if mirrorOf s.dev b && !gbit s.dev MEMP_INIT.DONE 16 then (s, .wait) else
    let res := storeAt s r (substOf s.dev b) (physOf s.dev r a) a mask v
    if mirrorOf s.dev b then
      let res2 := storeAt res.1 r true (spareBase + a % 0x10000) a mask v
      (res2.1, match res.2, res2.2 with
        | .ok w, .ok _ => .ok w
        | _, _ => .ecc)
    else res
  | .itcm _ | .dtcm _ | .galley | .overlay => storeAt s r false (physOf s.dev r a) a mask v
  | _ => (s, .err)

/-- The region's number in MEMP. -/
def mempOf (d : Dev) (r : Region) : Nat := (mempRegion r (match r with | .sram b => substOf d b | _ => false)).getD 0

/-- Whole-block write of zero with a valid code: initialisation and MEMP_CLRBLK (R351, R352, R356). -/
def clearBlock (m : MemSt) (p : Nat) : MemSt :=
  { words := m.words.filter fun e => decide (e.1 / 8 ≠ p / 8), flaws := tabErase m.flaws (p / 8 * 8) }

/-- A whole block written with given words and a valid code, healing it (R351). -/
def writeBlock (m : MemSt) (p : Nat) (ws : List Word) : MemSt :=
  (upTo 8).foldl (fun m i => putWord m (p / 8 * 8 + i) (ws.getD i 0)) { m with flaws := tabErase m.flaws (p / 8 * 8) }

/-- Words of a region of MEMP dropped to zero with valid code: memory initialisation (R352). -/
def initRange (m : MemSt) (lo hi : Nat) : MemSt :=
  { words := m.words.filter fun e => decide (e.1 < lo ∨ hi ≤ e.1), flaws := m.flaws.filter fun e => decide (e.1 < lo ∨ hi ≤ e.1) }

/-- Physical range of an initialised region (R355). -/
def regionRange (k : Nat) : Nat × Nat :=
  if k < 16 then (0x4000000 + k * 0x10000, 0x4000000 + (k + 1) * 0x10000)
  else if k = 16 then (spareBase, spareBase + 0x10000)
  else if k < 25 then (0x2000000 + (k - 17) * 0x40000, 0x2000000 + (k - 17) * 0x40000 + 0x8000)
  else if k < 33 then (0x2010000 + (k - 25) * 0x40000, 0x2010000 + (k - 25) * 0x40000 + 0x8000)
  else if k = 33 then (0x5000000, 0x5020000)
  else (0x6000000, 0x6010000)

/-- A RAM region stands initialised: zero with a valid code, its bit of MEMP_INIT 1 (R352). -/
def initDone (k : Nat) (s : State) : State :=
  let (lo, hi) := regionRange k
  setMem (setDev s (pbit s.dev MEMP_INIT.DONE k true)) (initRange s.mem lo hi)

/-- An access that a step makes within itself waits for the initialisation of its region inside that step (R352; log entry
182). -/
def initNow (core : Option Nat) (a : Nat) (s : State) : State :=
  let r := regionOf core a
  if initWait s.dev r then initDone (mempOf s.dev r) s else s

/-- The regions of `n` words from `a` on. -/
def initSpan (core : Option Nat) (a n : Nat) (s : State) : State := initNow core (a + (n - 1)) (initNow core a s)

end Sys2Proof.Machine
end

