-- ==== Sys2Proof/Machine/Evc.lean ====
section
/-!
DEFINITION. The event controller (chapter 14, R319-R337): source words, sensing, the glitch filter, loss, claims and
the wake latches. Delivery to targets is in the files of the targets.
-/
namespace Sys2Proof.Machine

def withEvc (d : Dev) (f : EvcSt → EvcSt) : Dev := { d with evc := f d.evc }

/-- Page of a source (R321). -/
def evcPage (s : Nat) : Nat := 6 + s / 256

/-- Pending, lost and in-service bits (R337). -/
def evcPend (d : Dev) (s : Nat) : Bool := gbit d (EVC_PEND.PEND (s / 256) (s % 256 / 32)) (s % 32)
def setPend (d : Dev) (s : Nat) (b : Bool) : Dev := pbit d (EVC_PEND.PEND (s / 256) (s % 256 / 32)) (s % 32) b
def evcLost (d : Dev) (s : Nat) : Bool := gbit d (EVC_LOST.LOST (s / 256) (s % 256 / 32)) (s % 32)
def evcInsv (d : Dev) (s : Nat) : Bool := gbit d (EVC_INSV.INSV (s / 256) (s % 256 / 32)) (s % 32)
def setInsv (d : Dev) (s : Nat) (b : Bool) : Dev := pbit d (EVC_INSV.INSV (s / 256) (s % 256 / 32)) (s % 32) b

/-- The source word that governs the present tick: a new word counts from the tick after its acceptance (R323). -/
def srcWord (d : Dev) (s : Nat) : Word :=
  match tabFind d.evc.wasWords s with
  | some (t, w) => if t = d.now then w else tabGet 0 d.evc.words s
  | none => tabGet 0 d.evc.words s

def senseOf (w : Word) : Nat := fld w 35 33
def kindOf (w : Word) : Nat := fld w 31 29
def tgtOf (w : Word) : Nat := fld w 14 0

/-- EVC_STAT.TEST: a Maelu test facility is enabled or debug is unlocked (R325). -/
def testOn (d : Dev) : Bool :=
  gf d TWIN_TEST.GEN != 0 || gf d TWIN_TEST.CHK != 0 || gf d TWIN_INJ.KIND != 0 || gb d SEC_STAT.DBGUNL

/-- The filter is in force for all sources (R325). -/
def filtAll (d : Dev) : Bool := mode d == mStart || mode d == mRecovery || testOn d

/-- The filter is in force for a source. -/
def filtOn (d : Dev) (s : Nat) : Bool := filtAll d || bit (srcWord d s) 32

/-- EVC_GFILT.LEN, 0 acting as 1. -/
def filtLen (d : Dev) : Nat := max 1 (gf d EVC_GFILT.LEN)

/-- The filtered input of a level source. -/
def filtered (d : Dev) (s : Nat) : Bool := if filtOn d s then tabGet false d.evc.filt s else tabGet false d.evc.raw s

/-- Stability counts restart from the next tick: LEN changed, or the filter came into force (R325). The filtered level of a
source without filter follows its input (`evcClose`), so a filter that comes into force starts from that level. -/
def filtRestart (d : Dev) : Dev := withEvc d fun e => { e with filtFrom := d.now + 1 }

/-- A raw input held for LEN ticks becomes the filtered level (R325). -/
def glitchSettle (d : Dev) (s : Nat) : Dev :=
  let since := max (tabGet 0 d.evc.rawSince s) d.evc.filtFrom
  if filtOn d s && mode d != mPark && decide (d.now + 1 ≥ since + filtLen d)
  then withEvc d fun e => { e with filt := tabSet false e.filt s (tabGet false e.raw s) } else d

/-- A loss: LOST and LASTLOST, EVC_LOST at a change of the bit (R324, R329). -/
def evcLose (d : Dev) (s : Nat) : Dev :=
  let was := evcLost d s
  let d1 := withEvc (pf (pbit d (EVC_LOST.LOST (s / 256) (s % 256 / 32)) (s % 32) true) EVC_STAT.LASTLOST s) fun e =>
    { e with freshLost := s :: e.freshLost }
  if was then d1 else raiseEvt d1 (evcPage s) 0

/-- The source has an event in this tick: a W1C of the tick leaves it pending (R331). -/
def markFresh (d : Dev) (s : Nat) : Dev := withEvc d fun e => { e with fresh := s :: e.fresh }

/-- An event of a source: pending under its route, or lost (R324, R326); one that is lost beside a pending event prevails
over a W1C of the tick as well (R331). -/
def makeEvent (d : Dev) (s : Nat) : Dev :=
  if kindOf (srcWord d s) = 0 then d
  else if evcPend d s then markFresh (evcLose d s) s
  else if evcInsv d s then evcLose d s
  else markFresh (setPend d s true) s

/-- An edge that was sensed. On a source in service it waits for the end of the tick, in which a RETX may end the service
first (R331). -/
def edgeEvent (d : Dev) (s : Nat) : Dev :=
  if kindOf (srcWord d s) ≠ 0 ∧ evcPend d s = false ∧ evcInsv d s = true then
    withEvc d fun e => if s ∈ e.late then e else { e with late := e.late ++ [s] }
  else makeEvent d s

/-- A level at its named value makes an event while the source is neither pending nor in service (R324). -/
def levelEvent (d : Dev) (s : Nat) : Dev := if evcPend d s || evcInsv d s then d else makeEvent d s

/-- A pulse of this tick that has been sensed makes no second event. -/
def markSensed (d : Dev) (s : Nat) : Dev := withEvc d fun e => { e with sensed := s :: e.sensed }

/-- One sensing of a source (R324): its present filtered level against the previous tick's, or its one-tick pulse, active in
its tick and inactive again in the tick after it; LEN > 1 hides a pulse (R325). -/
def senseSource (d : Dev) (s : Nat) : Dev :=
  if mode d = mPark then d
  else
    let sense := senseOf (srcWord d s)
    match tabFind d.evc.pulses s with
    | some t =>
      if (filtOn d s && decide (filtLen d > 1)) || decide (s ∈ d.evc.sensed) then d
      else if t = d.now then
        (if sense = 3 ∨ sense = 5 then edgeEvent (markSensed d s) s
         else if sense = 1 then levelEvent (markSensed d s) s else d)
      else if sense = 4 then edgeEvent (markSensed d s) s
      else if sense = 2 then levelEvent d s
      else d
    | none =>
      let cur := filtered d s
      let was := tabGet false d.evc.prev s
      let d1 := withEvc d fun e => { e with prev := tabSet false e.prev s cur }
      if (sense = 3 ∧ cur ∧ ¬ was) ∨ (sense = 4 ∧ ¬ cur ∧ was) ∨ (sense = 5 ∧ cur ≠ was) then edgeEvent d1 s
      else if (sense = 1 ∧ cur) ∨ (sense = 2 ∧ ¬ cur) then levelEvent d1 s
      else d1

/-- The sources with an active input, by `input`. -/
def levelsOn (d : Dev) (input : Nat → Bool) : Tab Bool :=
  (((d.evc.raw ++ d.evc.filt).map (·.1)).filter input).foldl (fun t s => tabSet false t s true) []
def rawLevels (d : Dev) : Tab Bool := levelsOn d fun s => tabGet false d.evc.raw s

/-- The end of a tick at the input stage: the present filtered inputs are the previous ones of the next tick (R324). In PARK,
where the stage is stopped, the wake latches alone look at the inputs, before the filter (R334). -/
def evcClose (d : Dev) : Dev :=
  let on := levelsOn d (filtered d)
  withEvc d fun e => { e with
    prev := if mode d = mPark then rawLevels d else on
    filt := on
    pulses := e.pulses.filter fun x => decide (x.2 = d.now)
    sensed := [], fresh := [], freshLost := [], cleared := [] }

/-- The start of a tick: edges that met a source in service are pending or lost, and software events of the last tick are
made (R331, R332). -/
def evcOpen (d : Dev) : Dev :=
  d.evc.swDue.foldl makeEvent (d.evc.late.foldl makeEvent (withEvc d fun e => { e with late := [], swDue := [] }))

/-- GATE as it governs the present tick (R328). -/
def gateShut (d : Dev) : Bool := if d.evc.gateTick = d.now then d.evc.gateWas else gb d EVC_GATE.GATE

/-- EVC_GATE written: VECTOR and SLOT deliveries are withheld from the tick after (R328). -/
def onGate (d : Dev) (old : Bool) : Dev :=
  withEvc d fun e => { e with gateWas := if e.gateTick = d.now then e.gateWas else old, gateTick := d.now }

/-- Pending sources, rising. -/
def pendingSources (d : Dev) : List Nat :=
  (upTo 64).flatMap fun w =>
    if rd d (EVC_PEND.at (w / 8) (w % 8)) = 0 then [] else (upTo 32).filterMap fun b => if evcPend d (32 * w + b) then some (32 * w + b) else none

/-- Pending sources routed to line i of core c (R326), among them those that a W1C of this tick cleared (R331). -/
def lineSources (d : Dev) (c i : Nat) : List Nat :=
  let all := if d.evc.cleared = [] then pendingSources d else (upTo 2048).filter fun s => evcPend d s || decide (s ∈ d.evc.cleared)
  all.filter fun s => let w := srcWord d s
    kindOf w == 1 && fld w 14 12 == c && fld w 5 0 == i

/-- Line i of core c is asserted (R326): delivered, a source routed to it pending, the gate open. -/
def lineUp (d : Dev) (c i : Nat) : Bool :=
  decide (48 * c + i ∈ d.evc.lines) && !gateShut d && !(lineSources d c i).isEmpty

/-- Priority of interrupt vector 16 + i of core c (R302). -/
def linePri (d : Dev) (c i : Nat) : Nat := fld (rd d (TSC_IPRI.at c (i / 16))) (2 * (i % 16) + 1) (2 * (i % 16))

/-- The line that would be taken: highest priority above `rp`, then lowest vector (R306). -/
def dueLine (d : Dev) (c rp : Nat) : Option (Nat × Nat) :=
  ((d.evc.lines.filter fun n => decide (n / 48 = c)).filter fun n => lineUp d c (n % 48)).foldl
    (fun best n =>
      let i := n % 48
      let p := linePri d c i
      if p ≤ rp then best else match best with
        | none => some (i, p)
        | some (i', p') => if p > p' ∨ (p = p' ∧ i < i') then some (i, p) else best) none

/-- Claim at the entry of core c at depth L (R327): the source claimed, if any. -/
def evcClaim (d : Dev) (c i l : Nat) : Dev × Option Nat :=
  let n := 4 * c + l
  let d := withEvc d fun e => { e with voidFrames := e.voidFrames.filter fun x => decide (x ≠ n) }
  match lineSources d c i with
  | [] => (wr d (EVC_ISRC.at n) 0, none)
  | s :: rest =>
    let d1 := withEvc (setInsv (setPend d s false) s true) fun e => { e with cleared := e.cleared.filter fun x => decide (x ≠ s) }
    let d2 := pf (pb (wr d1 (EVC_ISRC.at n) 0) (EVC_ISRC.VALID n) true) (EVC_ISRC.SRC n) s
    (if rest = [] then withEvc d2 fun e => { e with lines := e.lines.filter fun x => decide (x ≠ 48 * c + i) } else d2, some s)

/-- The RETX that leaves frame L ends the in-service state of its source and clears VALID (R327); where a block reset has
cleared that source since, it ends nothing (R333). -/
def evcEndService (d : Dev) (c l : Nat) : Dev :=
  let n := 4 * c + l
  if gb d (EVC_ISRC.VALID n) then
    pb (if n ∈ d.evc.voidFrames then d else setInsv d (gf d (EVC_ISRC.SRC n)) false) (EVC_ISRC.VALID n) false
  else d

/-- A core reset ends every in-service state of that core and clears its EVC_ISRCn (R327). -/
def evcCoreReset (d : Dev) (c : Nat) : Dev := forUpTo 4 (fun l d => wr (evcEndService d c l) (EVC_ISRC.at (4 * c + l)) 0) d

/-- A block reset of page q clears its sources: frames that claimed one of them end nothing (R333). -/
def evcVoid (d0 : Dev) (q : Nat) (e : EvcSt) : List Nat :=
  (upTo 32).filter fun n => decide (n ∈ e.voidFrames) || (gb d0 (EVC_ISRC.VALID n) && decide (gf d0 (EVC_ISRC.SRC n) / 256 = q))

/-- A source word is refused with CFG_ERR (R322). -/
def badSrcWord (w : Word) : Bool :=
  let k := kindOf w
  decide (senseOf w ≥ 6) || decide (k ≥ 6) || (decide (senseOf w = 1 ∨ senseOf w = 2) && decide (k ≠ 1))
    || (decide (k = 1) && decide (fld w 5 0 ≥ 48))
    || (decide (k = 5) && (decide (fld w 14 13 = 3) || (decide (fld w 14 13 = 0) && decide (fld w 12 8 ≥ 24))))

/-- A source word with the bits that are zero under its KIND cleared (R322). -/
def cleanSrcWord (w : Word) : Word :=
  let t := match kindOf w with
    | 1 => 0x703F
    | 2 => 0x701F
    | 3 => 0x7F
    | 4 => 0x3F
    | 5 => if fld w 14 13 = 0 then 0x7F0F else 0x600F
    | _ => 0
  w &&& BitVec.ofNat 36 (0xFE0000000 + t)

/-- INDEX increments with AINC at each access of EVC_SRC (R337). -/
def bumpIndex (d : Dev) (q : Nat) : Dev :=
  if gb d (EVC_IDX.AINC q) then pf d (EVC_IDX.INDEX q) ((gf d (EVC_IDX.INDEX q) + 1) % 256) else d

/-- EVC_SRC written on page q: the pending event is discarded, LOST and in-service stay (R323). -/
def writeSrc (d : Dev) (q : Nat) (w : Word) : Dev :=
  let s := 256 * q + gf d (EVC_IDX.INDEX q)
  if badSrcWord w then bumpIndex (raiseEvt d (6 + q) 1) q
  else
    let old := srcWord d s
    let d1 := withEvc d fun e => { e with words := tabSet 0 e.words s (cleanSrcWord w), wasWords := tabPut e.wasWords s (d.now, old) }
    bumpIndex (setPend d1 s false) q

/-- EVC_SRC read (R337). -/
def readSrc (d : Dev) (q : Nat) : Dev × Word := (bumpIndex d q, tabGet 0 d.evc.words (256 * q + gf d (EVC_IDX.INDEX q)))

/-- EVC_SWSET: an event of a source under its route, without filter and SENSE, pending from the next tick (R332). -/
def swSet (d : Dev) (s : Nat) : Dev := withEvc d fun e => { e with swDue := e.swDue ++ [s] }

/-- Sources of word w of a page's bit array that are in a list, as bits. -/
def bitsAmong (q w : Nat) (l : List Nat) : Word :=
  (upTo 32).foldl (fun acc b => if 256 * q + 32 * w + b ∈ l then acc ||| BitVec.ofNat 36 (2 ^ b) else acc) 0

/-- EVC_PENDw written: an event of the same tick prevails, and a claim of it (R331, R332). -/
def onPend (d : Dev) (q w : Nat) (old v : Word) : Dev :=
  let back := old &&& v &&& bitsAmong q w d.evc.fresh
  let gone := (upTo 32).filterMap fun b => if bit old b && bit v b && !bit back b then some (256 * q + 32 * w + b) else none
  withEvc (wr d (EVC_PEND.at q w) (rd d (EVC_PEND.at q w) ||| back)) fun e => { e with cleared := e.cleared ++ gone }

/-- EVC_LOSTw written: a loss of the same tick stays (R331). -/
def onLost (d : Dev) (q w : Nat) (old v : Word) : Dev :=
  wr d (EVC_LOST.at q w) (rd d (EVC_LOST.at q w) ||| (old &&& v &&& bitsAmong q w d.evc.freshLost))

/-! ### Wake latches (R334, R335) -/

/-- A wake latch or flag is set (R334). -/
def wakeCaught (d : Dev) : Bool :=
  !d.evc.wakeLatch.isEmpty || gf d (EVC_WAKEFLG.FLG 0) != 0 || gf d (EVC_WAKEFLG.FLG 1) != 0

/-- A wake latch, flag or lock loss asks for wake (R334). -/
def wakeAsked (d : Dev) : Bool := d.evc.wakeLock || wakeCaught d

/-- The first edge caught after all flags and latches were clear is timestamped; wake is requested (R334). -/
def wakeStamp (d : Dev) : Dev :=
  let d1 := if wakeCaught d then d else wr d EVC_WAKETS.at (shortTs d)
  { d1 with rstc := { d1.rstc with wakeReq := true } }

/-- A wake pin takes a level (R334). -/
def wakePin (d : Dev) (n : Nat) (level : Bool) : Dev :=
  let was := tabGet false d.evc.wakePins n
  let d1 := withEvc d fun e => { e with wakePins := tabSet false e.wakePins n level }
  let sel := fld (rd d (EVC_WAKEEDG.at (n / 16))) (2 * (n % 16) + 1) (2 * (n % 16))
  let hit := (level && !was && sel % 2 == 1) || (!level && was && sel / 2 == 1)
  if mode d = mPark ∧ gbit d (EVC_WAKEEN.EN (n / 32)) (n % 32) ∧ hit then
    (if gbit d (EVC_WAKEFLG.FLG (n / 32)) (n % 32) then pbit d1 (EVC_WAKELOST.LOST (n / 32)) (n % 32) true
     else pbit (wakeStamp d1) (EVC_WAKEFLG.FLG (n / 32)) (n % 32) true)
  else d1

/-- An internal wake source takes a level in PARK (R334). -/
def wakeSource (d : Dev) (k : Nat) (level : Bool) : Dev :=
  let s := gf d (EVC_WAKESRC.SRC k)
  let sense := senseOf (srcWord d s)
  let hit := (level ∧ (sense = 1 ∨ sense = 3 ∨ sense = 5)) ∨ (¬ level ∧ (sense = 2 ∨ sense = 4 ∨ sense = 5))
  let d := markSensed d (2048 + k)
  if mode d = mPark ∧ gb d (EVC_WAKESRC.EN k) ∧ hit then
    (if tabGet false d.evc.wakeLatch k then
      (if sense ≥ 3 then withEvc d fun e => { e with wakeMore := tabSet false e.wakeMore k true } else d)
     else withEvc (wakeStamp d) fun e => { e with wakeLatch := tabSet false e.wakeLatch k true })
  else d

/-- What wake register k's source does in this tick of PARK, not yet seen: a level that differs from the previous tick's, an
active level for HIGH and LOW, the start of a pulse or, for FALL, its end (R324, R334). -/
def wakeSeen (d : Dev) (k : Nat) : Option Bool :=
  let s := gf d (EVC_WAKESRC.SRC k)
  let sense := senseOf (srcWord d s)
  if mode d ≠ mPark ∨ gb d (EVC_WAKESRC.EN k) = false ∨ 2048 + k ∈ d.evc.sensed then none
  else match tabFind d.evc.pulses s with
  | some t => if t = d.now then some true else if sense = 4 then some false else none
  | none =>
    let cur := tabGet false d.evc.raw s
    if cur != tabGet false d.evc.prev s || ((sense == 1 && cur || sense == 2 && !cur) && !tabGet false d.evc.wakeLatch k)
    then some cur else none

/-- SYS_MODE leaves PARK (R335): latches make their sources pending, the input stage and its filter resume at the present
levels. -/
def evcWake (d0 : Dev) : Dev :=
  let d := withEvc d0 fun e => { e with pulses := [], sensed := [] }
  let d1 := forUpTo 8 (fun k d =>
    let s := gf d (EVC_WAKESRC.SRC k)
    -- a source that two registers name becomes pending once
    let again := (upTo k).any fun j => tabGet false d.evc.wakeLatch j && gf d (EVC_WAKESRC.SRC j) == s
    let d1 := if tabGet false d.evc.wakeLatch k && !again then makeEvent d s else d
    if tabGet false d.evc.wakeMore k then evcLose d1 s else d1) d
  -- a latch that names source 1936 has caught the same loss of lock
  let caught := (upTo 8).any fun k => tabGet false d.evc.wakeLatch k && gf d (EVC_WAKESRC.SRC k) == 1936
  let d2 := if d.evc.wakeLock && !caught then makeEvent d1 1936 else d1
  let d3 := withEvc d2 fun e => { e with
    wakeLatch := [], wakeMore := [], wakeLock := false
    prev := rawLevels d2, filt := rawLevels d2 }
  if gf d3 (EVC_WAKEFLG.FLG 0) != 0 || gf d3 (EVC_WAKEFLG.FLG 1) != 0 then raiseEvt d3 6 2 else d3

end Sys2Proof.Machine
end

