-- ==== Sys2Proof/Machine/Operands.lean ====
section
/-!
DEFINITION. The registers and operand forms of a Kamul core (chapters 11 and 12): general, FP and accumulator
registers, PSW and the control registers, and the record of a raised exception.
-/
namespace Sys2Proof.Machine

/-- The state of a core. -/
def coreOfDev (d : Dev) (c : Nat) : CoreSt := tabGet (coreInit c) d.core c
def setCore (d : Dev) (c : Nat) (k : CoreSt) : Dev := { d with core := tabSet (coreInit c) d.core c k }

/-- General registers of the running context (R241). -/
def CoreSt.gr (k : CoreSt) (r : Nat) : Word := tabGet 0 k.ctx.g r
def CoreSt.setGr (k : CoreSt) (r : Nat) (v : Word) : CoreSt := { k with ctx := { k.ctx with g := tabSet 0 k.ctx.g r v } }

/-- FP registers (R241). -/
def CoreSt.fr (k : CoreSt) (r : Nat) : F32 := tabGet 0 k.f r
def CoreSt.setFr (k : CoreSt) (r : Nat) (v : F32) : CoreSt := { k with f := tabSet 0 k.f r v }

/-- Accumulators (R248). -/
def CoreSt.acc (k : CoreSt) (n : Nat) : Acc := if n = 0 then k.ctx.acc0 else k.ctx.acc1
def CoreSt.setAcc (k : CoreSt) (n : Nat) (v : Acc) : CoreSt :=
  if n = 0 then { k with ctx := { k.ctx with acc0 := v } } else { k with ctx := { k.ctx with acc1 := v } }

def CoreSt.ip (k : CoreSt) : Nat := k.ctx.ip
def CoreSt.psw (k : CoreSt) : Word := k.ctx.psw
def CoreSt.setPsw (k : CoreSt) (p : Word) : CoreSt := { k with ctx := { k.ctx with psw := p } }
def CoreSt.sup (k : CoreSt) : Bool := bit k.psw pswMode
def CoreSt.precise (k : CoreSt) : Bool := bit k.psw pswPrecise
def CoreSt.resume (k : CoreSt) : Bool := bit k.psw pswResume
def CoreSt.rnd (k : CoreSt) : Nat := fld k.psw 25 24
def CoreSt.sat (k : CoreSt) : Nat := fld k.psw 27 26
def CoreSt.cIn (k : CoreSt) : Bool := bit k.psw pswC
def CoreSt.flags (k : CoreSt) (f : FlagW) : CoreSt := k.setPsw (f.apply k.psw)

/-- PSW.COMPAT: Colophon word 16 bit 3, as the latches hold it (R241, R301, R435). -/
def compatOf (d : Dev) : Bool := bit (tabGet 0 d.latch 16) 3

/-- PSW as it is read and saved: COMPAT stands in it (R241). -/
def viewPsw (d : Dev) (p : Word) : Word := setBitW p pswCompat (compatOf d)

/-- The bits of PSW that are kept: the named fields without COMPAT; SAT 0b11 reads 0b10 (R241). -/
def cleanPsw (p : Word) : Word :=
  let q := p &&& 0xD8F00001F#36
  if fld q 27 26 = 3 then setFld q 27 26 2 else q

/-- Half addresses have 29 bits (R3). -/
def ipAdd (ip : Nat) (k : Int) : Nat := wrapN 29 ((ip : Int) + k)

/-- The instruction completes and execution goes on at `ip`; RESUME clears when an instruction completes (R277). -/
def CoreSt.retireTo (k : CoreSt) (ip : Nat) : CoreSt :=
  { k with ctx := { k.ctx with ip := ip, psw := setBitW k.ctx.psw pswResume false }, lastIp := k.ctx.ip, retCnt := k.retCnt + 1
           fetched := none, prog := none, draining := false }

/-- A taken branch, jump, call or return discards the words held ahead (R280). -/
def CoreSt.jumpsTo (k : CoreSt) (ip : Nat) : CoreSt := { k.retireTo ip with pre := [] }

/-- The instruction completes, `len` halves long (R261). -/
def CoreSt.retire (k : CoreSt) (len : Nat) : CoreSt := k.retireTo (ipAdd k.ip len)

/-- An event was taken at an element boundary: IP stays and RESUME = 1 (R272, R277). -/
def CoreSt.interrupt (k : CoreSt) : CoreSt := { k.setPsw (setBitW k.psw pswResume true) with prog := none }

/-- An event is about to be taken: an instruction that waits between its elements is interrupted there (R272, R277), what was
fetched for a waiting instruction is fetched anew, and a store that waited waits anew. -/
def CoreSt.evented (k : CoreSt) : CoreSt :=
  { (if k.prog.isSome then k.interrupt else k) with fetched := none, draining := false, wbWaiting := false, filled := [] }

/-! Registers that an instruction reads or writes (R281): G0-G15 are 0-15, F0-F15 16-31, the PSW flags 32. -/
def rFlags : Nat := 32
def rF (n : Nat) : Nat := 16 + n
def Alu2.uses : Alu2 → List Nat
  | .short rd rs => [rd.val, rs.val, rFlags]
  | .long rd rs rt => [rd.val, rs.val, rt.val, rFlags]
def Alu2.usesF : Alu2 → List Nat
  | .short rd rs => [rF rd, rF rs]
  | .long rd rs rt => [rF rd, rF rs, rF rt]
def ImmOp.uses : ImmOp → List Nat
  | .short rd _ => [rd.val, rFlags]
  | .long rd rs _ => [rd.val, rs.val, rFlags]
def MacOp.uses : MacOp → List Nat
  | .short _ rd rs => [rd.val, rs.val, rFlags]
  | .long _ _ rs rt => [rs.val, rt.val, rFlags]
def Target.uses : Target → List Nat
  | .disp _ => []
  | .reg _ rs => [rs.val]


/-- A precise exception of the instruction at IP: recorded for entry, no other effect (R308). -/
def CoreSt.fault (k : CoreSt) (vec sub : Nat) (fa : Option Word := none) (partialSt : Bool := false) : CoreSt :=
  { k with excs := k.excs ++ [{ vec := vec, sub := sub, ip := some k.ip, faddr := fa, arith := none, trapn := 0,
                                store := false, splitPartial := partialSt, slot := k.run, stamp := k.retCnt }] }

/-- Illegal instruction (R263, R310). -/
def CoreSt.illegal (k : CoreSt) (sub : Nat) : CoreSt := k.fault 5 sub

/-- An arithmetic exception of the instruction that has just completed, whose IP was `culprit` (R312): with PRECISE the
saved IP is the next instruction, otherwise the first unretired one at entry. -/
def CoreSt.arithExc (k : CoreSt) (vec sub culprit : Nat) (owes : List Nat) : CoreSt :=
  { k with excs := k.excs ++ [{ vec := vec, sub := sub, ip := if k.precise then some k.ip else none, faddr := none,
                                arith := some culprit, trapn := 0, store := false, splitPartial := false, slot := k.run
                                stamp := k.retCnt, owes := owes }] }

/-- FP flags of a result: FPSR.FLG, and vector 4 for the enabled ones after the result is written (R243, R312). -/
def CoreSt.fpFlags (k : CoreSt) (flg culprit : Nat) (owes : List Nat) : CoreSt :=
  let (w, trap) := fpsrAdd k.fpsr flg
  let k := { k with fpsr := w }
  if trap = 0 then k else k.arithExc 4 trap culprit owes

/-! ### Operand forms (R262-R269) -/

/-- A two-operand function: short RD := RD op RS, long RD := RS op RT. -/
def CoreSt.two (k : CoreSt) (o : Alu2) (f : Word → Word → AluRes) : CoreSt :=
  match o with
  | .short rd rs => let r := f (k.gr rd) (k.gr rs); ((k.setGr rd r.val).flags r.fl).retire 1
  | .long rd rs rt => let r := f (k.gr rs) (k.gr rt); ((k.setGr rd r.val).flags r.fl).retire 2

/-- MOV, NEG, NOT: the operand is RS; ALU3 requires RT = 0 (R266). -/
def CoreSt.one (k : CoreSt) (o : Alu2) (f : Word → AluRes) : CoreSt :=
  match o with
  | .short rd rs => let r := f (k.gr rs); ((k.setGr rd r.val).flags r.fl).retire 1
  | .long rd rs rt =>
    if rt = 0 then let r := f (k.gr rs); ((k.setGr rd r.val).flags r.fl).retire 2 else k.illegal 2

/-- CMP, TST: flags alone; ALU3 requires RD = 0 (R266). -/
def CoreSt.compare (k : CoreSt) (o : Alu2) (f : Word → Word → AluRes) : CoreSt :=
  match o with
  | .short rd rs => (k.flags (f (k.gr rd) (k.gr rs)).fl).retire 1
  | .long rd rs rt => if rd = 0 then (k.flags (f (k.gr rs) (k.gr rt)).fl).retire 2 else k.illegal 2

/-- A long three-register function of ALU3 or MULDIV. -/
def CoreSt.three (k : CoreSt) (rd rs rt : Nat) (f : Word → Word → AluRes) : CoreSt :=
  let r := f (k.gr rs) (k.gr rt)
  ((k.setGr rd r.val).flags r.fl).retire 2

/-- CLZ, POPC: the operand is RS (R266). -/
def CoreSt.threeOne (k : CoreSt) (rd rs : Nat) (f : Word → AluRes) : CoreSt :=
  let r := f (k.gr rs)
  ((k.setGr rd r.val).flags r.fl).retire 2

/-- DIV and REM: a result, or vector 3 with RD unchanged when the culprit completes (R266, R312). -/
def CoreSt.division (k : CoreSt) (rd rs rt : Nat) (flagged : Bool) (f : Word → Word → AluRes ⊕ Nat) : CoreSt :=
  match f (k.gr rs) (k.gr rt) with
  | .inl r => ((k.setGr rd r.val).flags r.fl).retire 2
  | .inr sub => (k.retire 2).arithExc 3 sub k.ip (rd :: if flagged then [rFlags] else [])

/-- ADDI: short RD + IMM8, long RS + IMM21, sign-extended (R262, R264, R265). -/
def CoreSt.immOp (k : CoreSt) (o : ImmOp) (f : Word → Word → AluRes) : CoreSt :=
  match o with
  | .short rd imm => let r := f (k.gr rd) (imm.signExtend 36); ((k.setGr rd r.val).flags r.fl).retire 1
  | .long rd rs imm => let r := f (k.gr rs) (imm.signExtend 36); ((k.setGr rd r.val).flags r.fl).retire 2

/-- CMPI: flags alone; the long form requires RD = 0 (R265). -/
def CoreSt.cmpImm (k : CoreSt) (o : ImmOp) (f : Word → Word → AluRes) : CoreSt :=
  match o with
  | .short rd imm => (k.flags (f (k.gr rd) (imm.signExtend 36)).fl).retire 1
  | .long rd rs imm => if rd = 0 then (k.flags (f (k.gr rs) (imm.signExtend 36)).fl).retire 2 else k.illegal 2

/-- ANDI, ORI, XORI. -/
def CoreSt.logImm (k : CoreSt) (rd rs : Nat) (imm : BitVec 21) (f : Word → Word → Word) : CoreSt :=
  let r := aluLogic (f (k.gr rs) (imm.signExtend 36))
  ((k.setGr rd r.val).flags r.fl).retire 2

/-- MOVI, LDI, LDHI: a value; no flags are named. -/
def CoreSt.loadImm (k : CoreSt) (rd : Nat) (v : Word) (len : Nat) : CoreSt := (k.setGr rd v).retire len

/-- SHI by CNT 0-35; 36-63 is illegal (R264). -/
def CoreSt.shiftImm (k : CoreSt) (rd cnt : Nat) (f : Word → Nat → AluRes) : CoreSt :=
  if cnt < 36 then let r := f (k.gr rd) cnt; ((k.setGr rd r.val).flags r.fl).retire 1 else k.illegal 1

/-- Multiply-accumulate (R264, R265, R269): short MAC takes RD × RS, MACL takes RS × RT and requires RD = 0. -/
def CoreSt.macOp (k : CoreSt) (o : MacOp) (f : Acc → Word → Word → Acc × FlagW) : CoreSt :=
  match o with
  | .short acc rd rs => let r := f (k.acc acc) (k.gr rd) (k.gr rs); ((k.setAcc acc r.1).flags r.2).retire 1
  | .long acc rd rs rt =>
    if rd = 0 then let r := f (k.acc acc) (k.gr rs) (k.gr rt); ((k.setAcc acc r.1).flags r.2).retire 2 else k.illegal 2

/-- EXTF, EXTI: RD from an accumulator named in RS; a field above 1 is illegal (R263, R269). -/
def CoreSt.extract (k : CoreSt) (rd a : Nat) (f : Acc → AluRes) : CoreSt :=
  if a < 2 then let r := f (k.acc a); ((k.setGr rd r.val).flags r.fl).retire 1 else k.illegal 3

/-- MOVFA: one 40-bit half of an accumulator into an even pair (R269). -/
def CoreSt.movFa (k : CoreSt) (rd a : Nat) (hi : Bool) : CoreSt :=
  if a < 2 ∧ rd % 2 = 0 then
    let v := k.acc a
    let top : Word := if hi then (v.extractLsb' 76 4).signExtend 36 else (v.extractLsb' 36 4).setWidth 36
    let low : Word := if hi then v.extractLsb' 40 36 else v.extractLsb' 0 36
    ((k.setGr rd top).setGr (rd + 1) low).retire 1
  else k.illegal 3

/-- MOVTA: one 40-bit half of an accumulator from RD[3:0] : RD+1 (R269); the pair is even (R263). -/
def CoreSt.movTa (k : CoreSt) (rd a : Nat) (hi : Bool) : CoreSt :=
  if a < 2 ∧ rd % 2 = 0 then
    let h : BitVec 40 := (k.gr rd).extractLsb' 0 4 ++ k.gr (rd + 1)
    let v := k.acc a
    let w : Acc := if hi then h ++ v.extractLsb' 0 40 else v.extractLsb' 40 40 ++ h
    (k.setAcc a w).retire 1
  else k.illegal 3

/-- CLRA: RD must be 0 (R269). -/
def CoreSt.clrA (k : CoreSt) (rd a : Nat) : CoreSt :=
  if rd ≠ 0 then k.illegal 2 else if a < 2 then (k.setAcc a 0).retire 1 else k.illegal 3

/-! ### FP forms (R268) -/

/-- A two-operand FP function: short FD := FD op FS, long FD := FS op FT. -/
def CoreSt.fpTwo (k : CoreSt) (o : Alu2) (f : FMode → F32 → F32 → FRes) : CoreSt :=
  match o with
  | .short fd fs => let r := f (fpMode k.fpsr) (k.fr fd) (k.fr fs); ((k.setFr fd r.val).retire 1).fpFlags r.flg k.ip [rF fd]
  | .long fd fs ft => let r := f (fpMode k.fpsr) (k.fr fs) (k.fr ft); ((k.setFr fd r.val).retire 2).fpFlags r.flg k.ip [rF fd]

/-- A one-operand FP function: FS, with FT = 0 in FP3 (R268). -/
def CoreSt.fpOne (k : CoreSt) (o : Alu2) (f : FMode → F32 → FRes) : CoreSt :=
  match o with
  | .short fd fs => let r := f (fpMode k.fpsr) (k.fr fs); ((k.setFr fd r.val).retire 1).fpFlags r.flg k.ip [rF fd]
  | .long fd fs ft =>
    if ft = 0 then let r := f (fpMode k.fpsr) (k.fr fs); ((k.setFr fd r.val).retire 2).fpFlags r.flg k.ip [rF fd] else k.illegal 2

/-- FCMP: the PSW flags of R268, NV for a signalling NaN; registers unchanged. FP3 writes no FD (its field is not marked
zero). -/
def CoreSt.fpCmp (k : CoreSt) (o : Alu2) : CoreSt :=
  let go := fun (a b : F32) (len : Nat) =>
    let a := f32In (fpMode k.fpsr) a
    let b := f32In (fpMode k.fpsr) b
    let unord := f32Nan a || f32Nan b
    let lt := !unord && f32Lt a b
    let eq := !unord && f32Eq a b
    let k' := k.flags { n := some lt, z := some eq, c := some (!unord && !lt), v := some unord }
    (k'.retire len).fpFlags (if f32Snan a || f32Snan b then 16 else 0) k.ip [rFlags]
  match o with
  | .short fd fs => go (k.fr fd) (k.fr fs) 1
  | .long _ fs ft => go (k.fr fs) (k.fr ft) 2

/-- FMAC, FMSU: fused, one rounding (R265). -/
def CoreSt.fpMac (k : CoreSt) (fd fs ft : Nat) (neg : Bool) : CoreSt :=
  let m := if neg && !f32Nan (k.fr fs) then fNegBits (k.fr fs) else k.fr fs
  let r := fFma (fpMode k.fpsr) (k.fr fd) m (k.fr ft)
  ((k.setFr fd r.val).retire 2).fpFlags r.flg k.ip [rF fd]

/-- FITOF, FRTOF: FD := RS · 2^e, rounded under RM, NX when inexact (R268). -/
def CoreSt.fpFromInt (k : CoreSt) (fd rs : Nat) (e : Int) : CoreSt :=
  let r := fOfInt (fpMode k.fpsr) (k.gr rs).toInt e
  ((k.setFr fd r.val).retire 2).fpFlags r.flg k.ip [rF fd]

/-- FFTOI, FFTOR: RD := FS · 2^e, rounded under RM; out of range takes the nearer bound, NaN gives 0, both set NV (R268). -/
def CoreSt.fpToInt (k : CoreSt) (rd fs : Nat) (e : Int) : CoreSt :=
  let r := fToWord (fpMode k.fpsr) (k.fr fs) e
  ((k.setGr rd r.1).retire 2).fpFlags (if r.2 then 16 else 0) k.ip [rd]

/-- FCVT forms require RT = 0 (R265). -/
def CoreSt.fcvt (k : CoreSt) (rt : Nat) (f : CoreSt → CoreSt) : CoreSt := if rt = 0 then f k else k.illegal 2

end Sys2Proof.Machine
end

