-- ==== Sys2Proof/Machine/Flash.lean ====
section
/-!
DEFINITION. Flash arrays, the erase journal and the Colophon row (chapter 18, R417-R440): what the ROM routines do to
them. The calls of the routines are in Machine/RomService.lean.
-/
namespace Sys2Proof.Machine

def withFlash (d : Dev) (f : FlashSt → FlashSt) : Dev := { d with flash := f d.flash }

/-- Status codes of R426. -/
def flOk : Nat := 0x00
def flBusy : Nat := 0x01
def flSelfBank : Nat := 0x02
def flAddr : Nat := 0x03
def flNotErased : Nat := 0x04
def flSealed : Nat := 0x05
def flSuspect : Nat := 0x06
def flProgFail : Nat := 0x07
def flEraseFail : Nat := 0x08
def flVerifyFail : Nat := 0x09
def flStack : Nat := 0x0A
def flLocked : Nat := 0x0B
def flOtpUsed : Nat := 0x0C
def flCond : Nat := 0x0D
def flJournal : Nat := 0x0E
def flArg : Nat := 0x0F

/-! ### Words, blocks, sectors (R417, R418, R428, R429) -/

def flashBase : Nat := 0x8000000
def inFlash (a : Nat) : Bool := decide (flashBase ≤ a ∧ a < 0x8400000)
/-- Global sector of an address, and the bank of an address (R417). -/
def sectorOf (a : Nat) : Nat := (a - flashBase) / 512
def flashBankOf (a : Nat) : Nat := if a < 0x8200000 then 0 else 1
def sectorBase (s : Nat) : Nat := flashBase + 512 * s
/-- The journal pairs of both banks (R417). -/
def journalSector (s : Nat) : Bool := s == 4094 || s == 4095 || s == 8190 || s == 8191

def maskBits (d : Dev) (a : Nat) : BitVec 8 := tabGet 0 d.flash.pmask (a / 8)
/-- The word's program-mask bit is set. -/
def wordProgrammed (d : Dev) (a : Nat) : Bool := (maskBits d a).getLsbD (a % 8)

/-- The block's column word is programmed over its contents: the block is sealed and its column is consistent. -/
def sealBlock (a : Nat) (s : State) : State :=
  let f := flawOf s.mem a
  let m := putFlaw s.mem a (({ f with k := 0 } : Flaw).setRow 8 0)
  setMem (setDev s (withFlash s.dev fun x => { x with seals := tabSet false x.seals (a / 8) true, pmask := tabSet 0 x.pmask (a / 8) 0xFF#8 })) m

/-- The program mask of a word's block with the word's bit set. -/
def maskWith (d : Dev) (a : Nat) : BitVec 8 := maskBits d a ||| BitVec.ofNat 8 (2 ^ (a % 8))

/-- One word's cells and mask bit: the value it holds, with its row syndrome. -/
def programCells (a : Nat) (v : Word) (syn : Nat) (s : State) : State :=
  let m := putWord s.mem a v
  let m2 := putFlaw m a ((flawOf m a).setRow (a % 8) syn)
  setMem (setDev s (withFlash s.dev fun x => { x with pmask := tabSet 0 x.pmask (a / 8) (maskWith s.dev a) })) m2

/-- One word is programmed with its row parity: the value it holds, and a row syndrome that stays when it did not read
back; the eighth mask bit seals the block (R428). -/
def programWord (a : Nat) (v : Word) (syn : Nat) (s : State) : State :=
  let s1 := programCells a v syn s
  if maskWith s.dev a = 0xFF#8 then sealBlock a s1 else s1

/-- A block whose column word was cut short: K stays non-zero (R434). -/
def partSeal (a : Nat) (r : Word) (s : State) : State :=
  let t := sealBlock a s
  setMem t (putFlaw t.mem a { flawOf t.mem a with k := if r = 0 then 1 else r })

/-- A sector erased: data words, column words, program masks, seal flags and the seal word (R431). -/
def eraseSector (n : Nat) (s : State) : State :=
  let b := sectorBase n
  let m : MemSt := { words := s.mem.words.filter fun e => decide (e.1 / 512 ≠ b / 512)
                     flaws := s.mem.flaws.filter fun e => decide (e.1 / 512 ≠ b / 512) }
  setMem (setDev s (withFlash s.dev fun x => { x with
    seals := x.seals.filter fun e => decide (e.1 / 64 ≠ b / 512), pmask := x.pmask.filter fun e => decide (e.1 / 64 ≠ b / 512)
    sealWord := tabErase x.sealWord n })) m

/-! ### Erase journal (R431-R433) -/

/-- Header of a journal sector that is programmed and passes row parity: its generation. -/
def journalGen (n : Nat) (s : State) : Option Nat :=
  let b := sectorBase n
  if wordProgrammed s.dev b && (flawOf s.mem b).row 0 == 0 then some (storedWord s.mem b).toNat else none

/-- The active journal sector of a bank (R432). -/
def activeJournal (bank : Nat) (s : State) : Option Nat :=
  let a := 4096 * bank + 4094
  match journalGen a s, journalGen (a + 1) s with
  | some x, some y => some (if x < y then a + 1 else a)
  | some _, none => some a
  | none, some _ => some (a + 1)
  | none, none => none

/-- Records of a journal sector: TYPE, sector number and sequence number, in place order. -/
def journalRecords (n : Nat) (s : State) : List (Nat × Nat × Nat) :=
  (upTo 252).filterMap fun i =>
    let a := sectorBase n + 8 + 2 * i
    if wordProgrammed s.dev a && (flawOf s.mem a).row (a % 8) == 0 then
      some (fld (storedWord s.mem a) 35 32, fld (storedWord s.mem a) 12 0, (storedWord s.mem (a + 1)).toNat)
    else none

/-- Places used in a journal sector. -/
def journalUsed (n : Nat) (s : State) : Nat :=
  (upTo 252).foldl (fun u i => if wordProgrammed s.dev (sectorBase n + 8 + 2 * i) then i + 1 else u) 0

/-- A record is written at the next free place. -/
def writeRecord (n typ sec seq : Nat) (s : State) : State :=
  let a := sectorBase n + 8 + 2 * journalUsed n s
  programWord (a + 1) (BitVec.ofNat 36 seq) 0 (programWord a (setFld (setFld 0 35 32 typ) 12 0 sec) 0 s)

def nextSeq (rs : List (Nat × Nat × Nat)) : Nat := rs.foldl (fun m r => max m (r.2.2 + 1)) 1

/-- The sector's last INTENT has no COMPLETE after it. -/
def intentOpen (rs : List (Nat × Nat × Nat)) (sec : Nat) : Bool :=
  (rs.filter fun r => decide (r.2.1 = sec)).foldl (fun b r => if r.1 = 1 then true else if r.1 = 2 then false else b) false

/-- The sector's records mark it SUSPECT with no COMPLETE after. -/
def suspectIn (rs : List (Nat × Nat × Nat)) (sec : Nat) : Bool :=
  (rs.filter fun r => decide (r.2.1 = sec)).foldl (fun b r => if r.1 = 3 then true else if r.1 = 2 then false else b) false

def bankRecords (bank : Nat) (s : State) : List (Nat × Nat × Nat) := match activeJournal bank s with
  | some n => journalRecords n s
  | none => []

/-- The sector is SUSPECT (R433): marked so, and no erase since has programmed its seal word (log entry 41). -/
def suspectSector (s : State) (sec : Nat) : Bool :=
  suspectIn (bankRecords (sec / 4096) s) sec && tabGet 0 s.dev.flash.sealWord sec != 1

/-- The records that compaction copies (R432): every SUSPECT, and every INTENT that no COMPLETE of its sector follows. -/
def keptRecords : List (Nat × Nat × Nat) → List (Nat × Nat × Nat)
  | [] => []
  | r :: t =>
    if r.1 = 3 ∨ (r.1 = 1 ∧ !(t.any fun x => x.1 == 2 && x.2.1 == r.2.1)) then r :: keptRecords t else keptRecords t

/-- Compaction (R432): the other sector takes the next generation and the records to keep; without an active sector the
pair begins at generation 1. -/
def compactJournal (bank : Nat) (s : State) : State :=
  let a := 4096 * bank + 4094
  let (other, gen) := match activeJournal bank s with
    | some n => (if n = a then a + 1 else a, (journalGen n s).getD 0 + 1)
    | none => (a, 1)
  let rs := bankRecords bank s
  let s1 := programWord (sectorBase other) (BitVec.ofNat 36 gen) 0 (eraseSector other s)
  (keptRecords rs).foldl (fun s r => writeRecord other r.1 r.2.1 r.2.2 s) s1

/-- A record is appended to the journal of a bank. -/
def appendRecord (bank typ sec : Nat) (s : State) : State :=
  match activeJournal bank s with
  | some n => writeRecord n typ sec (nextSeq (journalRecords n s)) s
  | none => s

/-- The active journal sector of a bank has room for two records (R431). -/
def journalFits (bank : Nat) (s : State) : Bool :=
  match activeJournal bank s with
  | some n => decide (journalUsed n s + 2 ≤ 252)
  | none => false

/-- Room for two records, made by compaction when needed. -/
def journalRoom (bank : Nat) (s : State) : State := if journalFits bank s then s else compactJournal bank s

/-- FL_JOURNAL_SCAN settles every open INTENT: COMPLETE where the seal word is programmed, else SUSPECT (R433). -/
def scanBank (bank : Nat) (s : State) : State × List Nat :=
  let secs := ((bankRecords bank s).map fun r => r.2.1).foldl (fun l x => if x ∈ l then l else l ++ [x]) []
  secs.foldl (fun (a : State × List Nat) x =>
    let rs := bankRecords bank a.1
    if intentOpen rs x then
      let s1 := journalRoom bank a.1
      if tabGet 0 s1.dev.flash.sealWord x = 1 then (appendRecord bank 2 x s1, a.2)
      else (if suspectSector a.1 x then a.1 else appendRecord bank 3 x s1, a.2 ++ [x])
    else if suspectSector a.1 x then (a.1, a.2 ++ [x])
    else a) (s, [])

def insertSorted (x : Nat) : List Nat → List Nat
  | [] => [x]
  | y :: t => if x ≤ y then x :: y :: t else y :: insertSorted x t

/-- The scan of both pairs: SUSPECT sectors ascending; FLASHC_STAT.SUSPCNT takes their number. -/
def journalScan (s : State) : State × List Nat :=
  let (s1, a) := scanBank 0 s
  let (s2, b) := scanBank 1 s1
  let l := (a ++ b).foldl (fun l x => insertSorted x l) []
  (setDev s2 (pf s2.dev FLASHC_STAT.SUSPCNT l.length), l)

/-! ### Colophon fields (R435-R437) -/

/-- Words of a programmable field: first word and number. -/
def fieldWords (id : Nat) : Option (Nat × Nat) :=
  if 1 ≤ id ∧ id ≤ 4 then some (15 + id, 1)
  else if id = 5 then some (20, 2)
  else if id = 6 then some (32, 8)
  else if id = 7 then some (40, 11)
  else if id = 8 then some (51, 11)
  else if id = 9 then some (62, 8)
  else if id = 10 then some (70, 2)
  else if 11 ≤ id ∧ id ≤ 16 then some (72, 1)
  else if 0x20 ≤ id ∧ id < 0xA0 then some (128 + (id - 0x20), 1)
  else none

def otpWord (d : Dev) (k : Nat) : Word := tabGet 0 d.flash.otp k

/-- The row as it reads: a group's single bad data bit is corrected (R349, R436). -/
def otpRow (d : Dev) : Tab Word :=
  d.flash.otpFlaws.foldl (fun row e => match classify e.2 with
    | (1, r, j) => tabSet 0 row (e.1 + r) (tabGet 0 row (e.1 + r) ^^^ BitVec.ofNat 36 (2 ^ j))
    | _ => row) d.flash.otp
/-- Groups that are corrected when the row is read, and whether one is beyond correction. -/
def otpCorrected (d : Dev) : Nat := (d.flash.otpFlaws.filter fun e => decide ((classify e.2).1 ≤ 3)).length
def otpUnreadable (d : Dev) : Bool := d.flash.otpFlaws.any fun e => decide (4 ≤ (classify e.2).1)
def latchWord (d : Dev) (k : Nat) : Word := tabGet 0 d.latch k

/-- Number of consecutive programmed bits from bit 0 of word 70 through bit 31 of word 71 (R435). -/
def rollbackFrom (f : Nat → Bool) : Nat → Nat → Nat
  | 0, n => n
  | k + 1, n => if f n then rollbackFrom f k (n + 1) else n
def rollbackCount (w : Nat → Word) : Nat := rollbackFrom (fun i => bit (w (70 + i / 32)) (i % 32)) 64 0

/-- The field is already programmed. -/
def fieldUsed (d : Dev) (id : Nat) : Bool :=
  if id = 0 then (upTo 16).any fun k => otpWord d k != 0
  else if id = 10 then rollbackCount (otpWord d) == 64
  else if 11 ≤ id ∧ id ≤ 16 then bit (otpWord d 72) (id - 11)
  else decide (id ∈ d.flash.otpDone)

/-- The lock bit that forbids a field, as loaded (R435). -/
def fieldLocked (d : Dev) (id : Nat) : Bool :=
  let l := latchWord d 72
  id == 0 || (decide (1 ≤ id ∧ id ≤ 6) && bit l 0) || (decide (id = 7 ∨ id = 8) && bit l 1) || (decide (0x20 ≤ id ∧ id < 0xA0) && bit l 5)

/-- OTP words written: a bit programs from 0 to 1, in all three of its fuses where it has three (R435, R436). -/
def programOtp (d : Dev) (k : Nat) (v : Word) : Dev := withFlash d fun x =>
  { x with otp := tabSet 0 x.otp k (tabGet 0 x.otp k ||| v)
           fuses := x.fuses.filterMap fun e => if e.1 = k then (fuseEntry (tabGet 0 x.otp k ||| v) e.1 ⟨e.2.a ||| v, e.2.b ||| v, e.2.c ||| v⟩) else some e }
where
  fuseEntry (m : Word) (k : Nat) (t : Tri) : Option (Nat × Tri) := if t = ⟨m, m, m⟩ then none else some (k, t)

/-- A bit of words 70-72 of which a reset let only `n` fuses program: the majority reads (R436). -/
def burnFuses (d : Dev) (k j n : Nat) : Dev :=
  let w := otpWord d k
  let v := BitVec.ofNat 36 (2 ^ j)
  let t := (tabFind d.flash.fuses k).getD ⟨w, w, w⟩
  let t1 : Tri := ⟨if 1 ≤ n then t.a ||| v else t.a, if 2 ≤ n then t.b ||| v else t.b, if 3 ≤ n then t.c ||| v else t.c⟩
  let m := (t1.a &&& t1.b) ||| (t1.a &&& t1.c) ||| (t1.b &&& t1.c)
  withFlash d fun x => { x with otp := tabSet 0 x.otp k m
                                fuses := if t1 = ⟨m, m, m⟩ then tabErase x.fuses k else tabPut x.fuses k t1 }

/-- An OTP operation cut by a reset (R434, R440): the words and the code of its groups are left partly programmed, whether
the field counts as programmed is open; of a bit with three fuses any number has programmed (log entry 89). -/
def otpAbort (d : Dev) (id : Nat) (r : Word) : Dev :=
  match fieldWords id with
  | none => d
  | some (w, n) =>
    if id = 10 then
      let i := rollbackCount (otpWord d)
      burnFuses d (70 + i / 32) (i % 32) (r.toNat % 4)
    else if 11 ≤ id ∧ id ≤ 16 then burnFuses d 72 (id - 11) (r.toNat % 4)
    else
      let d1 := forUpTo n (fun i d => let (e, v) := takeFree d; programOtp e (w + i) v) d
      let d2 := if n = 1 then d1 else forUpTo ((n + 7) / 8) (fun g d =>
        let (e, rs) := takeFree d
        let (e2, k) := takeFree e
        withFlash e2 fun x => { x with otpFlaws := tabSet flawZero x.otpFlaws (w + 8 * g) ⟨rs, k⟩ }) d1
      if r.toNat % 2 = 1 then withFlash d2 fun x => { x with otpDone := id :: x.otpDone } else d2

/-- One field programmed with its value (R437). -/
def programField (d : Dev) (id : Nat) (vals : List Word) : Dev :=
  match fieldWords id with
  | none => d
  | some (w, n) =>
    if id = 10 then
      let i := rollbackCount (otpWord d)
      programOtp d (70 + i / 32) (BitVec.ofNat 36 (2 ^ (i % 32)))
    else if 11 ≤ id ∧ id ≤ 16 then programOtp d 72 (BitVec.ofNat 36 (2 ^ (id - 11)))
    else
      let (d1, vs) := if id = 9 then
          (upTo 8).foldl (fun (a : Dev × List Word) _ => let (e, v) := takeFree a.1; (e, a.2 ++ [v &&& maskOf 31 0])) (d, [])
        else (d, vals)
      withFlash (forUpTo n (fun i d => programOtp d (w + i) (vs.getD i 0)) d1) fun x => { x with otpDone := id :: x.otpDone }

/-- Conditions of OTP programming (R437). -/
def otpCond (d : Dev) : Bool :=
  mode d == mConfig && gb d PACE_STAT.HELD && decide (850 ≤ gf d PACE_VCMD.VCMD ∧ gf d PACE_VCMD.VCMD ≤ 950)

/-! ### Operations in progress (R419, R424, R425) -/

/-- The flash bank of the return address in LP, or none. -/
def lpBank (lp : Word) : Option Nat :=
  let a := fld lp 28 0 / 2
  if inFlash a then some (flashBankOf a) else none

/-- An operation starts: BUSY and OP, and under STALL_OK in the caller's bank the gate is saved and shut (R425). -/
def opStart (d : Dev) (kind addr : Nat) (v : Word) (c : Nat) (stall : Bool) : Dev :=
  let gate := if stall then some (rd d EVC_GATE.at) else none
  let d1 := withFlash d fun x => { x with op := some ⟨kind, addr, v, c, gate, (coreOfDev d c).depth, (coreOfDev d c).run⟩ }
  let d2 := pf d1 FLASHC_STAT.OP kind
  let d3 := if inFlash addr then (if flashBankOf addr = 0 then pb d2 FLASHC_STAT.BUSY0 true else pb d2 FLASHC_STAT.BUSY1 true) else d2
  if stall then onGate (pb d3 EVC_GATE.GATE true) (gb d3 EVC_GATE.GATE) else d3

/-- The operation ends: BUSY and OP fall, the saved gate is restored. -/
def opEnd (d : Dev) : Dev :=
  match d.flash.op with
  | none => d
  | some o =>
    let d1 := pf (pb (pb (withFlash d fun x => { x with op := none }) FLASHC_STAT.BUSY0 false) FLASHC_STAT.BUSY1 false) FLASHC_STAT.OP 0
    match o.gate with
    | some g => onGate (wr d1 EVC_GATE.at g) (gb d1 EVC_GATE.GATE)
    | none => d1

/-- A reset aborts a program, erase or seal (R434, R440), and a free value says at which point (log entry 89): a partly
programmed word has a row syndrome, a partly programmed column word leaves K non-zero; an erase had not begun, was cut
short with undefined contents, or had ended with its seal word programmed. -/
def opAbort (s : State) : State :=
  match s.dev.flash.op with
  | none => s
  | some o =>
    let (d0, r) := takeFree s.dev
    let s0 := setDev s d0
    let s1 :=
      if o.kind = 1 then
        let (d1, v) := takeFree s0.dev
        if maskWith d1 o.addr = 0xFF#8 ∧ r.toNat % 2 = 1 then partSeal o.addr v (programCells o.addr o.val 0 (setDev s0 d1))
        else programCells o.addr v (1 + r.toNat % 15) (setDev s0 d1)
      else if o.kind = 3 then (if inFlash o.addr then partSeal o.addr r s0 else setDev s0 (otpAbort s0.dev o.addr r))
      else if o.kind = 2 then
        if r.toNat % 3 = 0 then s0
        else if r.toNat % 3 = 1 then
          let t := eraseSector (sectorOf o.addr) s0
          setDev t (withFlash t.dev fun x => { x with sealWord := tabPut x.sealWord (sectorOf o.addr) 1 })
        else forUpTo 512 (fun i s => let (d, v) := takeFree s.dev; setMem (setDev s d) (putWord s.mem (o.addr + i) v)) (eraseSector (sectorOf o.addr) s0)
      else s0
    setDev s1 (opEnd s1.dev)

/-! ### FLASHC folio (R421, R438, R439) -/

/-- FL_RT_MARGIN: a window of 1,048,576 tk ends. -/
def marginDue (d : Dev) : Bool := decide (d.flash.winFrom + 1048576 ≤ d.now)
def rtMargin (d : Dev) : Dev :=
  if marginDue d then
    let c := gf d FLASHC_MCNT.CUR
    let p := gf d FLASHC_MCNT.PREV
    let d1 := withFlash (pf (pf d FLASHC_MCNT.PREV c) FLASHC_MCNT.CUR 0) fun x => { x with winFrom := x.winFrom + 1048576 }
    if gf d FLASHC_MARGIN.LIM < c ∧ p < c then raiseEvt d1 flashPage 0 else d1
  else d

/-- Values a FLASHC register refuses with CFG_ERR. -/
def badFlashc (off : Nat) (v : Word) : Bool := decide (off = 0x10 ∧ (fld v 5 0 < 8 ∨ 40 < fld v 5 0))

end Sys2Proof.Machine
end

