-- ==== Sys2Proof/Machine/Merid.lean ====
section
/-!
DEFINITION. Meridian time (chapter 02, R21-R31): reference, lock, tick counter, alarms, calibration, discipline.
-/
namespace Sys2Proof.Machine

def withMerid (d : Dev) (f : MeridSt → MeridSt) : Dev := { d with merid := f d.merid }

/-- The reference in use: source (0 crystal, 1 MREF_IN, 2 peer) and, for MREF_IN, its frequency (R21). -/
def refOf (ctl : Word) (follow : Bool) : Nat × Nat :=
  match fld ctl 11 10 with
  | 0 => (0, 0)
  | 1 => (1, fld ctl 23 18)
  | 2 => if follow then (2, 0) else (0, 0)
  | _ => if follow then (2, 0) else (1, fld ctl 23 18)

/-- The PLL chooses its reference: REFACT follows (R21). -/
def chooseRef (d : Dev) : Dev := pf d MERID_STAT.REFACT (refOf (rd d MERID_CTL.at) d.merid.peerFollow).1

/-- LOCK falls: holdover, CAL_OK falls, MERID_UNLOCK; in PARK it requests wake (R22, R23, R28). While LOCK = 0 a phase
error or a change of reference begins the 100 µs anew (R22). -/
def lockDown (d : Dev) : Dev :=
  if gb d MERID_STAT.LOCK then
    let d1 := pb (pb (pb d MERID_STAT.LOCK false) MERID_STAT.HOLDOVER true) MERID_STAT.CAL_OK false
    let d2 := withMerid d1 fun m => { m with linesDone := [], goodFrom := d.now }
    let d3 := raiseEvt d2 (pageOf .merid 0) 0
    if mode d = mPark then { d3 with evc := { d3.evc with wakeLock := true }, rstc := { d3.rstc with wakeReq := true } } else d3
  else withMerid d fun m => { m with goodFrom := d.now }

/-- SLAVE_OK takes a value; MERID_SLAVE_ERR at its fall (R30). -/
def setSlaveOk (d : Dev) (b : Bool) : Dev :=
  let d1 := pb d MERID_STAT.SLAVE_OK b
  if gb d MERID_STAT.SLAVE_OK && !b then raiseEvt d1 (pageOf .merid 0) 4 else d1

/-- The servo begins anew, no interval being good: DISC_OK falls with MERID_DISC_ERR (R29). -/
def discRestart (d : Dev) : Dev :=
  let d1 := pb (withMerid d fun m => { m with discGood := 0 }) MERID_STAT.DISC_OK false
  if gb d MERID_STAT.DISC_OK then raiseEvt d1 (pageOf .merid 0) 5 else d1

/-- REFSEL selects the peer (R29, R30). -/
def peerChosen (ctl : Word) : Bool := decide (2 ≤ fld ctl 11 10)

/-- The write of MERID_CTL as accepted: a change of the reference in use drops LOCK (R21); another MAC, none, or the peer
selected ends what the servo had found (R29); a REFSEL that leaves the peer ends SLAVE_OK (R30). -/
def onMeridCtl (d : Dev) (old : Word) : Dev :=
  let now := rd d MERID_CTL.at
  let d1 :=
    if refOf old d.merid.peerFollow = refOf now d.merid.peerFollow then
      (if fld old 11 10 = fld now 11 10 then d else chooseRef d)
    else chooseRef (lockDown d)
  let d2 := if fld old 9 8 ≠ fld now 9 8 ∨ (peerChosen now = true ∧ peerChosen old = false) then discRestart d1 else d1
  if peerChosen now then d2 else setSlaveOk d2 false

/-- The peer's timing is followed or not, chosen under R411: a change of the reference in use changes it without a
phase step (R30). -/
def setPeerFollow (d : Dev) (b : Bool) : Dev :=
  let d1 := chooseRef (withMerid d fun m => { m with peerFollow := b })
  let d2 := if gb d MERID_STAT.LOCK ∨ gf d1 MERID_STAT.REFACT = gf d MERID_STAT.REFACT then d1
    else withMerid d1 fun m => { m with goodFrom := d.now }
  if b then d2 else setSlaveOk d2 false

/-- Alarm condition: (short timestamp − MERID_ALMn) mod 2^36 < 2^35 (R25). -/
def alarmPast (d : Dev) (n : Nat) : Bool := !(bit (shortTs d - rd d (MERID_ALM.at n)) 35)

def alarmArmed (d : Dev) (n : Nat) : Bool := gbit d MERID_ALMEN.EN n

/-- A compare value written, reloaded or armed is judged: already past, it fires at the next tick and is late (R25). -/
def judgeAlarm (d : Dev) (n : Nat) : Dev :=
  withMerid d fun m => { m with late := if alarmArmed d n && alarmPast d n then tabPut m.late n (d.now + 1) else tabErase m.late n }

/-- ALMEN written: newly armed alarms are judged (R25). -/
def onAlmen (d : Dev) (old : Word) : Dev :=
  forUpTo 16 (fun n d => if bit old n = alarmArmed d n then d else judgeAlarm d n) d

/-- Alarm `n` is due: armed, past, and not waiting for the tick after a late judgement (R25). -/
def alarmDue (d : Dev) (n : Nat) : Bool :=
  alarmArmed d n && alarmPast d n && (match tabFind d.merid.late n with | some t => decide (t ≤ d.now) | none => true)

/-- After firing: late flag, then reload or disarm (R25, R26). -/
def alarmReload (d : Dev) (n : Nat) : Dev :=
  let d0 := withMerid d fun m => { m with alarmRegd := m.alarmRegd.filter (· ≠ n) }
  let d1 := if (tabFind d.merid.late n).isSome then pbit d0 MERID_ALMLATE.LATE n true else d0
  let per := rd d1 (MERID_ALMP.at n)
  if per = 0 then
    withMerid (pbit d1 MERID_ALMEN.EN n false) fun m => { m with late := tabErase m.late n }
  else
    judgeAlarm (wr d1 (MERID_ALM.at n) (rd d1 (MERID_ALM.at n) + (if per.toNat < 16 then 16 else per))) n

/-- MERID_STEP: the signed count is added, and alarms carried past their compare fire late (R27). -/
def stepCounter (d : Dev) (v : Word) : Dev :=
  let was := (upTo 16).filter fun n => alarmArmed d n && alarmPast d n
  let d1 := withMerid d fun m => { m with counter := m.counter + BitVec.ofInt 64 v.toInt }
  forUpTo 16 (fun n d => if n ∈ was then d else judgeAlarm d n) d1

/-- MERID_RATE is clamped to ±100,000 ppb (R29, R31). -/
def clampRate (x : Int) : Int := max (-100000) (min 100000 x)

/-- Discipline or slaving is active, so MERID_RATE ignores writes (R29, R30). -/
def rateOwned (d : Dev) : Bool :=
  let peer := decide (2 ≤ gf d MERID_CTL.REFSEL)
  peer || gf d MERID_CTL.DISC != 0

/-- One update of the 802.1AS servo (R29): rate only, within ±100 ppm; DISC_OK after 16 intervals within ±1 µs. -/
def discUpdate (d : Dev) (offsetNs rate : Int) : Dev :=
  if gf d MERID_CTL.DISC = 0 ∨ 2 ≤ gf d MERID_CTL.REFSEL then d
  else
    let d1 := pf d MERID_RATE.RATE (wrapN 24 (clampRate rate))
    let good := if offsetNs.natAbs ≤ 1000 then min 16 (d.merid.discGood + 1) else 0
    let d2 := withMerid d1 fun m => { m with discGood := good }
    let was := gb d MERID_STAT.DISC_OK
    let ok := decide (good = 16) || (was && decide (good ≠ 0))
    let d3 := pb d2 MERID_STAT.DISC_OK ok
    if was && !ok then raiseEvt d3 (pageOf .merid 0) 5 else d3

/-- A tap line of a Forme is recalibrated, while LOCK = 1 and not in PARK (R28). -/
def lineRecal (d : Dev) (forme line : Nat) : Dev :=
  if gb d MERID_STAT.LOCK && mode d != mPark then
    withMerid d fun m => { m with linesDone := if forme * 8 + line ∈ m.linesDone then m.linesDone else (forme * 8 + line) :: m.linesDone }
  else d

/-- CAL_OK is due: 50 µs after lock or wake, every line calibrated once (R28). -/
def calDue (d : Dev) : Bool :=
  gb d MERID_STAT.LOCK && !gb d MERID_STAT.CAL_OK && mode d != mPark && decide (d.merid.calFrom + 50000 ≤ d.now)
    && (upTo 128).all fun k => decide (k ∈ d.merid.linesDone)

/-- LOCK is due: 100 µs of phase error within ±2 ns on present reference edges (R22). -/
def lockDue (d : Dev) : Bool :=
  gb d MERID_STAT.REF_OK && !gb d MERID_STAT.LOCK && decide (d.merid.goodFrom + 100000 ≤ d.now)

/-- LOCK rises; block resets that wait are released 64 tk later (R22, R28, R471). -/
def lockUp (d : Dev) : Dev :=
  if lockDue d then
    let d1 := pb (pb d MERID_STAT.LOCK true) MERID_STAT.HOLDOVER false
    let d2 := withMerid d1 fun m => { m with calFrom := d.now, linesDone := [] }
    let d3 := withFolio d2 fun f => { f with brst := f.brst.map fun e => (e.1, some (d.now + 64)) }
    raiseEvt d3 (pageOf .merid 0) 1
  else d

/-- REF_OK rises with the first reference edges. -/
def refReturn (d : Dev) : Dev :=
  if gb d MERID_STAT.REF_OK then d
  else withMerid (pb d MERID_STAT.REF_OK true) fun m => { m with goodFrom := d.now }

/-- A read of MERID_TICKH captures the low half in the same tick (R24). -/
def readTickh (d : Dev) : Dev × Word :=
  let d1 := pf d MERID_TICKL.TICK_LO (d.merid.counter.toNat % 2 ^ 32)
  (d1, BitVec.ofNat 36 (d.merid.counter.toNat / 2 ^ 32))

end Sys2Proof.Machine
end

