-- ==== Sys2Proof/Machine/Pace.lean ====
section
/-!
DEFINITION. Pace control (R32-R39) and the current budget arbiter (R40-R45), chapter 02.
-/
namespace Sys2Proof.Machine

def withPace (d : Dev) (f : PaceSt → PaceSt) : Dev := { d with pace := f d.pace }
def withCba (d : Dev) (f : CbaSt → CbaSt) : Dev := { d with cba := f d.cba }

/-- The pace source of the trip network follows PACE_STAT.SHORT (R115, R126): live bit of source 178. -/
def setShort (d : Dev) (b : Bool) : Dev :=
  let was := gb d PACE_STAT.SHORT
  let d1 := setLive (pb d PACE_STAT.SHORT b) 178 b
  if b && !was then raiseEvt (pb d1 PACE_STAT.HELD false) (pageOf .pace 0) 0
  else if was && !b then raiseEvt d1 (pageOf .pace 0) 1
  else d1

/-- RESERVED islands that are enabled (R13, R40): clusters 0-15, Survey units 16-39, Formes 40-55, the event controller 56
and the Meridian crossings 57. -/
def reservedOn (d : Dev) : List Nat :=
  (upTo 58).filter fun k =>
    if k < 16 then (upTo 4).any fun j => gb d (FOLIO_CTL.EN (0x80 + 4 * k + j))
    else if k < 40 then gb d (FOLIO_CTL.EN (0x60 + (k - 16)))
    else if k < 56 then gb d (FOLIO_CTL.EN (0x40 + (k - 40)))
    else true

/-- CBA_RESV at a command voltage (R40), within its 16-bit field. -/
def resvAt (d : Dev) (mv : Nat) : Nat := min 65535 ((reservedOn d).foldl (fun a k => a + Config.reservedCurrent k mv) 0)

/-- At least 500 mA is left for SHARED at a voltage, under a ceiling in units of 10 mA (R43, R44). -/
def leaves500 (d : Dev) (ceil mv : Nat) : Bool := decide (resvAt d mv + gf d CBA_LEAK.LEAK + 500 ≤ 10 * ceil)

/-- CONFLICT is set and raised; under CONFLICT_POL = 0 the total may exceed the ceiling (R43). -/
def cbaConflict (d : Dev) : Dev :=
  let d1 := raiseEvt (pb d CBA_STAT.CONFLICT true) (pageOf .cba 0) 0
  if gb d1 CBA_CTL.CONFLICT_POL then d1 else raiseEvt (pb d1 CBA_STAT.OVER true) (pageOf .cba 0) 3

/-- PACE asks CBA before a raise to `mv` (R43): allowed or refused; against a ceiling already written (R44). -/
def askRaise (d : Dev) (mv : Nat) : Dev × Bool :=
  if leaves500 d (gf d CBA_CEILING.CEIL) mv then (d, true)
  else let d1 := cbaConflict d; (d1, !gb d1 CBA_CTL.CONFLICT_POL)

/-- A raise of the command by `want` mV under VMAX, R35 and R43. -/
def raiseBy (d : Dev) (want : Nat) : Dev :=
  let v := gf d PACE_VCMD.VCMD
  let k := min want (min (40 - d.pace.raised) (gf d PACE_VMAX.VMAX - v))
  if k = 0 then d
  else
    let (d1, ok) := askRaise d (v + k)
    if ok then withPace (pf d1 PACE_VCMD.VCMD (v + k)) fun p => { p with raised := p.raised + k, toSend := true }
    else withPace d1 fun p => { p with refused := true }

def lowerTo (d : Dev) (v : Nat) : Dev :=
  if v = gf d PACE_VCMD.VCMD then d else withPace (pf d PACE_VCMD.VCMD v) fun p => { p with toSend := true }

/-- FIXED holds PACE_VCMD at PACE_VFIX within VMIN-VMAX (R38): a lower command at once, a higher one by raises under R35,
R36 and R43 (log entry 64). -/
def fixedHold (d : Dev) : Dev :=
  let v := max (gf d PACE_VMIN.VMIN) (min (gf d PACE_VMAX.VMAX) (gf d PACE_VFIX.VFIX))
  if gf d PACE_VCMD.VCMD < v then raiseBy d (v - gf d PACE_VCMD.VCMD) else lowerTo d v

/-- The slowest reading and the lowest monitor that gave it. -/
def slowest (mons : List Nat) : Nat × Nat :=
  (mons.foldl (fun (a : Nat × Nat × Nat) m => if m > a.1 then (m, a.2.2, a.2.2 + 1) else (a.1, a.2.1, a.2.2 + 1)) (0, 0, 0))
    |> fun a => (a.1, a.2.1)

/-- The readings of a sample in PACE_MONn and PACE_SLOW. -/
def storeMons (d : Dev) (mons : List Nat) : Dev :=
  let d1 := forUpTo 16 (fun n d => pf d (PACE_MON.VAL n) (mons.getD n 0)) d
  let s := slowest (mons.take 16)
  pf (pf d1 PACE_SLOW.VAL s.1) PACE_SLOW.IDX s.2

/-- The regulation pseudo-code of "Pace regulation", with R35, R36, R38 and R43. -/
def regulate (d : Dev) (s : Nat) : Dev :=
  let vmin := gf d PACE_VMIN.VMIN
  let vmax := gf d PACE_VMAX.VMAX
  if gb d PACE_CTL.MODE then fixedHold d
  else
    let d := if gf d PACE_VCMD.VCMD > vmax then lowerTo d vmax else d
    let t := d.pace.target
    let up := if s > t + 3 then 4 else if s > t then 1 else 0
    let d1 :=
      if up > 0 then raiseBy (withPace d fun p => { p with lowCount := 0 }) (5 * up)
      else if s + gf d PACE_CTL.HYST < t then
        if d.pace.lowCount + 1 = 8 then
          let v := gf d PACE_VCMD.VCMD
          withPace (if v < vmin then d else lowerTo d (max (v - 5) vmin)) fun p => { p with lowCount := 0 }
        else withPace d fun p => { p with lowCount := p.lowCount + 1 }
      else withPace d fun p => { p with lowCount := 0 }
    -- R36: a command below VMIN moves toward it
    let v := gf d1 PACE_VCMD.VCMD
    if v < vmin then raiseBy d1 (vmin - v) else d1

/-- SHORT and HELD after a sample (R34, R36, R37). -/
def judgePace (d : Dev) (s vBefore : Nat) : Dev :=
  let met := decide (s ≤ d.pace.target)
  let d1 := withPace d fun p => { p with goodRun := if met then p.goodRun + 1 else 0 }
  let atMax := decide (vBefore = gf d PACE_VMAX.VMAX) || gb d PACE_STAT.AVS_FAIL
  let short := (!met && (atMax || d.pace.refused)) || !gb d MERID_STAT.LOCK
  let d2 :=
    if short then setShort d1 true
    else if gb d1 PACE_STAT.SHORT && decide (4 ≤ d1.pace.goodRun) then setShort d1 false else d1
  let held := met && !gb d2 PACE_STAT.SHORT && gb d2 PACE_STAT.REG
  let d3 := pb d2 PACE_STAT.HELD held
  if held && d3.pace.heldArmed then raiseEvt (withPace d3 fun p => { p with heldArmed := false }) (pageOf .pace 0) 5 else d3

/-- CBA_LEAK moves by a quarter of the gap between the measured current and the averaged estimate (R42); a sample that
freezes it is one in which the clamp did not act. -/
def leakUpdate (d : Dev) : Dev :=
  if gb d PACE_STAT.AVS_FAIL then withCba d fun c => { c with clamped := 0, estSum := 0, estNum := 0 }
  else
    let avg : Int := if d.cba.estNum = 0 then gf d CBA_EST.TOTAL else (d.cba.estSum / d.cba.estNum : Nat)
    let raw : Int := (gf d CBA_LEAK.LEAK : Int) + Int.tdiv ((gf d PACE_TELEM.IMEAS : Int) - avg) 4
    let acts := decide (raw < 0 ∨ raw > 3000)
    let n := if acts then d.cba.clamped + 1 else 0
    let d1 := withCba (pf d CBA_LEAK.LEAK (max 0 (min 3000 raw)).toNat) fun c => { c with clamped := n, estSum := 0, estNum := 0 }
    if n = 4 then raiseEvt d1 (pageOf .cba 0) 2 else d1

/-- One pace sample (R32, R37): samples 1-16 only measure, sample 17 is the first regulated one. -/
def paceSample (d : Dev) (mons : List Nat) : Dev :=
  if d.pace.sampling && decide (d.pace.nextSample ≤ d.now) then
    let d := withPace (pb (storeMons d mons) PACE_STAT.DROOP false) fun p =>
      { p with samples := p.samples + 1, nextSample := p.nextSample + 10000, raised := 0, refused := false
               target := gf d PACE_TARGET.TARGET, targetNew := false
               lowV := if gf d PACE_TELEM.VMEAS < 660 && !gb d PACE_STAT.AVS_FAIL then p.lowV + 1 else 0 }
    let s := gf d PACE_SLOW.VAL
    let v := gf d PACE_VCMD.VCMD
    if d.pace.samples < 17 then leakUpdate d
    else leakUpdate (judgePace (regulate (pb d PACE_STAT.REG true) s) s v)
  else d

/-- A monitor runs slower than PACE_TARGET + DROOP between samples (R34, item 2). -/
def paceDroop (d : Dev) (val : Nat) : Dev :=
  let guard := max 1 (gf d PACE_CTL.DROOP)
  if d.pace.sampling && decide (17 ≤ d.pace.samples) && decide (val > d.pace.target + guard) then
    let d1 := withPace (pb d PACE_STAT.DROOP true) fun p => { p with goodRun := 0 }
    let d2 := raiseEvt (setShort d1 true) (pageOf .pace 0) 2
    if gb d2 PACE_CTL.MODE then d2 else raiseBy d2 20
  else d

/-- One AVSBus transaction (R33, R494): the answer's status, voltage and current, or a failure. -/
def avsTransaction (d : Dev) (ans : Option (BitVec 16 × BitVec 10 × BitVec 16)) : Dev :=
  match ans with
  | some (st, v, i) =>
    let d1 := pf (pf (pf d AVS_STAT.LAST st.toNat) PACE_TELEM.VMEAS v.toNat) PACE_TELEM.IMEAS i.toNat
    withPace (pb d1 PACE_STAT.AVS_FAIL false) fun p => { p with avsFails := 0, toSend := false }
  | none =>
    let n := min 3 (d.pace.avsFails + 1)
    let d1 := raiseEvt (incF d AVS_STAT.FAILS 1) (pageOf .avs 0) 0
    let d2 := withPace d1 fun p => { p with avsFails := n }
    if n = 3 && !gb d PACE_STAT.AVS_FAIL then raiseEvt (pb d2 PACE_STAT.AVS_FAIL true) (pageOf .pace 0) 3 else d2

/-- Pace sampling starts (R37): the island has woken and LOCK = 1, or at boot start on holdover ticks. -/
def paceStart (d : Dev) : Dev :=
  if d.pace.sampling || decide (d.rstc.phase ≠ .started) || decide (mode d = mPark)
      || !(gb d MERID_STAT.LOCK || d.rstc.booted) then d
  else withPace d fun p => { p with sampling := true, samples := 0, nextSample := d.now }

/-- PACE_TARGET accepted: HELD falls at once, the target is used from the next sample (R36). -/
def onPaceTarget (d : Dev) : Dev := withPace (pb d PACE_STAT.HELD false) fun p => { p with targetNew := true, heldArmed := true }

/-- Values a PACE register refuses (R39): these raise PACE_BOUND_ERR. -/
def badPace (d : Dev) (off : Nat) (v : Word) : Bool :=
  if off = 0x11 then decide (fld v 6 0 < 32 ∨ fld v 6 0 > 80)
  else if off = 0x12 then decide (fld v 9 0 % 5 ≠ 0 ∨ fld v 9 0 < 700 ∨ fld v 9 0 > gf d PACE_VMAX.VMAX)
  else if off = 0x13 then decide (fld v 9 0 % 5 ≠ 0 ∨ fld v 9 0 > 950 ∨ fld v 9 0 < gf d PACE_VMIN.VMIN)
  else false

/-- FIXED is shown in PACE_STAT and holds the command from the write on, but for PARK, which commands VMIN (R38, R45, R46). -/
def onPaceCtl (d : Dev) : Dev :=
  let d1 := pb d PACE_STAT.FIXED (gb d PACE_CTL.MODE)
  if gb d PACE_CTL.MODE && mode d != mPark then fixedHold d1 else d1

/-! ### Current budget arbiter -/

/-- What the ceiling leaves for SHARED; in a conflict under CONFLICT_POL = 0 SHARED keeps 500 mA (R40, R43). -/
def sharedRoom (d : Dev) (resv : Nat) : Nat :=
  let room := 10 * d.cba.ceiling - resv - gf d CBA_LEAK.LEAK
  if gb d CBA_STAT.CONFLICT && !gb d CBA_CTL.CONFLICT_POL then max 500 room else room

/-- ALLOW of a window (R40, R41). -/
def allowOf (d : Dev) (window used resv : Nat) : Nat :=
  if window < 16 ∨ mode d = mPark then 0
  else min (sharedRoom d resv) (used + 4 * max 1 (gf d CBA_SLEW.SLEW))

/-- Handshake events of an island that are asked for in the window. -/
def eventsOf (ev : List (Nat × Nat)) (k : Nat) : Nat := ev.foldl (fun a e => if e.1 = k then a + e.2 else a) 0

/-- Charge of one event of an island at the present command (R40). -/
def chargeOf (d : Dev) (k : Nat) : Nat := Config.chargeFactor k (gf d PACE_VCMD.VCMD)

/-- Of `n` events of an island, those that an amount of charge pays for. -/
def paidBy (d : Dev) (k n amount : Nat) : Nat := if chargeOf d k = 0 then n else min n (amount / chargeOf d k)

/-- Shares of the requesting SHARED initiators (R40). -/
def sharesOf (d : Dev) (allow : Nat) (req : List Nat) : Tab Nat :=
  let sum := req.foldl (fun a n => a + gf d (CBA_WEIGHT.W n)) 0
  req.foldl (fun t n => if sum = 0 then t else tabSet 0 t n (allow * gf d (CBA_WEIGHT.W n) / sum)) []

/-- The order in which initiators draw from the pool: by index from a free start, as R40 gives none (log entry 17). -/
def drawOrder (start : Nat) (req : List Nat) : List Nat :=
  (req.filter fun k => decide (start ≤ k)) ++ req.filter fun k => decide (k < start)

/-- The pool of R40, what no requesting initiator has as its share, drawn on in order by those that have spent theirs:
events served of each, and what is left. -/
def drawPool (d : Dev) (shares : Tab Nat) (ev : List (Nat × Nat)) (order : List Nat) (pool : Nat) : Tab Nat × Nat :=
  order.foldl (fun (acc : Tab Nat × Nat) k =>
    let own := paidBy d k (eventsOf ev k) (tabGet 0 shares k)
    let more := paidBy d k (eventsOf ev k - own) acc.2
    (tabSet 0 acc.1 k (own + more), acc.2 - more * chargeOf d k)) ([], pool)

/-- One window of CBA (R40, R41, R43): `ev` names the handshake events asked for, SHARED initiators 0-13 and RESERVED
islands 16 and up. SHARED events without allowance wait for the next window. -/
def cbaWindow (d : Dev) (ev : List (Nat × Nat)) : Dev :=
  let resv := resvAt d (gf d PACE_VCMD.VCMD)
  let d := pf (withCba d fun c => { c with ceiling := gf d CBA_CEILING.CEIL }) CBA_RESV.RESV resv
  let allow := allowOf d d.cba.window d.cba.used resv
  let asked := (upTo 14).map fun k => (k, eventsOf ev k + tabGet 0 d.cba.held k)
  let req := (asked.filter fun e => decide (0 < e.2)).map (·.1)
  let shares := sharesOf d allow req
  let pool := allow - shares.foldl (fun a e => a + e.2) 0
  let (d0, start) := takeFree d
  let (served, _) := drawPool d shares asked (drawOrder (start.toNat % 14) req) pool
  let held := asked.foldl (fun t e => tabSet 0 t e.1 (e.2 - tabGet 0 served e.1)) []
  let used := served.foldl (fun a e => a + e.2 * chargeOf d e.1) 0
  let reserved := (ev.filter fun e => decide (16 ≤ e.1)).foldl (fun a e => a + e.2 * chargeOf d e.1) 0
  let total := min 65535 (used + reserved + gf d CBA_LEAK.LEAK)
  let d1 := pf (pf d0 CBA_EST.TOTAL total) CBA_EST.SHARED (min 65535 used)
  let d2 := pb (pb d1 CBA_STAT.THROTTLING (!held.isEmpty)) CBA_STAT.WIDE (decide (16 ≤ d.cba.window) && mode d != mPark)
  let d3 := if gb d2 CBA_STAT.CONFLICT && leaves500 d2 d2.cba.ceiling (gf d2 PACE_VCMD.VCMD)
    then pb (pb d2 CBA_STAT.CONFLICT false) CBA_STAT.OVER false else d2
  withCba d3 fun c => { c with
    window := if mode d = mPark then 0 else c.window + 1, nextWindow := d.now + 16
    used := if c.window < 15 then 0 else used, allow := allow, shares := shares, held := held
    estSum := c.estSum + total, estNum := c.estNum + 1 }

/-- A ceiling that leaves less than 500 mA at the present command is refused with CBA_CEIL_LOW (R44). -/
def ceilLow (d : Dev) (v : Word) : Bool := !leaves500 d (fld v 9 0) (gf d PACE_VCMD.VCMD)

/-- Further RESERVED islands were enabled (R44). -/
def cbaRecheck (d : Dev) (before : Dev) : Dev :=
  let v := gf d PACE_VCMD.VCMD
  if leaves500 before (gf before CBA_CEILING.CEIL) v && !leaves500 d (gf d CBA_CEILING.CEIL) v then cbaConflict d else d

end Sys2Proof.Machine
end

