-- ==== Sys2Proof/Machine/Survey.lean ====
section
/-!
DEFINITION. Survey units and sigma-delta channels (chapter 04, R75-R103).
-/
namespace Sys2Proof.Machine

def survInit : SurvSt := ⟨[], [], none, 0, [], []⟩
def survOf (d : Dev) (u : Nat) : SurvSt := tabGet survInit d.surv u
def withSurv (d : Dev) (u : Nat) (f : SurvSt → SurvSt) : Dev := { d with surv := tabSet survInit d.surv u (f (survOf d u)) }
def survPage (u : Nat) : Nat := 0x60 + u
def sdfInit : SdfSt := ⟨[], 0, false, [], none, 0, 0, 0, 0, 0⟩
def sdfOf (d : Dev) (n : Nat) : SdfSt := tabGet sdfInit d.sdf n

/-- The mode allows conversion (R94). -/
def convMode (d : Dev) : Bool := mode d != mStart && mode d != mPark

/-! ### Slot configuration words -/

def acqOf (cfg : Word) : Nat := max 16 (fld cfg 35 28)
def nOf (cfg : Word) : Nat := 2 ^ fld cfg 27 25
def tcycOf (cfg : Word) : Nat := if bit cfg 24 then 50 else 200
def tconvOf (cfg : Word) : Nat := if bit cfg 24 then 45 else 180
/-- Spacing of a burst (R83). -/
def deltaOf (cfg : Word) : Nat := max (tcycOf cfg) (acqOf cfg)
/-- Last sampling instant of a conversion. -/
def SurvConv.lastInstant (v : SurvConv) : Nat := v.ts + (nOf v.r.cfg - 1) * deltaOf v.r.cfg

/-- At tick `t` a slot's request is pending or committed and has not reached its sampling instant, or its burst is running
(R81): the instant itself ends it. -/
def slotBusy (u : SurvSt) (s t : Nat) : Bool :=
  u.reqs.any (fun r => decide (r.slot = s)) || u.convs.any fun v => decide (v.r.slot = s ∧ t < v.lastInstant)

/-- SURV_PEND: the slot holds a request that has not reached its sampling instant (R81, R95). -/
def survPend (d : Dev) (u : Nat) : Word :=
  (upTo 16).foldl (fun w s =>
    let x := survOf d u
    if x.reqs.any (fun r => decide (r.slot = s)) || x.convs.any (fun v => decide (v.r.slot = s ∧ d.now < v.ts)) then setBitW w s true else w) 0

/-- A request made at trigger tick `t` (R80, R82, R91). -/
def mkReq (d : Dev) (u s t : Nat) : SurvReq :=
  let cfg := rd d (SURV_CFG.at u s)
  let trg := rd d (SURV_TRIG.at u s)
  let req := if fld trg 15 12 = 7 then
      (match (survOf d u).last with
       | some (l, cyc) => l + max cyc (acqOf cfg) + fld trg 35 20
       | none => t + max (fld trg 35 20) (acqOf cfg))
    else t + max (fld trg 35 20) (acqOf cfg)
  { slot := s, req := req, late := false, cfg := cfg, dst := rd d (SURV_DEST.at u s)
    gain := (rd d (SURV_GAIN.at u s)).setWidth 32, ofs := (rd d (SURV_OFS.at u s)).setWidth 32 }

/-- A trigger of slot s with trigger tick t (R79, R81, R92, R94). -/
def survTrigger (d : Dev) (u s t : Nat) : Dev :=
  if !gbit d (SURV_SHEETEN.EN u) s then d
  else if !gb d (SURV_STAT.RDY u) then incF d (SURV_CNT.SKIP u) 1
  else if gb d (SURV_STAT.CALBUSY u) then raiseEvt (incF d (SURV_CNT.SKIP u) 1) (survPage u) 5
  else if slotBusy (survOf d u) s t then raiseEvt (incF d (SURV_CNT.LOST u) 1) (survPage u) 6
  else withSurv d u fun x => { x with reqs := x.reqs ++ [mkReq d u s t] }

/-- Trigger events of tick `t` waiting at the units and channels that name them: Survey 16·u + s, channels 0x1000 + n,
Bearing units 0x2000 + u. -/
def publish (d : Dev) (key t : Nat) : Dev := { d with trigDue := d.trigDue ++ [(key, t)] }

/-- The sample source of a Bearing unit fires (R229): the trigger waits for its delay, or is lost while the unit has not
finished the previous sample. A listening SSI unit ignores BRNG_SMP (R230). -/
def brngTrigger (d : Dev) (u t : Nat) : Dev :=
  if !gb d (FOLIO_CTL.EN (0xC0 + u)) || decide (mode d = mStart ∨ mode d = mPark) || (gf d (BRNG_CFG.MODE u) == 3 && gb d (BRNG_SSI.LISTEN u)) then d
  else if gb d (BRNG_STAT.SSIBUSY u) || d.trigDue.any (fun e => decide (e.1 = 0x2000 + u)) || d.landings.any (fun l => decide (l.unit = 40 + u))
  then raiseEvt d (0xC0 + u) 6
  else publish d (0x2000 + u) t

/-- An event of trigger code `code`, instance `inst` (and pair) occurs in this tick; it is held against the slots, channels
and units once the groups of the tick have applied (R80, R91). -/
def publishTrig (d : Dev) (code inst pair : Nat) : Dev := { d with trigRaw := d.trigRaw ++ [⟨code, inst, pair, d.now⟩] }

/-- Codes under which writes of SURV_SWTRIG (its unit, its slots) and of SDF_SWTRIGc (its channel) wait with the trigger
events of the tick. -/
def swSurvCode : Nat := 16
def swSdfCode : Nat := 17

/-- A trigger event that other blocks share reaches every slot, channel and Bearing unit that names it (R80, R99, R229). -/
def reachNamed (d : Dev) (e : TrigEvt) : Dev :=
  let named := fun (w : Word) => decide (fld w 15 12 = e.code ∧ fld w 3 0 = e.inst) && (decide (e.code ≠ 3) || decide (fld w 9 8 = e.pair))
  let d1 := forUpTo 24 (fun u d =>
    if rd d (SURV_SHEETEN.at u) = 0 then d
    else forUpTo 16 (fun s d => if gbit d (SURV_SHEETEN.EN u) s && named (rd d (SURV_TRIG.at u s)) then publish d (16 * u + s) e.tick else d) d) d
  let d2 := forUpTo 16 (fun n d =>
    if gb d (FOLIO_CTL.EN (0x78 + n / 4)) && named (rd d (SDF_TRIG.at (n / 4) (n % 4))) then publish d (0x1000 + n) e.tick else d) d1
  forUpTo 16 (fun u d => if named (rd d (BRNG_SMP.at u)) then brngTrigger d u e.tick else d) d2

/-- A software trigger reaches each slot it names whose TSRC is software (R80, R102). -/
def reachSw (d : Dev) (u slots t : Nat) : Dev :=
  forUpTo 16 (fun s d => if slots.testBit s && gbit d (SURV_SHEETEN.EN u) s && gf d (SURV_TRIG.TSRC u s) == 6 then publish d (16 * u + s) t else d) d

/-- A trigger event is held against the configurations now in force. -/
def reachTrig (d : Dev) (e : TrigEvt) : Dev :=
  if e.code = swSurvCode then reachSw d e.inst e.pair e.tick
  else if e.code = swSdfCode then
    (if gf d (SDF_TRIG.TSRC (e.inst / 4) (e.inst % 4)) == 6 then publish d (0x1000 + e.inst) e.tick else d)
  else reachNamed d e

/-- The trigger events of this tick are held against the configurations now in force (R91). -/
def reachAll (d : Dev) : Dev := if d.trigRaw.isEmpty then d else d.trigRaw.foldl reachTrig { d with trigRaw := [] }

/-- The oldest published trigger of a key, taken. -/
def takeTrig (d : Dev) (key : Nat) : Option (Dev × Nat) :=
  match d.trigDue.find? fun e => decide (e.1 = key) with
  | none => none
  | some e => some ({ d with trigDue := d.trigDue.erase e }, e.2)

/-- SURVEY_TRIGGER: a published trigger takes effect. -/
def surveyTrigger (d : Dev) (u s : Nat) : Dev :=
  let d0 := reachAll d
  match takeTrig d0 (16 * u + s) with
  | some (d1, t) => survTrigger d1 u s t
  | none => d0

/-- SURV_SWTRIG (R80): the named slots are triggered in this tick, under what its groups put in force (R91). -/
def survSwTrig (d : Dev) (u : Nat) (v : Word) : Dev := publishTrig d swSurvCode u (fld v 15 0)

/-- The request with the least req, ties to the lower slot. -/
def leastReq (l : List SurvReq) : Option SurvReq :=
  l.foldl (fun b r => match b with
    | none => some r
    | some x => if r.req < x.req ∨ (r.req = x.req ∧ r.slot < x.slot) then some r else some x) none

/-- free(s) of R82. -/
def freeAt (x : SurvSt) (r : SurvReq) : Nat := match x.last with
  | some (l, cyc) => l + max cyc (acqOf r.cfg)
  | none => 0

/-- The unit commits to a request with first instant ts (R82). -/
def commit (x : SurvSt) (r : SurvReq) (ts : Nat) (late : Bool) : SurvSt :=
  { x with reqs := x.reqs.erase r
           convs := x.convs ++ [{ r := { r with late := late }, ts := ts, taken := 0, stamp := 0, lowA := false, quiet := false }]
           last := some (ts + (nOf r.cfg - 1) * deltaOf r.cfg, tcycOf r.cfg) }

/-- The unit is open: every committed instant lies at or before the tick (R82). -/
def unitOpen (x : SurvSt) (t : Nat) : Bool := match x.last with
  | some (l, _) => decide (l ≤ t)
  | none => true

/-- Requests that became late in this tick (R82): skipped, or late from now on. -/
def lateStep (d : Dev) (u t : Nat) : Dev :=
  let due := (survOf d u).reqs.filter fun r => !r.late && decide (r.req ≤ t + acqOf r.cfg)
  due.foldl (fun d r =>
    if bit r.cfg 23 then raiseEvt (incF (withSurv d u fun x => { x with reqs := x.reqs.erase r }) (SURV_CNT.SKIP u) 1) (survPage u) 5
    else withSurv d u fun x => { x with reqs := x.reqs.map fun y => if y = r then { r with late := true } else y }) d

/-- What the unit decides in the present tick, in the order of R82. -/
def commitDecide (d : Dev) (u : Nat) : Dev :=
  let t := d.now
  let x := survOf d u
  let c := (leastReq (x.reqs.filter fun r => !r.late)).filter fun r =>
    unitOpen x t && decide (t + acqOf r.cfg = r.req) && decide (freeAt x r ≤ r.req)
  match c with
  | some r => lateStep (withSurv d u fun x => commit x r r.req false) u t
  | none =>
    let d1 := lateStep d u t
    let x1 := survOf d1 u
    match leastReq (x1.reqs.filter fun r => r.late) with
    | none => d1
    | some l =>
      let ts := t + acqOf l.cfg
      let last := ts + (nOf l.cfg - 1) * deltaOf l.cfg
      if unitOpen x1 t ∧ freeAt x1 l ≤ ts ∧
          (x1.reqs.all fun s => s.late || decide (last + max (tcycOf l.cfg) (acqOf s.cfg) ≤ s.req)) = true then
        raiseEvt (incF (withSurv d1 u fun x => commit x l ts true) (SURV_CNT.LATE u) 1) (survPage u) 4
      else d1

/-- SAMPLING_INSTANT: the next instant of the earliest conversion that still samples (R78, R83, R93); the last one of a
conversion triggers the chained slot (R80). -/
def samplingInstant (d : Dev) (u : Nat) : Dev :=
  let x := survOf d u
  match x.convs.find? fun v => decide (v.taken < nOf v.r.cfg) with
  | none => d
  | some v =>
    if d.now < v.ts + v.taken * deltaOf v.r.cfg then d
    else
      let v' := { v with taken := v.taken + 1, stamp := if v.taken = 0 then shortTs d else v.stamp
                         lowA := v.lowA || gb d (SURV_STAT.LOWA u) }
      let d1 := withSurv d u fun x => { x with convs := x.convs.map fun y => if y = v then v' else y }
      let next := (v.r.slot + 1) % 16
      if v'.taken = nOf v.r.cfg ∧ gf d1 (SURV_TRIG.TSRC u next) = 7 then survTrigger d1 u next d1.now else d1

/-- SURVEY_COMMIT: the unit decides after the sampling instant of the tick, whose chained request takes part (R80, R82). -/
def surveyCommit (d : Dev) (u : Nat) : Dev := commitDecide (samplingInstant d u) u

/-! ### Result, scaling and destinations (R84-R89) -/

/-- y := (x − OFS) × GAIN, each rounded to nearest, a subnormal y flushed (R85). -/
def scaleResult (x ofs gain : F32) : F32 := (fMul fmTrav (fSub fmTrav x ofs).val gain).val

/-- The result word (R86). -/
def resultWord (b34 clip b32 : Bool) (seq raw : Nat) : Word :=
  BitVec.ofNat 36 (b34.toNat * 2 ^ 34 + clip.toNat * 2 ^ 33 + b32.toNat * 2 ^ 32 + seq % 128 * 2 ^ 25 + raw % 2 ^ 25)

/-- A delivery set out to a Traverse latch, there at tick `t` (R87). -/
def sendLatch (d : Dev) (t eng lat rank : Nat) (y : F32) (stamp : Word) : Dev :=
  { d with arrivals := d.arrivals ++ [⟨eng, lat, y, stamp, t, rank⟩] }

/-- A record offered to Galley; a fifth waiting record is dropped with Q_DROP (R88). -/
def offerRecord (d : Dev) (producer queue dropPage dropBit : Nat) (ws : List Word) : Dev :=
  if (d.offers.filter fun o => decide (o.producer = producer)).length ≥ 4 then raiseEvt d dropPage dropBit
  else { d with offers := d.offers ++ [⟨producer, queue, ws⟩] }

/-- Folio page and event bit that report a record of a unit which is dropped (R88, R103). -/
def dropEvt (unit : Nat) : Nat × Nat := if unit < 24 then (survPage unit, 7) else (0x78 + (unit - 24) / 4, 4 * (unit % 4) + 2)

/-- Destinations of a result that is ready at tick `t` (R87-R90, R101): its register 2 tk later; the scaled value at its
latch and the record at Galley 12 tk later. -/
def deliver (d : Dev) (t : Nat) (dst : Word) (rank unit slot : Nat) (w : Word) (y : F32) (stamp : Word) (quiet : Bool) : Dev :=
  let land := fun (d : Dev) (l : Landing) => { d with landings := d.landings ++ [l] }
  let d1 := land d ⟨t + 2, unit, .result slot w stamp⟩
  if quiet then d1
  else
    let d2 := if bit dst 35 then sendLatch d1 (t + 12) (fld dst 31 26) (fld dst 25 24) rank y stamp else d1
    if bit dst 34 then land d2 ⟨t + 12, unit, .record (fld dst 14 0) [if bit dst 33 then w else setFld w 31 0 y.toNat, stamp]⟩ else d2

/-- One result or record lands (R88, R89, R101, R103). -/
def landOne (d : Dev) (l : Landing) : Dev :=
  match l.kind with
  | .sample pos vel =>
    let u := l.unit - 40
    raiseEvt (wr (wr d (BRNG_SPOS.at u) pos) (BRNG_VEL.at u) vel) (0xC0 + u) 0
  | .record q ws => offerRecord d l.unit q (dropEvt l.unit).1 (dropEvt l.unit).2 ws
  | .result slot w stamp =>
    if l.unit < 24 then
      wr { d with surv := tabSet survInit d.surv l.unit { survOf d l.unit with stamps := tabSet 0 (survOf d l.unit).stamps slot stamp } }
        (SURV_RES.at l.unit slot) (setBitW w 35 true)
    else
      let n := l.unit - 24
      let d1 := { d with sdf := tabSet sdfInit d.sdf n { sdfOf d n with stamp := stamp } }
      raiseEvt (wr d1 (SDF_RES.at (n / 4) (n % 4)) (setBitW w 35 true)) (0x78 + n / 4) (4 * (n % 4))

/-- Everything that is to land by now, in the order of its ticks. -/
def landDue (d : Dev) : Dev :=
  let due := d.landings.filter fun l => decide (l.tick ≤ d.now)
  if due.isEmpty then d else due.foldl landOne { d with landings := d.landings.filter fun l => decide (d.now < l.tick) }

/-- What a unit still has on its way to latches and queues is not delivered (R94); its registers still take results, those
of a sigma-delta channel with SDF_RDY (log entry 150). -/
def landStop (d : Dev) (unit rank : Nat) : Dev :=
  { d with
    landings := d.landings.filter fun l => decide (l.unit ≠ unit) || (match l.kind with
      | .result .. => true
      | .record .. | .sample .. => false)
    arrivals := d.arrivals.filter fun a => !decide (a.rank = rank ∧ d.now < a.tick) }

/-- Nothing of a unit is on its way any more (R73). -/
def landDrop (d : Dev) (unit rank : Nat) : Dev :=
  let d1 := landStop d unit rank
  { d1 with landings := d1.landings.filter fun l => decide (l.unit ≠ unit) }

/-- SURVEY_RESULT (R83-R90): the oldest conversion completes with its converter outputs, one per instant. -/
def surveyResult (d : Dev) (u : Nat) (outs : List Nat) : Dev :=
  let x := survOf d u
  match x.convs with
  | [] => d
  | v :: rest =>
    let n := nOf v.r.cfg
    let ready := v.lastInstant + tconvOf v.r.cfg
    if v.taken < n ∨ d.now < ready then d
    else
      let full := if bit v.r.cfg 24 then 65520 else 65535
      let codes := (upTo n).map fun i => if bit v.r.cfg 24 then outs.getD i 0 % 4096 * 16 else outs.getD i 0 % 65536
      let raw := codes.foldl (· + ·) 0 * 64 / n
      let clip := codes.any fun c => decide (c = 0 ∨ c = full)
      let s := v.r.slot
      let seq := tabGet 0 x.seq s
      let stamp := v.stamp + BitVec.ofNat 36 ((n - 1) * deltaOf v.r.cfg / 2)
      let w := resultWord v.r.late clip v.lowA seq raw
      let y := scaleResult (fOfInt fmTrav raw (-6)).val v.r.ofs v.r.gain
      let d1 := withSurv d u fun x => { x with convs := rest, seq := if v.quiet then x.seq else tabSet 0 x.seq s ((seq + 1) % 128) }
      let d2 := landDue (deliver d1 ready v.r.dst (16 + u) u s w y stamp v.quiet)
      if v.quiet then d2
      else
        let evl := fld v.r.cfg 22 20
        let d3 := if 1 ≤ evl ∧ evl ≤ 4 then raiseEvt d2 (survPage u) (evl - 1) else d2
        if clip then raiseEvt d3 (survPage u) 8 else d3

/-- A read of SURV_RESs (R89). -/
def survResRead (d : Dev) (u s : Nat) : Dev × Word :=
  let w := rd d (SURV_RES.at u s)
  (wr (wr d (SURV_RES.at u s) (setBitW w 35 false)) (SURV_RESTS.at u) (tabGet 0 (survOf d u).stamps s), w)

/-! ### Calibration, supply, readiness (R92-R94) -/

/-- PARK entry and EN = 0 (R94): requests discarded, a burst ended, a single sampled conversion completes quietly. -/
def survStop (d : Dev) (u : Nat) : Dev :=
  withSurv (landStop (pb d (SURV_STAT.RDY u) false) u (16 + u)) u fun x => { x with
    reqs := []
    convs := (x.convs.filter fun v => decide (nOf v.r.cfg = 1 ∧ v.taken = 1)).map fun v => { v with quiet := true } }

/-- START or PARK has ended: readiness is counted anew, SEQ goes on (R86, R94). -/
def survWake (d : Dev) (u : Nat) : Dev := withSurv d u fun x => { x with readyFrom := d.now }

/-- EN was written (R94). -/
def survEnable (d : Dev) (u : Nat) (en : Bool) : Dev :=
  if en then withSurv d u fun x => { x with readyFrom := d.now, seq := [] } else survStop d u

/-- SURV_READY (R94). -/
def survReady (d : Dev) (u : Nat) : Dev :=
  if gb d (FOLIO_CTL.EN (survPage u)) && convMode d && !gb d (SURV_STAT.RDY u) && decide ((survOf d u).readyFrom + 20000 ≤ d.now)
  then raiseEvt (pb d (SURV_STAT.RDY u) true) (survPage u) 12 else d

/-- SURV_CALREQ.REQ = 1 (R92). -/
def calReq (d : Dev) (u : Nat) (v : Word) : Dev := if bit v 0 then pb d (SURV_STAT.CALBUSY u) true else d

/-- CAL_DONE (R92). -/
def calDone (d : Dev) (u : Nat) : Dev :=
  if gb d (SURV_STAT.CALBUSY u) then raiseEvt (pb (pb d (SURV_STAT.CALBUSY u) false) (SURV_STAT.CAL_OK u) true) (survPage u) 10 else d

/-- LOWA of a unit under its VREF (R93). -/
def setLowA (d : Dev) (u : Nat) : Dev :=
  let b := d.vddaLow && !gb d (SURV_CTL.VREF u)
  let d1 := pb d (SURV_STAT.LOWA u) b
  if b && !gb d (SURV_STAT.LOWA u) then raiseEvt d1 (survPage u) 9 else d1

/-- VDDA crosses 2.65 V falling or 2.70 V rising (R93). -/
def vddaCross (d : Dev) (low : Bool) : Dev := forUpTo 24 (fun u d => setLowA d u) { d with vddaLow := low }

/-- Values a SURV register refuses with CFG_ERR (R80, R85, R95). -/
def badSurv (off : Nat) (v : Word) : Bool :=
  if 0x20 ≤ off ∧ off < 0x30 then decide (fld v 27 25 = 7 ∨ 5 ≤ fld v 22 20 ∨ 6 ≤ fld v 2 0)
  else if 0x30 ≤ off ∧ off < 0x40 then decide (8 ≤ fld v 15 12)
  else if 0x50 ≤ off ∧ off < 0x70 then !f32Ok (v.setWidth 32)
  else false

/-- A write that contains a field restricted to other modes (R52, R76, R92). -/
def lockSurv (d : Dev) (u off : Nat) (v : Word) : Bool :=
  if off = 0x10 then bit v 8 != gb d (SURV_CTL.VREF u) && mode d != mConfig
  else if off = 0x13 then bit v 0 && mode d != mConfig && mode d != mStandby && mode d != mRecovery
  else false

/-- A Survey register written or applied (R76, R79, R80, R92). -/
def onSurv (d : Dev) (u off : Nat) (old v : Word) : Dev :=
  if off = 0x10 then
    (if bit old 8 = bit v 8 then d else setLowA (pb d (SURV_STAT.CAL_OK u) false) u)
  else if off = 0x11 then withSurv d u fun x => { x with reqs := x.reqs.filter fun r => bit v r.slot }
  else if off = 0x12 then survSwTrig d u v
  else if off = 0x13 then calReq d u v
  else d

/-- SURV_STAT with its live BUSY bit. -/
def survStat (d : Dev) (u : Nat) : Word := setBitW (rd d (SURV_STAT.at u)) 5 (!(survOf d u).convs.isEmpty)

/-! ### Sigma-delta channels (R97-R103) -/

def withSdf (d : Dev) (n : Nat) (f : SdfSt → SdfSt) : Dev := { d with sdf := tabSet sdfInit d.sdf n (f (sdfOf d n)) }
def sdfPage (n : Nat) : Nat := 0x78 + n / 4

/-- The channel is enabled and its group on (R94, R102). -/
def sdfOn (d : Dev) (n : Nat) : Bool :=
  gb d (FOLIO_CTL.EN (sdfPage n)) && gb d (SDF_CTL.EN (n / 4) (n % 4)) && convMode d && decide ((sdfOf d n).readyFrom + 20000 ≤ d.now)

def sdfLoss (d : Dev) (n : Nat) : Bool := gbit d (SDF_STAT.CLKLOSS (n / 4)) (n % 4)
def sdfOrd (d : Dev) (n : Nat) : Nat := gf d (SDF_CTL.ORD (n / 4) (n % 4))
def sdfM (d : Dev) (n : Nat) : Nat := gf d (SDF_CTL.OSRM1 (n / 4) (n % 4)) + 1

/-- SDF_STAT (R102): CLKLOSS, FILL and RUN of the group's channels; FILL until N × M bits have entered (R98). -/
def sdfStat (d : Dev) (g : Nat) : Word :=
  (upTo 4).foldl (fun w c =>
    let n := 4 * g + c
    let fill := sdfOn d n && !sdfLoss d n && decide ((sdfOf d n).bits.length < sdfOrd d n * sdfM d n)
    setBitW (setBitW w (4 + c) fill) c (sdfOn d n && !sdfLoss d n && !fill)) (rd d (SDF_STAT.at g))

/-- The clock of a channel is watched: its filter or its fast detector, which the filter's EN does not gate, is enabled (R97, R112). -/
def sdfWatched (d : Dev) (n : Nat) : Bool :=
  gb d (FOLIO_CTL.EN (sdfPage n)) && convMode d && (gb d (SDF_CTL.EN (n / 4) (n % 4)) || gb d (SDF_FDCTL.EN (n / 4) (n % 4)))

/-- SDF_CLOCK_LOSS (R97): no SDCLK edge for 400 tk on an input clock. -/
def sdfLossDue (d : Dev) (n : Nat) : Bool :=
  sdfWatched d n && !gb d (SDF_CTL.CKOUT (n / 4) (n % 4)) && !sdfLoss d n && decide ((sdfOf d n).edgeAt + 400 ≤ d.now)
def sdfClockLoss (d : Dev) (n : Nat) : Dev :=
  if sdfLossDue d n then
    let d1 := pbit d (SDF_STAT.CLKLOSS (n / 4)) (n % 4) true
    raiseEvt (withSdf d1 n fun x => { x with bits := [], count := 0, sync := [] }) (sdfPage n) (4 * (n % 4) + 1)
  else d

/-- SDF_CLOCK_RETURN (R97, R98, R101): edges reappear; the first-use fill starts again. -/
def sdfClockReturn (d : Dev) (n : Nat) : Dev :=
  let d1 := withSdf d n fun x => { x with edgeAt := d.now }
  if sdfLoss d n then
    withSdf (pbit d1 (SDF_STAT.CLKLOSS (n / 4)) (n % 4) false) n fun x => { x with bits := [], count := 0, afterLoss := true }
  else d1

/-- The channel's configuration as it stands. -/
def sdfCfgOf (d : Dev) (n : Nat) : SdfCfg :=
  let g := n / 4
  let c := n % 4
  ⟨rd d (SDF_CTL.at g c), rd d (SDF_DEST.at g c), (rd d (SDF_GAIN.at g c)).setWidth 32, (rd d (SDF_OFS.at g c)).setWidth 32⟩

/-- The configuration that a window follows: in synchronised mode that of the trigger (R91). -/
def sdfCfgNow (d : Dev) (n : Nat) : SdfCfg :=
  if gb d (SDF_CTL.SYNC (n / 4) (n % 4)) then (sdfOf d n).cap.getD (sdfCfgOf d n) else sdfCfgOf d n

/-- A trigger in synchronised mode with trigger tick t, which takes the configuration; earlier ones whose delay still runs
go on (R91, R99). -/
def sdfTrigger (d : Dev) (n t : Nat) : Dev :=
  if sdfOn d n && gb d (SDF_CTL.SYNC (n / 4) (n % 4)) then
    withSdf d n fun x => { x with sync := x.sync ++ [(t + gf d (SDF_TRIG.DLY (n / 4) (n % 4)), sdfCfgOf d n)] }
  else d

/-- SDF_TRIGGER: a published trigger takes effect. -/
def sdfTrigEvent (d : Dev) (n : Nat) : Dev :=
  let d0 := reachAll d
  match takeTrig d0 (0x1000 + n) with
  | some (d1, t) => sdfTrigger d1 n t
  | none => d0

/-- SDF_SWTRIGc (R102): the channel is triggered in this tick, under what its groups put in force (R91). -/
def sdfSwTrig (d : Dev) (n : Nat) (v : Word) : Dev := if bit v 0 then publishTrig d swSdfCode n 0 else d

/-- Half the impulse response in ticks, rounded half away from zero (R100): N (M − 1) Tbit / 2, with Tbit the mean of `k`
bit periods that last `span` ticks together. -/
def sdfCentre (nOrd m span k : Nat) : Nat := (nOrd * (m - 1) * span + k) / (2 * k)

/-- Sums of M neighbours at every place of a list. -/
def movSum (m : Nat) : List Nat → List Nat
  | [] => []
  | x :: t => ((x :: t).take m).foldl (· + ·) 0 :: movSum m t

/-- The sinc^N output over the newest bits, newest first: N moving sums over M bits (R98). -/
def sincOut (nOrd m : Nat) (bits : List Bool) : Nat :=
  ((upTo nOrd).foldl (fun l _ => movSum m l) ((bits.take (nOrd * m)).map Bool.toNat)).headD 0

/-- A window ends with the newest bit (R98, R100, R101): its result, once N × M bits have entered the filter. -/
def sdfWindow (d : Dev) (n : Nat) : Dev :=
  let x := sdfOf d n
  let cfg := sdfCfgNow d n
  let clk := rd d (SDF_CTL.at (n / 4) (n % 4))
  let nOrd := fld cfg.ctl 25 24
  let m := fld cfg.ctl 23 16 + 1
  if x.bits.length < nOrd * m then d
  else
    let r := sincOut nOrd m (x.bits.map (·.1))
    let tLast := (x.bits.headD (false, d.now)).2
    let ago := min m (x.bits.length - 1)
    let k := if bit clk 27 then 1 else ago
    let span := if bit clk 27 then fld clk 35 28 else tLast - (x.bits.getD ago (false, tLast)).2
    let stamp := shortTs d - BitVec.ofNat 36 (d.now - tLast) - BitVec.ofNat 36 (sdfCentre nOrd m span k)
    let w := resultWord x.afterLoss (decide (r = 0 ∨ r = m ^ nOrd)) false x.seq r
    let y := scaleResult (fOfInt fmTrav r 0).val cfg.ofs cfg.gain
    deliver (withSdf d n fun x => { x with afterLoss := false, seq := (x.seq + 1) % 128 })
      (tLast + if bit clk 27 then 4 else 7) cfg.dst n (24 + n) 0 w y stamp false

/-- A bit sampled at tick `t` enters the filter (R98, R99): the first one at or after T + DLY resets the decimation counter. -/
def sdfBit (d : Dev) (n t : Nat) (b : Bool) : Dev :=
  let d1 := withSdf d n fun x =>
    let y := { x with bits := ((b, t) :: x.bits).take 769 }
    match (x.sync.filter fun e => decide (e.1 ≤ t)).getLast? with
    | some e => { y with sync := x.sync.filter fun e => decide (t < e.1), cap := some e.2, count := 0 }
    | none => { y with count := x.count + 1 }
  let x := sdfOf d1 n
  if fld (sdfCfgNow d1 n).ctl 23 16 + 1 ≤ x.count then sdfWindow (withSdf d1 n fun x => { x with count := 0 }) n else d1

/-- The channel begins to drive SDCLKn at 1 GHz / CDIV (R97); the phase of its edges is open (log entry 169). -/
def sdClockStart (d : Dev) (n : Nat) : Dev :=
  let (d1, w) := takeFree d
  withSdf d1 n fun x => { x with clkFrom := d.now + w.toNat % gf d (SDF_CTL.CDIV (n / 4) (n % 4)) }

/-- Tick `t` is an edge of SDCLKn at which the channel may sample: any of an input clock, every CDIV ticks of its own (R97). -/
def sdEdgeAt (d : Dev) (n t : Nat) : Bool :=
  !gb d (SDF_CTL.CKOUT (n / 4) (n % 4)) ||
    (decide ((sdfOf d n).clkFrom ≤ t) && decide ((t - (sdfOf d n).clkFrom) % gf d (SDF_CTL.CDIV (n / 4) (n % 4)) = 0))

/-- The bits that edges of SDCLK sample: SDDAT at the edge that CKEDGE selects (R97), with their ticks. -/
def sdSamples (d : Dev) (n : Nat) (edges : List SdEdge) : List (Bool × Nat) :=
  (edges.filter fun e => e.falling == gb d (SDF_CTL.CKEDGE (n / 4) (n % 4)) && sdEdgeAt d n (d.now - e.age)).map
    fun e => (e.level, d.now - e.age)

/-- Edges of SDCLK have come: the clock is present until 400 tk after the last (R97). -/
def sdSeen (d : Dev) (n : Nat) (edges : List SdEdge) : Dev :=
  withSdf d n fun x => { x with edgeAt := edges.foldl (fun t e => max t (d.now - e.age)) x.edgeAt }

/-- SDF_RESULT (R97-R101): the edges of SDCLK since the last result, oldest first, with the level of SDDAT at each; every
window that ends among them gives a result. -/
def sdfResult (d : Dev) (n : Nat) (edges : List SdEdge) : Dev :=
  if sdfLoss d n then d
  else
    let d1 := sdSeen d n edges
    if sdfOn d n then landDue ((sdSamples d n edges).foldl (fun d e => sdfBit d n e.2 e.1) d1) else d1

/-- A read of SDF_RESc (R102). -/
def sdfResRead (d : Dev) (n : Nat) : Dev × Word :=
  let w := rd d (SDF_RES.at (n / 4) (n % 4))
  (wr (wr d (SDF_RES.at (n / 4) (n % 4)) (setBitW w 35 false)) (SDF_RESTS.at (n / 4) (n % 4)) (sdfOf d n).stamp, w)

/-- Values the channel registers refuse with CFG_ERR (R102). -/
def badSdf (off : Nat) (v : Word) : Bool :=
  if 0x10 ≤ off ∧ off < 0x50 then
    let b := off % 16
    if b = 0 then decide (fld v 35 28 < 40 ∨ fld v 25 24 = 0 ∨ fld v 23 16 < 7)
    else if b = 1 then decide (7 ≤ fld v 15 12)
    else if b = 3 ∨ b = 4 then !f32Ok (v.setWidth 32)
    else false
  else false

/-- A channel enabled, or its group enabled or woken: first-use rule (R98), no trigger taken. -/
def SdfSt.fresh (x : SdfSt) : SdfSt := { x with bits := [], count := 0, sync := [], cap := none }

/-- A channel starts; its clock is watched from now on, unless it was before (R97). -/
def sdfStart (d : Dev) (n : Nat) (watched : Bool) : Dev :=
  withSdf d n fun x => { x.fresh with edgeAt := if watched then x.edgeAt else d.now }

/-- START or PARK has ended for a group (R86, R94, R98). -/
def sdfWake (d : Dev) (g : Nat) : Dev :=
  forUpTo 4 (fun c d => withSdf d (4 * g + c) fun x => { x.fresh with readyFrom := d.now, edgeAt := d.now }) d

/-- A group's EN written, or PARK entered (R94). -/
def sdfEnable (d : Dev) (g : Nat) (en : Bool) : Dev :=
  forUpTo 4 (fun c d =>
    let n := 4 * g + c
    if en then withSdf d n fun x => { x.fresh with readyFrom := d.now, edgeAt := d.now, seq := 0 }
    else withSdf (landStop d (24 + n) n) n fun x => x.fresh) d

/-- An SDF register written or applied. -/
def onSdf (d : Dev) (g off : Nat) (old v : Word) : Dev :=
  if 0x10 ≤ off ∧ off < 0x50 then
    let n := 4 * g + (off - 0x10) / 16
    if off % 16 = 0 then
      let fd := gb d (SDF_FDCTL.EN g (n % 4))
      let d := if bit v 27 && (!bit old 27 || decide (fld v 35 28 ≠ fld old 35 28 ∨ fld v 26 26 ≠ fld old 26 26)) then sdClockStart d n else d
      (if bit v 14 && !bit old 14 then withSdf (sdfStart d n fd) n fun x => { x with seq := 0 }
       else if !bit v 14 && bit old 14 then
         sdfStart (landStop (if sdfWatched d n then d else pbit d (SDF_STAT.CLKLOSS g) (n % 4) false) (24 + n) n) n fd
       else if bit old 27 && !bit v 27 then withSdf d n fun x => { x with edgeAt := d.now }
       else d)
    else if off % 16 = 7 then sdfSwTrig d n v
    else d
  else d

end Sys2Proof.Machine
end

