-- ==== Sys2Proof/Machine/Contour.lean ====
section
/-!
DEFINITION. Contour comparators and sigma-delta fast detectors (chapter 05, R104-R112, R128-R129).
-/
namespace Sys2Proof.Machine

def compInit : CompSt := ⟨0xFFF, 0, [], [], 0, false, none, none, none⟩
def compOf (d : Dev) (k : Nat) : CompSt := tabGet compInit d.comp k
def withComp (d : Dev) (k : Nat) (f : CompSt → CompSt) : Dev := { d with comp := tabSet compInit d.comp k (f (compOf d k)) }
def contPage (g : Nat) : Nat := 0x7C + g

def contHi (d : Dev) (k : Nat) : Bool := gbit d (CONT_LEVEL.HI (k / 16)) (k % 16)
def contLo (d : Dev) (k : Nat) : Bool := gbit d (CONT_LEVEL.LO (k / 16)) (k % 16)
def contBlanked (d : Dev) (k : Nat) : Bool := gbit d (CONT_STAT.BLANKED (k / 16)) (k % 16)

/-- The comparator evaluates its inputs (R107). -/
def compOn (d : Dev) (k : Nat) : Bool := gb d (CONT_CFG.EN (k / 16) (k % 16)) && gb d (CONT_STAT.RDY (k / 16))

/-- The comparator measures commutation for pair `n` of Forme `f` (R107, R160). -/
def compComm (d : Dev) (k f n : Nat) : Bool :=
  compOn d k && gb d (CONT_CFG.MODE (k / 16) (k % 16)) && gf d (CONT_CFG.FORME (k / 16) (k % 16)) == f
    && gf d (CONT_CFG.PAIR (k / 16) (k % 16)) == n

/-- What TRIPSEL presents of HI and LO (R107). -/
def tripSel (sel : Nat) (hi lo : Bool) : Bool := match sel with
  | 1 => hi
  | 2 => lo
  | 3 => hi || lo
  | _ => false

/-- Event sources and trip source follow HI, LO and blanking (R107, R108, R131). -/
def contOutputs (d : Dev) (k : Nat) : Dev :=
  let hi := contHi d k
  let lo := contLo d k
  let bl := contBlanked d k
  let pass := !(bl && (compOf d k).blkEv)
  let d1 := setLevel (setLevel (setLevel d (896 + 4 * k) (hi && pass)) (897 + 4 * k) (lo && pass)) (898 + 4 * k) ((hi || lo) && pass)
  setLive d1 k (compOn d k && !gb d (CONT_CFG.MODE (k / 16) (k % 16)) && !bl && tripSel (gf d (CONT_CFG.TRIPSEL (k / 16) (k % 16))) hi lo)

/-! ### Thresholds in use (R109, R110) -/

/-- Loads settled by `now`: the value the last of them left, and the loads still moving. A threshold on its way to a newer
load never moves back toward an older one (R110). -/
def settleLoads (now use : Nat) : List (Nat × Nat) → Nat × List (Nat × Nat)
  | [] => (use, [])
  | (t, v) :: r =>
    if t ≤ now then
      let w := (r.getLast?.map (·.2)).getD v
      settleLoads now (if min use w ≤ v ∧ v ≤ max use w then v else use) r
    else (use, (t, v) :: r)

/-- A threshold that moves to its newest load: at a free place between its present value and the new one (R110). -/
def moveThr (d : Dev) (use : Nat) (loads : List (Nat × Nat)) : Dev × Nat × List (Nat × Nat) :=
  let (u, rest) := settleLoads d.now use loads
  match rest.getLast? with
  | none => (d, u, [])
  | some (_, v) =>
    let (d1, w) := takeFree d
    let lo := min u v
    (d1, lo + w.toNat % (max u v - lo + 1), rest)

/-- H_eff at the present tick (R109). -/
def hEff (d : Dev) (k : Nat) : Nat :=
  let h := gf d (CONT_THR.THRH (k / 16) (k % 16))
  match (compOf d k).ramp with
  | some (t0, slope, _) => h - slope * (d.now - t0) / 65536
  | none => h

/-- Ticks in which a ramp load of the DAC settles (chapter 22). -/
def dacSettle : Nat := 30

/-! ### Measurement results (R160) -/

def outInit : OutSt := ⟨false, 0, 0, none, none, none⟩
def never : Word := 0x1FFFFFFF#36
def pairInit : PairSt where
  shA := never
  shB := never
  shHt := 0
  unoffered := false
  lates := []
  landAt := 0
  rankA := 0
  rankB := 0
  rankHA := 0
  rankHB := 0
  groupOffer := false
  nextA := none
  nextB := none
  accA := 0
  accB := 0
  carryA := false
  carryB := false
  firedA := false
  firedB := false
  ref := false
  oa := outInit
  ob := outInit
  first := true
  resume := false
  trip := false
  resumedAt := none
  guardUp := none
  guardDn := none
  guardRec := false
  measUp := none
  measDn := none
  ilk := false
  nomeasTold := false
  edgeDue := []
  src := 2
def formeInit : FormeSt := ⟨none, 0, 100, 1, 0, 0, false, false, false, [], []⟩

/-- A measurement of `m` ticks (0xFFF: hard-switched) reaches the companion pair; the comparator that FORME_TRIMn.CMP
names feeds the trim (R161, R162). -/
def giveMeas (d : Dev) (k : Nat) (rising : Bool) (m : Nat) : Dev :=
  let f := gf d (CONT_CFG.FORME (k / 16) (k % 16))
  let n := gf d (CONT_CFG.PAIR (k / 16) (k % 16))
  pf d (if rising then FORME_GMEAS.MUP f n else FORME_GMEAS.MDN f n) (min 0xFFF m)

/-- The trim's record of the period (R161). -/
def noteMeas (d : Dev) (k : Nat) (rising : Bool) (m : Nat) : Dev :=
  let f := gf d (CONT_CFG.FORME (k / 16) (k % 16))
  let n := gf d (CONT_CFG.PAIR (k / 16) (k % 16))
  if gf d (FORME_TRIM.CMP f n) = k then
    let fs := tabGet formeInit d.forme f
    let p := tabGet pairInit fs.pairs n
    let p' := if rising then { p with measUp := some m } else { p with measDn := some m }
    { d with forme := tabSet formeInit d.forme f { fs with pairs := tabSet pairInit fs.pairs n p' } }
  else d

/-- A measurement ends with the first tick of HI (rising) or LO (falling) (R160). -/
def endMeas (d : Dev) (k : Nat) : Dev :=
  match (compOf d k).meas with
  | none => d
  | some m =>
    let open_ := match m.closed with
      | none => true
      | some t => decide (t = d.now)
    if !open_ then withComp d k fun c => { c with meas := none }
    else if (if m.rising then contHi d k else contLo d k) then
      let len := d.now - m.start
      drive (noteMeas (giveMeas (withComp d k fun c => { c with meas := none }) k m.rising len) k m.rising len)
        (899 + 4 * k)
    else d

/-! ### The compared quantity (R104, R105) -/

/-- VREF of a group in microvolts (R105). -/
def vrefOf (d : Dev) (g : Nat) : Nat := if gb d (CONT_GCTL.VREF g) then 1500000 else 2500000

/-- Pins that PSEL and NSEL select, AIN numbers; no negative pin: AGND (R104). -/
def posPin (d : Dev) (k : Nat) : Nat := 36 * (k / 16) + gf d (CONT_CFG.PSEL (k / 16) (k % 16))
def negPin (d : Dev) (k : Nat) : Option Nat :=
  let n := gf d (CONT_CFG.NSEL (k / 16) (k % 16))
  if n = 0x3F then none else some (36 * (k / 16) + n)

/-- VREF × q, exactly: q is the compared quantity in DAC codes (R105). -/
def qScaled (d : Dev) (k : Nat) : Int :=
  let v := fun (p : Nat) => ((tabGet 0 d.ain p : Nat) : Int)
  match negPin d k with
  | none => v (posPin d k) * 4096
  | some p => (v (posPin d k) - v p) * 4096 + 2048 * (vrefOf d (k / 16) : Int)

/-- HI and LO under thresholds `hu` and `lu` (R106, R107). -/
def contSides (d : Dev) (k hu lu : Nat) : Bool × Bool :=
  let v : Int := vrefOf d (k / 16)
  let q := qScaled d k
  let h := (gf d (CONT_CFG.HYS (k / 16) (k % 16)) : Int)
  let on := compOn d k
  (on && (decide (q > hu * v) || (contHi d k && decide (q ≥ (hu - h) * v))),
   on && (decide (q < lu * v) || (contLo d k && decide (q ≤ (lu + h) * v))))

/-- The comparator evaluates HI and LO with the thresholds in use (R106, R107). -/
def contEval (d : Dev) (k : Nat) : Dev :=
  let c := compOf d k
  let (d1, hu, hl) := moveThr d c.hUse c.hLoads
  let (d2, lu, ll) := moveThr d1 c.lUse c.lLoads
  let d3 := withComp d2 k fun x => { x with hUse := hu, hLoads := hl, lUse := lu, lLoads := ll }
  let s := contSides d k hu lu
  let d4 := pbit (pbit d3 (CONT_LEVEL.HI (k / 16)) (k % 16) s.1) (CONT_LEVEL.LO (k / 16)) (k % 16) s.2
  endMeas (contOutputs (if compOn d k then d4 else withComp d4 k fun x => { x with meas := none }) k) k

/-- The voltage at a pin changes. -/
def setAin (d : Dev) (p v : Nat) : Dev := { d with ain := tabSet 0 d.ain p v }

/-- CONTOUR_CROSSING: the pins that the comparator compares are now at `vp` and `vn` microvolts (R104-R107). -/
def contourCrossing (d : Dev) (k vp vn : Nat) : Dev :=
  let d1 := setAin d (posPin d k) vp
  contEval (match negPin d k with
    | some p => setAin d1 p vn
    | none => d1) k

/-- The voltage at the comparator's positive and negative pin. -/
def pinVolts (d : Dev) (k : Nat) : Nat × Nat := (tabGet 0 d.ain (posPin d k), match negPin d k with
  | some p => tabGet 0 d.ain p
  | none => 0)

/-! ### Blanking and slope (R108, R109) -/

/-- A selected edge of the companion pair starts or restarts the window, which takes BLKEV; the source is masked from this
tick on, a rise of the tick as well (R108, R110, R121). -/
def blankStart (d : Dev) (k : Nat) : Dev :=
  let len := gf d (CONT_BLANK.BLK (k / 16) (k % 16))
  if len = 0 then d
  else
    let ev := gb d (CONT_BLANK.BLKEV (k / 16) (k % 16))
    let d1 := pbit (withComp d k fun c => { c with blankTo := d.now + len, blkEv := ev }) (CONT_STAT.BLANKED (k / 16)) (k % 16) true
    let d2 := contOutputs { d1 with trip := { d1.trip with due := d1.trip.due.filter fun e => decide (e ≠ (k, d.now)) } } k
    { d2 with trip := { d2.trip with fell := tabErase d2.trip.fell k } }

/-- BLANKING_END. -/
def blankingDue (d : Dev) (k : Nat) : Bool := contBlanked d k && decide ((compOf d k).blankTo ≤ d.now)
def blankingEnd (d : Dev) (k : Nat) : Dev :=
  if blankingDue d k then contOutputs (pbit d (CONT_STAT.BLANKED (k / 16)) (k % 16) false) k else d

/-- A start event of RSTART code `e`; between the end of a ramp under the old RSTART and the first event of another new one
H_eff = H (R109; log entry 170). -/
def slopeEvent (d : Dev) (k e : Nat) : Dev :=
  let w := rd d (CONT_SLOPE.at (k / 16) (k % 16))
  let c := compOf d k
  let follows := match c.ramp with
    | some (_, _, r) => decide (r = e)
    | none => decide (fld w 17 16 = e)
  if follows then
    let ramp := if fld w 17 16 = e then some (d.now, fld w 15 0, e) else none
    let h := gf d (CONT_THR.THRH (k / 16) (k % 16))
    withComp d k fun x => { x with ramp := ramp, loadAt := none
                                   hLoads := if ramp.isNone then x.hLoads ++ [(d.now + dacSettle, h)] else x.hLoads }
  else d

/-- SLOPE_DAC_LOAD: at t0 and every 4 tk after it (R109). -/
def slopeLoadDue (d : Dev) (k : Nat) : Bool := match (compOf d k).ramp with
  | some (t0, _, _) => decide ((d.now - t0) % 4 = 0 ∧ (compOf d k).loadAt ≠ some d.now)
  | none => false
def slopeDacLoad (d : Dev) (k : Nat) : Dev :=
  if slopeLoadDue d k then
    contEval (withComp d k fun c => { c with loadAt := some d.now, hLoads := c.hLoads ++ [(d.now + dacSettle, hEff d k)] }) k
  else d

/-- Pin-edge signal of a pair: 0 A rising, 1 A falling, 2 B rising, 3 B falling (R171): blanking and slope starts. -/
def contPinEdge (d : Dev) (f n e : Nat) : Dev :=
  forUpTo 64 (fun k d =>
    if gf d (CONT_CFG.FORME (k / 16) (k % 16)) = f ∧ gf d (CONT_CFG.PAIR (k / 16) (k % 16)) = n then
      let d1 := if bit (rd d (CONT_BLANK.at (k / 16) (k % 16))) (8 + e) then blankStart d k else d
      if e = 0 then slopeEvent d1 k 2 else if e = 2 then slopeEvent d1 k 3 else d1
    else d) d

/-- A period boundary of Forme `f` starts the ramps that name it (R109). -/
def contBoundary (d : Dev) (f : Nat) : Dev :=
  forUpTo 64 (fun k d => if gf d (CONT_CFG.FORME (k / 16) (k % 16)) = f then slopeEvent d k 1 else d) d

/-- Commutation measurements of a transition of pair `n` start (R160). -/
def commStart (d : Dev) (f n : Nat) (rising : Bool) : Dev :=
  forUpTo 64 (fun k d =>
    if compComm d k f n then endMeas (withComp d k fun c => { c with meas := some ⟨rising, d.now, none⟩ }) k else d) d

/-- The on-going output turns on: an open measurement ends hard-switched, unless its end falls in this tick (R160). -/
def commTurnOn (d : Dev) (f n : Nat) (rising : Bool) : Dev :=
  forUpTo 64 (fun k d =>
    match (compOf d k).meas with
    | some m => if compComm d k f n && m.rising == rising && m.closed.isNone
        then giveMeas (withComp d k fun c => { c with meas := some { m with closed := some d.now } }) k rising 0xFFF else d
    | none => d) d

/-- A transition that was cancelled yields no measurement. -/
def commAbort (d : Dev) (f n : Nat) : Dev :=
  forUpTo 64 (fun k d => if compComm d k f n then withComp d k fun c => { c with meas := none } else d) d

/-! ### Groups (R110, R111) -/

/-- LOWA of a group under its VREF (R111). -/
def setContLow (d : Dev) (g : Nat) : Dev :=
  let b := d.vddaLow && !gb d (CONT_GCTL.VREF g)
  let d1 := pb d (CONT_STAT.LOWA g) b
  if b && !gb d (CONT_STAT.LOWA g) then raiseEvt d1 (contPage g) 1 else d1

def contGroupEval (d : Dev) (g : Nat) : Dev := forUpTo 16 (fun c d => contEval d (16 * g + c)) d

/-- CONTOUR_READY (R111). -/
def contourReadyDue (d : Dev) (g : Nat) : Bool :=
  gb d (FOLIO_CTL.EN (contPage g)) && convMode d && !gb d (CONT_STAT.RDY g) && decide (tabGet 0 d.contFrom g + 10000 ≤ d.now)
def contourReady (d : Dev) (g : Nat) : Dev :=
  if contourReadyDue d g then contGroupEval (raiseEvt (pb d (CONT_STAT.RDY g) true) (contPage g) 2) g else d

/-- EN of a group written, PARK entry or wake (R107, R111, R127). -/
def contEnable (d : Dev) (g : Nat) (en : Bool) : Dev :=
  if en then { d with contFrom := tabSet 0 d.contFrom g d.now }
  else contGroupEval (pb d (CONT_STAT.RDY g) false) g

/-- Values CONT registers refuse with CFG_ERR (R104, R128). -/
def badCont (off : Nat) (v : Word) : Bool :=
  if 0x20 ≤ off ∧ off < 0x30 then decide (36 ≤ fld v 31 26) || decide (36 ≤ fld v 25 20 ∧ fld v 25 20 ≠ 0x3F) else false

/-- VREF changes in CONFIG alone (R105). -/
def lockCont (d : Dev) (g off : Nat) (v : Word) : Bool :=
  off = 0x10 && bit v 0 != gb d (CONT_GCTL.VREF g) && mode d != mConfig

/-- A CONT register written or applied (R105, R109, R110). -/
def onCont (d : Dev) (g off : Nat) (old v : Word) : Dev :=
  let k := 16 * g + off % 16
  if off = 0x10 then setContLow d g
  else if 0x20 ≤ off ∧ off < 0x30 then contEval d k
  else if 0x30 ≤ off ∧ off < 0x40 then
    contEval (withComp d k fun c => { c with
      hLoads := if c.ramp.isNone && fld old 27 16 != fld v 27 16 then c.hLoads ++ [(d.now + 40, fld v 27 16)] else c.hLoads
      lLoads := if fld old 11 0 = fld v 11 0 then c.lLoads else c.lLoads ++ [(d.now + 40, fld v 11 0)] }) k
  else if 0x40 ≤ off ∧ off < 0x50 then contOutputs d k
  else d

/-- A threshold on its way has settled (R110), or HI or LO do not yet follow the pins, which comparators share (R104): the
crossing is due. -/
def contSettleDue (d : Dev) (k : Nat) : Bool :=
  let c := compOf d k
  compOn d k && (c.hLoads.any (fun e => decide (e.1 ≤ d.now)) || c.lLoads.any (fun e => decide (e.1 ≤ d.now)) ||
    (c.hLoads.isEmpty && c.lLoads.isEmpty && contSides d k c.hUse c.lUse != (contHi d k, contLo d k)))

/-- CONT group after a block reset. -/
def contReset (d : Dev) (g : Nat) : Dev :=
  contGroupEval (forUpTo 16 (fun c d => withComp d (16 * g + c) fun _ => compInit) d) g

/-! ### Sigma-delta fast detectors (R112, R129) -/

def fdInit : FdSt := ⟨[], 0, 0, 0, 0⟩
def fdOf (d : Dev) (n : Nat) : FdSt := tabGet fdInit d.fd n
def withFd (d : Dev) (n : Nat) (f : FdSt → FdSt) : Dev := { d with fd := tabSet fdInit d.fd n (f (fdOf d n)) }

/-- The detector works: FDCTL.EN and its group's EN, in a mode that allows conversion (R94, R112). -/
def fdOn (d : Dev) (n : Nat) : Bool :=
  gb d (SDF_FDCTL.EN (n / 4) (n % 4)) && gb d (FOLIO_CTL.EN (sdfPage n)) && convMode d

/-- The channel has delivered FM bits since its clock was last present (R112). -/
def fdFull (d : Dev) (n : Nat) : Bool := decide (gf d (SDF_FDCTL.FM (n / 4) (n % 4)) ≤ (fdOf d n).bits.length)

/-- Source 64 + n and FDSTAT.LOSS follow the detector (R112). -/
def fdOutputs (d : Dev) (n : Nat) : Dev :=
  let g := n / 4
  let c := n % 4
  let loss := sdfLoss d n
  let d1 := pbit d (SDF_FDSTAT.LOSS g) c loss
  let d2 := if loss then pbit (pbit d1 (SDF_FDSTAT.HI g) c false) (SDF_FDSTAT.LO g) c false else d1
  setLive d2 (64 + n) (fdOn d n && if loss then gb d (SDF_FDCTL.LOSSTRIP g c)
    else fdFull d n && tripSel (gf d (SDF_FDCTL.TRIPSEL g c)) (gbit d2 (SDF_FDSTAT.HI g) c) (gbit d2 (SDF_FDSTAT.LO g) c))

/-- One bit: the ones among the last FM bits are counted; a side that has held for PERS + 1 bits sets or clears its output. -/
def fdBit (d : Dev) (n : Nat) (b : Bool) : Dev :=
  let g := n / 4
  let c := n % 4
  let fm := gf d (SDF_FDCTL.FM g c)
  let x := fdOf d n
  let bits := (b :: x.bits).take 32
  if bits.length < fm then withFd d n fun _ => { fdInit with bits := bits }
  else
    let cnt := (bits.take fm).countP id
    let hi := gf d (SDF_FDTHR.FDHI g c)
    let lo := gf d (SDF_FDTHR.FDLO g c)
    let run := fun (k : Nat) (p : Bool) => if p then k + 1 else 0
    let y : FdSt := ⟨bits, run x.geHi (decide (hi ≤ cnt)), run x.ltHi (decide (cnt < hi)), run x.leLo (decide (cnt ≤ lo)), run x.gtLo (decide (lo < cnt))⟩
    let pers := gf d (SDF_FDCTL.PERS g c) + 1
    let side := fun (d : Dev) (f : Fd) (up dn : Nat) => if pers ≤ up then pbit d f c true else if pers ≤ dn then pbit d f c false else d
    fdOutputs (side (side (withFd d n fun _ => y) (SDF_FDSTAT.HI g) y.geHi y.ltHi) (SDF_FDSTAT.LO g) y.leLo y.gtLo) n

/-- FAST_DETECTOR_CHANGE: the edges of SDCLK that the detector has not yet seen, oldest first, with the level of SDDAT at
each (R97, R112). -/
def fastDetector (d : Dev) (n : Nat) (edges : List SdEdge) : Dev :=
  if sdfLoss d n || !fdOn d n then d
  else (sdSamples d n edges).foldl (fun d e => fdBit d n e.1) (sdSeen d n edges)

/-- The clock was lost or came back: FM bits must be delivered afresh (R112). -/
def fdClock (d : Dev) (n : Nat) : Dev := fdOutputs (withFd d n fun _ => fdInit) n

/-- The fast detector sees a change of CLKLOSS (R112, R129). -/
def sdfSeen (before d : Dev) (n : Nat) : Dev := if sdfLoss d n = sdfLoss before n then d else fdClock d n

/-- The group is switched on or off, or PARK is entered: its detectors start over (R94, R112, R127). -/
def fdGroup (d : Dev) (g : Nat) : Dev :=
  forUpTo 4 (fun c d => fdClock (pbit (pbit d (SDF_FDSTAT.HI g) c false) (SDF_FDSTAT.LO g) c false) (4 * g + c)) d

/-- FDCTL values refused with CFG_ERR (R129). -/
def badFd (off : Nat) (v : Word) : Bool :=
  if 0x50 ≤ off ∧ off < 0x54 then decide (fld v 21 16 < 4 ∨ 32 < fld v 21 16) else false

/-- FDHI and FDLO count up to 32 (R112); other encodings of the guarded register are RANGE (R62). -/
def badFdThr (off : Nat) (v : Word) : Bool :=
  decide (0x54 ≤ off ∧ off < 0x58) && decide (32 < fld v 21 16 ∨ 32 < fld v 5 0)

/-- FDCTL or FDTHR applied (R112). -/
def onFd (d : Dev) (g off : Nat) (old v : Word) : Dev :=
  if 0x50 ≤ off ∧ off < 0x54 then
    let n := 4 * g + off % 4
    if bit v 35 && bit old 35 then fdOutputs d n
    else
      -- the clock is watched from now on, unless the filter had it watched (R97)
      let d1 := if bit v 35 && !gb d (SDF_CTL.EN g (off % 4)) then withSdf d n fun x => { x with edgeAt := d.now }
        else if sdfWatched d n then d else pbit d (SDF_STAT.CLKLOSS g) (off % 4) false
      fdClock (pbit (pbit d1 (SDF_FDSTAT.HI g) (off % 4) false) (SDF_FDSTAT.LO g) (off % 4) false) n
  else d

end Sys2Proof.Machine
end

