-- ==== Sys2Proof/Machine/FormePair.lean ====
section
/-!
DEFINITION. Forme pairs: gutters, minimum pulse, trips, interlock and pads (chapter 07, R152-R174). Times inside a tick
are in 1/32 tick.
-/
namespace Sys2Proof.Machine

def formeOf (d : Dev) (f : Nat) : FormeSt := tabGet formeInit d.forme f
def withForme (d : Dev) (f : Nat) (g : FormeSt → FormeSt) : Dev := { d with forme := tabSet formeInit d.forme f (g (formeOf d f)) }
def pairOf (d : Dev) (f n : Nat) : PairSt := tabGet pairInit (formeOf d f).pairs n
def withPair (d : Dev) (f n : Nat) (g : PairSt → PairSt) : Dev :=
  withForme d f fun x => { x with pairs := tabSet pairInit x.pairs n (g (tabGet pairInit x.pairs n)) }
def formePage (f : Nat) : Nat := 0x40 + f
def formeEvt (d : Dev) (f k : Nat) : Dev := raiseEvt d (formePage f) k

/-- FORME_STAT.CST. -/
def cst (d : Dev) (f : Nat) : Nat := gf d (FORME_STAT.CST f)
/-- The counter runs: RUNNING or STOPPING. -/
def counting (d : Dev) (f : Nat) : Bool := decide (2 ≤ cst d f)

/-- Class A or BACT holds the outputs of Forme `f` off (R118). -/
def tripOff (d : Dev) (f : Nat) : Bool := gb d (TRIPNET_FSTAT.A f) || gb d (TRIPNET_FSTAT.BACT f)

def PairSt.out (p : PairSt) (b : Bool) : OutSt := if b then p.ob else p.oa
def PairSt.setOutSt (p : PairSt) (b : Bool) (o : OutSt) : PairSt := if b then { p with ob := o } else { p with oa := o }
def withOut (d : Dev) (f n : Nat) (b : Bool) (g : OutSt → OutSt) : Dev := withPair d f n fun p => p.setOutSt b (g (p.out b))

/-- The pair is held off (R154, R167, R169). -/
def PairSt.held (p : PairSt) : Bool := p.first || p.resume || p.trip

def pmode (d : Dev) (f n : Nat) : Nat := gf d (FORME_PCFG.PMODE f n)
/-- The interlock of the pair is enabled (R164). -/
def ilkOn (d : Dev) (f n : Nat) : Bool := !gbit d (FORME_ILK.DIS f) n
def minOn (d : Dev) (f : Nat) : Nat := 32 * gf d (FORME_MINP.MIN f)

/-! ### Gutters (R155-R157, R161, R162) -/

/-- The guard gutter is in force for the gutter of a transition (R157). -/
def guardOn (p : PairSt) (rising : Bool) : Bool := p.guardRec || (if rising then p.guardUp else p.guardDn).isSome

/-- Geff of a transition in 1/32 tick (R155, R164). -/
def gEff (d : Dev) (f n : Nat) (rising : Bool) : Nat :=
  let p := pairOf d f n
  let ov := pmode d f n == 2
  let prog := (rd d (if rising then FORME_GUTUP.at f n else FORME_GUTDN.at f n)).toNat % 2 ^ 17
  let act := gf d (if rising then FORME_GACT.UP f n else FORME_GACT.DN f n)
  let g := if guardOn p rising then gf d (FORME_GUARD.GUT f) else if ov then prog else act
  if ov then g else max g (32 * gf d (if rising then FORME_GFLOOR.FLUP f n else FORME_GFLOOR.FLDN f n))

/-- GACT takes the programmed value (R156, R162). -/
def gactProg (d : Dev) (f n : Nat) (rising : Bool) : Dev :=
  pf d (if rising then FORME_GACT.UP f n else FORME_GACT.DN f n) ((rd d (if rising then FORME_GUTUP.at f n else FORME_GUTDN.at f n)).toNat % 2 ^ 17)

/-- Trim is enabled without a usable comparator (R162). -/
def noMeas (d : Dev) (f n : Nat) : Bool := gb d (FORME_TRIM.EN f n) && !compComm d (gf d (FORME_TRIM.CMP f n)) f n

/-- NOMEAS is raised once per enable (R162). -/
def noMeasCheck (d : Dev) (f n : Nat) : Dev :=
  if noMeas d f n && !(pairOf d f n).nomeasTold then formeEvt (withPair d f n fun p => { p with nomeasTold := true }) f 27 else d

/-- Every pair is judged so when a comparator changes (R162). -/
def noMeasAll (d : Dev) : Dev := forUpTo 64 (fun k d => noMeasCheck d (k / 4) (k % 4)) d

/-- Trim runs (R157, R161, R162). -/
def trimming (d : Dev) (f n : Nat) : Bool :=
  let p := pairOf d f n
  gb d (FORME_TRIM.EN f n) && pmode d f n == 0 && !p.guardRec && p.guardUp.isNone && p.guardDn.isNone && !noMeas d f n
    && counting d f && mode d != mPark && mode d != mRecovery

/-- One gutter moves by at most one tick toward its target (R161). -/
def trimGutter (d : Dev) (f n : Nat) (rising : Bool) (m : Option Nat) : Dev × Bool :=
  match m with
  | none => (d, false)
  | some m =>
    if gb d (if rising then FORME_TRIM.UPEN f n else FORME_TRIM.DNEN f n) then
      let fd := if rising then FORME_GACT.UP f n else FORME_GACT.DN f n
      let floor := gf d (if rising then FORME_GFLOOR.FLUP f n else FORME_GFLOOR.FLDN f n)
      let hi := max (gf d (if rising then FORME_GCEIL.CLUP f n else FORME_GCEIL.CLDN f n)) floor
      let target := min (max (m + gf d (FORME_TRIM.MARGIN f n)) floor) hi
      let g := gf d fd
      let t := g / 32
      let t' := if t < target then t + 1 else if target < t then t - 1 else t
      (pf d fd (32 * t' + g % 32), decide (t' ≠ t ∧ (t' = floor ∨ t' = hi)))
    else (d, false)

/-- The trim of one pair at a boundary (R161). -/
def trimPair (d : Dev) (f n : Nat) : Dev :=
  let p := pairOf d f n
  let d1 := withPair (noMeasCheck d f n) f n fun x => { x with measUp := none, measDn := none }
  if trimming d f n then
    let (d2, a) := trimGutter d1 f n true p.measUp
    let (d3, b) := trimGutter d2 f n false p.measDn
    let d4 := if a then formeEvt d3 f 24 else d3
    if b then formeEvt d4 f 24 else d4
  else d1

/-- The guard gutter comes into force for a pair (R157). -/
def guardIn (d : Dev) (f n : Nat) (g : PairSt → PairSt) : Dev := formeEvt (withPair d f n g) f 26

/-- RECOVERY brings the guard gutter into force for every pair (R157). -/
def guardRecovery (d : Dev) : Dev :=
  forUpTo 16 (fun f d => forUpTo 4 (fun n d =>
    if (pairOf d f n).guardRec then d else guardIn d f n fun p => { p with guardRec := true }) d) d

/-- A vote failure of GUTUP or GUTDN (R157): only a value written from now on ends the guard gutter, not one that waits in
the shadow; with trim off GACT keeps following the register (R162). -/
def guardVote (d : Dev) (f n : Nat) (rising : Bool) : Dev :=
  let key := if rising then FORME_GUTUP.at f n else FORME_GUTDN.at f n
  let landed := match tabFind d.folio.shadows key with
    | some s => s.landed.any fun e => decide (e.1 = d.now)
    | none => false
  let from_ := some (d.now + landed.toNat)
  let set := fun (p : PairSt) => if rising then { p with guardUp := from_ } else { p with guardDn := from_ }
  let d := if gb d (FORME_TRIM.EN f n) then d else gactProg d f n rising
  if guardOn (pairOf d f n) rising then withPair d f n set else guardIn d f n set

/-- A gutter register applied: the guard gutter of a vote failure ends with a value written after it (R157). -/
def guardEnd (took : Nat) (g : Option Nat) : Option Nat := g.filter fun t => decide (took < t)

/-- On leaving RECOVERY a pair returns to its programmed gutters at the next boundary (R157). -/
def guardLeave (d : Dev) (f n : Nat) : Dev :=
  if (pairOf d f n).guardRec && mode d != mRecovery then
    gactProg (gactProg (withPair d f n fun p => { p with guardRec := false }) f n true) f n false
  else d

/-! ### Pads (R165, R166) -/

/-- Level of a pad-state code: some b driven, none high-impedance. -/
def padCode (c : Nat) : Option Bool := if c = 0 then some false else if c = 1 then some true else none

/-- Safe state code of power pin `2 (4f + n) + b`, from the pad-ring copy of Colophon words 32-39; without one,
high-impedance (R461). -/
def safeCode (d : Dev) (p : Nat) : Nat := match d.rstc.safeCopy with
  | some ws => fld (ws.getD (p / 16) 0) (2 * (p % 16) + 1) (2 * (p % 16))
  | none => 2

/-- Both levels are the active ones under the polarity (R166). -/
def bothActive (d : Dev) (f n : Nat) (la lb : Option Bool) : Bool :=
  la == some (!gb d (FORME_PCFG.POLA f n)) && lb == some (!gb d (FORME_PCFG.POLB f n))

/-- Levels the disable or safe states ask for. -/
def tableLevels (d : Dev) (f n src : Nat) : Option Bool × Option Bool :=
  if src = 1 then (padCode (gf d (FORME_PCFG.DISA f n)), padCode (gf d (FORME_PCFG.DISB f n)))
  else (padCode (safeCode d (2 * (4 * f + n))), padCode (safeCode d (2 * (4 * f + n) + 1)))

/-- Pin levels A and B of a pair (R152 stage 6, R165, R166). -/
def padLevels (d : Dev) (f n : Nat) : Option Bool × Option Bool :=
  let p := pairOf d f n
  let pa := gb d (FORME_PCFG.POLA f n)
  let pb := gb d (FORME_PCFG.POLB f n)
  if p.src = 0 then (some (p.oa.on != pa), some (p.ob.on != pb))
  else
    let (la, lb) := tableLevels d f n p.src
    -- from a reset to option load the safe-state copy drives the pins by itself (R461)
    if decide (d.rstc.phase = .started) && ilkOn d f n && bothActive d f n la lb then (some pa, some pb) else (la, lb)

/-- ILKn and PSTAT.ILK of a turn-on refused or held (R163). -/
def ilkEvent (d : Dev) (f n : Nat) : Dev := formeEvt (withPair d f n fun p => { p with ilk := true }) f (20 + n)

/-- The pad stage refuses both active levels from a table: ILKn alone (R166, R173). -/
def padCheck (d : Dev) (f n : Nat) : Dev :=
  let src := (pairOf d f n).src
  let (la, lb) := tableLevels d f n src
  if src ≠ 0 ∧ ilkOn d f n = true ∧ bothActive d f n la lb = true then formeEvt d f (20 + n) else d

/-! ### Outputs (R153, R158-R164, R171) -/

/-- A logical output changes after the interlock: its pin-edge signal (R171). -/
def setOut (d : Dev) (f n : Nat) (b on : Bool) (t : Nat) : Dev :=
  if ((pairOf d f n).out b).on = on then d
  else
    let d1 := withOut d f n b fun o => if on then { o with on := true, onAt := t } else { o with on := false, offAt := t, turnOff := none }
    let d2 := contPinEdge d1 f n (2 * b.toNat + if on then 0 else 1)
    if on then commTurnOn d2 f n (!b) else d2

/-- A cancelled turn-on with nothing counted (R168). -/
def dropTurnOn (d : Dev) (f n : Nat) (b : Bool) : Dev := withOut d f n b fun o => { o with turnOn := none }

/-- A swallowed pulse: SWCNT and SWALLOWn (R158, R174). -/
def swallow (d : Dev) (f n : Nat) : Dev :=
  let w := rd d (FORME_SWCNT.at f)
  let c := fld w (9 * n + 8) (9 * n)
  commAbort (formeEvt (wr d (FORME_SWCNT.at f) (setFld w (9 * n + 8) (9 * n) (min 511 (c + 1)))) f (16 + n)) f n

/-- A REF edge cancels the pending turn-on of the output it switches off: swallowed (R153, R158). -/
def cancelTurnOn (d : Dev) (f n : Nat) (b : Bool) : Dev :=
  if ((pairOf d f n).out b).turnOn.isSome then swallow (dropTurnOn d f n b) f n else d

/-- A turn-on scheduled for time `t`; a pair that is held off schedules nothing (R154, R168). -/
def schedule (d : Dev) (f n : Nat) (b : Bool) (t : Nat) : Dev :=
  if (pairOf d f n).held then d else withOut d f n b fun o => { o with turnOn := some (t, false) }

/-- A turn-off request at `t` (R159); whether the output is held beyond it. -/
def offRequest (d : Dev) (f n : Nat) (b : Bool) (t : Nat) : Dev × Bool :=
  let o := (pairOf d f n).out b
  if !o.on then (d, false)
  else if t < o.onAt + minOn d f then
    let d1 := withOut d f n b fun x => { x with turnOff := some (o.onAt + minOn d f) }
    (if gb d (FORME_MINP.POL f) then formeEvt d1 f 25 else d1, true)
  else (setOut d f n b false t, false)

/-- A REF edge of a pair that is not held off (R153, R158, R159, R164). -/
def pairEdge (d : Dev) (f n : Nat) (rising : Bool) (t : Nat) : Dev :=
  let offB := rising      -- the off-going output is B after a rising edge
  let onB := !rising
  match pmode d f n with
  | 1 => -- SINGLE: A follows REF, B stays inactive
    if rising then
      let o := (pairOf d f n).oa
      if o.on then withOut d f n false fun x => { x with turnOff := none } else schedule d f n false t
    else (offRequest (cancelTurnOn d f n false) f n false t).1
  | 2 => -- OVERLAP: on at once, the other off after the gutter
    let d1 := cancelTurnOn d f n offB
    let o := (pairOf d1 f n).out onB
    let d2 := if o.on then withOut d1 f n onB fun x => { x with turnOff := none } else schedule d1 f n onB t
    if ((pairOf d2 f n).out offB).on then withOut d2 f n offB fun x => { x with turnOff := some (t + gEff d f n rising) } else d2
  | _ =>
    let d1 := cancelTurnOn d f n offB
    let o := (pairOf d1 f n).out onB
    if o.on then
      -- REF returns to the held output before its turn-off: the complementary pulse is swallowed (R159)
      let d2 := withOut d1 f n onB fun x => { x with turnOff := none, after := none }
      if o.after.isSome then swallow d2 f n else d2
    else
      let g := gEff d f n rising
      let wasOn := ((pairOf d1 f n).out offB).on
      let (d2, heldOff) := offRequest d1 f n offB t
      if heldOff then withOut d2 f n offB fun x => { x with after := some g }
      else
        -- a measurement starts with the inactive pin edge of the off-going output (R160)
        let d3 := schedule d2 f n onB (t + g)
        if wasOn then commStart d3 f n rising else d3

/-- The turn-off edge of output `b` in force for the present period lies at `due` (R159 DROP): time of that edge. -/
def dropped (d : Dev) (f n : Nat) (b : Bool) (t : Nat) (due : Option Nat) : Bool :=
  minOn d f != 0 && !gb d (FORME_MINP.POL f) && (match due with
    | none => false
    | some u => decide ((if pmode d f n = 2 then u + gEff d f n b else u) < t + minOn d f))

/-- When the interlock lets output `b` turn on, given a request at `t`: none while the other output is active (R163). -/
def ilkTime (d : Dev) (f n : Nat) (b : Bool) (t : Nat) : Option Nat :=
  let y := (pairOf d f n).out (!b)
  if !ilkOn d f n then some t
  else if y.on then none
  else some (max t (y.offAt + 32 * gf d (FORME_ILK.FLOOR f)))

/-- A scheduled turn-on reaches its time (R153, R159, R163). -/
def turnOnNow (d : Dev) (f n : Nat) (b : Bool) (t : Nat) (due : Option Nat) : Dev :=
  let y := (pairOf d f n).out (!b)
  let both := ilkOn d f n && !y.on && (match y.turnOn with
    | some (u, false) => decide (u / 32 = t / 32)
    | _ => false)
  if tripOff d f then dropTurnOn d f n b
  else if dropped d f n b t due then swallow (dropTurnOn d f n b) f n
  else if both then ilkEvent (commAbort (dropTurnOn (dropTurnOn d f n b) f n (!b)) f n) f n
  else if ilkTime d f n b t = some t then setOut (dropTurnOn d f n b) f n b true t
  else ilkEvent (withOut d f n b fun o => { o with turnOn := some (t, true) }) f n

/-- The earliest turn-on or turn-off of a pair before the end of this tick, for output `b`. -/
def turnOnDue (d : Dev) (f n : Nat) (b : Bool) : Option Nat := match ((pairOf d f n).out b).turnOn with
  | some (t, false) => if t < 32 * (d.now + 1) then some t else none
  | _ => none
def releaseDue (d : Dev) (f n : Nat) (b : Bool) : Option Nat := match ((pairOf d f n).out b).turnOn with
  | some (t, true) => (ilkTime d f n b t).filter fun u => decide (u < 32 * (d.now + 1))
  | _ => none
def turnOffDue (d : Dev) (f n : Nat) (b : Bool) : Option Nat := ((pairOf d f n).out b).turnOff.filter fun t => decide (t < 32 * (d.now + 1))

/-- Of the two outputs the one that acts first. -/
def firstOut (x y : Option Nat) : Option (Bool × Nat) := match x, y with
  | some a, some b => some (if b < a then (true, b) else (false, a))
  | some a, none => some (false, a)
  | none, some b => some (true, b)
  | none, none => none

/-- INTERLOCK_RELEASE (R163). -/
def interlockRelease (d : Dev) (f n : Nat) : Dev :=
  match firstOut (releaseDue d f n false) (releaseDue d f n true) with
  | some (b, t) => if tripOff d f then dropTurnOn d f n b else setOut (dropTurnOn d f n b) f n b true t
  | none => d

/-- MIN_PULSE_END: a held output goes inactive; the complementary turn-on follows by its gutter (R159, R164). In OVERLAP the
delayed turn-off still observes the minimum on-time. -/
def minPulseEnd (d : Dev) (f n : Nat) : Dev :=
  match firstOut (turnOffDue d f n false) (turnOffDue d f n true) with
  | none => d
  | some (b, t) =>
    let o := (pairOf d f n).out b
    if t < o.onAt + minOn d f then (offRequest (withOut d f n b fun x => { x with turnOff := none }) f n b t).1
    else
      let d1 := setOut (withOut d f n b fun x => { x with turnOff := none, after := none }) f n b false t
      match o.after with
      | some g => commStart (schedule d1 f n (!b) (t + g)) f n b
      | none => d1

/-! ### Trips, holds and resumption (R154, R167-R170) -/

/-- Every pending turn-on and hold of the pair is cancelled and both outputs go inactive. -/
def cutPair (d : Dev) (f n : Nat) : Dev :=
  let clear := fun (o : OutSt) => { o with turnOn := none, turnOff := none, after := none }
  let d1 := commAbort (withPair d f n fun p => { p with oa := clear p.oa, ob := clear p.ob }) f n
  setOut (setOut d1 f n false false (32 * d.now)) f n true false (32 * d.now)

/-- A trip holds the pair off from this tick (R168). -/
def pairTrip (d : Dev) (f n : Nat) : Dev := cutPair (withPair d f n fun p => { p with trip := true, resume := false }) f n

/-- Both outputs of every pair of Forme `f` off at the trip gate (R14, R117). -/
def tripGate (d : Dev) (f : Nat) : Dev := forUpTo 4 (fun n d => pairTrip d f n) d

/-- The hold of a stopped counter (R154). -/
def pairStop (d : Dev) (f n : Nat) : Dev :=
  cutPair (withPair d f n fun p => { p with
    ref := false, first := true, resume := false, firedA := false, firedB := false, measUp := none, measDn := none }) f n

/-- The clears of Forme `f` in this very tick. -/
def clearsNow (d : Dev) (f : Nat) : List ClrRec := (tabGet [] d.trip.clears f).filter fun c => decide (c.tick = d.now)

/-- Class A of Forme `f` was cleared in this very tick: its outputs resume only at a later boundary (R119). -/
def clearedNow (d : Dev) (f : Nat) : Bool := (clearsNow d f).any fun c => c.cls.testBit 0 && bit c.stat 0

/-- Resumption at a boundary or mid-period tick, with REF as updated in that tick (R167, R169, R170). The hold of a start
stays until the first REF edge (R154). -/
def pairResume (d : Dev) (f n : Nat) (boundary refNow : Bool) : Dev :=
  let p := pairOf d f n
  if !(p.trip || p.resume) || tripOff d f || (p.trip && (!boundary || clearedNow d f)) then d
  else if p.first then withPair d f n fun x => { x with trip := false, resume := false }
  else
    let d1 := withPair d f n fun x => { x with trip := false, resume := false, resumedAt := some d.now }
    let t := 32 * d.now
    if pmode d f n = 1 then (if refNow then schedule d1 f n false t else d1)
    else schedule d1 f n (!refNow) (t + gEff d f n refNow)

/-- The pad source that the conditions of R16 and FORME_CTL.EN choose (R165). -/
def padSource (d : Dev) (f : Nat) : Nat :=
  if mode d == mRun && !d.rstc.parkEntry && gb d TWIN_STAT.OWNOUT && !gb d TWIN_STAT.OWNIN then (if gb d (FOLIO_CTL.EN (formePage f)) then 0 else 1) else 2

/-- The pad source of a pair follows its conditions (R165, R167). -/
def padFollow (d : Dev) (f n : Nat) : Dev :=
  let p := pairOf d f n
  let src := padSource d f
  if src = p.src then d
  else if src = 0 then
    cutPair (withPair d f n fun x => { x with src := 0, resume := counting d f && !x.trip, first := x.first || !counting d f }) f n
  else
    let d1 := withPair d f n fun x => { x with src := src }
    let drop := fun (o : OutSt) => { o with turnOn := none, after := none }
    padCheck (if p.src = 0 then commAbort (withPair d1 f n fun x => { x with oa := drop x.oa, ob := drop x.ob }) f n else d1) f n

/-- The pad sources of a Forme, or of all, follow their conditions (R20, R165). -/
def padsFollow (d : Dev) (f : Nat) : Dev := forUpTo 4 (fun n d => padFollow d f n) d
def allPadsFollow (d : Dev) : Dev := forUpTo 16 (fun f d => padsFollow d f) d

/-! ### Pair registers (R164-R166, R173) -/

/-- FORME_PCFGn values refused with CFG_ERR (R164-R166). -/
def badPcfg (d : Dev) (f n : Nat) (v : Word) : Bool :=
  let pm := fld v 13 12
  let act := fun (la lb : Option Bool) => la == some (!bit v 8) && lb == some (!bit v 9)
  decide (pm = 3) || (decide (pm = 2) && ilkOn d f n) || decide (fld v 1 0 = 3) || decide (fld v 3 2 = 3) ||
    (ilkOn d f n && (act (padCode (fld v 1 0)) (padCode (fld v 3 2)) ||
      act (padCode (safeCode d (2 * (4 * f + n)))) (padCode (safeCode d (2 * (4 * f + n) + 1)))))

/-- FORME_PSTAT (R173). -/
def formePstat (d : Dev) (f : Nat) : Word :=
  (upTo 4).foldl (fun w n =>
    let p := pairOf d f n
    let b := (p.guardRec || p.guardUp.isSome || p.guardDn.isSome).toNat + 2 * (trimming d f n).toNat + 4 * (noMeas d f n).toNat
      + 8 * (p.first || p.resume).toNat + 16 * p.oa.on.toNat + 32 * p.ob.on.toNat + 64 * p.ilk.toNat
    setFld w (8 * n + 7) (8 * n) b) 0

/-- A read of FORME_PSTAT clears every ILK bit (R173). -/
def formePstatRead (d : Dev) (f : Nat) : Dev × Word := (forUpTo 4 (fun n d => withPair d f n fun p => { p with ilk := false }) d, formePstat d f)

/-- FORME_PADST (R173). -/
def formePadst (d : Dev) (f : Nat) : Word :=
  (upTo 4).foldl (fun w n =>
    let (la, lb) := padLevels d f n
    setBitW (setBitW (setFld w (2 * n + 1) (2 * n) (pairOf d f n).src) (8 + 2 * n) (la == some true)) (9 + 2 * n) (lb == some true)) 0

/-- A pair register applied (R156, R157, R162, R164). -/
def onPair (d : Dev) (f off : Nat) (old v : Word) : Dev :=
  let n := off % 4
  if 0x30 ≤ off ∧ off < 0x34 then
    padCheck (if fld v 13 12 = 1 then setOut (withOut (dropTurnOn d f n true) f n false fun o => { o with after := none }) f n true false (32 * d.now) else d) f n
  else if 0x34 ≤ off ∧ off < 0x38 then gactProg (withPair d f n fun p => { p with guardUp := guardEnd d.folio.took p.guardUp }) f n true
  else if 0x38 ≤ off ∧ off < 0x3C then gactProg (withPair d f n fun p => { p with guardDn := guardEnd d.folio.took p.guardDn }) f n false
  else if 0x48 ≤ off ∧ off < 0x4C then
    let d1 := if bit v 35 && bit old 35 then d else gactProg (gactProg d f n true) f n false
    noMeasCheck (if bit old 35 then d1 else withPair d1 f n fun p => { p with nomeasTold := false }) f n
  else d

end Sys2Proof.Machine
end

