-- ==== Sys2Proof/Machine/Trip.lean ====
section
/-!
DEFINITION. The trip network (chapter 05, R113-R127, R130).
-/
namespace Sys2Proof.Machine

def withTrip (d : Dev) (g : TripSt → TripSt) : Dev := { d with trip := g d.trip }

/-- Register of the route word of source `s` (R130). -/
def routeKey (s : Nat) : Nat := if s < 112 then TRIPNET_ROUTEA.at s else TRIPNET_ROUTEB.at (s - 112)

/-- The route word that governs this tick: a write acts from the tick after its acceptance (R121). -/
def routeOf (d : Dev) (s : Nat) : Word := match tabFind d.trip.routeWas s with
  | some (t, w) => if t = d.now then w else rd d (routeKey s)
  | none => rd d (routeKey s)

/-- Class `cls` acts on Forme `f` for route word `w` (R116). -/
def routed (w : Word) (f cls : Nat) : Bool :=
  (bit w f && fld w 17 16 == cls) || (bit w (18 + f) && fld w 35 34 == cls)

/-- In PARK all but the TRIPIN sources count as inactive; of the software source R127 says both (R127; log entry 21). -/
def parkMute (d : Dev) (s : Nat) : Bool :=
  mode d == mPark && !(decide (80 ≤ s) && decide (s < 112)) && !(decide (s = 176) && Config.parkSoftware)

/-- The source is active at the trip network (R115, R127). -/
def srcActive (d : Dev) (s : Nat) : Bool := live d s && !parkMute d s

/-- The source is active at some instant of the present tick (R119, R121). -/
def activeInTick (d : Dev) (s : Nat) : Bool := !parkMute d s && (live d s || tabFind d.trip.fell s == some d.now)

/-- Some source routed to Forme `f` at class `cls` is active in this tick. -/
def classLive (d : Dev) (f cls : Nat) : Bool := (upTo 179).any fun s => routed (routeOf d s) f cls && activeInTick d s

def travInit : TravSt where
  depth := []
  lastStart := none
  metAt := none
  upd := none
  pre := none
  spSeen := false
  stateReq := none
  fAlert := false
  fRecov := false
  fDis := false
  fSafe := false
  satWas := false
  feAt := 0
  prevAct := false
  phValid := false
  wrapCnt := 0
  zeroFill := false
  condAt := none
def travOf (d : Dev) (e : Nat) : TravSt := tabGet travInit d.trav e
def withTrav (d : Dev) (e : Nat) (f : TravSt → TravSt) : Dev := { d with trav := tabSet travInit d.trav e (f (travOf d e)) }

/-- ALERT of Forme `f` rises: every engine that writes it is told (R117, R190). -/
def alertRise (d : Dev) (f : Nat) : Dev :=
  forUpTo 64 (fun e d => if gb d (TRAV_OUTCFG.EDGE e) && gf d (TRAV_OUTCFG.FORME e) == f then withTrav d e fun t => { t with fAlert := true } else d) d

/-- Block event `k` of Forme `f` follows a flag of the trip network: the FOLIO_EVT bit at its rise; the level source while
the event is enabled (R131, R151). -/
def tripLevel (d : Dev) (f k : Nat) (was b : Bool) : Dev :=
  let d1 := if b && !was then pbit d (FOLIO_EVT.BLK (formePage f)) k true else d
  setLevel d1 (32 * f + k) (b && gbit d1 (FOLIO_EVTEN.BLK (formePage f)) k)

/-- Level sources 28-31 of Forme `f` under its FOLIO_EVTEN (R131, R151). -/
def tripSources (d : Dev) (f : Nat) (old : Word) : Dev :=
  let w := rd d (TRIPNET_FSTAT.at f)
  tripLevel (tripLevel (tripLevel (tripLevel d f 28 (bit old 0) (bit w 0)) f 29 (bit old 1) (bit w 1)) f 30 (bit old 3) (bit w 3)) f 31 (bit old 4) (bit w 4)

/-- Level sources and ALERT follow the flags of Forme `f`, which were `old` (R117, R131). -/
def tripLevels (d : Dev) (f : Nat) (old : Word) : Dev :=
  let w := rd d (TRIPNET_FSTAT.at f)
  let alert := bit w 0 || bit w 1 || bit w 3
  let d0 := pb d (TRIPNET_FSTAT.ALERT f) alert
  tripSources (if alert && !bit w 5 then alertRise d0 f else d0) f old

/-- FIRST and FTS record a source that sets A, BSEEN or C; of one tick, the lowest (R120). -/
def tripFirst (d : Dev) (f s : Nat) : Dev :=
  let first := gf d (TRIPNET_FSTAT.FIRST f)
  if first = 0xFF ∨ (tabGet 0 d.trip.firstAt f = d.now ∧ s < first) then
    wr (pf (withTrip d fun t => { t with firstAt := tabSet 0 t.firstAt f d.now }) (TRIPNET_FSTAT.FIRST f) s) (TRIPNET_FTS.at f) (shortTs d)
  else d

/-- A clear that finds an active source. -/
def clrRefused (d : Dev) : Dev := raiseEvt d 0x51 0

/-- A clear of this tick named class `cls` (0 A, 2 C) of Forme `f` before a source routed there rose: it is refused after
all, and what it cleared stands (R119, R121). -/
def unclear (d : Dev) (f cls : Nat) : Dev :=
  match (clearsNow d f).find? fun c => c.cls.testBit cls with
  | none => d
  | some c =>
    let refused := gb d (if cls = 0 then TRIPNET_FSTAT.TRIP_LIVE f else TRIPNET_FSTAT.C_LIVE f)
    if refused then d
    else
      let d1 := clrRefused (pb d (if cls = 0 then TRIPNET_FSTAT.TRIP_LIVE f else TRIPNET_FSTAT.C_LIVE f) true)
      if (if cls = 0 then bit c.stat 0 else bit c.stat 3) then
        let d2 := pb d1 (if cls = 0 then TRIPNET_FSTAT.A f else TRIPNET_FSTAT.C f) true
        let d3 := wr (pf d2 (TRIPNET_FSTAT.FIRST f) (fld c.stat 31 24)) (TRIPNET_FTS.at f) c.fts
        withTrip d3 fun t => { t with firstAt := tabSet 0 t.firstAt f c.firstAt }
      else d1

/-- A B-routed source rises in the tick of a boundary at which class B had ended: it was active at that boundary, where BACT
stays and BCNT counts (R117, R118). -/
def classBKeep (d : Dev) (f : Nat) : Dev :=
  if tabFind d.trip.bEnd f = some d.now then
    let d1 := withTrip d fun t => { t with bEnd := tabErase t.bEnd f }
    incF (pb (pb d1 (TRIPNET_FSTAT.BACT f) true) (TRIPNET_FSTAT.ALERT f) true) (TRIPNET_FSTAT.BCNT f) 1
  else d

/-- Source `s` latches on Forme `f` in every class of its routes (R116-R118, R120). -/
def latchForme (d : Dev) (s f : Nat) : Dev :=
  let w := routeOf d s
  let a := routed w f 0
  let b := routed w f 1
  let c := routed w f 2
  let dd := routed w f 3
  if a || b || c || dd then
    let d := if b then classBKeep d f else d
    let old := rd d (TRIPNET_FSTAT.at f)
    let d0 := if a then unclear d f 0 else d
    let d0 := if c then unclear d0 f 2 else d0
    let d1 := if a || b || c then tripFirst d0 f s else d0
    let d2 := if a then pb d1 (TRIPNET_FSTAT.A f) true else d1
    let d3 := if b then pb (pb d2 (TRIPNET_FSTAT.BACT f) true) (TRIPNET_FSTAT.BSEEN f) true else d2
    let d4 := if c then pb d3 (TRIPNET_FSTAT.C f) true else d3
    let d5 := tripLevels (if dd then pb d4 (TRIPNET_FSTAT.D f) true else d4) f old
    if a || b then tripGate d5 f else d5
  else d

/-- The routes of source `s` act (R117). -/
def tripLatch (d : Dev) (s : Nat) : Dev := forUpTo 16 (fun f d => latchForme d s f) d

/-- The software source takes the values of SWTRIP that have arrived (R126). -/
def swArrive (d : Dev) : Dev :=
  let due := d.trip.swDue.filter fun e => decide (e.1 ≤ d.now)
  due.foldl (fun d e => setLive d 176 e.2) (withTrip d fun t => { t with swDue := t.swDue.filter fun e => decide (d.now < e.1) })

/-- TRIP_LATCH: source `s` became active and is to latch; the network acts from option load on (R124, R127). -/
def tripLatchDue (d : Dev) (s : Nat) : Bool :=
  (d.trip.due ++ d.trip.judge).any (fun e => decide (e.1 = s ∧ e.2 ≤ d.now)) || (s == 176 && d.trip.swDue.any fun e => decide (e.1 ≤ d.now))
def tripLatchStep (d : Dev) (s : Nat) : Dev :=
  if tripLatchDue d s then
    let d1 := if s = 176 then swArrive d else d
    let hit := fun (e : Nat × Nat) => decide (e.1 = s ∧ e.2 ≤ d1.now)
    let acts := d1.trip.due.any hit || (d1.trip.judge.any hit && activeInTick d1 s)
    let d2 := withTrip d1 fun t => { t with due := t.due.filter (fun e => !hit e), judge := t.judge.filter fun e => !hit e }
    if acts && !parkMute d2 s && decide (d2.rstc.phase = .started) then tripLatch d2 s else d2
  else d

/-- Every active source is judged afresh at tick `t` (R121, R123, R124, R127). -/
def judgeAll (d : Dev) (t : Nat) (only : Nat → Bool) : Dev :=
  withTrip d fun x => { x with judge := x.judge ++ ((upTo 179).filter fun s => only s && live d s).map fun s => (s, t) }

/-! ### TRIPIN (R113) -/

def inFilt (d : Dev) (p : Nat) : Nat := fld (rd d (TRIPNET_INFILT.at (p / 8))) (4 * (p % 8) + 3) (4 * (p % 8))
/-- The pin is at its active level. -/
def inActive (d : Dev) (p : Nat) : Bool := tabGet false d.trip.pins p != gbit d TRIPNET_INPOL.POL p

/-- The source follows its pin: at once when inactive or unfiltered; else the filter count starts. -/
def tripinFollow (d : Dev) (p : Nat) (restart : Bool) : Dev :=
  if !inActive d p then setLive d (80 + p) false
  else
    let d1 := if restart then withTrip d fun t => { t with pinFrom := tabSet 0 t.pinFrom p d.now } else d
    if inFilt d p = 0 then setLive d1 (80 + p) true else d1

/-- TRIPIN_CHANGE. -/
def tripinChange (d : Dev) (p : Nat) (level : Bool) : Dev :=
  if tabGet false d.trip.pins p = level then d
  else tripinFollow (withTrip d fun t => { t with pins := tabSet false t.pins p level }) p true

/-- TRIPIN_FILTER_QUALIFY: held active for FILT ticks. -/
def tripinDue (d : Dev) (p : Nat) : Bool :=
  inActive d p && !live d (80 + p) && decide (tabGet 0 d.trip.pinFrom p + inFilt d p ≤ d.now)
def tripinQualify (d : Dev) (p : Nat) : Dev := if tripinDue d p then setLive d (80 + p) true else d

/-! ### Clears (R119) -/

/-- TRIPNET_CLR on one Forme; what it finds is kept for sources that rise later in the tick. -/
def clearForme (d : Dev) (cls f : Nat) : Dev :=
  let old := rd d (TRIPNET_FSTAT.at f)
  let d := withTrip d fun t => { t with
    clears := tabPut t.clears f (clearsNow d f ++ [⟨d.now, cls, old, rd d (TRIPNET_FTS.at f), tabGet 0 t.firstAt f⟩]) }
  let d1 := if cls.testBit 0 then
      (if classLive d f 0 then clrRefused (pb d (TRIPNET_FSTAT.TRIP_LIVE f) true)
       else pb (pb d (TRIPNET_FSTAT.A f) false) (TRIPNET_FSTAT.TRIP_LIVE f) false) else d
  let d2 := if cls.testBit 2 then
      (if classLive d1 f 2 then clrRefused (pb d1 (TRIPNET_FSTAT.C_LIVE f) true)
       else pb (pb d1 (TRIPNET_FSTAT.C f) false) (TRIPNET_FSTAT.C_LIVE f) false) else d1
  let d3 := if cls.testBit 1 then pf (pb d2 (TRIPNET_FSTAT.BSEEN f) false) (TRIPNET_FSTAT.BCNT f) 0 else d2
  let d4 := if cls.testBit 3 then pb d3 (TRIPNET_FSTAT.D f) false else d3
  let w := rd d4 (TRIPNET_FSTAT.at f)
  tripLevels (if !bit w 0 && !bit w 2 && !bit w 3 then pf d4 (TRIPNET_FSTAT.FIRST f) 0xFF else d4) f old

/-- TRIPNET_CLR accepted. -/
def tripClear (d : Dev) (v : Word) : Dev := forUpTo 16 (fun f d => if bit v f then clearForme d (fld v 19 16) f else d) d

/-- Class B at a boundary of Forme `f`, as far as the tick is seen; `classBKeep` corrects it (R117, R118, R121). -/
def classBBoundary (d : Dev) (f : Nat) : Dev :=
  if gb d (TRIPNET_FSTAT.BACT f) then
    (if classLive d f 1 then incF d (TRIPNET_FSTAT.BCNT f) 1
     else tripLevels (pb (withTrip d fun t => { t with bEnd := tabPut t.bEnd f d.now }) (TRIPNET_FSTAT.BACT f) false) f (rd d (TRIPNET_FSTAT.at f)))
  else d

/-! ### Registers (R122, R123) -/

/-- A route word or control of the TRIPNET folios written; `old` is the word it replaces (R121, R123, R126). -/
def onTripnet (d : Dev) (page off : Nat) (old v : Word) : Dev :=
  let route := fun (s : Nat) =>
    withTrip d fun t => { t with
      routeWas := tabPut t.routeWas s (d.now, match tabFind t.routeWas s with
        | some (t0, w) => if t0 = d.now then w else old
        | none => old)
      judge := if (s, d.now + 1) ∈ t.judge then t.judge else t.judge ++ [(s, d.now + 1)] }
  if page = 0x50 then (if 0x10 ≤ off ∧ off < 0x80 then route (off - 0x10) else d)
  else if 0x10 ≤ off ∧ off < 0x53 then route (112 + off - 0x10)
  else if off = 0x54 then tripClear d v
  else if off = 0x55 then withTrip d fun t => { t with swDue := t.swDue ++ [(d.now + 4, bit v 0)] }
  else if off = 0x56 then forUpTo 32 (fun p d => if bit old p = bit v p then d else tripinFollow d p true) d
  else if 0x58 ≤ off ∧ off < 0x5C then
    forUpTo 8 (fun i d => let p := 8 * (off - 0x58) + i; if live d (80 + p) then d else tripinFollow d p false) d
  else d

/-- A vote failure of a route field: active sources latch under the fallback routes (R121, R122). -/
def routeFallback (d : Dev) (key : Nat) : Dev :=
  let first := (voteUnit key).headD key
  let s0 := if first / 256 = 0x50 then first % 256 - 0x10 else 112 + first % 256 - 0x10
  judgeAll d d.now fun s => decide (s0 ≤ s ∧ s < s0 + 4)

/-- After a block reset of a TRIPNET page every source is judged from the next tick (R123). Page 051 loses its flags; its
TRIPNET_LIVE goes on showing the sources (R115), of which the software source has ACT = 0 and the TRIPIN inputs follow the
reset INPOL and INFILT. `d0`: the device before the reset. -/
def tripnetReset (d0 d : Dev) (page : Nat) : Dev :=
  let d1 := if page = 0x51 then
      let d1 := forUpTo 6 (fun w d => wr d (TRIPNET_LIVE.at w) (rd d0 (TRIPNET_LIVE.at w))) d
      let d2 := setLive (withTrip d1 fun t => { t with swDue := [], clears := [], bEnd := [], firstAt := [] }) 176 false
      forUpTo 32 (fun p d => tripinFollow d p false) (forUpTo 16 (fun f d => tripLevels d f (rd d0 (TRIPNET_FSTAT.at f))) d2)
    else d
  judgeAll (withTrip d1 fun t => { t with routeWas := [], due := [], judge := [] }) (d.now + 1) fun _ => true

end Sys2Proof.Machine
end

