-- ==== Sys2Proof/Machine/Forme.lean ====
section
/-!
DEFINITION. Forme counters, edges and updates (chapter 06, R132-R151, R518).
-/
namespace Sys2Proof.Machine

/-! ### Position (R133) -/

/-- Duration of the period in force, in ticks. -/
def formeD (x : FormeSt) : Nat := x.p * x.k
/-- Ticks since τ = 0 at tick `t` of the period in force. -/
def formePos (x : FormeSt) (t : Nat) : Nat := t + formeD x - x.nextB
/-- τ. -/
def formeTau (d : Dev) (f : Nat) : Nat := let x := formeOf d f; formePos x d.now / x.k

/-- Counter value at position τ (R133). -/
def formeCount (x : FormeSt) (tau : Nat) : Nat :=
  if x.cm = 0 then tau else if x.cm = 1 then x.p - 1 - tau else if 2 * tau ≤ x.p then tau else x.p - tau

/-- P of the registers: bit 0 cleared in UPDOWN (R133). -/
def regP (d : Dev) (f : Nat) : Nat :=
  let p := gf d (FORME_PERIOD.PERIOD f)
  if gf d (FORME_MODE.CMODE f) = 2 then p / 2 * 2 else p

/-- Step of mid-period (R518). -/
def midStep (x : FormeSt) : Nat := x.p / 2

/-! ### Edges (R137-R140) -/

/-- Time of an edge in 1/32 tick from the boundary; none where it does not occur (R137, R138). -/
def edgeTime (x : FormeSt) (w : Word) (rising carry : Bool) : Option Nat :=
  let tick := fld w 28 5
  let fine := fld w 4 0 + carry.toNat
  if w &&& never = never then none
  else
    let step : Option Nat :=
      if x.cm = 0 then some tick
      else if x.cm = 1 then (if tick < x.p then some (x.p - 1 - tick) else none)
      else if rising then (if 2 * tick ≤ x.p then some tick else none)
      else some (x.p - min tick (x.p / 2))
    (step.map fun s => 32 * s * x.k + fine).filter fun t => decide (t < 32 * formeD x)

/-- The active edge of a pair, while it has not fired in the period. -/
def activeEdge (d : Dev) (f n : Nat) (rising : Bool) : Option Nat :=
  let p := pairOf d f n
  if (if rising then p.firedA else p.firedB) then none
  else edgeTime (formeOf d f) (rd d (if rising then FORME_CMPA.at f n else FORME_CMPB.at f n)) rising (if rising then p.carryA else p.carryB)

/-- The edge of pair `n` that comes next before the end of this tick; at one instant the falling edge prevails (R139). -/
def nextEdge (d : Dev) (f n : Nat) : Option (Bool × Nat) :=
  if !counting d f then none
  else
    let lim := 32 * (formePos (formeOf d f) d.now + 1)
    match (activeEdge d f n true).filter (fun t => decide (t < lim)), (activeEdge d f n false).filter fun t => decide (t < lim) with
    | some a, some b => some (if a < b then (true, a) else (false, b))
    | some a, none => some (true, a)
    | none, some b => some (false, b)
    | none, none => none

/-- REF at the end of the tick, after the edges that still fall in it. -/
def refAtEnd (d : Dev) (f n : Nat) : Bool :=
  let lim := 32 * (formePos (formeOf d f) d.now + 1)
  match (activeEdge d f n true).filter (fun t => decide (t < lim)), (activeEdge d f n false).filter fun t => decide (t < lim) with
  | some a, some b => decide (b < a)
  | some _, none => true
  | none, some _ => false
  | none, none => (pairOf d f n).ref

/-- Absolute time of an edge that falls in this tick. -/
def edgeAbs (d : Dev) (t : Nat) : Nat := 32 * d.now + t % 32

/-- The turn-off edge of output `b` in the period in force, as an absolute time (R159). -/
def offEdgeAbs (d : Dev) (f n : Nat) (b : Bool) : Option Nat :=
  if !counting d f then none
  else
    let x := formeOf d f
    (activeEdge d f n b).map fun t => 32 * x.nextB + t - 32 * formeD x

/-- REF_EDGE (R139, R148, R153): the next edge of the pair. Both at one instant leave REF inactive. -/
def refEdge (d : Dev) (f n : Nat) : Dev :=
  match nextEdge d f n with
  | none => d
  | some (rising, t) =>
    let both := !rising && activeEdge d f n true == some t
    let d1 := withPair d f n fun p => { p with firedA := p.firedA || rising || both, firedB := p.firedB || !rising }
    if (pairOf d f n).ref = rising then d1
    else
      let p := pairOf d f n
      let sel := gf d (FORME_EVED.SEL f n)
      let d2 := withPair d1 f n fun q => { q with
        ref := rising, first := false
        edgeDue := if bit (BitVec.ofNat 36 sel) (if rising then 0 else 1) then q.edgeDue ++ [d.now + gf d (FORME_EVED.OFS f n)] else q.edgeDue }
      if p.resumedAt = some d.now ∨ p.resume = true ∨ p.trip = true then d2
      else if tripOff d f then withPair d2 f n fun q => { q with trip := true }
      else pairEdge d2 f n rising (edgeAbs d t)

/-- PAIR_EDGE_EVENT (R148). -/
def pairEdgeDue (d : Dev) (f n : Nat) : Bool := (pairOf d f n).edgeDue.any fun t => decide (t ≤ d.now)
def pairEdgeEvent (d : Dev) (f n : Nat) : Dev :=
  if pairEdgeDue d f n then
    let d1 := withPair d f n fun p => { p with edgeDue := p.edgeDue.filter fun t => decide (d.now < t) }
    publishTrig (formeEvt d1 f (4 + n)) 3 f n
  else d

/-- GUTTER_TURN_ON (R153). -/
def gutterTurnOn (d : Dev) (f n : Nat) : Dev :=
  match firstOut (turnOnDue d f n false) (turnOnDue d f n true) with
  | some (b, t) => turnOnNow d f n b t (offEdgeAbs d f n b)
  | none => d

/-! ### Shadows and offers (R140-R145) -/

/-- The shadow applies in full (R135, R142). -/
def applyFull (d : Dev) (f n : Nat) : Dev :=
  let p := pairOf d f n
  let d1 := wr (wr (wr d (FORME_CMPA.at f n) p.shA) (FORME_CMPB.at f n) p.shB) (FORME_HT.at f n) p.shHt
  pbit (withPair d1 f n fun q => { q with unoffered := false, groupOffer := false, nextA := none, nextB := none }) (FORME_STAT.PEND f) n false

/-- The shadow as an offer made now. -/
def PairSt.offered (p : PairSt) (u : Nat) : LateOffer := ⟨u, p.shA, p.shB, p.shHt⟩

/-- An offer `s` made at tick `s.u` with guard `g`, decided now (R142). -/
def offer (d : Dev) (f n g : Nat) (s : LateOffer) : Dev :=
  let u := s.u
  let x := formeOf d f
  let p := pairOf d f n
  let pos := 32 * formePos x d.now
  let fired := fun (rising : Bool) => (if rising then p.firedA else p.firedB) || (match activeEdge d f n rising with
    | some t => decide (t < pos)
    | none => false)
  let late := fun (rising : Bool) => !fired rising && (match edgeTime x (if rising then s.a else s.b) rising (if rising then p.carryA else p.carryB) with
    | some t => decide (32 * x.nextB + t < 32 * (u + g) + 32 * formeD x)
    | none => false)
  let d1 := withPair d f n fun q => { q with unoffered := false, groupOffer := false }
  if late true || late false then
    formeEvt (incF (pbit d1 (FORME_STAT.PEND f) n true) (FORME_LLCNT.DEF f) 1) f 8
  else
    let d2 := withPair (if fired true then d1 else wr d1 (FORME_CMPA.at f n) s.a) f n fun q => { q with nextA := if fired true then some s.a else none }
    let d3 := withPair (if fired false then d2 else wr d2 (FORME_CMPB.at f n) s.b) f n fun q => { q with nextB := if fired false then some s.b else none }
    incF (pbit (wr d3 (FORME_HT.at f n) s.ht) (FORME_STAT.PEND f) n false) (FORME_LLCNT.ACC f) 1

/-- The pair offers its shadow under LATE in this tick; writes of one tick make one offer (R144). -/
def PairSt.lateOffer (p : PairSt) (now : Nat) : PairSt :=
  { p with lates := (p.lates.filter fun o => decide (o.u ≠ now)) ++ [p.offered now], unoffered := false }

/-- A field of the shadow under a write of rank `r` that carries `v`, unless a write of this tick that comes after it in the
order of R144 has landed there already. -/
def landField {α : Type} (now landAt r : Nat) (v : Option α) (old : α) (rank : Nat) : α × Nat :=
  let was := if landAt = now then rank else 0
  match v with
  | some w => if was ≤ r then (w, r) else (old, was)
  | none => (old, was)

/-- A write of rank `r` (0 a folio write, e + 1 engine e) lands in the edge shadow: each field it carries (CMPA, CMPB, HTA,
HTB), then one offer under LATE (R141, R144). -/
def edgeLand (d : Dev) (f n r : Nat) (a b : Option Word) (ha hb : Option Nat) : Dev :=
  let d1 := withPair d f n fun p =>
    let x := landField d.now p.landAt r a p.shA p.rankA
    let y := landField d.now p.landAt r b p.shB p.rankB
    let u := landField d.now p.landAt r ha (fld p.shHt 7 0) p.rankHA
    let v := landField d.now p.landAt r hb (fld p.shHt 15 8) p.rankHB
    { p with landAt := d.now, shA := x.1, rankA := x.2, shB := y.1, rankB := y.2
             shHt := setFld (setFld p.shHt 7 0 u.1) 15 8 v.1, rankHA := u.2, rankHB := v.2 }
  if counting d f && gf d (FORME_MODE.UPD f) == 3 then withPair d1 f n fun p => p.lateOffer d.now
  else withPair d1 f n fun p => { p with unoffered := true }

/-- A folio write of an edge register (R141). -/
def edgeWrite (d : Dev) (f off : Nat) (v : Word) : Dev :=
  let w := v &&& maskOf 28 0
  let n := off % 4
  if off < 0x24 then edgeLand d f n 0 (some w) none none none
  else if off < 0x28 then edgeLand d f n 0 none (some w) none none
  else edgeLand d f n 0 none none (some (fld v 7 0)) (some (fld v 15 8))

/-- A folio read of an edge register: active value or shadow (R141). -/
def edgeRead (d : Dev) (f off : Nat) : Word :=
  let p := pairOf d f (off % 4)
  if gb d (FOLIO_GROUP.SHV (formePage f)) then (if off < 0x24 then p.shA else if off < 0x28 then p.shB else p.shHt)
  else rd d ((formePage f) * 256 + off)

/-- LATE_LOAD_DECISION: each offer at its d = u + 4 (R142, R145). -/
def lateDue (d : Dev) (f n : Nat) : Bool := counting d f && (pairOf d f n).lates.any fun o => decide (o.u + 4 ≤ d.now)
def lateLoad (d : Dev) (f n : Nat) : Dev :=
  if lateDue d f n then
    match (pairOf d f n).lates with
    | o :: rest => offer (withPair d f n fun q => { q with lates := rest }) f n (max 8 (gf d (FORME_LATEG.GUARD f))) o
    | [] => d
  else d

/-- UPD becomes LATE: shadows not yet offered are offered now (R141). -/
def offerLate (d : Dev) (f : Nat) : Dev :=
  if counting d f && gf d (FORME_MODE.UPD f) == 3 then
    forUpTo 4 (fun n d => if (pairOf d f n).unoffered then withPair d f n fun p => p.lateOffer d.now else d) d
  else d

/-- Offers of every pair that waits for one (R141). -/
def offerAll (d : Dev) (f : Nat) : Dev := forUpTo 4 (fun n d => if (pairOf d f n).unoffered then offer d f n 0 ((pairOf d f n).offered d.now) else d) d

/-- The period in force ends now. -/
def boundaryDue (d : Dev) (f : Nat) : Bool := cst d f == 2 && decide ((formeOf d f).nextB ≤ d.now)

/-- UPD = GROUP: the shadows of the Formes of group `g` not yet offered are offered at its application tick (R141). -/
def markGrouped (d : Dev) (g : Nat) : Dev :=
  forUpTo 16 (fun f d =>
    if counting d f && gf d (FORME_MODE.UPD f) == 4 && gf d (FOLIO_GROUP.CGRP (formePage f)) == g then
      forUpTo 4 (fun n d => if (pairOf d f n).unoffered then withPair d f n fun p => { p with groupOffer := true } else d) d
    else d) d

/-- GROUP offers of Forme `f` in their place in the tick, after a boundary (R143 step 4). -/
def offerGrouped (d : Dev) (f : Nat) : Dev :=
  if boundaryDue d f then d
  else forUpTo 4 (fun n d => if (pairOf d f n).groupOffer then offer d f n 0 ((pairOf d f n).offered d.now) else d) d
def offersOfTick (d : Dev) : Dev := forUpTo 16 (fun f d => offerGrouped d f) d

/-! ### Periods (R134, R140, R143, R147, R518) -/

/-- Halftone carries of a period, with the HT in force (R140). -/
def halftone (d : Dev) (f n : Nat) : Dev :=
  let ht := rd d (FORME_HT.at f n)
  withPair d f n fun p =>
    let a := p.accA + fld ht 7 0
    let b := p.accB + fld ht 15 8
    { p with accA := a % 256, accB := b % 256, carryA := decide (256 ≤ a), carryB := decide (256 ≤ b) }

/-- Carrier points of the period that starts at tick `t` (R147): those it contains from `t` on, and the boundary that ends it. -/
def carrierPoints (x : FormeSt) (t : Nat) : List CarPt :=
  let dur := formeD x
  let pos := formePos x t
  let low := if x.cm = 1 then (x.p - 1) * x.k else 0
  let top := if x.cm = 0 then (x.p - 1) * x.k else if x.cm = 1 then 0 else x.p / 2 * x.k
  let told := fun (pk : Bool) (tk : Nat) => x.points.any fun c => c.peak == pk && c.tick == tk && c.told
  let own := [(false, low), (true, top)].filterMap fun e =>
    if pos ≤ e.2 then some ⟨e.1, t + e.2 - pos, dur, false, told e.1 (t + e.2 - pos)⟩ else none
  let old := x.points.filter fun c => !c.ahead && !c.told && decide (t < c.tick + c.dur)
  old ++ own ++ [⟨x.cm == 1, x.nextB, dur, true, false⟩]

/-- A period begins at position τ (in ticks `pos`) of the period values now taken (R134, R136, R143). `full` : every edge
shadow applies (start); `edges` decides which edges count as fired. -/
def setPeriod (d : Dev) (f p k cm pos : Nat) : Dev :=
  let d1 := withForme d f fun x =>
    let y := { x with p := p, k := k, cm := cm, nextB := d.now + p * k - pos, midDone := decide (p / 2 * k < pos), regd := false, midRegd := false }
    { y with points := carrierPoints y d.now }
  forUpTo 4 (fun n d => withPair d f n fun q => { q with firedA := false, firedB := false }) d1

/-- Edges whose time lies before τ count as fired (R136). -/
def markFired (d : Dev) (f pos : Nat) : Dev :=
  forUpTo 4 (fun n d =>
    let before := fun (r : Bool) => match activeEdge d f n r with
      | some t => decide (t < 32 * pos)
      | none => false
    withPair d f n fun q => { q with firedA := before true, firedB := before false }) d

/-- Effects of a boundary tick on registers, events, trips and pairs (R118, R151, R161, R169, R518); the registration
groups it fires act before it (R143, Machine/Cmd.lean). -/
def boundaryEffects (d : Dev) (f : Nat) : Dev :=
  let d1 := wr (wr d (FORME_PCNT.at f) (rd d (FORME_PCNT.at f) + 1)) (FORME_BTS.at f) (shortTs d)
  let d3 := contBoundary (classBBoundary (formeEvt d1 f 0) f) f
  forUpTo 4 (fun n d => pairResume (trimPair (guardLeave d f n) f n) f n true (refAtEnd d f n)) d3

/-- A RUNNING counter ends a period and begins the next (R134, R140, R142, R143). -/
def formeBoundary (d : Dev) (f : Nat) : Dev :=
  if boundaryDue d f then
    let d1 := setPeriod d f (regP d f) (gf d (FORME_MODE.PRE f) + 1) (gf d (FORME_MODE.CMODE f)) 0
    let upd := gf d (FORME_MODE.UPD f)
    let d2 := forUpTo 4 (fun n d =>
      let q := pairOf d f n
      let e := if gbit d (FORME_STAT.PEND f) n || (q.unoffered && !q.groupOffer && (upd == 0 || upd == 2)) then applyFull d f n
        else
          let e1 := match q.nextA with
            | some w => wr d (FORME_CMPA.at f n) w
            | none => d
          let e2 := match q.nextB with
            | some w => wr e1 (FORME_CMPB.at f n) w
            | none => e1
          withPair e2 f n fun r => { r with nextA := none, nextB := none }
      halftone e f n) d1
    boundaryEffects d2 f
  else d

/-- The start or resync at τ = PHASE mod P (R135, R136). -/
def phasePos (d : Dev) (f p k : Nat) : Nat := gf d (FORME_SYNC.PHASE f) % p * k

/-- The counter starts now (R135, R136, R140, R518). -/
def formeStart (d : Dev) (f : Nat) : Dev :=
  let p := regP d f
  let k := gf d (FORME_MODE.PRE f) + 1
  let pos := phasePos d f p k
  let d1 := pf (pb d (FORME_STAT.CALWAIT f) false) (FORME_STAT.CST f) 2
  let d2 := withForme d1 f fun x => { x with startAt := none, t0 := d.now, points := [] }
  let d3 := setPeriod (wr d2 (FORME_PCNT.at f) 0) f p k (gf d (FORME_MODE.CMODE f)) pos
  let d4 := forUpTo 4 (fun n d =>
    halftone (withPair (applyFull d f n) f n fun q => { q with accA := 0, accB := 0, ref := false, first := true, resume := false }) f n) d3
  let d5 := formeEvt (markFired d4 f pos) f 9
  if pos = 0 then boundaryEffects d5 f else d5

/-- A start that is due: with CAL_OK it starts, else it waits (R28, R135). -/
def formeTryStart (d : Dev) (f : Nat) : Dev :=
  if gb d MERID_STAT.CAL_OK then formeStart d f
  else if gb d (FORME_STAT.CALWAIT f) then d
  else formeEvt (withForme (pb d (FORME_STAT.CALWAIT f) true) f fun x => { x with startAt := none }) f 11

/-- FORME_COUNTER_START. -/
def startDue (d : Dev) (f : Nat) : Bool :=
  cst d f == 1 && ((gb d (FORME_STAT.CALWAIT f) && gb d MERID_STAT.CAL_OK) || (match (formeOf d f).startAt with
    | some t => decide (t ≤ d.now)
    | none => false))
def formeCounterStart (d : Dev) (f : Nat) : Dev := if startDue d f then formeTryStart d f else d

/-- FORME_RUN written (R135). -/
def formeRun (d : Dev) (f : Nat) (run : Bool) : Dev :=
  let d0 := pb d (FORME_RUN.RUN f) run
  let setC := fun (c : Nat) => pf d0 (FORME_STAT.CST f) c
  match cst d f, run with
  | 0, true => withForme (setC 1) f fun x => { x with startAt := if gf d (FORME_SYNC.SSRC f) = 0 then some (d.now + 4) else none }
  | 1, false => withForme (pb (setC 0) (FORME_STAT.CALWAIT f) false) f fun x => { x with startAt := none }
  | 2, false => setC 3
  | 3, true => setC 2
  | _, _ => d0

/-- The counter stops now: REF inactive, pairs held off (R135, R139, R154). Events of carrier points and edges that have
occurred are still published at their ticks (R147, R148). -/
def formeStop (d : Dev) (f : Nat) : Dev :=
  let ran := counting d f
  let d1 := withForme (pb (pf d (FORME_STAT.CST f) 0) (FORME_STAT.CALWAIT f) false) f fun x => { x with
    startAt := none, points := x.points.filter fun c => !c.ahead && !c.told && decide (c.tick ≤ d.now) }
  let d2 := forUpTo 4 (fun n d => withPair (pairStop d f n) f n fun q => { q with lates := [], groupOffer := false, unoffered := q.unoffered || !q.lates.isEmpty }) d1
  if ran then formeEvt d2 f 12 else d2

/-- FORME_COUNTER_STOP. -/
def stopDue (d : Dev) (f : Nat) : Bool := cst d f == 3 && decide ((formeOf d f).nextB ≤ d.now)
def formeCounterStop (d : Dev) (f : Nat) : Dev := if stopDue d f then formeStop d f else d

/-- PARK entry: counters stop at once, pending shadows are discarded, accumulators cleared (R149). -/
def formePark (d : Dev) (f : Nat) : Dev :=
  forUpTo 4 (fun n d =>
    withPair (pbit d (FORME_STAT.PEND f) n false) f n fun q => { q with
      unoffered := false, lates := [], nextA := none, nextB := none, accA := 0, accB := 0, carryA := false, carryB := false, edgeDue := []
      shA := rd d (FORME_CMPA.at f n), shB := rd d (FORME_CMPB.at f n), shHt := rd d (FORME_HT.at f n) })
    (withForme (formeStop d f) f fun x => { x with points := [] })

/-- FORME_MID_PERIOD (R133, R141, R167). -/
def midDue (d : Dev) (f : Nat) : Bool :=
  let x := formeOf d f
  counting d f && !x.midDone && decide (midStep x * x.k ≤ formePos x d.now)
def formeMidMark (d : Dev) (f : Nat) : Dev := formeEvt (withForme d f fun x => { x with midDone := true }) f 1
def formeMidOffers (d : Dev) (f : Nat) : Dev :=
  let upd := gf d (FORME_MODE.UPD f)
  let d2 := if upd = 1 ∨ upd = 2 then offerAll d f else d
  forUpTo 4 (fun n d => pairResume d f n false (refAtEnd d f n)) d2

/-- Published tick of a carrier point under its offset (R147). -/
def carrierTick (d : Dev) (f : Nat) (c : CarPt) : Int :=
  let o := signed 18 (gf d (if c.peak then FORME_EVCP.OFS f else FORME_EVCZ.OFS f))
  let lim : Int := (c.dur / 2 : Nat) - 1
  (c.tick : Int) + max (-lim) (min lim o)

/-- A carrier point whose event is published now. -/
def carrierHit (d : Dev) (f : Nat) (peak : Bool) (c : CarPt) : Bool :=
  c.peak == peak && !c.told && decide (carrierTick d f c = d.now) && decide ((formeOf d f).t0 ≤ c.tick) &&
    (!c.ahead || (cst d f == 2 && decide (d.now < c.tick)))

/-- CARRIER_EVENT (R147, R80). -/
def carrierDue (d : Dev) (f : Nat) (peak : Bool) : Bool := (formeOf d f).points.any (carrierHit d f peak)
def carrierEvent (d : Dev) (f : Nat) (peak : Bool) : Dev :=
  if carrierDue d f peak then
    let d1 := withForme d f fun x => { x with points := x.points.map fun c => if carrierHit d f peak c then { c with told := true } else c }
    publishTrig (formeEvt d1 f (if peak then 3 else 2)) (if peak then 2 else 1) f 0
  else d

/-- A sync event of kind `src` (1 group, 2 alarm), instance `inst` reaches a Forme (R136, R143 step 2). -/
def formeSync (d : Dev) (f src inst : Nat) : Dev :=
  if gf d (FORME_SYNC.SSRC f) = src ∧ gf d (FORME_SYNC.SINST f) = inst then
    (if cst d f = 1 then formeTryStart d f
     else if counting d f && gb d (FORME_SYNC.ACT f) then
       let x := formeOf d f
       let d1 := formeEvt d f 9
       let pos := phasePos d f x.p x.k
       if formePos x d.now % formeD x / x.k = pos / x.k then d1
       else
         let d2 := withForme (formeEvt d1 f 10) f fun y => { y with t0 := d.now, points := [] }
         if pos = 0 then formeBoundary (withForme d2 f fun y => { y with nextB := d.now }) f
         else markFired (setPeriod d2 f x.p x.k x.cm pos) f pos
     else d)
  else d

/-- A sync event reaches every Forme. -/
def syncEvent (d : Dev) (src inst : Nat) : Dev := forUpTo 16 (fun f d => formeSync d f src inst) d

/-! ### Registers (R133-R150) -/

/-- Values FORME registers refuse with CFG_ERR (R134, R141, R150, R164-R166). -/
def badForme (d : Dev) (f off : Nat) (v : Word) : Bool :=
  if off = 0x10 then decide (fld v 1 0 = 3 ∨ 5 ≤ fld v 10 8)
  else if off = 0x11 then decide (fld v 24 0 < 100 ∨ 16777216 < fld v 24 0)
  else if off = 0x12 then decide (fld v 35 34 = 3)
  else if 0x30 ≤ off ∧ off < 0x34 then badPcfg d f (off % 4) v
  else false

/-- A write of RUN = 1 is a mode lock in START and PARK (R135), and while an entry into PARK waits. -/
def lockForme (d : Dev) (off : Nat) (v : Word) : Bool :=
  off = 0x13 && bit v 0 && (mode d == mStart || mode d == mPark || d.rstc.parkEntry)

/-- A FORME register written or applied. -/
def onForme (d : Dev) (f off : Nat) (old v : Word) : Dev :=
  if off = 0x13 then formeRun d f (bit v 0) else if off = 0x10 then offerLate d f else if 0x20 ≤ off ∧ off < 0x2C then d else onPair d f off old v

/-- FORME_STAT with its live DIR (R133). -/
def formeStat (d : Dev) (f : Nat) : Word :=
  let x := formeOf d f
  setBitW (rd d (FORME_STAT.at f)) 4 (counting d f && (x.cm == 1 || (x.cm == 2 && decide (x.p < 2 * formeTau d f))))

/-- FORME_CNT (R133): 0 while the counter does not run. -/
def formeCnt (d : Dev) (f : Nat) : Word := if counting d f then BitVec.ofNat 36 (formeCount (formeOf d f) (formeTau d f)) else 0

/-- Registers of the pair that take their reset from the Colophon (R157, R163, R173). -/
def formeColophon (d : Dev) (f : Nat) : Dev :=
  let g := d.guard.toNat % 2 ^ 17
  let floor := max 20 (fld (tabGet 0 d.latch 19) 7 0)
  let bits := fld (tabGet 0 d.latch (20 + f / 8)) (4 * (f % 8) + 3) (4 * (f % 8))
  let d1 := forUpTo 4 (fun n d =>
    let d1 := wr (wr d (FORME_GUTUP.at f n) (BitVec.ofNat 36 g)) (FORME_GUTDN.at f n) (BitVec.ofNat 36 g)
    let d2 := pf (pf d1 (FORME_GFLOOR.FLUP f n) (g / 32)) (FORME_GFLOOR.FLDN f n) (g / 32)
    pf (pf d2 (FORME_GACT.UP f n) g) (FORME_GACT.DN f n) g) d
  pf (pf (pf d1 (FORME_GUARD.GUT f) g) (FORME_ILK.FLOOR f) floor) (FORME_ILK.DIS f) bits

/-- A Forme after its block reset (R149): its registers are at their reset values already. -/
def formeReset (d : Dev) (f : Nat) : Dev :=
  let d1 := formeColophon (forUpTo 4 (fun n d => cutPair d f n) d) f
  let keep := (upTo 4).map fun n => (tripOff d f, padSource d f, pairOf d1 f n)
  let d2 := tripSources (withForme d1 f fun _ => formeInit) f (rd d1 (TRIPNET_FSTAT.at f))
  forUpTo 4 (fun n d => padCheck (withPair d f n fun q =>
    match keep.getD n (false, 2, pairInit) with
    -- the interlock still counts from the turn-offs (R163)
    | (t, s, p) => { q with trip := t, src := s, guardRec := p.guardRec, oa := { outInit with offAt := p.oa.offAt }
                            ob := { outInit with offAt := p.ob.offAt } }) f n) d2

end Sys2Proof.Machine
end

