-- ==== Sys2Proof/Machine/Trav.lean ====
section
/-!
DEFINITION. Traverse engines, Overlay and following-error watch (chapters 08 and 09, R175-R222).
-/
namespace Sys2Proof.Machine

def travPage (e : Nat) : Nat := 0x80 + e
def travEvt (d : Dev) (e k : Nat) : Dev := raiseEvt d (travPage e) k

/-! ### binary32 in the engines (R176, R185) -/

/-- Order of finite binary32 values. -/
def f32Key (x : F32) : Int := let m : Int := (x.toNat % 2 ^ 31 : Nat); if f32Sign x then -m else m
def f32Le (a b : F32) : Bool := decide (f32Key a ≤ f32Key b)
def f32Min (a b : F32) : F32 := if f32Lt b a then b else a
def f32MaxOf (a b : F32) : F32 := if f32Lt a b then b else a
def f32Clamp (x lo hi : F32) : F32 := f32Min (f32MaxOf x lo) hi
def f32One : F32 := 0x3F800000#32

/-- A value of the update; none once an operand or result is not finite (R185). -/
abbrev XF := Option F32
def xIn (x : F32) : XF := if f32Finite x then some (f32In fmTrav x) else none
def xOp (f : FMode → F32 → F32 → FRes) (a b : XF) : XF :=
  match a, b with
  | some x, some y => let r := (f fmTrav x y).val; if f32Finite r then some r else none
  | _, _ => none
def xAdd : XF → XF → XF := xOp fAdd
def xSub : XF → XF → XF := xOp fSub
def xMul : XF → XF → XF := xOp fMul
def xDiv : XF → XF → XF := xOp fDiv

/-! ### Registers of the engine -/

def coefOf (d : Dev) (key : Nat) : F32 := (rd d key).setWidth 32
def latVal (d : Dev) (e n : Nat) : F32 := coefOf d (TRAV_LAT.at e n)
/-- State word `k` (R200, R221). -/
def stw (d : Dev) (e k : Nat) : Word := rd d (TRAV_STW.at e k)
def setStw (d : Dev) (e k : Nat) (v : Word) : Dev := wr d (TRAV_STW.at e k) v
def stF (d : Dev) (e k : Nat) : F32 := (stw d e k).setWidth 32
def setStF (d : Dev) (e k : Nat) (v : F32) : Dev := setStw d e k (v.setWidth 36)
def sI : Nat := 0
def sD : Nat := 1
def sYprev : Nat := 2
def sUprev : Nat := 3
def sUhold : Nat := 4
def sR : Nat := 5
def sTs : Nat := 7
def sOvPh : Nat := 0xB
def sOvOrg : Nat := 0xC
def sOvWrap : Nat := 0xD
def sOvPass : Nat := 0xE
def sOvLast : Nat := 0xF

def travState (d : Dev) (e : Nat) : Nat := gf d (TRAV_STAT.STATE e)
def ovst (d : Dev) (e : Nat) : Nat := gf d (TRAV_OVSTAT.OVST e)
def setOvst (d : Dev) (e n : Nat) : Dev := pf d (TRAV_OVSTAT.OVST e) n

/-! ### Latches and freshness (R177-R180) -/

/-- Every input marked in REQ is fresh (R179). -/
def reqMet (d : Dev) (e : Nat) : Bool :=
  let req := gf d (TRAV_INCFG.REQ e)
  gf d (TRAV_STAT.FRESH e) &&& req == req

/-- The tick at which REQ is met is noted (R180). -/
def freshCheck (d : Dev) (e : Nat) : Dev :=
  withTrav d e fun t => { t with metAt := if reqMet d e then (match t.metAt with | some m => some m | none => some d.now) else none }

/-- An arrival at latch `n` (R177, R178, R183). -/
def arrive (d : Dev) (e n : Nat) (v : F32) (ts : Word) (depth : Nat) : Dev :=
  if 4 ≤ depth then travEvt d e 14
  else
    let d1 := if gbit d (TRAV_STAT.FRESH e) n then travEvt (incF d (TRAV_CNT.OVR e) 1) e 2 else d
    let d2 := wr (wr d1 (TRAV_LAT.at e n) (v.setWidth 36)) (TRAV_LATTS.at e n) ts
    freshCheck (pbit (withTrav d2 e fun t => { t with depth := tabSet 0 t.depth n depth }) (TRAV_STAT.FRESH e) n true) e

/-- The trigger input T is fresh (R179). -/
def travTrigger (d : Dev) (e : Nat) : Dev := freshCheck (pbit d (TRAV_STAT.FRESH e) 4 true) e

/-- LATCH_ARRIVAL: the oldest delivery on its way to a latch; in one tick by rank (R87, R177, R232). -/
def latchArrival (d : Dev) (e n : Nat) : Dev :=
  let l := d.arrivals.filter fun a => decide (a.eng = e ∧ a.lat = n ∧ a.tick ≤ d.now)
  match l.foldl (fun (b : Option Arrival) a => match b with
    | none => some a
    | some x => if a.tick < x.tick ∨ (a.tick = x.tick ∧ a.rank < x.rank) then some a else some x) none with
  | none => d
  | some a => arrive { d with arrivals := d.arrivals.erase a } e n a.val a.stamp 0

/-! ### Following-error counter (R213-R217) -/

/-- FECNT at the present tick, under a given EN and FETIME (R214). -/
def feCount (d : Dev) (e : Nat) (en : Bool) (time : Nat) : Nat :=
  let c := gf d (TRAV_FECNT.CNT e)
  let t := d.now - (travOf d e).feAt
  if travState d e ≠ 1 ∨ en = false then c
  else if gb d (TRAV_FESTAT.COND e) then min time (c + t)
  else c - t / 2
def feLive (d : Dev) (e : Nat) (en : Bool) : Nat := feCount d e en (gf d (TRAV_FETIME.TIME e))

/-- Trip source 112 + e follows FET and TRIP (R215). -/
def feSource (d : Dev) (e : Nat) : Dev := setLive d (112 + e) (gb d (TRAV_FESTAT.FET e) && gb d (TRAV_FECFG.TRIP e))

/-- FET sets (R214, R215). -/
def setFet (d : Dev) (e : Nat) : Dev :=
  let d1 := feSource (travEvt (pb d (TRAV_FESTAT.FET e) true) e 6) e
  if gb d1 (TRAV_FECFG.SAFE e) then withTrav d1 e fun t => { t with fSafe := true } else d1

/-- The counter has reached FETIME by counting (R214). -/
def feReached (d : Dev) (e : Nat) (en : Bool) (time : Nat) : Bool :=
  !gb d (TRAV_FESTAT.FET e) && travState d e == 1 && en && gb d (TRAV_FESTAT.COND e) && decide (time ≤ feCount d e en time)

/-- FECNT is brought up to date under the EN and FETIME in force till now, and FET sets in the tick that reaches FETIME;
`restart`: the two-tick phase begins anew. -/
def feSyncAs (d : Dev) (e : Nat) (en : Bool) (time : Nat) (restart : Bool) : Dev :=
  let t := d.now - (travOf d e).feAt
  let keep := if restart || gb d (TRAV_FESTAT.COND e) then d.now else d.now - t % 2
  let d1 := withTrav (pf d (TRAV_FECNT.CNT e) (feCount d e en time)) e fun x => { x with feAt := keep }
  if feReached d e en time then setFet d1 e else d1
def feSync (d : Dev) (e : Nat) (restart : Bool) : Dev := feSyncAs d e (gb d (TRAV_FECFG.EN e)) (gf d (TRAV_FETIME.TIME e)) restart

/-- COND takes a value (R213, R214). -/
def setCond (d : Dev) (e : Nat) (b : Bool) : Dev :=
  if gb d (TRAV_FESTAT.COND e) = b then d else pb (feSync d e true) (TRAV_FESTAT.COND e) b

/-- A completed update sends its COND toward the counter; within the 14 ns of R213 its arrival is free. -/
def sendCond (d : Dev) (e : Nat) (b : Bool) : Dev :=
  let (d1, w) := takeFree d
  let n := w.toNat % 15
  if n = 0 then setCond d1 e b else withTrav d1 e fun t => { t with condAt := some (d.now + n, b) }

/-- A COND that was on its way arrives (R217). -/
def condDue (d : Dev) : Dev :=
  forUpTo 64 (fun e d => match (travOf d e).condAt with
    | some (t, b) => if t ≤ d.now then setCond (withTrav d e fun x => { x with condAt := none }) e b else d
    | none => d) d

/-- FE_TRIP: the counter reaches FETIME (R214). -/
def feTripDue (d : Dev) (e : Nat) : Bool := feReached d e (gb d (TRAV_FECFG.EN e)) (gf d (TRAV_FETIME.TIME e))
def feTrip (d : Dev) (e : Nat) : Dev := if feTripDue d e then feSync d e true else d

/-- TRAV_FECLR.CLR = 1 (R217). -/
def feClear (d : Dev) (e : Nat) : Dev :=
  let d1 := pb (pb (pb (pf d (TRAV_FECNT.CNT e) 0) (TRAV_FESTAT.FET e) false) (TRAV_FESTAT.COND e) false) (TRAV_FESTAT.SAFE e) false
  feSource (withTrav d1 e fun t => { t with feAt := d.now, fSafe := false }) e

/-! ### States (R186-R191) -/

/-- The OPEN output by OPENSEL and SAFE (R186, R216). -/
def openHold (d : Dev) (e : Nat) (otherwise : F32) : F32 :=
  if gb d (TRAV_FESTAT.SAFE e) then coefOf d (TRAV_SAFEOUT.at e)
  else if gb d (TRAV_CFG.OPENSEL e) then coefOf d (TRAV_OPENOUT.at e)
  else otherwise

/-- A coefficient register or state word (R191). -/
def isCoef (off : Nat) : Bool :=
  (decide (0x20 ≤ off) && decide (off ≤ 0x2D)) || (decide (0x40 ≤ off) && decide (off ≤ 0x47)) || (decide (0x60 ≤ off) && decide (off < 0x80))

/-- Coefficient shadows that are unapplied when the state applies as CLOSED or HOLD are discarded (R191). -/
def dropCoefShadows (d : Dev) (e : Nat) : Dev :=
  let isIt := fun (k : Nat) => decide (k / 256 = travPage e) && isCoef (k % 256)
  if (d.folio.shadows.any fun s => isIt s.1) || d.folio.defer.any fun s => isIt s.1 then
    travEvt (fixStaged (withFolio d fun f => { f with
      shadows := f.shadows.filter fun s => !isIt s.1
      defer := f.defer.filter fun s => !isIt s.1 }) (travPage e)) e 10
  else d

/-- The state changes (R187, R209). Uhold is the last OPEN output when OPEN is left (log entry 66). -/
def setState (d : Dev) (e new : Nat) : Dev :=
  let old := travState d e
  if new = old then d
  else
    let uprev := stF d e sUprev
    let hold := if new = 1 ∨ old = 0 then stF d e sUhold else if new = 0 then openHold d e uprev else uprev
    let d1 := setStF (feSync d e true) e sUhold hold
    let d2 := travEvt (pf d1 (TRAV_STAT.STATE e) new) e 4
    let d3 := if new = 1 then pb (pb (pb d2 (TRAV_STAT.FIRST e) true) (TRAV_STAT.SATHI e) false) (TRAV_STAT.SATLO e) false else d2
    if new = 0 then (if 2 ≤ ovst d3 e ∧ ovst d3 e ≤ 4 then setOvst d3 e 1 else d3) else dropCoefShadows d3 e

/-- A change to CLOSED is refused (R189, R216). -/
def closeRefused (d : Dev) (e : Nat) : Bool :=
  let g := fun (k : Nat) => coefOf d k
  let edge := gb d (TRAV_OUTCFG.EDGE e)
  f32Lt (g (TRAV_IMAX.at e)) (g (TRAV_IMIN.at e)) || f32Lt (g (TRAV_OMAX.at e)) (g (TRAV_OMIN.at e)) ||
    (edge && decide (gf d (TRAV_OUTCFG.OMODE e) < 2) && (f32Lt (g (TRAV_OMIN.at e)) 0 || f32Lt f32One (g (TRAV_OMAX.at e)))) ||
    (edge && gb d (TRIPNET_FSTAT.ALERT (gf d (TRAV_OUTCFG.FORME e))) && gf d (TRAV_CFG.ALRT e) != 0) ||
    mode d == mRecovery || (gb d (TRAV_FESTAT.FET e) && gb d (TRAV_FESTAT.SAFE e))

/-- The requested state applies at the start of an update (R187, R189, R192). -/
def takeState (d : Dev) (e : Nat) : Dev :=
  match (travOf d e).stateReq with
  | none => d
  | some v =>
    let d1 := withTrav d e fun t => { t with stateReq := none }
    if v = travState d e then d1
    else if v = 1 ∧ closeRefused d e = true then travEvt d1 e 16
    else setState d1 e v

/-- A forced change prevails over a state write that has not been taken: that write is refused where it asked for another
state (R189, R190). -/
def dropReq (d : Dev) (e : Nat) : Dev :=
  match (travOf d e).stateReq with
  | none => d
  | some v =>
    let d1 := withTrav d e fun t => { t with stateReq := none }
    if v = travState d e then d1 else travEvt d1 e 16

/-- FORCED_STATE_CHANGE (R190): with no update in progress. -/
def forcedDue (d : Dev) (e : Nat) : Bool := let t := travOf d e; t.upd.isNone && (t.fAlert || t.fRecov || t.fDis)
def forcedChange (d : Dev) (e : Nat) : Dev :=
  if forcedDue d e then
    let t := travOf d e
    let d1 := withTrav d e fun t => { t with fAlert := false, fRecov := false, fDis := false }
    let st := travState d e
    let alrt := gf d (TRAV_CFG.ALRT e)
    let d2 := if t.fAlert then (if alrt = 1 ∧ st = 1 then setState d1 e 2 else if alrt = 2 then setState d1 e 0 else d1) else d1
    let d3 := if t.fRecov then setState d2 e 2 else d2
    let d4 := if t.fDis then
        let u := stF d3 e sUprev
        if travState d3 e = 0 then d3 else setStF (setState d3 e 0) e sUhold u
      else d3
    if t.fRecov || t.fDis || travState d4 e != st then dropReq d4 e else d4
  else d

/-! ### Output (R193-R196, R183) -/

/-- Nearest integer to num / den, ties to even. -/
def roundRat (num den : Nat) : Nat :=
  let q := num / den
  let r := 2 * (num % den)
  if r < den then q else if den < r then q + 1 else q + q % 2

/-- A finite non-negative binary32 value as a fraction; a negative one counts as 0. -/
def f32Frac (x : F32) : Nat × Nat :=
  if f32Sign x then (0, 1)
  else
    let (m, e) := f32Mag x
    if 0 ≤ e then (m * 2 ^ e.toNat, 1) else (m, 2 ^ (-e).toNat)

/-- Edge times t_r and t_f in 1/8,192 tk (R193); none where CMODE is not allowed for OMODE. -/
def edgeTimes (u : F32) (omode : Nat) (p k cm : Nat) : Option (Nat × Nat) :=
  let dur := p * k
  let (n, q) := f32Frac u
  let n1 := min n q
  if omode = 0 then
    let tr := roundRat (dur * 4096 * (q - n1)) q
    some (tr, dur * 8192 - tr)
  else if omode = 1 then (if cm = 2 then none else some (0, roundRat (dur * 8192 * n1) q))
  else
    let t := roundRat (8192 * min n (dur * q)) q
    if cm = 2 then some (min t (dur * 4096), max t (dur * 4096)) else some (t, t)

/-- Compare word and halftone of an edge time (R194). -/
def encodeEdge (t : Nat) (rising : Bool) (p k cm : Nat) : Word × Nat :=
  if p * k * 8192 ≤ t then (never, 0)
  else
    let ti := if k = 1 then t / 8192 else roundRat t (8192 * k)
    let fr := if k = 1 then t % 8192 else 0
    let ht := fr % 256
    let w := fun (tick : Nat) => setFld (setFld 0 28 5 tick) 4 0 (fr / 256)
    if cm = 1 then (if ti < p then (w (p - 1 - ti), ht) else (never, 0))
    else if cm = 2 ∧ rising = false then (w (p - ti), ht)
    else (w ti, ht)

/-- Edge writes of an output into the shadows of the pairs in PMASK (R193-R195). -/
def writeEdges (d : Dev) (e : Nat) (u : F32) : Dev :=
  let f := gf d (TRAV_OUTCFG.FORME e)
  let omode := gf d (TRAV_OUTCFG.OMODE e)
  let x := formeOf d f
  let (p, k, cm) := if counting d f then (x.p, x.k, x.cm) else (regP d f, gf d (FORME_MODE.PRE f) + 1, gf d (FORME_MODE.CMODE f))
  match edgeTimes u omode p k cm with
  | none => travEvt d e 11
  | some (tr, tf) =>
    let (a, ha) := encodeEdge tr true p k cm
    let (b, hb) := encodeEdge tf false p k cm
    let fall := gb d (TRAV_OUTCFG.ESEL e)
    forUpTo 4 (fun n d =>
      if gbit d (TRAV_OUTCFG.PMASK e) n then
        if omode < 2 then edgeLand d f n (e + 1) (some a) (some b) (some ha) (some hb)
        else if fall then edgeLand d f n (e + 1) none (some b) none (some hb)
        else edgeLand d f n (e + 1) (some a) none (some ha) none
      else d) d

/-- The output `u` goes to every enabled destination, with its timestamp and cascade depth (R183, R193, R196, R215). -/
def emitOutput (d : Dev) (e : Nat) (u : F32) (ts : Word) (depth : Nat) : Dev :=
  let d1 := if gb d (TRAV_OUTCFG.EDGE e) then writeEdges d e u else d
  let d2 := if gb d (TRAV_OUTCFG.CASC e) then arrive d1 (gf d (TRAV_OUTCFG.CENG e)) (gf d (TRAV_OUTCFG.CLAT e)) u ts depth else d1
  if gb d (TRAV_OUTCFG.QEN e) then
    let w0 := setFld (setBitW (setBitW (u.setWidth 36) 35 (gb d2 (TRAV_STAT.SATHI e))) 34 (gb d2 (TRAV_STAT.SATLO e))) 33 32 (travState d2 e)
    offerRecord d2 (40 + e) (gf d (TRAV_OUTQ.QUEUE e)) (travPage e) 13 [w0, ts]
  else d2

/-- SAFE_ACTION (R215): OPEN with Uhold := SAFEOUT, written to the destinations; a forced HOLD of RECOVERY that is due with
it follows (log entry 178). -/
def safeDue (d : Dev) (e : Nat) : Bool := let t := travOf d e; t.upd.isNone && t.fSafe
def safeAction (d : Dev) (e : Nat) : Dev :=
  if safeDue d e then
    let u := coefOf d (TRAV_SAFEOUT.at e)
    let d1 := withTrav d e fun t => { t with fSafe := false, fAlert := false }
    let d2 := dropReq (setState (pb d1 (TRAV_FESTAT.SAFE e) true) e 0) e
    emitOutput (setStF d2 e sUhold u) e u (shortTs d) 1
  else d

/-! ### Overlay (R202-R211) -/

def ovN (d : Dev) (e : Nat) : Nat := gf d (TRAV_OVCFG.NM1 e) + 1
def ovAddr (e k : Nat) : Nat := 0x6000000 + e * 0x400 + k

/-- A fabric write of Overlay word `a` is discarded (R202). -/
def overlayLocked (d : Dev) (a : Nat) : Bool :=
  let e := (a - 0x6000000) / 0x400
  decide (0x6000000 ≤ a) && decide (a < 0x6010000) && decide (a % 0x400 < ovN d e) && decide (2 ≤ ovst d e ∧ ovst d e ≤ 4)

/-- A table point as the engine uses it; none where it is unusable (R203). -/
def ovRead (e k : Nat) (s : State) : State × Option F32 :=
  match memLoad (.cluster ⟨e / 4 % 16, Nat.mod_lt _ (by decide)⟩) true (ovAddr e k) (initNow none (ovAddr e k) s) with
  | (s1, .ok w) => let x : F32 := w.setWidth 32; (s1, if f32Finite x then some (f32In fmTrav x) else none)
  | (s1, _) => (s1, none)

def ovWrite (e k : Nat) (x : F32) (s : State) : State :=
  (memStore (.cluster ⟨e / 4 % 16, Nat.mod_lt _ (by decide)⟩) (ovAddr e k) (BitVec.allOnes 36) (x.setWidth 36) (initNow none (ovAddr e k) s)).1

/-- The Overlay enters FAULT (R203). -/
def ovFault (d : Dev) (e : Nat) : Dev := travEvt (setOvst d e 5) e 9

/-- Source phase φs as a 32-bit fraction, and the running ORG, at timestamp ts (R204); none: phase lost. -/
def ovPhase (d : Dev) (e : Nat) (ts : Word) : Option Nat × Word :=
  let org := stw d e sOvOrg
  let b := gf d (TRAV_OVCFG.BUNIT e)
  match gf d (TRAV_OVCFG.PSRC e) with
  | 0 =>
    let x := (ts - org).toNat
    let per := gf d (TRAV_OVPER.PER e)
    (if 2 ^ 35 ≤ x then none else some (x % per * 2 ^ 32 / per), org + BitVec.ofNat 36 (x / per * per))
  | 1 => (if gb d (BRNG_STAT.POS_VALID b) then some (gf d (BRNG_ANGLE.ANGLE b)) else none, org)
  | _ =>
    let tm := (rd d (BRNG_PER.at b)).toNat
    let x := (ts - rd d (BRNG_ETS.at b)).toNat
    if gb d (BRNG_STAT.PER_VALID b) && decide (x < 2 * tm) then (some (x % tm * 2 ^ 32 / tm), org) else (none, org)

/-- A wrap ends a pass: its duration, the jitter freeze (R205, R206). -/
def ovWrapAt (d : Dev) (e : Nat) (ts : Word) : Dev :=
  let t := travOf d e
  let tp := (ts - stw d e sOvWrap).toNat
  let tpp := (stw d e sOvPass).toNat
  let j := gf d (TRAV_OVWJ.JIT e)
  let d1 := setStw (withTrav d e fun x => { x with wrapCnt := min 3 (x.wrapCnt + 1) }) e sOvWrap ts
  if t.wrapCnt = 0 then d1
  else
    let d2 := setStw (wr d1 (TRAV_OVPASS.at e) (BitVec.ofNat 36 tp)) e sOvPass (BitVec.ofNat 36 tp)
    if t.wrapCnt = 1 then d2
    else pb d2 (TRAV_OVSTAT.JFRZ e) (decide (0 < j ∧ j * tpp < 256 * (max tp tpp - min tp tpp)))

/-- Phase tracking of one update: whether the phase is valid, whether it wrapped, and the index (R205, R206). -/
def ovTrack (d : Dev) (e : Nat) (ts : Word) : Dev × Bool × Bool :=
  let (src, org) := ovPhase d e ts
  let d0 := setStw d e sOvOrg org
  let lose := fun (d : Dev) (rev : Bool) =>
    withTrav (pb (pb d (TRAV_OVSTAT.PLOCK e) false) (TRAV_OVSTAT.REV e) rev) e fun t => { t with phValid := false, wrapCnt := 0 }
  match src with
  | none => (if gb d (TRAV_OVSTAT.PLOCK e) then lose d0 false else lose d0 (gb d (TRAV_OVSTAT.REV e)), false, false)
  | some s =>
    let phi := (gf d (TRAV_OVCFG.MULT e) + 1) * s % 2 ^ 32
    let old := fld (stw d e sOvPh) 31 0
    let valid := (travOf d e).phValid
    let step := signed 32 (phi + 2 ^ 32 - old)
    if valid && decide (step < 0) then (lose d0 true, false, false)
    else
      let d1 := setStw (pf (pb d0 (TRAV_OVSTAT.PLOCK e) true) (TRAV_OVSTAT.IDX e) (phi * ovN d e / 2 ^ 32)) e sOvPh (BitVec.ofNat 36 phi)
      let d2 := withTrav d1 e fun t => { t with phValid := true }
      let d3 := if valid then d2 else pb d2 (TRAV_OVSTAT.JFRZ e) (gf d (TRAV_OVWJ.JIT e) != 0)
      let wrap := valid && decide (phi < old)
      (if wrap then ovWrapAt d3 e ts else d3, true, wrap)

/-- Overlay state of one update (R209, R210): `entry`, the state has become CLOSED and no CLOSED update has completed. -/
def ovDecide (d : Dev) (e : Nat) (entry valid wrap : Bool) : Dev :=
  let st := ovst d e
  let warm := fun (d : Dev) => pf (setOvst d e 3) (TRAV_OVSTAT.WCNT e) 0
  let active := fun (d : Dev) => travEvt (setOvst d e 4) e 7
  let lost := fun (d : Dev) => travEvt (setOvst d e 2) e 8
  if st = 0 ∨ st = 5 then d
  else if travState d e = 0 then setOvst d e 1
  else if (st = 3 ∨ st = 4) ∧ valid = false then lost d
  else if valid = false then (if st = 1 ∧ travState d e = 2 then d else setOvst d e 2)
  else if entry then warm d
  else if st = 2 then warm d
  else if st = 1 then (if travState d e = 2 then d else warm d)
  else if st = 3 then
    let w := gf d (TRAV_OVWJ.WARM e)
    let c := gf d (TRAV_OVSTAT.WCNT e)
    let d1 := if wrap then pf d (TRAV_OVSTAT.WCNT e) (min 255 (c + 1)) else d
    if w = 0 ∨ (wrap = true ∧ c = w) then active d1 else d1
  else d

/-- The Overlay part of an update's start: state, the term ov (R207), and the point that was read. -/
def ovBegin (e : Nat) (entry : Bool) (ts : Word) (s : State) : State × F32 × Option Nat :=
  if ovst s.dev e = 0 ∨ ovst s.dev e = 5 then (s, 0, none)
  else
    let (d1, valid, wrap) := ovTrack s.dev e ts
    let s1 := setDev s (ovDecide d1 e entry valid wrap)
    if ovst s1.dev e ≠ 4 then (s1, 0, none)
    else
      let k := (gf s1.dev (TRAV_OVSTAT.IDX e) + gf s1.dev (TRAV_OVCFG.LEAD e)) % ovN s1.dev e
      match ovRead e k s1 with
      | (s2, none) => (setDev s2 (ovFault s2.dev e), 0, some k)
      | (s2, some x) =>
        let lim := coefOf s2.dev (TRAV_OVLIM.at e)
        match xMul (some (coefOf s2.dev (TRAV_OVGAIN.at e))) (some x) with
        | some v => (s2, f32Clamp v (fNegBits lim) lim, some k)
        | none => (s2, lim, some k)

/-- OVERLAY_ZERO_FILL (R209): whole blocks are replaced with a valid code, which heals them (R351); in a last block that the
table fills only in part, the words beyond it keep what a read delivers (log entry 19). -/
def zeroFillDue (d : Dev) (e : Nat) : Bool := (travOf d e).zeroFill && !initWait d .overlay
def overlayZeroFill (e : Nat) (s : State) : State :=
  if zeroFillDue s.dev e then
    let n := ovN s.dev e
    let fill := fun (k : Nat) (m : MemSt) =>
      let p := physOf s.dev .overlay (ovAddr e (8 * k))
      writeBlock m p ((upTo 8).map fun i => if 8 * k + i < n then 0 else deliveredWord m (p + i))
    setDev (setMem s (forUpTo ((n + 7) / 8) fill s.mem)) (withTrav s.dev e fun t => { t with zeroFill := false })
  else s

/-! ### The control law (R184, R185) -/

/-- Operands and results of one update. -/
structure LawRes where
  err : F32
  y : F32
  dst : F32
  ist : F32
  uo : F32
  hold : F32
  hi : Bool
  lo : Bool
  acted : Bool
  bump : Bool
deriving DecidableEq, Repr

/-- Feed-forward sum in ascending n (R184). -/
def ffSum (d : Dev) (e : Nat) : XF :=
  (upTo 4).foldl (fun (a : XF × Bool) n =>
    if gbit d (TRAV_CFG.FFEN e) n then
      let l := fld (rd d (TRAV_CFG.at e)) (2 * n + 1) (2 * n)
      let p := xMul (some (coefOf d (TRAV_FF.at e n))) (xIn (latVal d e l))
      (if a.2 then xAdd a.1 p else p, true)
    else a) (some 0, false) |>.1

/-- The law of one update with set-point `r` and Overlay term `ov`; none: the update is abandoned (R185). -/
def law (d : Dev) (e : Nat) (r ov : F32) : Option LawRes :=
  let c := fun (k : Nat) => coefOf d k
  let st := travState d e
  let closed := st == 1
  let first := gb d (TRAV_STAT.FIRST e)
  let norm := gb d (TRAV_CFG.NORM e)
  let yx := xIn (latVal d e (gf d (TRAV_INCFG.YSEL e)))
  let nx := if norm then (xIn (latVal d e (gf d (TRAV_CFG.NSEL e)))).filter fun v => f32Lt 0 v else some f32One
  let ex := xSub (xIn r) yx
  let yprev := if first then yx else some (stF d e sYprev)
  let dst0 : XF := if first then some 0 else some (stF d e sD)
  let dx := if gb d (TRAV_CFG.DEN e) then
      xAdd dst0 (xMul (some (c (TRAV_DFC.at e))) (xSub (xMul (some (fNegBits (c (TRAV_KD.at e)))) (xSub yx yprev)) dst0))
    else some 0
  let pt := xMul (some (c (TRAV_KP.at e))) ex
  let ff := ffSum d e
  let imin := c (TRAV_IMIN.at e)
  let imax := c (TRAV_IMAX.at e)
  let bias : XF := some (c (TRAV_BIAS.at e))
  let uhold := stF d e sUhold
  let ist0 := stF d e sI
  let was := (travOf d e).prevAct
  let act := ovst d e == 4
  -- preload or transfer, before the integral increment (R184, R211)
  let pre : XF :=
    if closed && first then xSub (if norm then xMul (xSub (some uhold) bias) nx else xSub (some uhold) bias) (xAdd (xAdd (xAdd pt dx) ff) (some ov))
    else if closed && act && !was then xSub (some ist0) (some ov)
    else if closed && !act && was then xAdd (some ist0) (some (stF d e sOvLast))
    else some ist0
  let moved := closed && (first || act != was)
  let inc := xMul (some (c (TRAV_KI.at e))) ex
  match ex, yx, dx, pre, nx with
  | some err, some y, some dst, some p0, some nv =>
    let p1 := if moved then f32Clamp p0 imin imax else p0
    let bump := moved && (f32Lt p0 imin || f32Lt imax p0)
    let istx : XF := if closed && !first then
        inc.bind fun i0 =>
          let i := if gb d (TRAV_CFG.AW e) && ((gb d (TRAV_STAT.SATHI e) && f32Lt 0 i0) || (gb d (TRAV_STAT.SATLO e) && f32Lt i0 0)) then 0 else i0
          (xAdd (some p1) (some i)).map fun x => f32Clamp x imin imax
      else some p1
    let sum := xAdd (xAdd (xAdd (xAdd pt istx) dx) ff) (some ov)
    let wx := xAdd (if norm then xDiv sum (some nv) else sum) bias
    let omin := c (TRAV_OMIN.at e)
    let omax := c (TRAV_OMAX.at e)
    let rate := c (TRAV_RATE.at e)
    let uprev := some (stF d e sUprev)
    let limited := closed && f32Lt 0 rate
    match istx, wx, (if limited then xSub uprev (some rate) else some 0), (if limited then xAdd uprev (some rate) else some 0) with
    | some ist, some w, some rl, some rh =>
      let ul := f32Clamp w omin omax
      let ur := if limited then f32Clamp ul rl rh else ul
      let hold := if st = 0 then openHold d e uhold else uhold
      if closed then
        some ⟨err, y, dst, ist, if first then uhold else ur, uhold, f32Lt omax w, f32Lt w omin, !first && f32Key ur != f32Key w, bump⟩
      else some ⟨err, y, dst, ist, hold, hold, gb d (TRAV_STAT.SATHI e), gb d (TRAV_STAT.SATLO e), false, false⟩
    | _, _, _, _ => none
  | _, _, _, _, _ => none

/-- Greatest depth among the latches an update uses (R183). -/
def usedDepth (d : Dev) (e : Nat) : Nat :=
  let dep := fun (n : Nat) => tabGet 0 (travOf d e).depth n
  let ff := (upTo 4).map fun n => if gbit d (TRAV_CFG.FFEN e) n then dep (fld (rd d (TRAV_CFG.at e)) (2 * n + 1) (2 * n)) else 0
  let l := [dep (gf d (TRAV_INCFG.YSEL e)), if gf d (TRAV_SPCFG.SRC e) = 1 then dep (gf d (TRAV_SPCFG.SPLAT e)) else 0,
    if gb d (TRAV_CFG.NORM e) then dep (gf d (TRAV_CFG.NSEL e)) else 0] ++ ff
  l.foldl max 0

/-- The set-point of an update (R181, R182); the first one under SRC = QUEUE since enable is no underrun (log entry 172). -/
def setPoint (d : Dev) (e : Nat) : Dev × F32 :=
  match gf d (TRAV_SPCFG.SRC e) with
  | 0 => (d, coefOf d (TRAV_SP.at e))
  | 1 => (d, latVal d e (gf d (TRAV_SPCFG.SPLAT e)))
  | _ =>
    let t := travOf d e
    match t.pre with
    | some v => (withTrav d e fun x => { x with pre := none, spSeen := true }, v)
    | none =>
      if t.spSeen then (travEvt (incF d (TRAV_CNT.SPU e) 1) e 12, stF d e sR)
      else (withTrav d e fun x => { x with spSeen := true }, coefOf d (TRAV_SP.at e))

/-- Ticks between the starts of two updates (R180). -/
def travSpacing : Nat := 400

/-- An update can start now (R179, R180, R199, R209). -/
def travReady (d : Dev) (e : Nat) : Bool :=
  let t := travOf d e
  gb d (FOLIO_CTL.EN (travPage e)) && convMode d && t.upd.isNone && !t.zeroFill && reqMet d e && !(forcedDue d e || safeDue d e)
    && (match t.lastStart with
        | some l => decide (l + travSpacing ≤ d.now)
        | none => true)

/-- An update starts: the delay of R180 is counted, fresh bits and STARVED clear, the requested state applies. -/
def travBegin (d : Dev) (e : Nat) : Dev :=
  let t := travOf d e
  let late := match t.lastStart, t.metAt with
    | some l, some m => decide (m < l + travSpacing)
    | _, _ => false
  let d1 := if late then incF d (TRAV_CNT.WAIT e) 1 else d
  let d2 := withTrav d1 e fun x => { x with lastStart := some d.now, metAt := none }
  takeState (pf (pb d2 (TRAV_STAT.STARVED e) false) (TRAV_STAT.FRESH e) 0) e

/-- TRAV_UPDATE (R184): start, law, destinations. -/
def travUpdate (e : Nat) (s : State) : State :=
  if travReady s.dev e then
    let ts := rd s.dev (TRAV_LATTS.at e (gf s.dev (TRAV_INCFG.YSEL e)))
    let (d1, r) := setPoint (travBegin s.dev e) e
    let entry := travState d1 e == 1 && gb d1 (TRAV_STAT.FIRST e)
    let (s2, ov, point) := ovBegin e entry ts (setDev s d1)
    match law s2.dev e r ov with
    | none =>
      -- abandoned: nothing of the engine changes but an Overlay fault (R185); the point was read
      let s3 := match point with
        | some k => (ovRead e k (setDev s d1)).1
        | none => setDev s d1
      let d4 := if ovst s2.dev e = 5 ∧ ovst d1 e ≠ 5 then ovFault s3.dev e else s3.dev
      let d5 := withTrav d4 e fun t => { t with upd := some ⟨0, 0, false, 0, false, true⟩ }
      setDev s3 (travEvt (incF d5 (TRAV_CNT.NUM e) 1) e 3)
    | some v =>
      let d := s2.dev
      let idx := gf d (TRAV_OVSTAT.IDX e)
      let closed := travState d e == 1
      let active := ovst d e == 4
      let learn := active && closed && !gb d (TRAV_OVSTAT.JFRZ e) && !gb d (TRAV_OVCTL.LFRZ e) && mode d != mStandby
      let d3 := setStF (setStF (setStF (setStF (setStF (setStF d e sI v.ist) e sD v.dst) e sYprev v.y) e sUprev v.uo) e sUhold v.hold) e sR r
      let depth := min 4 (usedDepth d e + 1)
      let d4 := pf (pb (pb (pb (setStw d3 e sTs ts) (TRAV_STAT.SATHI e) v.hi) (TRAV_STAT.SATLO e) v.lo) (TRAV_STAT.FIRST e) false) (TRAV_STAT.DEPTH e) depth
      let d5 := if v.bump then travEvt d4 e 5 else d4
      let d6 := if v.acted && !(travOf d e).satWas then travEvt d5 e 1 else d5
      let d7 := if active then setStF d6 e sOvLast ov else d6
      let d8 := if active && closed && gb d (TRAV_OVSTAT.JFRZ e) then incF d7 (TRAV_OVLCNT.JFZ e) 1 else d7
      let d9 := withTrav d8 e fun t => { t with satWas := v.acted, prevAct := active, upd := some ⟨v.err, v.uo, learn, idx, closed, false⟩ }
      setDev s2 (emitOutput d9 e v.uo ts depth)
  else s

/-! ### Write-back (R197, R208, R213) -/

/-- A learning update rewrites its point (R208); an infinite sum is clamped, what a NaN becomes is free (log entry 67). -/
def ovLearn (e j : Nat) (err : F32) (s : State) : State :=
  let n := ovN s.dev e
  let (s1, a) := ovRead e j s
  let (s2, b) := ovRead e ((j + n - 1) % n) s1
  let (s3, c) := ovRead e ((j + 1) % n) s2
  let add := fun (x y : F32) => (fAdd fmTrav x y).val
  let mul := fun (x y : F32) => (fMul fmTrav x y).val
  let q1 := coefOf s.dev (TRAV_OVQ.at e)
  let q0 := add f32One (fNegBits (mul 0x40000000#32 q1))
  let lim := coefOf s.dev (TRAV_OVLIM.at e)
  match a, b, c with
  | some p, some l, some r =>
    let t := add (add (mul q0 p) (mul q1 (add l r))) (mul (coefOf s.dev (TRAV_OVL.at e)) err)
    if f32Nan t then let (d, w) := takeFree s3.dev; ovWrite e j (w.setWidth 32) (setDev s3 d)
    else ovWrite e j (f32Clamp t (fNegBits lim) lim) s3
  | _, _, _ => setDev s3 (ovFault s3.dev e)

/-- UPDATE_WRITEBACK: the update completes (R55, R197, R208, R213). -/
def updateWriteback (e : Nat) (s : State) : State :=
  match (travOf s.dev e).upd with
  | none => s
  | some u =>
    let d1 := withTrav s.dev e fun t => { t with upd := none }
    if u.abandoned then setDev s d1
    else
      let d2 := wr (wr d1 (TRAV_LASTU.at e) (u.uo.setWidth 36)) (TRAV_UCNT.at e) (rd d1 (TRAV_UCNT.at e) + 1)
      let d3 := pb (if u.learn then incF d2 (TRAV_OVLCNT.LRN e) 1 else d2) (TRAV_OVSTAT.LEARN e) u.learn
      let d4 := if u.closed && gb d3 (TRAV_FECFG.EN e) then sendCond d3 e (f32Lt (coefOf d3 (TRAV_FELIMIT.at e)) (fAbsBits u.err)) else d3
      let s1 := setDev s d4
      let s2 := if u.learn then ovLearn e u.idx u.err s1 else s1
      setDev s2 (sourceEvent (travEvt s2.dev e 0) 4 e (s2.dev.now + 4))

/-- STARVE (R198). -/
def starveDue (d : Dev) (e : Nat) : Bool :=
  let lim := gf d (TRAV_STARVE.LIM e)
  travState d e == 1 && lim != 0 && !gb d (TRAV_STAT.STARVED e) && decide ((travOf d e).lastStart.getD 0 + 16 * lim ≤ d.now)
def starve (d : Dev) (e : Nat) : Dev := if starveDue d e then travEvt (pb d (TRAV_STAT.STARVED e) true) e 15 else d

/-! ### Enable, modes, registers -/

/-- Takes of an engine that were refused or cancelled are made again (R182, R371). -/
def takesAgain (d : Dev) (e : Nat) : Dev :=
  { d with galley := { d.galley with refused := d.galley.refused.filter fun p => decide (p.1 ≠ e) } }

/-- FOLIO_CTL.EN of an engine takes a value (R175, R182, R188, R190): EN = 0 forces OPEN at once where no update is in
progress; with EN = 1 the engine takes its queue's next word, and one that it held is gone (log entry 171). -/
def travEnable (d : Dev) (e : Nat) (en : Bool) : Dev :=
  if en then freshCheck (pb (withTrav (takesAgain d e) e fun t => { t with pre := none, spSeen := false, metAt := none }) (TRAV_STAT.FIRST e) true) e
  else forcedChange (withTrav d e fun t => { t with fDis := true }) e

/-- PARK entry: an update in progress completes, CLOSED and HOLD become OPEN (R199, R219). -/
def travPark (e : Nat) (s : State) : State :=
  let s1 := updateWriteback e s
  setDev s1 (setState s1.dev e 0)

/-- Wake: fresh bits are clear, the phase counts as lost (R199, R219). -/
def travWake (d : Dev) (e : Nat) : Dev :=
  withTrav (pb (pf d (TRAV_STAT.FRESH e) 0) (TRAV_OVSTAT.PLOCK e) false) e fun t => { t with metAt := none, phValid := false, wrapCnt := 0 }

/-- RECOVERY entry (R190). -/
def travRecovery (d : Dev) (e : Nat) : Dev := withTrav d e fun t => { t with fRecov := true }

/-- TRAV_OVCFG applied (R209); with INIT = ZERO the table restarts from zero (R218). -/
def onOvcfg (d : Dev) (e : Nat) : Dev :=
  if !gb d (TRAV_OVCFG.EN e) then withTrav (setOvst d e 0) e fun t => { t with prevAct := false, zeroFill := false }
  else if ovst d e = 0 ∨ ovst d e = 5 then
    let d1 := setStw (pb (setOvst d e 1) (TRAV_OVSTAT.JFRZ e) (gf d (TRAV_OVWJ.JIT e) != 0)) e sOvOrg (rd d (TRAV_OVORG.at e))
    withTrav d1 e fun t => { t with phValid := false, wrapCnt := 0, zeroFill := !gb d (TRAV_OVCFG.INIT e) }
  else withTrav d e fun t => { t with zeroFill := t.zeroFill || !gb d (TRAV_OVCFG.INIT e) }

/-- A word of the registers' binary32 fields. -/
def isF32Reg (off : Nat) : Bool :=
  off == 0x13 || off == 0x18 || (decide (0x20 ≤ off) && decide (off ≤ 0x2D)) || (decide (0x30 ≤ off) && decide (off < 0x34))
    || (decide (0x41 ≤ off) && decide (off ≤ 0x44)) || off == 0x51 || off == 0x53 || (decide (0x60 ≤ off) && decide (off ≤ 0x65)) || off == 0x6F

/-- Values TRAV registers refuse with CFG_ERR (R176, R179, R181, R190, R193, R195, R200, R220). -/
def badTrav (off : Nat) (v : Word) : Bool :=
  let x : F32 := v.setWidth 32
  (isF32Reg off && !f32Ok x) || (match off with
    | 0x10 => decide (fld v 1 0 = 3)
    | 0x11 => decide (fld v 12 8 = 0)
    | 0x12 => decide (fld v 35 34 = 3)
    | 0x14 => decide (fld v 31 30 = 3) || (bit v 35 && decide (fld v 23 20 = 0))
    | 0x16 => decide (fld v 29 28 = 3)
    | 0x23 => f32Le x 0 || f32Lt f32One x
    | 0x2D => f32Lt x 0
    | 0x40 => decide (fld v 33 32 = 3 ∨ fld v 21 12 < 63 ∨ fld v 21 12 < fld v 9 0)
    | 0x41 => f32Lt x 0
    | 0x42 => f32Lt x 0 || f32Lt 0x3E800000#32 x
    | 0x43 => f32Lt x 0 || f32Lt f32One x
    | 0x44 => f32Lt x 0
    | 0x45 => decide (fld v 31 0 < 10000)
    | 0x51 => f32Lt x 0
    | 0x52 => decide (fld v 31 0 < 16)
    | _ => false)

/-- COEF_LOCKED (R191): checked before CFG_ERR. -/
def coefLocked (d : Dev) (e off : Nat) : Bool := isCoef off && travState d e != 0

/-- A TRAV register written or applied; in STANDBY the engine ignores TRAV_STATE (R399). -/
def onTrav (d : Dev) (e off : Nat) (old v : Word) : Dev :=
  match off with
  | 0x10 => if mode d = mStandby then d else withTrav d e fun t => { t with stateReq := some (fld v 1 0) }
  | 0x11 => freshCheck (withTrav d e fun t => { t with metAt := none }) e
  | 0x17 => if bit v 0 then travTrigger d e else d
  | 0x40 => onOvcfg d e
  | 0x47 => if fld v 7 0 = 0 then pb d (TRAV_OVSTAT.JFRZ e) false else d
  | 0x50 => feSource (feSyncAs d e (bit old 35) (gf d (TRAV_FETIME.TIME e)) false) e
  | 0x52 =>
    let d1 := feSyncAs d e (gb d (TRAV_FECFG.EN e)) (fld old 31 0) false
    if fld v 31 0 ≤ gf d1 (TRAV_FECNT.CNT e) then
      let d2 := pf d1 (TRAV_FECNT.CNT e) (fld v 31 0)
      if gb d1 (TRAV_FESTAT.FET e) then d2 else setFet d2 e
    else d1
  | 0x56 => if bit v 0 then feClear d e else d
  | _ => d

/-- A state word applied in OPEN (R200, R221): the register holds it; ST_FECNT is FECNT itself, never above FETIME. -/
def writeStw (d : Dev) (e k : Nat) (v : Word) : Dev :=
  if k = 8 then
    withTrav (pf (setStw d e 8 0) (TRAV_FECNT.CNT e) (min (fld v 31 0) (gf d (TRAV_FETIME.TIME e)))) e fun t => { t with feAt := d.now }
  else d

/-- A state word as read (R200, R221). -/
def readStw (d : Dev) (e k : Nat) : Word :=
  let w := rd d (TRAV_STAT.at e)
  let o := rd d (TRAV_OVSTAT.at e)
  let t := travOf d e
  match k with
  | 6 => setFld (setBitW (setBitW (setBitW (setFld 0 1 0 (fld w 1 0)) 2 (bit w 18)) 3 (bit w 16)) 4 (bit w 17)) 7 5 (fld w 23 21)
  | 8 => BitVec.ofNat 36 (feLive d e (gb d (TRAV_FECFG.EN e)))
  | 9 => let f := rd d (TRAV_FESTAT.at e); setFld 0 2 0 (fld f 0 0 + 2 * fld f 1 1 + 4 * fld f 2 2)
  | 0xA => setBitW (setBitW (setFld (setBitW (setFld 0 2 0 (fld o 2 0)) 3 (bit o 4)) 11 4 (fld o 15 8)) 12 t.prevAct) 13 t.phValid
  | _ => if k < 0x10 then stw d e k else 0

/-- TRAV_STAT with its live ALERT (R190, R200). -/
def travStat (d : Dev) (e : Nat) : Word :=
  setBitW (rd d (TRAV_STAT.at e)) 19 (gb d (TRIPNET_FSTAT.ALERT (gf d (TRAV_OUTCFG.FORME e))))

/-- An engine after its block reset: OPEN, FIRST, no update in progress (R199, R219). -/
def travReset (d : Dev) (e : Nat) : Dev := feSource (withTrav (takesAgain d e) e fun _ => { travInit with feAt := d.now }) e

end Sys2Proof.Machine
end

