-- ==== Sys2Proof/Machine/Kamul.lean ====
section
/-!
DEFINITION. A Kamul core between commands: when it may execute, how the instruction at IP is fetched (R237-R240), the
write buffer (R254-R256) and the order of what a boundary takes (R306).
-/
namespace Sys2Proof.Machine

def corePage (c : Nat) : Nat := 0x20 + c
def tscPage (c : Nat) : Nat := 0x28 + c

/-- The core is released and not stopped (R259, R260, R463): reset over, the boot ROM started, not in PARK. -/
def coreOn (d : Dev) (c : Nat) : Bool :=
  let k := coreOfDev d c
  decide (d.rstc.phase = .started) && d.rstc.booted && mode d != mPark && gb d (FOLIO_CTL.EN (corePage c))
    && !k.stopped

/-- The core can act at a boundary: also not halted by debug (R496). -/
def coreRuns (d : Dev) (c : Nat) : Bool := coreOn d c && (!(coreOfDev d c).halted || (coreOfDev d c).stepping)

/-- An arithmetic exception that has not been reported yet: with PRECISE = 0 up to 6 later instructions retire before it
(R281, R312). -/
def excLate (k : CoreSt) (e : Exc) : Bool := e.ip.isNone && e.arith.isSome && decide (k.retCnt < e.stamp + 6)

/-- An exception holds back the next instruction (R306). -/
def excBlocks (k : CoreSt) : Bool := k.excs.any fun e => !excLate k e

/-- An instruction that reads or writes a register with a pending result waits for it (R281). -/
def owesAny (k : CoreSt) (use : List Nat) : Bool := k.excs.any fun e => e.owes.any fun r => decide (r ∈ use)

/-- Arithmetic results with exceptions are outstanding (R306, R293). -/
def arithPending (k : CoreSt) : Bool := k.excs.any fun e => e.arith.isSome

/-- Priority of a slot (R289). -/
def slotPri (d : Dev) (c s : Nat) : Nat := gf d (TSC_SLOTCFG.PRI c s)
def slotEn (d : Dev) (c s : Nat) : Bool := gb d (TSC_SLOTCFG.EN c s)

/-- The READY slot that runs next: highest priority, then earliest activation (R289); in START slot 0 alone runs (R318). -/
def bestReady (d : Dev) (c : Nat) : Option Nat :=
  ((coreOfDev d c).ready.filter fun s => mode d != mStart || s == 0).foldl (fun b s => match b with
    | none => some s
    | some t => if slotPri d c s > slotPri d c t then some s else some t) none

/-- A switch is due at D = 0 (R289-R291). -/
def switchDue (d : Dev) (c : Nat) : Bool :=
  let k := coreOfDev d c
  decide (k.depth = 0) &&
    (match bestReady d c with
     | none => !slotEn d c k.run && k.inPlace && !k.waiting
     | some s => k.waiting || !slotEn d c k.run || !k.inPlace || decide (slotPri d c s > slotPri d c k.run)
                 || (k.giveWay && decide (slotPri d c s ≥ slotPri d c k.run)))

/-- The running slot is idle or gone: nothing to execute (R290). -/
def coreIdle (k : CoreSt) : Bool := (k.waiting || !k.inPlace) && decide (k.depth = 0)

/-- An enabled breakpoint stands at IP and has not been resumed from (R496); debug is unlocked. -/
def bpHere (d : Dev) (c : Nat) : Bool :=
  let k := coreOfDev d c
  gb d SEC_STAT.DBGUNL && !k.bpSkip && (upTo 4).any fun i => gbit d (DBG_CTL.BPEN c) i && gf d (DBG_BP.IP (4 * c + i)) == k.ip

/-- Debug is due before the next instruction (R306, rank 4): a breakpoint at IP. -/
def bpDue (d : Dev) (c : Nat) : Bool := bpHere d c && coreRuns d c && !coreIdle (coreOfDev d c)

/-- Nothing of rank 4 to 6 is due, or an instruction that is not interruptible is under way (R279, R306). -/
def boundaryFree (d : Dev) (c : Nat) : Bool :=
  let k := coreOfDev d c
  k.draining || (!switchDue d c && (decide (k.depth ≥ 4) || (dueLine d c k.rp).isNone) && !bpHere d c)

/-- The next instruction can execute (R306, rank 7). -/
def coreReady (d : Dev) (c : Nat) : Bool :=
  let k := coreOfDev d c
  coreRuns d c && !coreIdle k && !excBlocks k && boundaryFree d c

/-! ### Fetch (R237-R240) -/

/-- Result of a fetch: the halves are present, they must be filled first, or the fetch faults (R310). -/
inductive FetchRes where
  | ok
  | miss
  | fault (vec sub : Nat)
deriving DecidableEq, Repr

/-- The region is fetched through the fetch buffer (R237). -/
def buffered (r : Region) : Bool := match r with
  | .rom | .flash _ | .sram _ => true
  | _ => false

/-- A hit makes a line the most recently used (R239). -/
def fbTouch (k : CoreSt) (line : Nat) : CoreSt :=
  match k.fbuf.find? fun l => decide (l.addr = line) with
  | none => k
  | some l => { k with fbuf := l :: k.fbuf.filter fun x => decide (x.addr ≠ line) }

/-- One fetch of the word of a half address (R237, R238, R239): a word held ahead is not read again (R280). -/
def fetchHalf (c h : Nat) (s : State) : State × FetchRes :=
  let a := h / 2
  let k := coreOfDev s.dev c
  match regionOf (some c) a with
  | .itcm _ =>
    if a ≥ 0x2000000 then (s, .fault 6 1)
    else if (tabFind k.pre a).isSome then (s, .ok)
    else match memLoad (.core (Fin.ofNat 8 c)) true a s with
      | (s1, .ok w) => (setDev s1 (setCore s1.dev c { coreOfDev s1.dev c with pre := tabPut (coreOfDev s1.dev c).pre a w }), .ok)
      | (s1, .ecc) => (s1, .fault 8 3)
      | (s1, .err) => (s1, .fault 6 1)
      | (s1, .wait) => (s1, .miss)
  | .rom =>
    if !k.sup then (s, .fault 6 2)
    else if k.fbuf.any fun l => decide (l.addr = a / 4 * 4) then
      (setDev s (setCore s.dev c (fbTouch k (a / 4 * 4))), .ok)
    else (s, .miss)
  | .flash _ | .sram _ =>
    if k.fbuf.any fun l => decide (l.addr = a / 4 * 4) then
      (setDev s (setCore s.dev c (fbTouch k (a / 4 * 4))), .ok)
    else (s, .miss)
  | _ => (s, .fault 6 1)

/-- The fetch fault of the instruction at IP (R263, R308): its own IP is saved; SUB 0x04 for the second half of a long. -/
def fetchFault (c vec sub : Nat) (second : Bool) (s : State) : State :=
  let k := coreOfDev s.dev c
  let a := if second then ipAdd k.ip 1 / 2 else k.ip / 2
  setDev s (setCore s.dev c (k.fault vec (if second && decide (vec = 6) then 4 else sub) (some (BitVec.ofNat 36 a))))

/-- The words that an instruction of `len` halves at IP takes from the port. -/
def fetchWords (k : CoreSt) (len : Nat) : List Nat := if len = 2 ∧ k.ip % 2 = 1 then [k.ip / 2, ipAdd k.ip 1 / 2] else [k.ip / 2]

/-- A word of instruction TCM that the port can read ahead: one without an error; another is left to its own fetch (log
entry 179). -/
def aheadWord (c b : Nat) (s : State) : Option Word :=
  let r := regionOf (some c) b
  let p := physOf s.dev r b
  match r with
  | .itcm _ =>
    if b < 0x2000000 ∧ initWait s.dev r = false ∧ (classify (flawOf s.mem p)).1 = 0 then some (deliveredWord s.mem p) else none
  | _ => none

/-- The words of instruction TCM that the port holds once an instruction is fetched (R280): of those up to two after its first
word, the ones held before and as many as the port reads ahead. -/
def holdAhead (c : Nat) (s : State) : State :=
  let k := coreOfDev s.dev c
  let a := k.ip / 2
  let kept := k.pre.filter fun e => decide (a ≤ e.1 ∧ e.1 ≤ a + 2)
  let pre := (upTo (Config.aheadWords c k.retCnt % 3)).foldl (fun t i =>
    if (tabFind t (a + 1 + i)).isSome then t
    else match aheadWord c (a + 1 + i) s with
      | some w => tabPut t (a + 1 + i) w
      | none => t) kept
  setDev s (setCore s.dev c { k with pre := pre })

/-- The fetch of an instruction is complete: each of its words that came from a line present before counts a hit (R259), and
the port reads ahead. -/
def fetchDone (c len : Nat) (s : State) : State :=
  let k := coreOfDev s.dev c
  let hits := (fetchWords k len).filter fun a => buffered (regionOf (some c) a) && !decide (a / 4 * 4 ∈ k.filled)
  let d := setCore s.dev c { k with filled := [] }
  holdAhead c (setDev s (if hits = [] then d else incF d (CORE_FBCNT.HIT c) hits.length))

/-- Both halves of an instruction of `len` halves are fetched; the command waits while a line is missing. -/
def fetchInstr (c len : Nat) (s : State) : State × Bool :=
  let ip := (coreOfDev s.dev c).ip
  match fetchHalf c ip s with
  | (s1, .miss) => (s1, false)
  | (s1, .fault v b) => (fetchFault c v b false s1, false)
  | (s1, .ok) =>
    if len = 2 ∧ ip % 2 = 1 then
      match fetchHalf c (ipAdd ip 1) s1 with
      | (s2, .miss) => (s2, false)
      | (s2, .fault v b) => (fetchFault c v b true s2, false)
      | (s2, .ok) => (fetchDone c len s2, true)
    else (fetchDone c len s1, true)

/-- The core halts for debug (R496). -/
def debugHalt (d : Dev) (c : Nat) : Dev :=
  raiseEvt (setCore d c { coreOfDev d c with stepping := false, halted := true }) (pageOf .dbg 0) 0

/-- A debug condition of a core (R496): with MON = 0 it halts, with MON = 1 vector 12 is due with the IP to be saved; none:
the next unexecuted instruction at entry. Behind exceptions of a higher rank, or an instruction that is not interruptible, the
halt waits for its turn too (R279, R306). -/
def debugStop (d : Dev) (c : Nat) (ip : Option Nat) : Dev :=
  let k := coreOfDev d c
  if gb d (DBG_CTL.MON c) || !k.excs.isEmpty || k.draining then
    let e : Exc := { vec := 12, sub := 0, ip := ip, faddr := none, arith := none, trapn := 0, store := false,
                     splitPartial := false, slot := k.run, stamp := k.retCnt }
    setCore d c { k with stepping := false, excs := k.excs ++ [e] }
  else debugHalt d c

/-- The core has retired an instruction, or met an exception, since `k`. -/
def coreMoved (k k' : CoreSt) : Bool := k'.retCnt != k.retCnt || k'.excs.length != k.excs.length

/-- After an instruction: a breakpoint may stop the core again, and a single step is spent (R496). -/
def spendStep (d : Dev) (c : Nat) : Dev :=
  let k := coreOfDev d c
  let d1 := if k.bpSkip then setCore d c { k with bpSkip := false } else d
  if k.stepping then debugStop (setCore d1 c { coreOfDev d1 c with halted := false }) c none else d1

/-- The fetch of the instruction at IP; one that waited has its halves already, and counts no second hit (R259). -/
def fetchOnce (c len : Nat) (s : State) : State × Bool :=
  let k := coreOfDev s.dev c
  if k.fetched = some (k.ip, k.retCnt) then (s, true) else fetchInstr c len s

/-- An instruction of a core that uses the registers `use`: it executes only when the core can execute, no result that it
uses is owed, and its halves are there. -/
def kInstr (c len : Nat) (use : List Nat) (f : State → State) (s : State) : State :=
  if coreReady s.dev c && !owesAny (coreOfDev s.dev c) use then
    let (s1, ok) := fetchOnce c len s
    if ok then
      let s2 := f s1
      if coreMoved (coreOfDev s1.dev c) (coreOfDev s2.dev c) then setDev s2 (spendStep s2.dev c)
      else
        let k := coreOfDev s2.dev c
        setDev s2 (setCore s2.dev c { k with fetched := some (k.ip, k.retCnt) })
    else s1
  else s

/-- An instruction on the core's own registers. -/
def kPure (c len : Nat) (use : List Nat) (f : CoreSt → CoreSt) (s : State) : State :=
  kInstr c len use (fun s => setDev s (setCore s.dev c (f (coreOfDev s.dev c)))) s

/-- The length of an operand form in halves (R261). -/
def Alu2.len : Alu2 → Nat
  | .short _ _ => 1
  | .long _ _ _ => 2
def ImmOp.len : ImmOp → Nat
  | .short _ _ => 1
  | .long _ _ _ => 2
def MacOp.len : MacOp → Nat
  | .short _ _ _ => 1
  | .long _ _ _ _ => 2
def MemOp.len : MemOp → Nat
  | .short _ _ _ => 1
  | .long _ _ _ => 2

/-! ### Tags for fabric requests (R342, R344) -/

/-- A request is issued by a holder for an address: with a tag granted before, or a free one when no other holder's turn comes
first; otherwise it waits. -/
def reqTag (d : Dev) (h a : Nat) : Dev × Bool :=
  match d.fab.tags.find? fun t => decide (t.2.holder = h ∧ t.2.addr = a ∧ t.2.granted = true) with
  | some t => (dropTag d t.1, true)
  | none =>
    let turn := match nextWaiting d with
      | none => true
      | some w => decide (w = (h, a))
    if canTag d h && turn then (brushTag (withFab d fun f => { f with waiting := f.waiting.erase (h, a) }), true)
    else if (h, a) ∈ d.fab.waiting then (d, false)
    else (withFab d fun f => { f with waiting := f.waiting ++ [(h, a)] }, false)

/-- A fetch-buffer line filled (R239): the least recently used of 8 is replaced. -/
def fbInsert (k : CoreSt) (l : FbLine) : CoreSt :=
  { k with fbuf := (l :: k.fbuf.filter fun x => decide (x.addr ≠ l.addr)).take 8 }

/-- Four words of a line read through the instruction port: one access, which is logged once (R354). -/
def readLine (c : Nat) (line : Nat) (s : State) : State × Option (List Word) × Nat :=
  let go := fun (acc : State × List Word × Nat) (i : Nat) =>
    if acc.2.2 ≠ 0 then acc
    else match memLoadAs (2 * c) (.core (Fin.ofNat 8 c)) true (line + i) acc.1 with
      | (s1, .ok w) => (if i = 0 then s1 else acc.1, acc.2.1 ++ [w], 0)
      | (s1, .err) => (s1, acc.2.1, 6)
      | (s1, .ecc) => (s1, acc.2.1, 8)
      | (s1, .wait) => (s1, acc.2.1, 1)
  let r := (upTo 4).foldl go (s, [], 0)
  (r.1, if r.2.2 = 0 then some r.2.1 else none, r.2.2)

/-- A line fill for the instruction at IP, or for the second half of a long (R239, R310); with PREF the following line
is filled too unless present. A prefetch that fails, or that finds no free tag, fills nothing and faults nothing. -/
def lineFill (c : Nat) (second : Bool) (s : State) : State :=
  let k := coreOfDev s.dev c
  if !coreReady s.dev c then s
  else
    let h := if second then ipAdd k.ip 1 else k.ip
    match fetchHalf c h s with
    | (_, .ok) => s
    | (s1, .fault v b) => fetchFault c v b second s1
    | (s1, .miss) =>
      if !buffered (regionOf (some c) (h / 2)) then s1
      else
        let line := h / 2 / 4 * 4
        let (d0, granted) := reqTag s1.dev (2 * c) line
        let s1 := setDev s1 d0
        if !granted then s1
        else match readLine c line s1 with
        | (s2, none, why) =>
          if why = 1 then s2 else if why = 6 then fetchFault c 6 3 second s2 else fetchFault c 8 3 second s2
        | (s2, some ws, _) =>
          let k2 := fbInsert (coreOfDev s2.dev c) ⟨line, ws⟩
          let d := incF (setCore s2.dev c { k2 with filled := k2.filled ++ [line] }) (CORE_FBCNT.MISS c) 1
          let s3 := setDev s2 d
          if gb d (CORE_FBCFG.PREF c) && buffered (regionOf (some c) (line + 4))
              && !((coreOfDev d c).fbuf.any fun l => decide (l.addr = line + 4)) && (reqTag d (2 * c) (line + 4)).2 then
            match readLine c (line + 4) (setDev s3 (reqTag d (2 * c) (line + 4)).1) with
            | (s4, some ws2, _) =>
              let k4 := coreOfDev s4.dev c
              -- the line just filled stays the most recently used
              setDev s4 (setCore s4.dev c (fbTouch (fbInsert k4 ⟨line + 4, ws2⟩) line))
            | (s4, none, _) => s4
          else s3

/-! ### Paths of the data port (R237) -/

/-- The access leaves the core on a direct path (R237). -/
def direct (c a : Nat) : Bool := match regionOf (some c) a with
  | .itcm _ | .dtcm _ => decide (a < 0x2000000)
  | _ => false

/-! ### Posted write buffer (R254-R256) -/

/-- The target that keeps the order of a core's stores (R254): one bank, one folio page, one TCM, one other region. -/
def targetOf (c a : Nat) : Nat :=
  match regionOf (some c) a with
  | .sram b => b
  | .folio => 0x10000 + (a - 0xF000000) / 256
  | .itcm k => 0x100 + k
  | .dtcm k => 0x200 + k
  | .galley => 0x300
  | .overlay => 0x301
  | .rom => 0x302
  | .flash b => 0x303 + b
  | .colophon => 0x305
  | .none => 0x306

/-- The physical word of an address as a core sees it, the same for a local view and its alias. -/
def physAddr (c a : Nat) : Nat :=
  match regionOf (some c) a with
  | .itcm k => 0x2000000 + k * 0x40000 + a % 0x8000
  | .dtcm k => 0x2010000 + k * 0x40000 + a % 0x8000
  | _ => a

/-- The oldest buffer entry is issued (R254, R286): a fabric store needs its tag first. -/
def issueOldest (d : Dev) (c : Nat) : Dev × Bool :=
  let k := coreOfDev d c
  match k.wbuf with
  | [] => (d, false)
  | e :: rest =>
    if direct c e.addr then (setCore d c { k with wbuf := rest, issued := k.issued ++ [e] }, true)
    else
      let (d1, ok) := reqTag d (2 * c + 1) e.addr
      if ok then
        let (d2, id) := takeTag d1 (2 * c + 1) e.addr
        let k2 := coreOfDev d2 c
        (setCore d2 c { k2 with wbuf := rest, issued := k2.issued ++ [{ e with tag := some id }] }, true)
      else (d1, false)

/-- Oldest entries issued, at most `n`, until the buffer has room for `m` more. -/
def makeRoom (c m : Nat) : Nat → Dev → Dev
  | 0, d => d
  | n + 1, d =>
    if (coreOfDev d c).wbuf.length + m ≤ 4 then d
    else let r := issueOldest d c; if r.2 then makeRoom c m n r.1 else r.1

/-- A store's entries come into the buffer (R254). Without room for all of them it waits, counted once, for the oldest to be
issued; `false`: it still waits at its handshake. -/
def pushStores (d : Dev) (c : Nat) (es : List StoreEntry) : Dev × Bool :=
  let k := coreOfDev d c
  let full := decide (4 < k.wbuf.length + es.length)
  let d1 := if full && !k.wbWaiting then incF (setCore d c { k with wbWaiting := true }) (CORE_STALL.WBFULL c) 1 else d
  let d2 := makeRoom c es.length 2 d1
  let k2 := coreOfDev d2 c
  if k2.wbuf.length + es.length ≤ 4 then (setCore d2 c { k2 with wbuf := k2.wbuf ++ es, wbWaiting := false }, true) else (d2, false)
def pushStore (d : Dev) (c : Nat) (e : StoreEntry) : Dev × Bool := pushStores d c [e]

/-- Pending stores, oldest first: those issued, then the buffer. Stores that a core reset left behind are no longer the
core's (R258). -/
def pendingStores (k : CoreSt) : List StoreEntry := (k.issued.filter fun e => !e.orphan) ++ k.wbuf

/-- Bits of a word that pending stores cover, and their newest data (R255). -/
def forwardOf (c : Nat) (k : CoreSt) (a : Nat) : Word × Word :=
  (pendingStores k).foldl (fun (acc : Word × Word) e =>
    let hit := fun (acc : Word × Word) (ea : Nat) (m v : Word) =>
      if physAddr c ea = physAddr c a then (acc.1 ||| m, (acc.2 &&& ~~~m) ||| (v &&& m)) else acc
    let acc := hit acc e.addr e.mask e.val
    match e.val2 with
    | some v => hit acc (e.addr + 1) (BitVec.allOnes 36) v
    | none => acc) (0, 0)

/-- The pending stores of a core that go to its own data or instruction TCM. -/
def pendingTo (c : Nat) (k : CoreSt) (p : Region → Bool) : Bool :=
  (pendingStores k).any fun e => p (regionOf (some c) e.addr)

end Sys2Proof.Machine
end

