-- ==== Sys2Proof/Machine/Tsc.lean ====
section
/-!
DEFINITION. Task scheduler, task-state blocks, FP ownership, taking an exception or interrupt and returning from one
(chapter 13, R287-R318).
-/
namespace Sys2Proof.Machine

def withCore (d : Dev) (c : Nat) (f : CoreSt → CoreSt) : Dev := setCore d c (f (coreOfDev d c))

/-! ### Activation (R288) -/

/-- An activation of a slot: a WAITING slot becomes READY, a RUNNING or preempted one holds one, a further one is lost. -/
def activate (d : Dev) (c s : Nat) : Dev :=
  let k := coreOfDev d c
  if !slotEn d c s then d
  else
    let lost := raiseEvt (pbit d (TSC_LOST.LOST c) s true) (tscPage c) 0
    let hold := if s ∈ k.pend then lost else setCore d c { k with pend := k.pend ++ [s] }
    if s = k.run ∧ k.waiting = false ∧ k.inPlace then hold
    else if s ∈ k.ready then (if s ∈ k.fresh then lost else hold)
    else setCore d c { k with ready := k.ready ++ [s], fresh := k.fresh ++ [s] }

/-- A slot's EN was written (R287, R291): a disabled READY slot loses its activations, a RUNNING one gives way. -/
def onSlotEn (d : Dev) (c s : Nat) (was : Bool) : Dev :=
  let now := slotEn d c s
  if was && !now then
    withCore d c fun k => { k with
      ready := k.ready.filter fun x => decide (x ≠ s), fresh := k.fresh.filter fun x => decide (x ≠ s)
      pend := k.pend.filter fun x => decide (x ≠ s) }
  else if !was && now then
    -- it is WAITING and its context is taken from its TSB, also where its registers still stand in the core
    withCore d c fun k => { k with inPlace := k.inPlace && s != k.run, waiting := k.waiting || s == k.run, banks := k.banks.filter fun b =>
      let w := rd d (TSC_BANK.at c)
      !(bit w (9 * b.1 + 8) && decide (fld w (9 * b.1 + 4) (9 * b.1) = s)) }
  else d

/-- A write of TSC_BANK names an enabled slot, old or new, or one slot twice (R292). -/
def badBank (d : Dev) (c : Nat) (v : Word) : Bool :=
  let old := rd d (TSC_BANK.at c)
  let part := fun (w : Word) (b : Nat) => (bit w (9 * b + 8), fld w (9 * b + 4) (9 * b))
  let changed := (upTo 4).filter fun b => decide (part old b ≠ part v b)
  let names := changed.flatMap fun b => [part old b, part v b]
  let slots : List Nat := ((upTo 4).map fun b => part v b).filterMap fun p => if p.1 then some p.2 else none
  names.any (fun p => p.1 && slotEn d c p.2) || !decide slots.Nodup

/-- A changed bank is stale (R292). -/
def onBank (d : Dev) (c : Nat) (old : Word) : Dev :=
  let v := rd d (TSC_BANK.at c)
  withCore d c fun k => { k with banks := k.banks.filter fun b => decide (fld old (9 * b.1 + 8) (9 * b.1) = fld v (9 * b.1 + 8) (9 * b.1)) }

/-- The bank of a slot. -/
def bankOf (d : Dev) (c s : Nat) : Option Nat :=
  let w := rd d (TSC_BANK.at c)
  (upTo 4).find? fun b => bit w (9 * b + 8) && decide (fld w (9 * b + 4) (9 * b) = s)

/-! ### Task-state blocks (R296, R297, R350, R351) -/

/-- Address of a slot's TSB in the local data TCM view. -/
def tsbOf (d : Dev) (c s : Nat) : Nat := 0x110000 + 0x40 * gf d (TSC_SLOTCFG.TSBIDX c s)

/-- A TSB word read by a switch, an FP swap or RETX: corrected, or a critical error (R297). -/
def tsbRead (c a : Nat) (s : State) : State × Word :=
  let p := physAddr c a
  let s := initNow (some c) a s
  let f := flawOf s.mem p
  let cls := (classify f).1
  let s1 := if cls = 0 then s else setDev s (logAccess s.dev f (25 + c) a)
  if cls ≥ 4 then (setDev s1 (critError s1.dev 1 a), 0) else (s1, deliveredWord s1.mem p)

/-- A single TSB word written by an exception entry or an FP swap. -/
def tsbWrite (c a : Nat) (v : Word) (s : State) : State :=
  let p := physAddr c a
  match storeAt (initNow (some c) a s) (.dtcm c) false p a (BitVec.allOnes 36) v with
  | (s1, .ok _) => s1
  | (s1, _) => setDev s1 (critError s1.dev 1 a)

/-- Words of a TSB read in order. -/
def tsbWords (c a : Nat) : Nat → State → State × List Word
  | 0, s => (s, [])
  | n + 1, s =>
    let (s1, ws) := tsbWords c a n s
    let (s2, w) := tsbRead c (a + n) s1
    (s2, ws ++ [w])

/-- Words of a TSB written in order. -/
def tsbStore (c a : Nat) (ws : List Word) (s : State) : State :=
  (ws.foldl (fun (acc : State × Nat) w => (tsbWrite c (a + acc.2) w acc.1, acc.2 + 1)) (s, 0)).1

/-- A context in the layout of TSB words 0x00-0x17 (R296). -/
def ctxWords (d : Dev) (x : Ctx) : List Word :=
  let acc := fun (v : Acc) => [(v.extractLsb' 72 8).setWidth 36, v.extractLsb' 36 36, v.extractLsb' 0 36]
  ((upTo 16).map fun r => tabGet 0 x.g r) ++ acc x.acc0 ++ acc x.acc1 ++ [viewPsw d x.psw, BitVec.ofNat 36 x.ip]

/-- A context from TSB words 0x00-0x17. -/
def ctxOfWords (ws : List Word) : Ctx :=
  let w := fun i => ws.getD i (0 : Word)
  let acc := fun i => ((w i).extractLsb' 0 8 : BitVec 8) ++ (w (i + 1) : BitVec 36) ++ (w (i + 2) : BitVec 36)
  { g := (upTo 16).foldl (fun t r => tabSet 0 t r (w r)) []
    acc0 := acc 16, acc1 := acc 19, psw := cleanPsw (w 22), ip := fld (w 23) 28 0 }

/-- A switch's save: words 0x00-0x17 as three whole blocks, which heals them (R293, R351). -/
def tsbSave (c a : Nat) (x : Ctx) (s : State) : State :=
  let ws := ctxWords s.dev x
  let p := physAddr c a
  let s := initNow (some c) a s
  setMem s (writeBlock (writeBlock (writeBlock s.mem p (ws.take 8)) (p + 8) ((ws.drop 8).take 8)) (p + 16) (ws.drop 16))

/-! ### Task switch (R293) -/

/-- Nothing of higher rank than a switch is due, and what a switch waits for has come (R293 steps 1-3, R306). -/
def switchFree (d : Dev) (c : Nat) : Bool :=
  let k := coreOfDev d c
  coreRuns d c && k.excs.isEmpty && (dueLine d c k.rp).isNone && !bpDue d c && !k.draining
    && !pendingTo c k (fun r => match r with | .dtcm n => n == c | _ => false)

/-- The slot that runs next takes over the core (R293 steps 4-8). -/
def switchTo (c : Nat) (y : Option Nat) (s : State) : State :=
  let s := setDev s (withCore s.dev c CoreSt.evented)
  let d := s.dev
  let k := coreOfDev d c
  let x := k.run
  let en := slotEn d c x
  if y = some x ∧ k.inPlace = true ∧ en = true then
    -- the waiting slot is the next to run: it resumes in place (R290)
    setDev s (setCore d c { k with waiting := false, giveWay := false, ready := k.ready.filter fun t => decide (t ≠ x)
                                   fresh := k.fresh.filter fun t => decide (t ≠ x) })
  else
    -- step 4: X is saved; a disabled banked X has its bank stored in its TSB (R292)
    let s1 := if !k.inPlace then s else match bankOf d c x with
      | some b => if en then setDev s (setCore d c { k with banks := tabPut k.banks b k.ctx })
                  else tsbSave c k.tsbp.toNat k.ctx (setDev s (setCore d c { k with banks := tabErase k.banks b }))
      | none => tsbSave c k.tsbp.toNat k.ctx s
    let stays := k.inPlace && en && !k.waiting && !decide (x ∈ k.ready)
    let ready := if stays then (if k.giveWay then k.ready ++ [x] else x :: k.ready) else k.ready
    match y with
    | none => setDev s1 (withCore s1.dev c fun k => { k with inPlace := false, waiting := true, giveWay := false })
    | some y =>
      let base := tsbOf d c y
      let (s2, slim) := tsbRead c (base + 0x18) s1
      let k2 := coreOfDev s2.dev c
      let (s3, ctx) := match (bankOf d c y).bind fun b => tabFind k2.banks b with
        | some x => (s2, x)
        | none => let (s3, ws) := tsbWords c base 24 s2; (s3, ctxOfWords ws)
      let supOk := gb d (TSC_SLOTCFG.SUP c y)
      let forged := bit ctx.psw pswMode && !supOk
      let psw := setBitW (if forged then setBitW ctx.psw pswMode false else ctx.psw) pswFpa false
      let k3 := coreOfDev s3.dev c
      let bset := match bankOf d c y with
        | some b => tabErase k3.banks b
        | none => k3.banks
      let k4 := { k3 with
        ctx := { ctx with psw := psw }, tsbp := BitVec.ofNat 36 base, slim := slim, run := y, inPlace := true, waiting := false
        giveWay := false, banks := bset, pre := [], ready := ready.filter fun t => decide (t ≠ y), fresh := k3.fresh.filter fun t => decide (t ≠ y) }
      let d4 := setCore s3.dev c k4
      if forged then
        -- R295, R304: vector 9 before the first instruction
        setDev s3 (raiseEvt (setCore d4 c (k4.fault 9 2 (some (BitVec.ofNat 36 (base + 0x16))))) (tscPage c) 2)
      else setDev s3 d4

/-- A switch that is due and free is made. -/
def taskSwitch (c : Nat) (s : State) : State :=
  if switchDue s.dev c && switchFree s.dev c then switchTo c (bestReady s.dev c) s else s

/-! ### FP ownership (R298, R299) -/

def fpsrMask : Word := 0x1F1F7#36

/-- F0-F15 and FPSR as TSB words 0x20-0x30. -/
def fpWords (k : CoreSt) : List Word := ((upTo 16).map fun r => (k.fr r).setWidth 36) ++ [k.fpsr]

/-- The running slot claims the FP registers before an FP instruction. -/
def fpClaim (c : Nat) (s : State) : State :=
  let k := coreOfDev s.dev c
  if bit k.psw pswFpa then s
  else if k.fpOwn = some k.run then setDev s (setCore s.dev c (k.setPsw (setBitW k.psw pswFpa true)))
  else
    let s1 := match k.fpOwn with
      | some o => tsbStore c (tsbOf s.dev c o + 0x20) (fpWords k) s
      | none => s
    let (s2, ws) := tsbWords c (k.tsbp.toNat + 0x20) 17 s1
    let k2 := coreOfDev s2.dev c
    let k3 := { k2 with f := (upTo 16).foldl (fun t r => tabSet 0 t r ((ws.getD r 0).setWidth 32)) []
                        fpsr := ws.getD 16 0 &&& fpsrMask, fpOwn := some k2.run }
    setDev s2 (setCore s2.dev c (k3.setPsw (setBitW k3.psw pswFpa true)))

/-- An FP instruction on the core's own registers. -/
def kFp (c len : Nat) (use : List Nat) (f : CoreSt → CoreSt) (s : State) : State :=
  kInstr c len use (fun s => let s1 := fpClaim c s; setDev s1 (setCore s1.dev c (f (coreOfDev s1.dev c)))) s

/-! ### Exceptions (R300-R313) -/

/-- Rank of a raised exception at a boundary: an executed instruction's own first, then R306, where an arithmetic exception
comes before the watchdog that waits for it. -/
def excRank (k : CoreSt) (e : Exc) : Nat :=
  if e.vec = 11 then 3 else if e.vec = 12 then 5
  else if e.arith.isSome then (if k.excs.any fun x => decide (x.vec = 11) then 2 else 4)
  else if e.store then 4 else if e.ip.isSome then 1 else 4

/-- The exception entered next: lowest rank, earliest, and of two of one moment the lower vector (R306). -/
def nextExc (k : CoreSt) : Option Exc :=
  k.excs.foldl (fun b e => match b with
    | none => some e
    | some x => if excRank k e < excRank k x ∨ (excRank k e = excRank k x ∧ e.stamp = x.stamp ∧ e.vec < x.vec) then some e else some x) none

/-- The cause word (R309). -/
def causeWord (k : CoreSt) (e : Exc) : Word :=
  let xtask := e.store && decide (e.slot ≠ k.run)
  let imprec := e.ip.isNone && (e.arith.isSome || e.store) && decide (k.retCnt > e.stamp)
  BitVec.ofNat 36 (e.vec * 2 ^ 30 + k.depth * 2 ^ 28 + k.rp * 2 ^ 26 + e.splitPartial.toNat * 2 ^ 25 + imprec.toNat * 2 ^ 24
    + e.store.toNat * 2 ^ 23 + k.sup.toNat * 2 ^ 22 + xtask.toNat * 2 ^ 21 + (if xtask then e.slot else k.run) * 2 ^ 16
    + e.trapn * 2 ^ 8 + e.sub)

/-- TAKING AN EXCEPTION (R300, R301): frame or save registers at level L = D, the entry-privilege latch, D + 1, supervisor
mode, RESUME 0, RP, CAUSE with FADDR and ARITH_SRC, and IP at the vector (R308). -/
def enterVector (c : Nat) (e : Exc) (rpNew : Nat) (s : State) : State :=
  let s := setDev s (withCore s.dev c CoreSt.evented)
  let k := coreOfDev s.dev c
  let l := k.depth
  let cause := causeWord k e
  let ip := e.ip.getD k.ip
  let psw := viewPsw s.dev k.psw
  let s1 := if compatOf s.dev then s
    else tsbStore c (k.tsbp.toNat + 0x34 + 3 * l) [BitVec.ofNat 36 ip, psw, cause] s
  let k1 := coreOfDev s1.dev c
  let k2 := if compatOf s.dev then
      { k1 with saveIp := tabSet 0 k1.saveIp l (BitVec.ofNat 36 ip), savePsw := tabSet 0 k1.savePsw l psw } else k1
  let k3 := { k2 with
    latch := tabSet (false, 0) k2.latch l (k2.sup, k2.rp), depth := l + 1, rp := rpNew, cause := cause
    faddr := e.faddr.getD k2.faddr
    arithSrc := match e.arith with
      | some a => BitVec.ofNat 36 a
      | none => k2.arithSrc
    pre := []
    ctx := { k2.ctx with ip := 0x200000 + 8 * e.vec, psw := setBitW (setBitW k2.ctx.psw pswMode true) pswResume false } }
  setDev s1 (setCore s1.dev c k3)

/-- An entry due at D = 4 is not taken: the core stops and the device resets (R305, R469). -/
def nestStop (c : Nat) (s : State) : State :=
  setDev s (cwdEscalate (withCore s.dev c fun k => { k with stopped := true }) c 2)

/-- EXCEPTION_ENTRY: the exception of the highest rank is entered; a debug condition halts the core where MON = 0 (R496). -/
def exceptionEntry (c : Nat) (s : State) : State :=
  let k := coreOfDev s.dev c
  if !coreRuns s.dev c then s
  else match nextExc k with
  | none => s
  | some e =>
    if k.draining && (e.vec == 11 || e.vec == 12) then s
    else if e.vec = 12 ∧ gb s.dev (DBG_CTL.MON c) = false then
      setDev s (debugHalt (setCore s.dev c { k with excs := k.excs.erase e }) c)
    else if k.depth ≥ 4 then nestStop c s
    else
      let s1 := setDev s (setCore s.dev c { k with excs := k.excs.erase e })
      enterVector c e (if e.vec = 13 then k.rp else 3) s1

/-- INTERRUPT_ENTRY (R302, R306, R327): the line that is due is taken and its source claimed. -/
def interruptEntry (c : Nat) (s : State) : State :=
  let k := coreOfDev s.dev c
  if !coreRuns s.dev c || !k.excs.isEmpty || decide (k.depth ≥ 4) || bpDue s.dev c || k.draining then s
  else match dueLine s.dev c k.rp with
  | none => s
  | some (i, p) =>
    let (d1, _) := evcClaim s.dev c i k.depth
    enterVector c { vec := 16 + i, sub := 0, ip := none, faddr := none, arith := none, trapn := 0, store := false
                    splitPartial := false, slot := k.run, stamp := k.retCnt } p (setDev s d1)

/-- RETURN FROM AN EXCEPTION (R303, R304). -/
def retx (c : Nat) (s : State) : State :=
  let k := coreOfDev s.dev c
  if !k.sup then setDev s (setCore s.dev c (k.fault 1 1))
  else if k.depth = 0 then setDev s (setCore s.dev c (k.illegal 5))
  else
    let l := k.depth - 1
    let frame := k.tsbp.toNat + 0x34 + 3 * l
    let (s1, ipW, pswW) :=
      if compatOf s.dev then (s, tabGet 0 k.saveIp l, tabGet 0 k.savePsw l)
      else let (s1, ws) := tsbWords c frame 2 s; (s1, ws.getD 0 0, ws.getD 1 0)
    let lt := tabGet (false, 0) k.latch l
    let psw := cleanPsw pswW
    let forge := bit psw pswMode && !lt.1
    let psw := setBitW (if forge then setBitW psw pswMode false else psw) pswFpa (decide (k.fpOwn = some k.run))
    let k1 := coreOfDev s1.dev c
    let k2 := { k1 with ctx := { k1.ctx with ip := fld ipW 28 0, psw := psw }, rp := lt.2, depth := l
                        lastIp := k1.ctx.ip, retCnt := k1.retCnt + 1, fetched := none, prog := none, draining := false, pre := [] }
    let d2 := evcEndService (setCore s1.dev c k2) c l
    if forge then
      let fa := if compatOf s.dev then 12 + l else frame
      setDev s1 (raiseEvt (withCore d2 c fun k => k.fault 9 1 (some (BitVec.ofNat 36 fa))) (tscPage c) 2)
    else setDev s1 d2

/-! ### Timers and watchdog (R315, R316, R318) -/

/-- A slot timer starts, or stops with PER = 0, from the present tick (R316). -/
def startTimer (d : Dev) (c s : Nat) : Dev :=
  let per := gf d (TSC_TMR.PER c s)
  withCore d c fun k => { k with timers := if per = 0 then tabErase k.timers s else tabPut k.timers s (d.now + 16 * per) }

/-- Timers restart with a full interval on wake (R318). -/
def restartTimers (d : Dev) (c : Nat) : Dev := forUpTo 32 (fun s d => startTimer d c s) d

/-- A slot timer that is due expires and activates its slot when ASRC = TIMER (R288, R316, R318). -/
def timerExpire (d : Dev) (c s : Nat) : Dev :=
  match tabFind (coreOfDev d c).timers s with
  | none => d
  | some t =>
    if d.now < t ∨ mode d = mStart ∨ mode d = mPark then d
    else
      let per := gf d (TSC_TMR.PER c s)
      let d1 := if gb d (TSC_TMR.PERIODIC c s) then withCore d c fun k => { k with timers := tabPut k.timers s (t + 16 * per) }
        else withCore (pf d (TSC_TMR.PER c s) 0) c fun k => { k with timers := tabErase k.timers s }
      if gf d (TSC_SLOTCFG.ASRC c s) = 2 then activate d1 c s else d1

/-- Core watchdog (R315): first expiry vector 11, second escalation. -/
def wdExpire (d : Dev) (c : Nat) : Dev :=
  let k := coreOfDev d c
  if gb d (TSC_WDOG.EN c) && decide (k.wdFrom + 1024 * gf d (TSC_WDOG.TIME c) ≤ d.now) then
    let d1 := raiseEvt (setCore d c { k with wdFrom := d.now }) (tscPage c) 1
    if k.wdOnce then cwdEscalate d1 c 1
    else withCore d1 c fun k => { k with wdOnce := true, excs := k.excs ++ [
      { vec := 11, sub := 1, ip := none, faddr := none, arith := none, trapn := 0, store := false, splitPartial := false
        slot := k.run, stamp := k.retCnt }] }
  else d

/-- A kick, or a write of TSC_WDOG, restarts the count (R315, R316). -/
def wdRestart (d : Dev) (c : Nat) (kick : Bool) : Dev :=
  withCore d c fun k => { k with wdFrom := d.now, wdOnce := if kick then false else k.wdOnce }

/-- Writes of TSC registers that are discarded with CFG_ERR (R316). -/
def badTsc (d : Dev) (c off : Nat) (v : Word) : Bool :=
  if off = 0x10 then badBank d c v
  else if off = 0x15 then decide (fld v 31 0 = 0)
  else if 0x20 ≤ off ∧ off < 0x40 then
    decide (fld v 23 22 = 3) || (slotEn d c (off - 0x20) && decide (fld v 8 0 ≠ gf d (TSC_SLOTCFG.TSBIDX c (off - 0x20))))
  else false

/-- A TSC register written (R288, R291, R292, R315, R316). -/
def onTsc (d : Dev) (c off : Nat) (old v : Word) : Dev :=
  if off = 0x10 then onBank d c old
  else if off = 0x11 then forUpTo 32 (fun s d => if bit v s then activate d c s else d) d
  else if off = 0x15 then wdRestart d c false
  else if off = 0x16 then (if v = 0xA5A5#36 then wdRestart d c true else d)
  else if 0x20 ≤ off ∧ off < 0x40 then onSlotEn d c (off - 0x20) (bit old 35)
  else if 0x60 ≤ off ∧ off < 0x80 then startTimer d c (off - 0x60)
  else d

/-- A block reset of a TSC folio: its registers at their reset values, TSC_STAT with D, RP and the FP owner among them, slot 0
RUNNING, the registers of the running context unchanged (R318). -/
def tscReset (d : Dev) (c : Nat) : Dev :=
  withCore d c fun k => { k with run := 0, ready := [], fresh := [], pend := [], giveWay := false, waiting := false, inPlace := true
                                 banks := [], timers := [], fpOwn := none, wdOnce := false, wdFrom := d.now
                                 depth := 0, rp := 0 }

/-- Core reset (R241, R258, R291): registers at their reset values, entries not issued discarded, issued stores kept; slot 0
alone is enabled, and no bank is assigned. -/
def coreReset (d0 : Dev) (c : Nat) : Dev :=
  let k := coreOfDev d0 c
  let d := wr (forUpTo 32 (fun s d => pb d (TSC_SLOTCFG.EN c s) (s == 0)) d0) (TSC_BANK.at c) 0
  let d1 := { d with flash := { d.flash with op := d.flash.op.map fun o => if o.core = c then { o with core := 8 } else o } }
  setCore (evcCoreReset d1 c) c { coreInit c with issued := k.issued.map fun e => { e with orphan := true }, wdFrom := d.now }

/-! ### Live views of CORE and TSC registers (R259, R316) -/

def coreStat (d : Dev) (c : Nat) : Word :=
  let k := coreOfDev d c
  let n := (pendingStores k).length
  let idle := coreIdle k
  BitVec.ofNat 36 ((compatOf d).toNat * 512 + k.sup.toNat * 256 + min 7 n * 16 + (decide (n = 0)).toNat * 8 + idle.toNat * 4
    + (!gb d (FOLIO_CTL.EN (corePage c)) || k.halted).toNat * 2 + (coreRuns d c && !idle).toNat)

def tscStat (d : Dev) (c : Nat) : Word :=
  let k := coreOfDev d c
  BitVec.ofNat 36 (k.fpOwn.isSome.toNat * 65536 + k.fpOwn.getD 0 * 2048 + (coreIdle k).toNat * 1024 + k.rp * 256 + k.depth * 32 + k.run)

/-- Bit s: slot s READY. -/
def tscReady (d : Dev) (c : Nat) : Word := (coreOfDev d c).ready.foldl (fun w s => setBitW w s true) 0

/-- Bit s: slot s WAITING. -/
def tscWaiting (d : Dev) (c : Nat) : Word :=
  let k := coreOfDev d c
  (upTo 32).foldl (fun w s => if slotEn d c s && !decide (s ∈ k.ready) && !(decide (s = k.run) && !k.waiting && k.inPlace)
    then setBitW w s true else w) 0

end Sys2Proof.Machine
end

