-- ==== Sys2Proof/Machine/Galley.lean ====
section
/-!
DEFINITION. Galley queues (chapter 16, R365-R376): descriptors, puts, takes, parked takes, BLOCK waiters, commands.
-/
namespace Sys2Proof.Machine

def galleyPage : Nat := 0x10
def withGalley (d : Dev) (f : GalleySt → GalleySt) : Dev := { d with galley := f d.galley }

/-! ### Who takes part (R369, R374) -/

/-- Producers in the rank order of R374. -/
def producerKey : Producer → Nat
  | .survey u => u.val
  | .sdf n => 24 + n.val
  | .trav e => 40 + e.val
  | .eth m => 104 + m.val
  | .canf n => 106 + n.val
  | .uart n => 114 + n.val
  | .spi n => 122 + n.val
  | .i2c n => 130 + n.val

/-- Takers by number: Traverse engines 0-63, Press channels 64-191, interface queues 192-233. -/
def takerKey : Taker → Nat
  | .trav e => e.val
  | .press ch => 64 + ch.val
  | .eth m c => 192 + 8 * m.val + c.val
  | .canf n => 208 + n.val
  | .uart n => 216 + n.val
  | .spi n => 224 + n.val
  | .i2c n => 232 + n.val

/-- The controller page of an interface taker. -/
def ifPage (k : Nat) : Nat :=
  if k < 208 then 0x101 + (k - 192) / 8 else if k < 216 then 0x108 + (k - 208) else if k < 232 then 0x110 + (k - 216) else 0x120 + (k - 232)

/-- The drop event of a producer: Q_DROP, or RX_DROP of an interface (R88, R103, R201, R372). -/
def producerDrop (d : Dev) (p : Nat) : Dev :=
  if p < 24 then raiseEvt d (survPage p) 7
  else if p < 40 then raiseEvt d (sdfPage (p - 24)) (4 * ((p - 24) % 4) + 2)
  else if p < 104 then raiseEvt d (travPage (p - 40)) 13
  else if p < 106 then raiseEvt d (0x101 + (p - 104)) 0
  else if p < 114 then raiseEvt d (0x108 + (p - 106)) 0
  else raiseEvt d (if p < 130 then 0x110 + (p - 114) else 0x120 + (p - 130)) 0

/-! ### Descriptors (R365, R368) -/

structure QDesc where
  cfg : Word
  ptr : Word
  evt : Word
  stat : Word
deriving DecidableEq, Repr

def QDesc.en (q : QDesc) : Bool := bit q.cfg 35
def QDesc.pol (q : QDesc) : Nat := fld q.cfg 34 33
def QDesc.size (q : QDesc) : Nat := 2 ^ fld q.cfg 31 27
def QDesc.base (q : QDesc) : Nat := fld q.cfg 19 0
def QDesc.tail (q : QDesc) : Nat := fld q.ptr 33 17
def QDesc.head (q : QDesc) : Nat := fld q.ptr 16 0
/-- F = (TAIL − HEAD) mod 2^17 (R366). -/
def QDesc.fill (q : QDesc) : Nat := (q.tail + 2 ^ 17 - q.head) % 2 ^ 17
def QDesc.faulted (q : QDesc) : Bool := bit q.stat 23
def QDesc.setTail (q : QDesc) (n : Nat) : QDesc := { q with ptr := setFld q.ptr 33 17 n }
def QDesc.setHead (q : QDesc) (n : Nat) : QDesc := { q with ptr := setFld q.ptr 16 0 n }
/-- The word address that a count names in the ring (R366). -/
def QDesc.slot (q : QDesc) (n : Nat) : Nat := 0x4000000 + q.base + n % q.size
/-- Words discarded by the policy (R365). -/
def QDesc.dropped (q : QDesc) (n : Nat) : QDesc :=
  { q with stat := setFld (setBitW q.stat 22 true) 17 0 (satAdd 18 (fld q.stat 17 0) n) }

/-- An odd number of ones. -/
def oddBits (w : Word) : Bool := popFrom w 36 % 2 == 1

/-- PAR of the four words (R368). -/
def QDesc.parity (q : QDesc) : Nat :=
  (oddBits q.cfg).toNat + 2 * (oddBits q.ptr).toNat + 4 * (oddBits q.evt).toNat + 8 * (oddBits (q.stat &&& 0xFFFFFFFF#36)).toNat
def QDesc.parOk (q : QDesc) : Bool := fld q.stat 35 32 == q.parity
def QDesc.fixPar (q : QDesc) : QDesc := { q with stat := setFld q.stat 35 32 q.parity }

def descAddr (q k : Nat) : Nat := 0x5000000 + 4 * q + k

/-- What a read of a descriptor gives: its words, a critical error, or a wait for initialisation. -/
inductive DescRes where
  | desc (q : QDesc)
  | lost
deriving DecidableEq, Repr

/-- Galley reads a descriptor; an uncorrectable word is a critical error (R350, R368). -/
def readDesc (q : Nat) (s : State) : State × DescRes :=
  let one := fun (k : Nat) (s : State) =>
    match memLoad .galley true (descAddr q k) s with
    | (s1, .ok w) => (s1, some w)
    | (s1, .ecc) => (setDev s1 (critError s1.dev 2 (descAddr q k)), none)
    | (s1, _) => (s1, none)
  match one 0 s with
  | (s0, none) => (s0, .lost)
  | (s0, some a) =>
    match one 1 s0 with
    | (s1, none) => (s1, .lost)
    | (s1, some b) =>
      match one 2 s1 with
      | (s2, none) => (s2, .lost)
      | (s2, some c) =>
        match one 3 s2 with
        | (s3, none) => (s3, .lost)
        | (s3, some e) => (s3, .desc ⟨a, b, c, e⟩)

/-- Galley writes the words of a descriptor that changed, with their parity (R368). -/
def writeDesc (q : Nat) (old new : QDesc) (s : State) : State :=
  let n := new.fixPar
  let put := fun (k : Nat) (a b : Word) (s : State) =>
    if a = b then s else (memStore .galley (descAddr q k) (BitVec.allOnes 36) b s).1
  put 3 old.stat n.stat (put 2 old.evt n.evt (put 1 old.ptr n.ptr (put 0 old.cfg n.cfg s)))

/-- An error with GALLEY_ERRQ and its event (R367, R368, R370, R372, R375). -/
def galleyErr (d : Dev) (q code evt : Nat) : Dev :=
  raiseEvt (pf (pf d GALLEY_ERRQ.QUEUE q) GALLEY_ERRQ.CODE code) galleyPage evt

/-- A discard sets GALLEY_LASTOVF and, with OVEN, pulses the line of the queue (R373). -/
def discardEvt (d : Dev) (q : Nat) (x : QDesc) : Dev :=
  let d1 := pf d GALLEY_LASTOVF.Q q
  if bit x.evt 6 then drive d1 (1792 + fld x.evt 4 0) else d1

/-- Each slot that names the queue with ASRC = QUEUE is activated (R288, R373). -/
def activateQueue (d : Dev) (q : Nat) : Dev :=
  forUpTo 8 (fun c d => forUpTo 32 (fun s d =>
    if gf d (TSC_SLOTCFG.ASRC c s) = 1 ∧ gf d (TSC_SLOTPAR.QUEUE c s) = q then activate d c s else d) d) d

/-- A change of the fill from `f0` to `f1` crosses the watermark (R373). -/
def crosses (x : QDesc) (f0 f1 : Nat) : Bool :=
  let wm := fld x.evt 33 17
  if bit x.cfg 32 then decide (wm < f0 ∧ f1 ≤ wm) else decide (f0 < wm ∧ wm ≤ f1)

def crossEvt (d : Dev) (q : Nat) (x : QDesc) (f0 f1 : Nat) : Dev :=
  if crosses x f0 f1 then
    let d1 := pf (activateQueue d q) GALLEY_LASTWM.Q q
    if bit x.evt 7 then drive d1 (1792 + fld x.evt 4 0) else d1
  else d

/-! ### Puts (R369, R370, R372) -/

/-- What Galley answers to a put or take. -/
inductive QRes where
  | accepted
  | word (w : Word)
  /-- the policy discarded the record, or the queue is disabled or faulted -/
  | rejected
  | empty
  /-- a BLOCK producer waits -/
  | full
  /-- a payload fault at an address -/
  | fault (a : Nat)
  /-- nothing happened yet: initialisation, an earlier operation on the queue, PARK, or a critical error -/
  | busy
deriving DecidableEq, Repr

/-- Nothing earlier on the queue is unfinished: one operation at a time, in arrival order, and 16 in flight at most (R369,
R371). -/
def queueFree (d : Dev) (q : Nat) : Bool :=
  !(d.galley.posted.any fun p => decide (p.queue = q)) && mode d != mPark && decide (d.galley.posted.length < 16)

/-- Galley's accesses for an operation hold a tag of its own quota (R343, R369). -/
def galleyTag (q : Nat) (s : State) : State × Bool :=
  let (d, ok) := reqTag s.dev 17 (descAddr q 0)
  (setDev s d, ok)

/-- A parity mismatch found: FAULT, word 3 rewritten with its own parity, DESC_ERR (R368). -/
def parityFault (q : Nat) (x : QDesc) (s : State) : State :=
  let s1 := writeDesc q x { x with stat := setBitW x.stat 23 true } s
  setDev s1 (galleyErr s1.dev q 2 0)

/-- A descriptor opened for a put or take: refused with Q_OFF when disabled or faulted; a parity mismatch refuses it in
the same way, sets FAULT and raises DESC_ERR (R368, R370; log entry 83). -/
def openQueue (q : Nat) (s : State) : State × Option QDesc × Bool :=
  match readDesc q s with
  | (s1, .lost) => (s1, none, true)
  | (s1, .desc x) =>
    if x.faulted then (setDev s1 (galleyErr s1.dev q 4 3), none, false)
    else if !x.parOk then (parityFault q x (setDev s1 (galleyErr s1.dev q 4 3)), none, false)
    else if !x.en then (setDev s1 (galleyErr s1.dev q 4 3), none, false)
    else (s1, some x, false)

/-- The payload words of a put are stored from TAIL on (R366, R372): the address that failed, or the wait. -/
def storePayload (x : QDesc) : Nat → List Word → State → State × Option QRes
  | _, [], s => (s, none)
  | i, w :: ws, s =>
    match memStore .galley (x.slot (x.tail + i)) (BitVec.allOnes 36) w s with
    | (s1, .ok _) => storePayload x (i + 1) ws s1
    | (s1, .wait) => (s1, some .busy)
    | (s1, _) => (s1, some (.fault (x.slot (x.tail + i))))

/-- A record is put up to its payload (R369, R370): `waits`: the producer waits under BLOCK. TAIL is not yet written. -/
def putBegin (q : Nat) (ws : List Word) (waits : Bool) (who : Option Nat) (s : State) : State × QRes :=
  let (s, ok) := if queueFree s.dev q then galleyTag q s else (s, false)
  if !ok then (s, .busy)
  else match openQueue q s with
  | (s1, none, true) => (s1, .busy)
  | (s1, none, false) => (s1, .rejected)
  | (s1, some x, _) =>
    let n := ws.length
    let f := x.fill
    if initWait s1.dev (regionOf none (x.slot 0)) then (s, .busy)
    else
    -- the operation holds its tag until TAIL is written; a payload fault leaves the descriptor as it was (R369, R372)
    let go := fun (made : State → State) =>
      match storePayload x 0 ws s1 with
      | (s2, none) =>
        let s3 := made s2
        let (d, id) := takeTag s3.dev 17 (descAddr q 0)
        (setDev s3 (withGalley d fun g => { g with posted := g.posted ++ [⟨q, n, f, id, who⟩] }), QRes.accepted)
      | (s2, some (.fault a)) => (setDev s2 (galleyErr s2.dev q 5 4), .fault a)
      | (s2, some r) => (s2, r)
    if f + n ≤ x.size then go id
    else if x.pol = 1 then
      let lost := f + n - x.size
      let y := (x.setHead (x.head + lost)).dropped lost
      go fun s => let s2 := writeDesc q x y s; setDev s2 (discardEvt s2.dev q y)
    else if x.pol = 2 ∧ waits then
      (writeDesc q x { x with stat := setBitW x.stat 21 true } s1, .full)
    else
      let s2 := writeDesc q x (x.dropped n) s1
      (setDev s2 (discardEvt s2.dev q x), .rejected)

/-- The commands of GALLEY_QCMD (R367): ENABLE, DISABLE, FLUSH, CLRSTAT. -/
def zeroFields (x : QDesc) : Bool :=
  decide (fld x.cfg 26 20 = 0 ∧ fld x.ptr 35 34 = 0 ∧ fld x.evt 35 34 = 0 ∧ fld x.evt 16 8 = 0 ∧ fld x.evt 5 5 = 0
    ∧ fld x.stat 31 24 = 0 ∧ fld x.stat 20 18 = 0)

/-- ENABLE is accepted (R367). -/
def enableOk (x : QDesc) : Bool :=
  let l := fld x.cfg 31 27
  decide (x.en = false ∧ 2 ≤ l ∧ l ≤ 16 ∧ x.base % 2 ^ l = 0 ∧ x.pol ≠ 3 ∧ fld x.evt 33 17 ≤ 2 ^ l ∧ x.fill ≤ 2 ^ l) && zeroFields x

/-- A Press channel stops with an error code (R384). -/
def pressFail (d : Dev) (ch code : Nat) : Dev :=
  let g := ch / 16
  let i := ch % 16
  let d1 := pb (pf (pf d (PRESS_CHSTAT.ERR g i) code) (PRESS_CHSTAT.STATE g i) 4) (PRESS_CHSTAT.STOPREQ g i) false
  raiseEvt d1 (0xD0 + g) i

/-- A parked take of a taker is cancelled (R371). -/
def cancelTake (d : Dev) (k q : Nat) : Dev :=
  if 64 ≤ k ∧ k < 192 then pressFail d (k - 64) 2
  else withGalley d fun g => { g with
    refused := g.refused ++ [(k, q)]
    recs := if k < 192 then g.recs else match tabFind g.recs k with
      | some r => if r.words = [] then g.recs else tabPut g.recs k { r with bad := true }
      | none => g.recs }

/-- The QPUT of a core that waited ends: Z, and the instruction retires (R278, R370). -/
def endQput (d : Dev) (c : Nat) (z : Bool) : Dev :=
  withCore d c fun k => (k.setPsw (setBitW k.psw pswZ z)).retire 1

/-- A BLOCK waiter ends as a refused put (R370): its core sees a discard, its channel QOFF. -/
def endWaiter (d : Dev) (w : QWait) : Dev := if w.who < 8 then endQput d w.who true else pressFail d (w.who - 8) 2
def refuseWaiter (d : Dev) (w : QWait) : Dev := endWaiter (galleyErr d w.queue 4 3) w

/-- Every waiter and parked take of a queue ends (R370, R371). -/
def endQueue (d : Dev) (q : Nat) : Dev :=
  let ws := d.galley.waiters.filter fun w => decide (w.queue = q)
  let ps := d.galley.parked.filter fun p => decide (p.2 = q)
  let d1 := withGalley d fun g => { g with waiters := g.waiters.filter fun w => decide (w.queue ≠ q)
                                           parked := g.parked.filter fun p => decide (p.2 ≠ q) }
  ps.foldl (fun d p => cancelTake d p.1 p.2) (ws.foldl refuseWaiter d1)

/-- A Galley command on one queue (R367, R368). DISABLE and CLRSTAT are accepted in any state, FAULT = 1 among them. -/
def queueCmd (op q : Nat) (s : State) : State :=
  let refuse := fun (s : State) => setDev s (galleyErr s.dev q 1 1)
  match readDesc q s with
  | (s1, .lost) => s1
  | (s1, .desc x) =>
    if op = 1 then
      if enableOk x then
        let s2 := writeDesc q x { x with cfg := setBitW x.cfg 35 true, stat := setBitW x.stat 23 false } s1
        setDev s2 (withGalley s2.dev fun g => { g with refused := g.refused.filter fun p => decide (p.2 ≠ q ∨ p.1 < 64) })
      else refuse s1
    else if op ≠ 2 ∧ op ≠ 3 ∧ op ≠ 4 then refuse s1
    else if op = 3 ∧ x.faulted then refuse s1
    else if !x.faulted && !x.parOk then parityFault q x (refuse s1)
    else if op = 2 then
      let s2 := writeDesc q x { x with cfg := setBitW x.cfg 35 false, stat := setBitW x.stat 21 false } s1
      setDev s2 (endQueue s2.dev q)
    else if op = 3 then
      if x.en then
        let s2 := writeDesc q x (x.setHead x.tail) s1
        setDev s2 (crossEvt s2.dev q x x.fill 0)
      else refuse s1
    else writeDesc q x { x with stat := setFld (setBitW x.stat 22 false) 17 0 0 } s1

/-- Accepted commands whose queue has no unfinished put are performed, in order, each with a tag of Galley (R367, R369, R374). -/
def runCmdList : List (Nat × Nat) → State → State
  | [], s => s
  | (op, q) :: t, s =>
    let (s, ok) := if queueFree s.dev q then galleyTag q s else (s, false)
    if ok then runCmdList t (queueCmd op q s)
    else runCmdList t (setDev s (withGalley s.dev fun g => { g with cmds := g.cmds ++ [(op, q)] }))

def runCmds (s : State) : State :=
  runCmdList s.dev.galley.cmds (setDev s (withGalley s.dev fun g => { g with cmds := [] }))

/-- A put in flight ends: its tag is free. -/
def unpost (d : Dev) (p : QPost) : Dev := dropTag (withGalley d fun g => { g with posted := g.posted.erase p }) p.tag

/-- PUT_COMMIT (R369): the payload is acknowledged and TAIL is written; the commands held behind the put follow it. A parity
mismatch found now refuses the put (R368). -/
def putCommit (q : Nat) (s : State) : State :=
  match s.dev.galley.posted.find? fun p => decide (p.queue = q) with
  | none => s
  | some p =>
    match openQueue q s with
    | (s1, none, true) => s1
    | (s1, none, false) =>
      let d := unpost s1.dev p
      runCmds (setDev s1 (match p.who with
        | some k => producerDrop d k
        | none => d))
    | (s1, some x, _) =>
      let y := x.setTail (x.tail + p.n)
      let s2 := writeDesc q x y s1
      runCmds (setDev s2 (crossEvt (unpost s2.dev p) q y p.f0 y.fill))

/-- The tag of a put in flight timed out: a payload fault, and TAIL is not written (R346, R372). -/
def putTimeout (p : QPost) (s : State) : State :=
  let d := withGalley s.dev fun g => { g with posted := g.posted.erase p }
  let (s1, r) := readDesc p.queue (setDev s (galleyErr d p.queue 5 4))
  -- words that DROP_OLD discarded for it are gone (R373)
  let d1 := match r with
    | .desc x => if x.fill = p.f0 then s1.dev else crossEvt s1.dev p.queue x p.f0 x.fill
    | .lost => s1.dev
  runCmds (setDev s1 (match p.who with
    | some k => producerDrop d1 k
    | none => d1))

/-- A put of one word, whole (a core or a Press channel waits for it). -/
def putWhole (q : Nat) (w : Word) (s : State) : State × QRes :=
  match putBegin q [w] true none s with
  | (s1, .accepted) => (putCommit q s1, .accepted)
  | r => r

/-- A put of one word by a producer that can wait: behind the waiters already there, in arrival order (R370). -/
def putOrWait (q : Nat) (w : Word) (who ip depth run : Nat) (s : State) : State × QRes :=
  let x : QWait := ⟨q, who, w, ip, depth, run⟩
  let wait := fun (s : State) => (setDev s (withGalley s.dev fun g => { g with waiters := g.waiters ++ [x] }), QRes.full)
  if x ∈ s.dev.galley.waiters then (s, .full)
  else if s.dev.galley.waiters.any fun y => decide (y.queue = q) then wait s
  else match putWhole q w s with
  | (s1, .full) => wait s1
  | r => r

/-- A waiter of the queue is served before a later put takes the space that came free (R370). -/
def waiterFirst (q : Nat) (s : State) : Bool :=
  (s.dev.galley.waiters.any fun w => decide (w.queue = q)) && (match readDesc q s with
    | (_, .desc x) => x.parOk && decide (x.fill < x.size)
    | (_, .lost) => false)

/-- QUEUE_PUT (R88, R196, R370): the oldest record of a direct producer is offered. -/
def queuePut (p : Producer) (s : State) : State :=
  match s.dev.offers.find? fun o => decide (o.producer = producerKey p) with
  | none => s
  | some o =>
    if waiterFirst o.queue s then s
    else match putBegin o.queue o.words false (some o.producer) s with
    | (s1, .busy) => s1
    | (s1, r) =>
      let s2 := setDev s1 { s1.dev with offers := s1.dev.offers.erase o }
      if r = .accepted then s2 else setDev s2 (producerDrop s2.dev o.producer)

/-! ### Takes (R369, R371, R372) -/

/-- One word is taken (R366, R369). -/
def takeWord (q : Nat) (s : State) : State × QRes :=
  let (s, ok) := if queueFree s.dev q then galleyTag q s else (s, false)
  if !ok then (s, .busy)
  else match openQueue q s with
  | (s1, none, true) => (s1, .busy)
  | (s1, none, false) => (s1, .rejected)
  | (s1, some x, _) =>
    if x.fill = 0 then (s1, .empty)
    else
      let a := x.slot x.head
      let y := x.setHead (x.head + 1)
      match memLoad .galley true a s1 with
      | (_, .wait) => (s, .busy)
      | (s2, .ok w) =>
        let s3 := writeDesc q x y s2
        (setDev s3 (crossEvt s3.dev q y x.fill y.fill), .word w)
      | (s2, _) =>
        let s3 := writeDesc q x (y.dropped 1) s2
        (setDev s3 (galleyErr (crossEvt s3.dev q y x.fill y.fill) q 5 4), .fault a)

/-- A take that comes after parked ones: they are completed first (R369, R371). -/
def takeTurn (q : Nat) (s : State) : State × QRes :=
  if s.dev.galley.parked.any fun p => decide (p.2 = q) then
    match takeWord q s with
    | (s1, .empty) => (s1, .empty)
    | (s1, .rejected) => (s1, .rejected)
    | _ => (s, .busy)
  else takeWord q s

def pressInit : PressSt := ⟨[], 0, 0, []⟩
def pressOf (d : Dev) (ch : Nat) : PressSt := tabGet pressInit d.press ch
def withPress (d : Dev) (ch : Nat) (f : PressSt → PressSt) : Dev := { d with press := tabSet pressInit d.press ch (f (pressOf d ch)) }

/-- Press may issue a request: not halted, no error waiting, not in PARK (R383, R386). -/
def pressRuns (d : Dev) : Bool := !gb d PRESS_HALT.HALT && d.pressErr.isNone && mode d != mPark

/-- Words that a channel moves at once: an aligned double only to a destination that is an address (R380). -/
def pressUnit (x : PressSt) : Nat := if fld (x.slip.getD 6 0) 33 32 = 1 ∧ bit (x.slip.getD 1 0) 35 = false then 2 else 1

/-- Octets of a CAN FD data field by DLC: a classical frame carries at most 8 (R492). -/
def canLength (fdf : Bool) (dlc : Nat) : Nat :=
  if dlc ≤ 8 then dlc else if !fdf then 8 else [12, 16, 20, 24, 32, 48, 64].getD (dlc - 9) 64

/-- A record of an interface taker is complete (R491-R493): two words, or 3 and the data words of a CAN frame. -/
def recComplete (k : Nat) (ws : List Word) : Bool :=
  if 208 ≤ k ∧ k < 216 then
    match ws with
    | w0 :: w1 :: _ :: _ =>
      let n := if bit w0 32 then 0 else (canLength (bit w0 35) (fld w1 3 0) + 3) / 4
      decide (ws.length = 3 + n)
    | _ => false
  else decide (ws.length = 2)

/-- The queue from which a taker wants its next word now (R182, R371, R380, R491-R493). -/
def takerWants (d : Dev) (k : Nat) : Option Nat :=
  if k < 64 then
    if gb d (FOLIO_CTL.EN (travPage k)) && gf d (TRAV_SPCFG.SRC k) == 2 && (travOf d k).pre.isNone && (tabFind d.galley.setp k).isNone
      && !(d.galley.refused.any fun p => decide (p.1 = k))
    then some (gf d (TRAV_SPCFG.QUEUE k)) else none
  else if k < 192 then
    let ch := k - 64
    let x := pressOf d ch
    let src := x.slip.getD 0 0
    if gf d (PRESS_CHSTAT.STATE (ch / 16) (ch % 16)) = 3 ∧ bit src 35 ∧ x.hand.length < pressUnit x ∧ x.moved + x.hand.length < x.credit ∧ pressRuns d = true then some (fld src 14 0) else none
  else
    let (on, q) :=
      if k < 208 then let m := (k - 192) / 8; (gb d (ETH_CTL.TXEN m), gf d (ETH_TXQ.Q m ((k - 192) % 8)))
      else if k < 216 then (gb d (CANF_CTL.EN (k - 208)), gf d (CANF_TXQ.Q (k - 208)))
      else if k < 224 then (gb d (UART_CTL.EN (k - 216)), gf d (UART_TXQ.Q (k - 216)))
      else if k < 232 then (gb d (SPI_CTL.EN (k - 224)), gf d (SPI_TXQ.Q (k - 224)))
      else (gb d (I2C_CTL.EN (k - 232)), gf d (I2C_TXQ.Q (k - 232)))
    let full := match tabFind d.galley.recs k with
      | some r => !r.bad && recComplete k r.words
      | none => false
    if on && !full && mode d != mStart && !decide ((k, q) ∈ d.galley.refused) then some q else none

/-- A taken word reaches its taker: a set-point on its way, the hand of a Press channel, or a record in progress; an
abandoned record is dropped when its last word has come (R371). -/
def giveWord (d : Dev) (k : Nat) (w : Word) : Dev :=
  if k < 64 then withGalley d fun g => { g with setp := tabPut g.setp k w }
  else if k < 192 then withPress d (k - 64) fun x => { x with hand := x.hand ++ [w] }
  else withGalley d fun g =>
    let r := (tabFind g.recs k).getD ⟨[], false⟩
    let ws := r.words ++ [w]
    { g with recs := if r.bad && recComplete k ws then tabErase g.recs k else tabPut g.recs k { r with words := ws } }

/-- A take met a payload fault (R372): no value for an engine, QOFF for a Press channel; the record in progress of an
interface is abandoned, and the word that was lost is a free value (log entry 84). -/
def faultTake (d : Dev) (k q : Nat) : Dev :=
  if k < 192 then cancelTake d k q
  else
    let (d1, v) := takeFree d
    giveWord (withGalley d1 fun g => { g with recs := tabPut g.recs k { (tabFind g.recs k).getD ⟨[], false⟩ with bad := true } }) k v

/-- QUEUE_TAKE: a taker takes its next word, or parks on an empty queue (R369-R372). -/
def queueTake (t : Taker) (s : State) : State :=
  let k := takerKey t
  match takerWants s.dev k with
  | none => s
  | some q =>
    -- an engine's take asks for a tag of its cluster (R343)
    let (s, ok) := if k < 64 then (let (d, ok) := reqTag s.dev (18 + k / 4) (descAddr q 0); (setDev s d, ok)) else (s, true)
    if !ok || (s.dev.galley.parked.any fun p => decide (p.1 = k)) then s
    else match takeTurn q s with
    | (s1, .word w) => setDev s1 (giveWord s1.dev k w)
    | (s1, .empty) => setDev s1 (withGalley s1.dev fun g => { g with parked := g.parked ++ [(k, q)] })
    | (s1, .rejected) => setDev s1 (cancelTake s1.dev k q)
    | (s1, .fault _) => setDev s1 (faultTake s1.dev k q)
    | (s1, _) => s1

/-- PARKED_TAKE_COMPLETE: the oldest parked take of a queue that has a word (R371). -/
def parkedTakeComplete (q : Nat) (s : State) : State :=
  match s.dev.galley.parked.find? fun p => decide (p.2 = q) with
  | none => s
  | some p =>
    let drop := fun (d : Dev) => withGalley d fun g => { g with parked := g.parked.erase p }
    if 64 ≤ p.1 ∧ p.1 < 192 ∧ pressRuns s.dev = false then s
    else match takeWord q s with
    | (s1, .word w) => setDev s1 (giveWord (drop s1.dev) p.1 w)
    | (s1, .rejected) => setDev s1 (cancelTake (drop s1.dev) p.1 q)
    | (s1, .fault _) => setDev s1 (faultTake (drop s1.dev) p.1 q)
    | (s1, _) => s1

/-- A BLOCK waiter still waits: its core stands at the QPUT that made it (R278). -/
def waiterValid (d : Dev) (w : QWait) : Bool :=
  if w.who < 8 then
    let k := coreOfDev d w.who
    decide (k.ip = w.ip ∧ k.depth = w.depth ∧ k.run = w.run) && coreRuns d w.who && k.excs.isEmpty
  else gf d (PRESS_CHSTAT.STATE ((w.who - 8) / 16) ((w.who - 8) % 16)) == 3

/-- WAIT of a queue falls with its last waiter (R365). -/
def waitFall (q : Nat) (s : State) : State :=
  if s.dev.galley.waiters.any fun x => decide (x.queue = q) then s
  else match readDesc q s with
    | (s1, .desc x) =>
      if !x.faulted && !x.parOk then parityFault q x s1 else writeDesc q x { x with stat := setBitW x.stat 21 false } s1
    | (s1, .lost) => s1

/-- Waiters whose core has left its QPUT, or whose channel has stopped, are forgotten with nothing posted (R278, R386). -/
def dropWaiters (s : State) : State :=
  if s.dev.galley.waiters.all (waiterValid s.dev) then s
  else
    let gone := s.dev.galley.waiters.filter fun w => !waiterValid s.dev w
    let s1 := setDev s (withGalley s.dev fun g => { g with waiters := g.waiters.filter (waiterValid s.dev) })
    gone.foldl (fun s w => waitFall w.queue s) s1

/-- A word of a Press channel has been written (R380, R387). -/
def pressMoved (d : Dev) (ch n : Nat) : Dev :=
  let d1 := withPress d ch fun x => { x with moved := x.moved + n, hand := x.hand.drop n }
  pf d1 (PRESS_CHREM.REM (ch / 16) (ch % 16)) (gf d1 (PRESS_CHREM.REM (ch / 16) (ch % 16)) - n)

/-- BLOCK_PUT_SERVED: the first waiter of a queue that has space (R370, R372). -/
def blockPutServed (q : Nat) (s : State) : State :=
  match s.dev.galley.waiters.find? fun w => decide (w.queue = q) with
  | none => s
  | some w =>
    let rest := fun (d : Dev) => withGalley d fun g => { g with waiters := g.waiters.erase w }
    if 8 ≤ w.who ∧ pressRuns s.dev = false then s
    else match putWhole q w.word s with
    | (s1, .accepted) =>
      let d := rest s1.dev
      waitFall q (setDev s1 (if w.who < 8 then endQput d w.who false else pressMoved d (w.who - 8) 1))
    | (s1, .rejected) => waitFall q (setDev s1 (endWaiter (rest s1.dev) w))
    | (s1, .fault a) =>
      let d := rest s1.dev
      waitFall q (setDev s1 (if w.who < 8 then withCore d w.who fun k => k.fault 7 7 (some (BitVec.ofNat 36 a)) else pressFail d (w.who - 8) 2))
    | (s1, _) => s1

/-- SETPOINT_ARRIVAL (R182): a word that is not finite is discarded with CFG_ERR, and the next word is taken. -/
def setpointArrival (d : Dev) (e : Nat) : Dev :=
  match tabFind d.galley.setp e with
  | none => d
  | some w =>
    let d1 := withGalley d fun g => { g with setp := tabErase g.setp e }
    let v : F32 := w.setWidth 32
    if f32Finite v then withTrav d1 e fun x => { x with pre := some v } else travEvt d1 e 11

/-! ### Stores to descriptors, folio (R367, R375, R386) -/

/-- A fabric store into Galley RAM: refused while the descriptor is enabled; bit 35 of word 0 is written as 0 (R367). A CFG word
that Galley cannot read for it is a critical error (R350, R368). -/
def galleyStore (ini : Initiator) (a : Nat) (mask v : Word) (s : State) : State × BusRes :=
  let q := (a - 0x5000000) / 4
  if 4 ≤ (classify (flawOf s.mem (descAddr q 0))).1 then
    (setDev (memLoad .galley true (descAddr q 0) s).1 (critError (memLoad .galley true (descAddr q 0) s).1.dev 2 (descAddr q 0)), .ecc)
  else if bit (deliveredWord s.mem (descAddr q 0)) 35 then (setDev s (galleyErr s.dev q 3 2), .err)
  else
    let v := if a % 4 = 0 then setBitW v 35 false else v
    let mask := if a % 4 = 0 then setBitW mask 35 true else mask
    memStore ini a mask v s

/-- GALLEY_STAT with its live counts (R375). -/
def galleyStat (d : Dev) : Word :=
  setFld (setFld 0 23 16 (min 255 d.galley.parked.length)) 4 0 (min 16 d.galley.posted.length)

/-- GALLEY_QCMD written: the command is accepted and performed after the operations already accepted (R367). -/
def onGalley (d : Dev) (off : Nat) (v : Word) : Dev :=
  if off = 0x10 then withGalley d fun g => { g with cmds := g.cmds ++ [(fld v 18 16, fld v 14 0)] } else d

/-- A block reset of Galley ends waiters and parked takes and keeps every descriptor (R375). -/
def galleyReset (d : Dev) : Dev :=
  let ws := d.galley.waiters
  let ps := d.galley.parked
  let d1 := withGalley d fun g => { g with waiters := [], parked := [] }
  ps.foldl (fun d p => cancelTake d p.1 p.2) (ws.foldl refuseWaiter d1)

end Sys2Proof.Machine
end

