-- ==== Sys2Proof/Machine/Press.lean ====
section
/-!
DEFINITION. Press channels (chapter 16, R377-R388): control, triggers, stop and halt. The transfers themselves are in
Machine/PressMove.lean, above the folios.
-/
namespace Sys2Proof.Machine

def chState (d : Dev) (ch : Nat) : Nat := gf d (PRESS_CHSTAT.STATE (ch / 16) (ch % 16))
def setChState (d : Dev) (ch n : Nat) : Dev := pf d (PRESS_CHSTAT.STATE (ch / 16) (ch % 16)) n
def chTpend (d : Dev) (ch : Nat) : Bool := gb d (PRESS_CHSTAT.TPEND (ch / 16) (ch % 16))
def setTpend (d : Dev) (ch : Nat) (b : Bool) : Dev := pb d (PRESS_CHSTAT.TPEND (ch / 16) (ch % 16)) b
def pressHalted (d : Dev) : Bool := gb d PRESS_HALT.HALT

/-! ### Slips (R377, R378) -/

def slipWord (x : PressSt) (k : Nat) : Word := x.slip.getD k 0
def slipTotal (x : PressSt) : Nat := fld (slipWord x 2) 35 18 * fld (slipWord x 2) 17 0
def slipMode (x : PressSt) : Nat := fld (slipWord x 6) 35 34
def slipDouble (x : PressSt) : Bool := fld (slipWord x 6) 33 32 == 1
def slipDlen (x : PressSt) : Nat := fld (slipWord x 4) 35 18

/-- A side of a slip that is an address has an odd base, length or stride, or lies in folio space (R378). -/
def badDouble (base geom stride : Word) : Bool :=
  !bit base 35 && (bit base 0 || bit geom 18 || bit stride 0 || decide (0xF000000 ≤ fld base 27 0 ∧ fld base 27 0 < 0xF100000))

/-- The checks of a loaded slip (R378). -/
def slipBad (ws : List Word) : Bool :=
  let w := fun k => ws.getD k 0
  let tm := fld (w 6) 35 34
  let es := fld (w 6) 33 32
  decide (fld (w 2) 35 18 * fld (w 2) 17 0 ≠ fld (w 4) 35 18 * fld (w 4) 17 0)
  || decide (fld (w 2) 35 18 = 0 ∨ fld (w 2) 17 0 = 0 ∨ fld (w 4) 35 18 = 0 ∨ fld (w 4) 17 0 = 0)
  || decide (fld (w 0) 34 28 ≠ 0 ∨ fld (w 1) 34 28 ≠ 0 ∨ fld (w 3) 35 28 ≠ 0 ∨ fld (w 5) 35 28 ≠ 0 ∨ fld (w 6) 23 0 ≠ 0 ∨ fld (w 7) 35 28 ≠ 0)
  || decide (tm = 3 ∨ 2 ≤ es)
  || (bit (w 6) 31 && decide (fld (w 7) 27 0 % 8 ≠ 0))
  || (decide (es = 1) && (badDouble (w 0) (w 2) (w 3) || badDouble (w 1) (w 4) (w 5)))
  || (decide (tm = 2) && (bit (w 0) 35 || bit (w 1) 35))

/-- The address of the `k`-th word of a side: line by line, each line rising (R380). -/
def slipAddr (base geom stride : Word) (k : Nat) : Nat :=
  let len := fld geom 35 18
  wrapN 28 ((fld base 27 0 : Int) + (k / len : Nat) * signed 28 (fld stride 27 0) + (k % len : Nat))

/-! ### Triggers (R379) -/

/-- A trigger is spent: the whole slip, or its next destination line, may move (R377). -/
def grantTrigger (d : Dev) (ch : Nat) : Dev :=
  let x := pressOf d ch
  let c := if slipMode x = 2 then min (slipTotal x) (x.credit + slipDlen x) else slipTotal x
  setChState (withPress d ch fun x => { x with credit := c }) ch 3

/-- The channel waits for a trigger: a pending one is consumed at once. -/
def awaitTrigger (d : Dev) (ch : Nat) : Dev :=
  if chTpend d ch then grantTrigger (setTpend d ch false) ch else setChState d ch 2

/-- A trigger of a channel (R379, R386). -/
def pressTrig (d : Dev) (ch : Nat) : Dev :=
  if mode d = mPark then d
  else if (pressOf d ch).slip ≠ [] ∧ slipMode (pressOf d ch) = 0 then d
  else if chState d ch = 2 then grantTrigger d ch
  else if chTpend d ch then raiseEvt (pb d (PRESS_CHSTAT.TLOST (ch / 16) (ch % 16)) true) (0xD0 + ch / 16) (16 + ch % 16)
  else setTpend d ch true

/-! ### START, STOP, HCLR, halt (R382, R383, R387) -/

/-- Its parked take is forgotten when a channel leaves its slip. -/
def pressUnpark (d : Dev) (ch : Nat) : Dev :=
  withGalley d fun g => { g with parked := g.parked.filter fun p => decide (p.1 ≠ 64 + ch) }

def chanIdle (d : Dev) (ch : Nat) : Dev :=
  setChState (pb (pressUnpark { d with press := tabErase d.press ch } ch) (PRESS_CHSTAT.STOPREQ (ch / 16) (ch % 16)) false) ch 0

/-- START: the error and the pending trigger are cleared and the slip is loaded. -/
def pressStart (d : Dev) (ch : Nat) : Dev :=
  let st := PRESS_CHSTAT.at (ch / 16) (ch % 16)
  wr { d with press := tabErase d.press ch } st 1

/-- STOP (R382). -/
def pressStop (d : Dev) (ch : Nat) : Dev :=
  let st := chState d ch
  if st = 0 ∨ st = 4 ∨ st = 5 then d
  else if st = 1 ∨ (st = 2 ∧ (pressOf d ch).moved = 0) then chanIdle d ch
  else pb d (PRESS_CHSTAT.STOPREQ (ch / 16) (ch % 16)) true

/-- PRESS_HALT: a bus error of a Press access halts both halves (R383, R388). -/
def pressHalt (d : Dev) : Dev :=
  match d.pressErr with
  | none => d
  | some (cause, a) =>
    let d1 := pf (pf (pb { d with pressErr := none } PRESS_HALT.HALT true) PRESS_HALTADDR.CAUSE cause) PRESS_HALTADDR.ADDR a
    let d2 := forUpTo 128 (fun ch d =>
      if 1 ≤ chState d ch ∧ chState d ch ≤ 3 then
        pressUnpark (setChState (pf (withPress d ch fun x => { x with hand := [] }) (PRESS_CHSTAT.ERR (ch / 16) (ch % 16)) 3) ch 5) ch
      else d) d1
    if gb d2 PRESS_GCTL.HEN then drive d2 1832 else d2

/-- A bus error met by a Press access (R383): the first one is kept. -/
def pressBusError (d : Dev) (cause a : Nat) : Dev := if d.pressErr.isSome then d else { d with pressErr := some (cause, a) }

/-- Writes that are discarded with CFG_ERR (R378, R387). -/
def badPress (d : Dev) (g off : Nat) (v : Word) : Bool :=
  let i := off % 16
  let st := gf d (PRESS_CHSTAT.STATE g i)
  let rest := decide (st = 0 ∨ st = 4 ∨ st = 5)
  if 0x20 ≤ off ∧ off < 0x30 then !rest
  else if 0x30 ≤ off ∧ off < 0x40 then bit v 0 && (!rest || pressHalted d || decide (gf d (PRESS_CHPTR.SLIP g i) % 8 ≠ 0))
  else false

/-- A PRESS register written: START, then STOP, then SWTRIG of one write. -/
def onPress (d : Dev) (g off : Nat) (v : Word) : Dev :=
  let ch := 16 * g + off % 16
  if 0x30 ≤ off ∧ off < 0x40 then
    let d1 := if bit v 0 then pressStart d ch else d
    let d2 := if bit v 1 then pressStop d1 ch else d1
    if bit v 2 then pressTrig d2 ch else d2
  else if off = 0x60 ∧ g = 0 then (if bit v 0 then pb d PRESS_HALT.HALT false else d)
  else d

/-- FOLIO_CTL.EN of a group: 0 acts as STOP (R386). -/
def pressEnable (d : Dev) (g : Nat) (en : Bool) : Dev := if en then d else forUpTo 16 (fun i d => pressStop d (16 * g + i)) d

/-- A block reset returns the 16 channels to IDLE (R386). -/
def pressReset (d : Dev) (g : Nat) : Dev := forUpTo 16 (fun i d => chanIdle d (16 * g + i)) d

end Sys2Proof.Machine
end

