-- ==== Sys2Proof/Machine/Sec.lean ====
section
/-!
DEFINITION. The security engine (chapter 19, R441-R457): debug unlock, sessions, random numbers, the image format. The
primitives of the cited standards are opaque constants of Config. Booting is in Machine/Boot.lean, command frames in
Machine/HostFrames.lean.
-/
namespace Sys2Proof.Machine

def secPage : Nat := 0x11
def secEvt (d : Dev) (k : Nat) : Dev := raiseEvt d secPage k
def withSec (d : Dev) (f : SecSt → SecSt) : Dev := { d with sec := f d.sec }

/-! ### Keys and encodings (R442, R450) -/

def rngOk (d : Dev) : Bool := gb d SEC_STAT.RNGOK
/-- Words of the Colophon latches from `k` on. -/
def latchWords (d : Dev) (k n : Nat) : List Word := (upTo n).map fun i => latchWord d (k + i)
/-- Field 9 is programmed. -/
def secretSet (d : Dev) : Bool := (latchWords d 62 8).any fun w => w != 0
def deviceSecret (d : Dev) : List Word := latchWords d 62 8
/-- A Colophon key slot holds a hash; it is usable unless revoked (R442). -/
def slotSet (d : Dev) (k : Nat) : Bool := (latchWords d (40 + 11 * k) 11).any fun w => w != 0
def slotUsable (d : Dev) (k : Nat) : Bool := slotSet d k && !bit (latchWord d 72) (2 + k)

/-- Octet strings and numbers, most significant first. -/
def octetsNat (bs : List (BitVec 8)) : Nat := bs.foldl (fun a b => a * 256 + b.toNat) 0
def natOctets (n v : Nat) : List (BitVec 8) := (upTo n).map fun i => BitVec.ofNat 8 (v / 2 ^ (8 * (n - 1 - i)))
def wordsNat (ws : List Word) : Nat := ws.foldl (fun a w => a * 2 ^ 36 + w.toNat) 0

/-- The encoding of R442: 36 bits per word, most significant bit first, then zero bits up to a multiple of eight. -/
def wordsOctets (ws : List Word) : List (BitVec 8) :=
  let n := (36 * ws.length + 7) / 8
  natOctets n (wordsNat ws * 2 ^ (8 * n - 36 * ws.length))
/-- An octet string split back into `n` words (R450). -/
def octetsWords (n : Nat) (bs : List (BitVec 8)) : List Word :=
  let v := octetsNat bs * 2 ^ (36 * n)
  (upTo n).map fun i => BitVec.ofNat 36 (v / 2 ^ (8 * bs.length + 36 * (n - 1 - i)))

/-- A 384-bit quantity from its 11 words, bits [11:0] of the last of which are zero (R435, R441), and back. -/
def quantOf (ws : List Word) : BitVec 384 := BitVec.ofNat 384 (wordsNat ((upTo 11).map fun i => ws.getD i 0) / 2 ^ 12)
def quantWords (q : BitVec 384) : List Word := (upTo 11).map fun i => BitVec.ofNat 36 (q.toNat * 2 ^ 12 / 2 ^ (36 * (10 - i)))
/-- A quantity as 48 octets (R442, R487). -/
def quantOctets (q : BitVec 384) : List (BitVec 8) := natOctets 48 q.toNat
/-- Two quantities one after the other: a key as X and Y, a signature as R and S. -/
def quantPair (ws : List Word) : BitVec 384 × BitVec 384 := (quantOf ws, quantOf (ws.drop 11))
def pairOctets (k : BitVec 384 × BitVec 384) : List (BitVec 8) := quantOctets k.1 ++ quantOctets k.2
def octetPair (bs : List (BitVec 8)) : BitVec 384 × BitVec 384 :=
  (BitVec.ofNat 384 (octetsNat (bs.take 48)), BitVec.ofNat 384 (octetsNat ((bs.drop 48).take 48)))

/-- The key hash of R442: SHA-384 over 0x04 ‖ X ‖ Y. -/
def keyHash (key : BitVec 384 × BitVec 384) : BitVec 384 := Config.sha384 (4#8 :: pairOctets key)
/-- The key hash equals slot `k`, which is usable. -/
def keyMatches (d : Dev) (k : Nat) (key : BitVec 384 × BitVec 384) : Bool :=
  decide (k < 2) && slotUsable d k && decide (quantWords (keyHash key) = latchWords d (40 + 11 * k) 11)

/-- An ASCII label of a derivation. -/
def label (s : String) : List (BitVec 8) := s.toList.map fun c => BitVec.ofNat 8 c.toNat

/-- A private key from random or derived bits: c ↦ (c mod (n − 1)) + 1 (R450). -/
def privateKey (c : Nat) : Nat := c % (Config.ecOrder - 1) + 1
/-- The device private key d of R450; it never leaves SEC. -/
def deviceKey (d : Dev) : Nat :=
  privateKey (Config.kdf (natOctets 32 ((deviceSecret d).foldl (fun a w => a * 2 ^ 32 + fld w 31 0) 0)) (label "K9600-DEVKEY") 448)
/-- The device public key Q = dG (R450). -/
def devicePub (d : Dev) : BitVec 384 × BitVec 384 := (Config.ecMul (deviceKey d) Config.ecBase).getD (0, 0)

/-- SEC_DEVPUB: zero while field 9 is unprogrammed (R450). -/
def devPub (d : Dev) (i : Nat) : Word :=
  if secretSet d then (quantWords (devicePub d).1 ++ quantWords (devicePub d).2).getD i 0 else 0

/-! ### Evaluated configuration (R455) -/

def evalCond (d : Dev) : Bool :=
  (slotUsable d 0 || slotUsable d 1) && bit (latchWord d 72) 0 && bit (latchWord d 72) 1 && !gb d SEC_STAT.OPEN && secretSet d
    && gb d SEC_CFG.HOSTAUTH && !d.sec.dbgSince && rngOk d && gf d TWIN_TEST.GEN == 0 && gf d TWIN_TEST.CHK == 0 && gf d TWIN_INJ.KIND == 0

/-- EVAL follows its conditions; EVAL_LOST at its fall (R455, R457). -/
def evalUpdate (d : Dev) : Dev :=
  let b := evalCond d
  if gb d SEC_STAT.EVAL = b then d
  else if b then pb d SEC_STAT.EVAL true
  else secEvt (pb d SEC_STAT.EVAL false) 5

/-! ### Random numbers (R454) -/

/-- A request to the DRBG, which is reseeded after 2^20 of them. -/
def drawRng (d : Dev) : Dev × BitVec 384 :=
  let (s, n) := if d.sec.rng < 2 ^ 20 then (d.sec.seed, d.sec.rng) else (d.sec.seed + 1, 0)
  (withSec d fun x => { x with seed := s, rng := n + 1 }, Config.drbg s n)

/-- SEC_RNG read: new output, or VALID = 0. -/
def rngRead (d : Dev) : Dev × Word :=
  if rngOk d then ((drawRng d).1, setBitW (((drawRng d).2.setWidth 32).setWidth 36) 35 true) else (d, 0)

/-- The DRBG is instantiated during option load, after a start-up test of its source (R454). -/
def rngStartUp (d : Dev) : Dev :=
  let d1 := withSec d fun x => { x with seed := x.seed + 1, rng := 0 }
  if Config.rngStart d1.sec.seed then pb d1 SEC_STAT.RNGOK true else secEvt (pb d1 SEC_STAT.RNGOK false) 4

/-- RNG_FAIL: a health-test failure. -/
def rngFail (d : Dev) : Dev := if rngOk d then secEvt (pb d SEC_STAT.RNGOK false) 4 else d

/-! ### Debug unlock (R451) -/

/-- SEC_DBGCTL.CHAL: a fresh nonce, unless four refusals or RNG_FAIL forbid it. -/
def dbgChallenge (d : Dev) : Dev :=
  let d0 := withSec d fun x => { x with chal := false }
  if 4 ≤ d.sec.refusals ∨ rngOk d = false then d0
  else
    let (d1, n) := drawRng d0
    forUpTo 11 (fun i d => wr d (SEC_DBGCHAL.at i) ((quantWords n).getD i 0)) (withSec d1 fun x => { x with chal := true })

/-- SEC_DBGCTL.SUBMIT: the challenge is consumed, and debug unlocks or is refused. -/
def dbgSubmit (d : Dev) : Dev :=
  let resp := (upTo 44).map fun i => tabGet 0 d.sec.resp i
  let key := quantPair (resp.take 22)
  let msg := wordsOctets (((upTo 11).map fun i => rd d (SEC_DBGCHAL.at i)) ++ latchWords d 0 6)
  let ok := d.sec.chal && mode d != mPark && (keyMatches d 0 key || keyMatches d 1 key)
    && Config.ecdsaVerify key (Config.sha384 msg) (quantPair (resp.drop 22)) && !bit (latchWord d 72) 4
  let d1 := withSec d fun x => { x with chal := false }
  if ok then
    let d2 := withSec (pb d1 SEC_STAT.DBGUNL true) fun x => { x with dbgSince := true }
    secEvt (if filtAll d then d2 else filtRestart d2) 0
  else secEvt (withSec d1 fun x => { x with refusals := x.refusals + 1 }) 1

/-- A SEC register written. -/
def onSec (d : Dev) (off : Nat) (v : Word) : Dev :=
  if off = 0x12 then
    let d1 := if bit v 0 then dbgChallenge d else d
    if bit v 1 then dbgSubmit d1 else d1
  else if 0x41 ≤ off ∧ off < 0x6D then withSec d fun x => { x with resp := tabSet 0 x.resp (off - 0x41) v }
  else d

/-- A SEC_CFG pair that clears HOSTAUTH is refused as RANGE (R456). -/
def rangeSecCfg (d : Dev) (v : Word) : Bool := gb d SEC_CFG.HOSTAUTH && !bit v 1

/-! ### Sessions (R452) -/

/-- The session ends. -/
def sessionEnd (d : Dev) : Dev := withSec (pb d SEC_STAT.SESS false) fun x => { x with key := 0, fails := 0 }

/-- A session frame failed (R453): after three in a row the session ends. -/
def sessionFail (d : Dev) : Dev :=
  let d1 := secEvt (withSec d fun x => { x with fails := x.fails + 1 }) 3
  if 3 ≤ d1.sec.fails then sessionEnd d1 else d1

/-! ### Images (R441) -/

/-- The header fields that a candidate is judged by. -/
structure ImageHdr where
  ws : List Word
deriving DecidableEq, Repr

def ImageHdr.w (h : ImageHdr) (k : Nat) : Word := h.ws.getD k 0
def ImageHdr.ver (h : ImageHdr) : Nat := fld (h.w 1) 6 0
def ImageHdr.enc (h : ImageHdr) : Bool := bit (h.w 2) 0
def ImageHdr.keyIdx (h : ImageHdr) : Nat := fld (h.w 2) 1 1
def ImageHdr.roll (h : ImageHdr) : Bool := bit (h.w 2) 2
def ImageHdr.len (h : ImageHdr) : Nat := (h.w 3).toNat
def ImageHdr.load (h : ImageHdr) : Nat := (h.w 4).toNat
def ImageHdr.entry (h : ImageHdr) : Nat := (h.w 5).toNat
def ImageHdr.key (h : ImageHdr) : BitVec 384 × BitVec 384 := quantPair ((h.ws.drop 7).take 22)
def ImageHdr.sig (h : ImageHdr) : BitVec 384 × BitVec 384 := quantPair ((h.ws.drop 0x1D).take 22)
def ImageHdr.ephemeral (h : ImageHdr) : BitVec 384 × BitVec 384 := quantPair ((h.ws.drop 0x3A).take 22)
/-- IV and TAG lie in bits [31:0] of their words. -/
def ImageHdr.low32 (h : ImageHdr) (k n : Nat) : Nat := ((h.ws.drop k).take n).foldl (fun a w => a * 2 ^ 32 + fld w 31 0) 0
def ImageHdr.iv (h : ImageHdr) : BitVec 96 := BitVec.ofNat 96 (h.low32 0x33 3)
def ImageHdr.tag (h : ImageHdr) : BitVec 128 := BitVec.ofNat 128 (h.low32 0x36 4)

/-- A word range lies in a region to which a payload is copied: core 0's data TCM alias or shared SRAM (R441). -/
def loadRegion (a n : Nat) : Bool :=
  (decide (0x2010000 ≤ a) && decide (a + n ≤ 0x2018000)) || (decide (0x4000000 ≤ a) && decide (a + n ≤ 0x4100000))

/-- Step 2 of R444: MAGIC, zero fields, LEN, LOAD and ENTRY within their regions, ENC only with LOAD and a secret. -/
def headerOk (d : Dev) (h : ImageHdr) (base : Nat) (host : Bool) : Bool :=
  let exec := if h.load = 0 then base + 0x80 else h.load
  decide (h.w 0 = 0x0D9601A6E#36) && decide (fld (h.w 1) 35 7 = 0 ∧ h.ver ≤ 64 ∧ fld (h.w 2) 35 3 = 0 ∧ h.w 6 = 0)
    && ((h.ws.drop 0x50).all fun w => w == 0)
    && ([0x11, 0x1C, 0x27, 0x32, 0x44, 0x4F].all fun k => fld (h.w k) 11 0 == 0)
    && decide (1 ≤ h.len ∧ h.len ≤ 2096000)
    && (!host || (decide (0x4000000 ≤ base) && decide (base + 0x80 + h.len ≤ 0x4100000)))
    && (decide (h.load = 0) || loadRegion h.load h.len)
    && decide (exec ≤ h.entry / 2 ∧ h.entry / 2 < exec + h.len)
    && (!h.enc || (decide (h.load ≠ 0) && secretSet d))

/-- The image digest H (R442). -/
def imageDigest (h : ImageHdr) (payload : List Word) : BitVec 384 :=
  Config.sha384 (wordsOctets (h.ws.take 0x1D ++ h.ws.drop 0x33 ++ payload))

/-- The image key K (R450), from the x-coordinate Z of d × (EPX, EPY); none where that is not a point. -/
def imageKey (d : Dev) (h : ImageHdr) : Option (BitVec 256) :=
  (Config.ecMul (deviceKey d) h.ephemeral).map fun z =>
    BitVec.ofNat 256 (Config.kdf (quantOctets z.1) (label "K9600-IMAGE" ++ wordsOctets (h.ws.take 7)) 256)

end Sys2Proof.Machine
end

