-- ==== Sys2Proof/Machine/Bearing.lean ====
section
/-!
DEFINITION. Bearing units (chapter 10, R223-R236).
-/
namespace Sys2Proof.Machine

def brngInit : BrngSt := ⟨0, 1, none, none, none, 0, none, none, none, ⟨false, 0⟩, ⟨false, 0⟩, ⟨false, 0⟩⟩
def brngOf (d : Dev) (u : Nat) : BrngSt := tabGet brngInit d.brng u
def withBrng (d : Dev) (u : Nat) (f : BrngSt → BrngSt) : Dev := { d with brng := tabSet brngInit d.brng u (f (brngOf d u)) }
def brngPage (u : Nat) : Nat := 0xC0 + u
def brngEvt (d : Dev) (u k : Nat) : Dev := raiseEvt d (brngPage u) k

/-- The unit is enabled and not off (R223, R234). -/
def brngOn (d : Dev) (u : Nat) : Bool := gb d (FOLIO_CTL.EN (brngPage u)) && mode d != mStart
/-- Samples, frames and deliveries run (R234). -/
def brngLive (d : Dev) (u : Nat) : Bool := brngOn d u && mode d != mPark
def brngMode (d : Dev) (u : Nat) : Nat := gf d (BRNG_CFG.MODE u)
/-- QUAD, PULSEDIR, UPDOWN. -/
def brngCounts (d : Dev) (u : Nat) : Bool := decide (brngMode d u ≤ 2)
def brngPos (d : Dev) (u : Nat) : Word := rd d (BRNG_POS.at u)

/-- The timestamp of an edge accepted in this tick (R224). -/
def edgeStamp (d : Dev) (u : Nat) : Word := shortTs d - BitVec.ofNat 36 (gf d (BRNG_CFG.FILT u))

/-- The angle formula of R227. -/
def angleOf (p org : Word) (cpr aofs : Nat) : Nat :=
  (((p.toInt - org.toInt) % (cpr : Int)).toNat * 2 ^ 32 / cpr + aofs) % 2 ^ 32

/-- ANGLE is updated in every tick in which P or AORG changes (R227). -/
def updateAngle (d : Dev) (u : Nat) : Dev :=
  pf d (BRNG_ANGLE.ANGLE u) (angleOf (brngPos d u) (rd d (BRNG_AORG.at u)) (gf d (BRNG_CPR.CPR u)) (gf d (BRNG_AOFS.AOFS u)))

def setPos (d : Dev) (u : Nat) (p : Word) : Dev := updateAngle (wr d (BRNG_POS.at u) p) u
def setAorg (d : Dev) (u : Nat) (p : Word) : Dev := updateAngle (wr d (BRNG_AORG.at u) p) u

/-- A loss (R228); `keep`: POS_VALID stays (entry to PARK in a counting mode, R234). -/
def brngLoss (d : Dev) (u : Nat) (keep : Bool) : Dev :=
  let d1 := pb (pb (if keep then d else pb d (BRNG_STAT.POS_VALID u) false) (BRNG_STAT.VEL_VALID u) false) (BRNG_STAT.PER_VALID u) false
  let d1 := { d1 with landings := d1.landings.map fun l => match l.kind with
    | .sample p _ => if l.unit = 40 + u then { l with kind := .sample p 0 } else l
    | _ => l }
  let d2 := withBrng (wr d1 (BRNG_VEL.at u) 0) u fun x => { x with vNum := 0, vDen := 1, ref := none, edge := none, per := none }
  brngEvt d2 u 4

/-! ### Counting (R225-R227) -/

/-- Filtered levels of A, B and Z. -/
def lvlA (d : Dev) (u : Nat) : Bool := bit (rd d (BRNG_STAT.at u)) 7
def lvlB (d : Dev) (u : Nat) : Bool := bit (rd d (BRNG_STAT.at u)) 6
def lvlZ (d : Dev) (u : Nat) : Bool := bit (rd d (BRNG_STAT.at u)) 5

/-- Position of (A, B) in the quadrature cycle; A leading B counts up (log entry 30). -/
def quadPos (a b : Bool) : Nat := match a, b with
  | false, false => 0
  | true, false => 1
  | true, true => 2
  | false, true => 3

/-- The count of a change of the filtered levels under MODE; none: an illegal transition (R225, R226). -/
def countOf (md : Nat) (a0 b0 a b : Bool) : Option Int :=
  if md = 0 then
    let k := (quadPos a b + 4 - quadPos a0 b0) % 4
    if k = 2 then none else some (if k = 1 then 1 else if k = 3 then -1 else 0)
  else if md = 1 then some (if a && !a0 then (if b then 1 else -1) else 0)
  else if md = 2 then some ((if a && !a0 then 1 else 0) - (if b && !b0 then 1 else 0))
  else some 0

/-- A count of `k` applies to P (R225, R227, R229). -/
def applyCount (d : Dev) (u : Nat) (k : Int) : Dev :=
  let k := if gb d (BRNG_CFG.SWAP u) then -k else k
  if k = 0 ∨ (brngOf d u).setAt = some d.now then d
  else
    let dir := decide (k < 0)
    let kw := wordOfInt k
    let z := gf d (BRNG_CFG.ZMODE u)
    let d0 := pb d (BRNG_STAT.DIR u) dir
    -- an index edge of the same tick applies after the count
    let d1 := if (brngOf d u).idxAt = some d.now ∧ 1 ≤ z then
        let c := rd d (BRNG_ZCAP.at u) + kw
        let e := wr d0 (BRNG_ZCAP.at u) c
        if z = 2 then setAorg (setPos e u (brngPos d u + kw)) u c
        else if z = 3 then e else setPos e u (brngPos d u + kw)
      else setPos d0 u (brngPos d u + kw)
    -- the edge has the position that its count made, before an index of the same tick set P
    let pe := if (brngOf d u).idxAt = some d.now ∧ z = 3 then rd d1 (BRNG_ZCAP.at u) else brngPos d1 u
    withBrng d1 u fun x =>
      let e := (edgeStamp d u, pe)
      { x with edge := some e, ref := if x.ref.isSome then x.ref else some e }

/-! ### Pins and their filter (R223, R224) -/

/-- The unit is an SSI master: BRA is its clock output. -/
def ssiMaster (d : Dev) (u : Nat) : Bool := brngMode d u == 3 && !gb d (BRNG_SSI.LISTEN u)

def BrPin.take (p : BrPin) (level : Bool) (now : Nat) : BrPin := if p.raw = level then p else ⟨level, now⟩

/-- A pin whose new level has been held for FILT + 1 ticks is accepted (R224). -/
def pinSettled (d : Dev) (u : Nat) (p : BrPin) (lvl : Bool) : Bool := p.raw != lvl && decide (p.since + gf d (BRNG_CFG.FILT u) ≤ d.now)
def setA (d : Dev) (u : Nat) : Bool := pinSettled d u (brngOf d u).pinA (lvlA d u) && !(ssiMaster d u && brngOn d u)
def setB (d : Dev) (u : Nat) : Bool := pinSettled d u (brngOf d u).pinB (lvlB d u)
def setZ (d : Dev) (u : Nat) : Bool := pinSettled d u (brngOf d u).pinZ (lvlZ d u)

/-! ### SSI frames (R230) -/

/-- The data bit is read where a sample is due; the last one sets the check one clock cycle later. -/
def SsiFrame.read (x : SsiFrame) (now n ckh : Nat) (b : Bool) : SsiFrame :=
  if x.got < n ∧ now ∈ x.sampleAt then
    { x with sampleAt := x.sampleAt.filter (now < ·), got := x.got + 1, bits := 2 * x.bits + b.toNat
             checkAt := if x.got + 1 = n then some (now + 2 * ckh) else x.checkAt }
  else x

/-- A rising edge of the clock: the cycles that follow the first carry the bits, each read SDLY ticks after its edge. -/
def SsiFrame.rise (x : SsiFrame) (now sdly : Nat) : SsiFrame :=
  { x with rises := x.rises + 1, edgeAt := now, sampleAt := if 1 ≤ x.rises then x.sampleAt ++ [now + sdly] else x.sampleAt }

def withFrame (d : Dev) (u : Nat) (f : SsiFrame → SsiFrame) : Dev := withBrng d u fun x => { x with frame := x.frame.map f }

/-- The clock that a master drives on BRA: high when idle, low first in each cycle of a frame (R223, R230). -/
def braOut (d : Dev) (u : Nat) : Bool := match (brngOf d u).frame with
  | none => true
  | some x =>
    let t := d.now - x.start
    let ckh := gf d (BRNG_SSI.CKH u)
    decide ((gf d (BRNG_SSI.NBITS u) + 1) * 2 * ckh ≤ t) || decide (t / ckh % 2 = 1)

/-- What a tick brings to the frame in progress: the master's rising edge, the bit to read, the monoflop check. -/
def ssiTick (d : Dev) (u : Nat) : Dev :=
  let n := gf d (BRNG_SSI.NBITS u)
  let ckh := gf d (BRNG_SSI.CKH u)
  match (brngOf d u).frame with
  | none => d
  | some x =>
    let t := d.now - x.start
    let up := ssiMaster d u && decide (x.rises ≤ n ∧ t % (2 * ckh) = ckh)
    withFrame d u fun x =>
      let y := (if up then x.rise d.now (gf d (BRNG_SSI.SDLY u)) else x).read d.now n ckh (lvlB d u)
      if y.checkAt = some d.now ∧ y.low = none then { y with low := some (!lvlB d u) } else y

/-- A frame starts with the first falling edge of the clock. -/
def ssiStart (d : Dev) (u start : Nat) (stamp : Word) : Dev :=
  withBrng (pb d (BRNG_STAT.SSIBUSY u) true) u fun x => { x with frame := some ⟨start, stamp, lvlB d u, 0, d.now, [], 0, 0, none, none⟩ }

/-- An edge of the clock of another master at a listener. -/
def ssiListen (d : Dev) (u : Nat) (level : Bool) : Dev :=
  if !brngLive d u then d
  else if (brngOf d u).frame.isSome then
    withFrame d u fun x => if level then (x.rise d.now (gf d (BRNG_SSI.SDLY u))).read d.now (gf d (BRNG_SSI.NBITS u)) (gf d (BRNG_SSI.CKH u)) (lvlB d u)
      else { x with edgeAt := d.now }
  else if level then d
  else ssiStart d u d.now (edgeStamp d u)

/-! ### PERIOD mode (R231) -/

/-- An accepted edge of A to `level` in PERIOD mode. -/
def periodQualify (d : Dev) (u : Nat) (level : Bool) : Dev :=
  if brngLive d u = false ∨ bit (rd d (BRNG_PCFG.at u)) (if level then 16 else 17) = false then d
  else
    let te := edgeStamp d u
    let d1 := withBrng (wr d (BRNG_ETS.at u) te) u fun x => { x with per := some (te, d.now) }
    match (brngOf d u).per with
    | none => d1
    | some (t0, _) =>
      let tm := te - t0
      let d2 := pb (pb (wr d1 (BRNG_PER.at u) tm) (BRNG_STAT.PER_VALID u) true) (BRNG_STAT.VEL_VALID u) true
      withBrng d2 u fun x => { x with vNum := 1, vDen := tm.toNat }

/-- What the filter has accepted of A and B in this tick acts (R224-R226, R230, R231). -/
def acceptAB (d : Dev) (u : Nat) : Dev :=
  let x := brngOf d u
  let sa := setA d u
  let sb := setB d u
  if !sa && !sb then d
  else
    let a := if sa then x.pinA.raw else lvlA d u
    let b := if sb then x.pinB.raw else lvlB d u
    let d1 := wr d (BRNG_STAT.at u) (setBitW (setBitW (rd d (BRNG_STAT.at u)) 7 a) 6 b)
    if !brngOn d u then d1
    else if brngMode d u = 3 then (if sa then ssiListen d1 u a else d1)
    else if brngMode d u = 4 then (if sa then periodQualify d1 u a else d1)
    else match countOf (brngMode d u) (lvlA d u) (lvlB d u) a b with
      | some k => applyCount d1 u k
      | none => brngLoss (brngEvt (incF d1 (BRNG_ERRCNT.QERR u) 1) u 2) u false

/-- BEARING_EDGE: pins A and B are at `a` and `b` from this tick on (R224-R226). -/
def bearingEdge (d : Dev) (u : Nat) (a b : Bool) : Dev :=
  acceptAB (withBrng d u fun x => { x with pinA := x.pinA.take a d.now, pinB := x.pinB.take b d.now }) u

/-- PERIOD_EDGE: pin A is at `level` from this tick on (R224, R231). -/
def periodEdge (d : Dev) (u : Nat) (level : Bool) : Dev :=
  acceptAB (withBrng d u fun x => { x with pinA := x.pinA.take level d.now }) u

/-- An accepted edge of Z to `level` (R227, R228). -/
def acceptZ (d : Dev) (u : Nat) (level : Bool) : Dev :=
  let rise := level && !lvlZ d u
  let d1 := wr d (BRNG_STAT.at u) (setBitW (rd d (BRNG_STAT.at u)) 5 level)
  let z := gf d (BRNG_CFG.ZMODE u)
  if !rise || !brngOn d u then d1
  else if z = 0 then d1
  else
    let p := brngPos d u
    let d2 := wr (wr d1 (BRNG_ZCAP.at u) p) (BRNG_ZTS.at u) (edgeStamp d u)
    let d3 := withBrng (brngEvt d2 u 1) u fun x => { x with idxAt := some d.now }
    if z = 1 then d3
    else
      let d4 := if z = 2 then setAorg d3 u p else setAorg (setPos d3 u 0) u 0
      if brngCounts d u then pb d4 (BRNG_STAT.POS_VALID u) true else d4

/-- INDEX: pin Z is at `level` from this tick on (R224, R227). -/
def bearingIndex (d : Dev) (u : Nat) (level : Bool) : Dev :=
  let d1 := withBrng d u fun x => { x with pinZ := x.pinZ.take level d.now }
  if setZ d1 u then acceptZ d1 u (brngOf d1 u).pinZ.raw else d1

/-- A write of BRNG_POSSET (R227, R228). -/
def posSet (d : Dev) (u : Nat) (v : Word) : Dev :=
  let d1 := withBrng (setPos d u v) u fun x => { x with setAt := some d.now }
  if brngCounts d u then pb d1 (BRNG_STAT.POS_VALID u) true else d1

/-! ### Samples (R229, R232) -/

/-- v × VSCALE as binary32, rounded once (R229). -/
def velWord (n : Int) (den : Nat) (vs : F32) : F32 :=
  let (m, e) := f32Mag vs
  let k : Int := n * (if f32Sign vs then -(m : Int) else m)
  if 0 ≤ e then (fOfRat fmTrav (k * 2 ^ e.toNat) den).val else (fOfRat fmTrav k (den * 2 ^ (-e).toNat)).val

/-- The velocity of a sample at short timestamp `s` (R229); `diff` is pE − pref as an integer. -/
def formVelocity (d : Dev) (u : Nat) (s : Word) (diff : Word → Word → Int) : Dev :=
  let x := brngOf d u
  match x.ref, x.edge with
  | some (tr, pr), some (te, pe) =>
    if (tr, pr) = (te, pe) then
      let age := (s - te).toNat
      if !gb d (BRNG_STAT.VEL_VALID u) then d
      else if age ≥ gf d (BRNG_VSTALL.VSTALL u) then withBrng d u fun x => { x with vNum := 0, vDen := 1 }
      else if x.vNum.natAbs * age > x.vDen then withBrng d u fun x => { x with vNum := if x.vNum < 0 then -1 else 1, vDen := age }
      else d
    else pb (withBrng d u fun x => { x with vNum := diff pe pr, vDen := (te - tr).toNat, ref := some (te, pe) }) (BRNG_STAT.VEL_VALID u) true
  | _, _ => d

/-- A delivery of a sample with velocity word `vel` (R232): at its latch 6 tk after the sample (R233). -/
def brngDeliver (d : Dev) (u m : Nat) (vel : Word) : Dev :=
  let w := rd d (BRNG_DEST.at u m)
  let sel := fld w 34 33
  let ok := if sel = 1 then gb d (BRNG_STAT.VEL_VALID u) else gb d (BRNG_STAT.POS_VALID u)
  let y := if sel = 0 then (fOfInt fmTrav (brngPos d u).toInt 0).val
    else if sel = 1 then vel.setWidth 32
    else (fOfInt ⟨1, true⟩ (gf d (BRNG_ANGLE.ANGLE u)) (-32)).val
  if bit w 35 && ok then sendLatch d (d.now + 6) (fld w 31 26) (fld w 25 24) (100 + u) y (rd d (BRNG_STS.at u)) else d

/-- A sample is taken: SPOS, BRNG_VEL and SMP 2 tk later, the deliveries 6 tk later (R229, R232, R233, R236). -/
def completeSample (d : Dev) (u : Nat) : Dev :=
  let x := brngOf d u
  let vel := (velWord x.vNum x.vDen ((rd d (BRNG_VSCALE.at u)).setWidth 32)).setWidth 36
  let d1 := brngDeliver (brngDeliver d u 0 vel) u 1 vel
  { d1 with landings := d1.landings ++ [⟨d.now + 2, 40 + u, .sample (brngPos d u) vel⟩] }

/-- The due sample of a unit: its sample tick S = T + DLY, or the periodic one (R229). -/
def sampleDue (d : Dev) (u : Nat) : Option Nat :=
  let w := rd d (BRNG_SMP.at u)
  let s := if fld w 15 12 = 7 then some (brngOf d u).nextSample
    else (d.trigDue.find? fun e => decide (e.1 = 0x2000 + u)).map fun e => e.2 + fld w 35 20
  if brngLive d u && !(brngMode d u == 3 && gb d (BRNG_SSI.LISTEN u)) then s.filter fun t => decide (t ≤ d.now) else none

/-- BEARING_SAMPLE (R229): a sample of the counting and PERIOD modes, or the start of an SSI frame (R230). -/
def bearingSample (d : Dev) (u : Nat) : Dev :=
  match sampleDue d u with
  | none => d
  | some s =>
    let periodic := gf d (BRNG_SMP.TSRC u) == 7
    let d0 := if periodic then withBrng d u fun x => { x with nextSample := s + gf d (BRNG_SPER.SPER u) }
      else { d with trigDue := d.trigDue.filter fun e => decide (e.1 ≠ 0x2000 + u) }
    let st := shortTs d - BitVec.ofNat 36 (d.now - s)
    if brngMode d u = 3 then
      if gb d (BRNG_STAT.SSIBUSY u) then brngEvt d0 u 6
      else ssiStart (wr d0 (BRNG_STS.at u) st) u s st
    else
      let d1 := wr d0 (BRNG_STS.at u) st
      completeSample (if brngMode d u = 4 then d1 else formVelocity d1 u st (fun p q => (p - q).toInt)) u

/-! ### SSI (R230) -/

/-- Gray code of `n` bits to binary. -/
def grayDecode (n v : Nat) : Nat := forUpTo n (fun i a => a ^^^ (v >>> i)) 0

/-- The frame in progress is over, and whether it was good: after the monoflop check; a listener's also when its clock has
stayed away for the monoflop time (R230). -/
def ssiOver (d : Dev) (u : Nat) : Option Bool :=
  let mono := gf d (BRNG_SSI.TMONO u) * 128
  match (brngOf d u).frame with
  | none => none
  | some x =>
    match x.low, x.checkAt with
    | some false, _ => some false
    | some true, some t =>
      if t + mono < d.now then some false else if lvlB d u && decide (t < d.now) then some x.startHigh else none
    | _, _ => if gb d (BRNG_SSI.LISTEN u) && decide (x.edgeAt + mono < d.now) && decide (x.got < gf d (BRNG_SSI.NBITS u)) then some false else none

/-- SSI_FRAME_END (R230). -/
def ssiFrameEnd (d : Dev) (u : Nat) : Dev :=
  match (brngOf d u).frame, ssiOver d u with
  | some x, some good =>
    if !brngLive d u || brngMode d u != 3 then d
    else
      let listen := gb d (BRNG_SSI.LISTEN u)
      let n := gf d (BRNG_SSI.NBITS u)
      let d0 := pb (withBrng d u fun x => { x with frame := none }) (BRNG_STAT.SSIBUSY u) false
      if good then
        let v := x.bits % 2 ^ n
        let p : Word := BitVec.ofNat 36 (if gb d (BRNG_SSI.GRAY u) then grayDecode n v % 2 ^ n else v)
        let d1 := if listen then wr d0 (BRNG_STS.at u) x.stamp else d0
        let te := rd d1 (BRNG_STS.at u)
        let d2 := pb (setPos d1 u p) (BRNG_STAT.POS_VALID u) true
        let d3 := withBrng d2 u fun x => { x with edge := some (te, p), ref := if x.ref.isSome then x.ref else some (te, p) }
        completeSample (formVelocity d3 u te (fun a b => signed n (a - b).toNat)) u
      else
        let d1 := brngLoss (brngEvt (incF d0 (BRNG_ERRCNT.SSI u) 1) u 3) u false
        if listen then d1 else completeSample d1 u
  | _, _ => d

/-! ### The timeout of PERIOD mode (R231) -/

/-- No qualifying edge arrived within PTO × 1,024 tk. -/
def perLostDue (d : Dev) (u : Nat) : Bool :=
  let pto := gf d (BRNG_PCFG.PTO u)
  brngLive d u && brngMode d u == 4 && gb d (BRNG_STAT.PER_VALID u) && pto != 0 && (match (brngOf d u).per with
    | some (_, t) => decide (t + pto * 1024 < d.now)
    | none => false)

/-- PER_LOST: the period is measured anew from the next qualifying edge (log entry 31). -/
def perLost (d : Dev) (u : Nat) : Dev :=
  if perLostDue d u then
    brngEvt (withBrng (pb (pb d (BRNG_STAT.PER_VALID u) false) (BRNG_STAT.VEL_VALID u) false) u fun x => { x with per := none }) u 5
  else d

/-! ### Enable, PARK, writes (R223, R228, R234, R235) -/

/-- Samples and frames in progress end. -/
def brngDrop (d : Dev) (u : Nat) : Dev :=
  withBrng (pb { landDrop d (40 + u) (100 + u) with trigDue := d.trigDue.filter fun e => decide (e.1 ≠ 0x2000 + u) } (BRNG_STAT.SSIBUSY u) false) u
    fun x => { x with frame := none }

/-- The periodic samples count from this tick: enable, wake, or a change of the source or spacing (R229, log entry 32). -/
def brngPeriodic (d : Dev) (u : Nat) : Dev := withBrng d u fun x => { x with nextSample := d.now + gf d (BRNG_SPER.SPER u) }

/-- FOLIO_CTL.EN of a unit changed. -/
def brngEnable (d : Dev) (u : Nat) (en : Bool) : Dev :=
  if en then
    let d1 := brngPeriodic d u
    if brngCounts d u && decide (gf d (BRNG_CFG.ZMODE u) ≤ 1) then pb d1 (BRNG_STAT.POS_VALID u) true else d1
  else brngLoss (brngDrop d u) u false

/-- Entry to PARK (R228, R234). -/
def brngPark (d : Dev) (u : Nat) : Dev := brngLoss (brngDrop d u) u (brngCounts d u)

/-- A unit at reset, with its pins as the board holds them. -/
def BrngSt.pinsOnly (x : BrngSt) : BrngSt := { brngInit with pinA := x.pinA, pinB := x.pinB, pinZ := x.pinZ }

/-- The effect of a block reset before the registers return to their reset values. -/
def brngReset (d : Dev) (u : Nat) : Dev :=
  let d1 := brngLoss (brngDrop d u) u false
  withBrng d1 u BrngSt.pinsOnly

/-- Values that a BRNG register refuses with CFG_ERR (R223, R225, R227, R229-R232). -/
def badBrng (d : Dev) (u off : Nat) (v : Word) : Bool :=
  if off = 0x10 then gb d (FOLIO_CTL.EN (brngPage u)) || decide (5 ≤ fld v 2 0)
  else if off = 0x11 then decide (fld v 31 0 = 0)
  else if off = 0x15 then decide (8 ≤ fld v 15 12)
  else if off = 0x16 then decide (fld v 24 0 < 100 ∨ 16777216 < fld v 24 0)
  else if off = 0x17 then !f32Finite (v.setWidth 32)
  else if off = 0x18 then decide (fld v 23 0 < 16)
  else if off = 0x19 then
    gb d (FOLIO_CTL.EN (brngPage u)) || decide (fld v 35 28 < 50 ∨ 2 * fld v 35 28 ≤ fld v 27 20 ∨ fld v 5 0 = 0 ∨ 36 < fld v 5 0)
  else if off = 0x1A then decide (fld v 17 16 = 0)
  else if off = 0x1C ∨ off = 0x1D then decide (fld v 34 33 = 3)
  else false

/-- BRNG_STAT with the level of a clock output in its place (R224, R235). -/
def brngStat (d : Dev) (u : Nat) : Word :=
  if ssiMaster d u && brngOn d u then setBitW (rd d (BRNG_STAT.at u)) 7 (braOut d u) else rd d (BRNG_STAT.at u)

/-- A BRNG register written or applied. -/
def onBrng (d : Dev) (u off : Nat) (v : Word) : Dev :=
  if off = 0x13 then updateAngle d u
  else if off = 0x14 then posSet d u v
  else if off = 0x15 then brngPeriodic { d with trigDue := d.trigDue.filter fun e => decide (e.1 ≠ 0x2000 + u) } u
  else if off = 0x16 then brngPeriodic d u
  else d

end Sys2Proof.Machine
end

