-- ==== Sys2Proof/Machine/Twin.lean ====
section
/-!
DEFINITION. Twin operation (chapter 17, R389-R416): the Maelu link, its frames and replay, injection, mirroring, and what
the supervisor knows. Roles and takeover, which change SYS_MODE, are in Machine/TwinRole.lean.
-/
namespace Sys2Proof.Machine

def twinPage : Nat := 0x13
def twinEvt (d : Dev) (k : Nat) : Dev := raiseEvt d twinPage k
def withTwin (d : Dev) (f : TwinSt → TwinSt) : Dev := { d with twin := f d.twin }

def roleOf (d : Dev) : Nat := gf d TWIN_ROLE.ROLE
def sst (d : Dev) : Nat := gf d TWIN_STAT.SST
def linkIsUp (d : Dev) : Bool := gf d TWIN_LSTAT.LST == 2
def twinOn (d : Dev) : Bool := gb d (FOLIO_CTL.EN twinPage) && mode d != mStart && mode d != mPark
/-- DIVERGE of R401 is bit 10 of FOLIO_EVT.BLK (R416). -/
def diverged (d : Dev) : Bool := gbit d (FOLIO_EVT.BLK twinPage) 10
def diverge (d : Dev) : Dev := twinEvt d 10

/-! ### Ownership (R16, R390, R402, R409) -/

/-- The device asserts OWN_OUT (R402), or has released it less than 8 tk ago (R403). -/
def ownCond (d : Dev) : Bool :=
  decide (d.rstc.phase = .started) &&
    ((roleOf d == 0 && mode d == mRun) || (roleOf d == 1 && (mode d == mConfig || mode d == mRun || mode d == mRecovery))
      || sst d == 4 || d.twin.relAt.isSome) && mode d != mPark && !d.rstc.parkEntry && mode d != mStart

/-- Trip source 177 (R409). -/
def twinTrip (d : Dev) : Dev :=
  let t := gf d TWIN_SCFG.TSRC
  setLive d 177 ((t.testBit 0 && sst d == 3 && roleOf d == 1) || (t.testBit 1 && d.twin.splitTold) || (t.testBit 2 && sst d == 4))

/-- OWN_OUT follows its condition; pads and the split timer follow the wires (R16, R402, R409). -/
def ownUpdate (d : Dev) : Dev :=
  let d1 := pb d TWIN_STAT.OWNOUT (ownCond d)
  let both := gb d1 TWIN_STAT.OWNOUT && gb d1 TWIN_STAT.OWNIN
  let d2 := withTwin d1 fun x => { x with splitFrom := if both then (match x.splitFrom with | some t => some t | none => some d.now) else none
                                          splitTold := x.splitTold && both }
  allPadsFollow (twinTrip d2)

/-- OWN_OUT falls once its release is due (R403). -/
def ownTick (d : Dev) : Dev := match d.twin.relAt with
  | some t => if t ≤ d.now then ownUpdate (withTwin d fun x => { x with relAt := none }) else d
  | none => d

/-- SPLIT: OWN_OUT asserted with OWN_IN high for 1,000 tk (R409). -/
def splitDue (d : Dev) : Bool := !d.twin.splitTold && (match d.twin.splitFrom with
  | some t => decide (t + 1000 ≤ d.now)
  | none => false)
def split (d : Dev) : Dev := if splitDue d then twinTrip (twinEvt (withTwin d fun x => { x with splitTold := true }) 7) else d

/-! ### What the supervisor reports (R400, R405) -/

/-- Engines selected for mirroring (R396). -/
def engSelected (d : Dev) : List Nat := (upTo 64).filter fun e => gbit d (TWIN_ENGSEL.SEL (e / 32)) (e % 32)

/-- Every selected engine has received an ENGINE frame since STANDBY was entered (R405). -/
def engOk (d : Dev) : Bool := (engSelected d).all fun e => decide (e ∈ d.twin.engGot)

/-- Every Overlay table in use has been written completely since STANDBY was entered (R407). -/
def ovDone (d : Dev) (e : Nat) : Bool := tabGet 0 d.twin.ovGot e == 2 ^ ovN d e - 1
def ovFull (d : Dev) : Bool := (engSelected d).all fun e => !gb d (TRAV_OVCFG.EN e) || ovDone d e

/-- READY (R405). -/
def twinReady (d : Dev) : Bool :=
  roleOf d == 2 && mode d == mStandby && gb d MERID_STAT.LOCK && gb d MERID_STAT.CAL_OK && gb d TWIN_STAT.SLVHB
    && d.twin.heartActive && engOk d && gb d TWIN_STAT.ALIGN && !diverged d

/-- TWIN_STAT with its live READY, ENGOK and OVFULL. -/
def twinStat (d : Dev) : Word :=
  setBitW (setBitW (setBitW (rd d TWIN_STAT.at) 25 (twinReady d)) 22 (mode d == mStandby && engOk d)) 21 (mode d == mStandby && ovFull d)

/-- TWIN_HBAGE: ticks since the last good HEART, saturating. -/
def hbAge (d : Dev) : Word := match d.twin.hbAt with
  | none => 0xFFFFFFFF#36
  | some t => BitVec.ofNat 36 (min 0xFFFFFFFF (d.now - t))

/-- ALERT of Formes 0-15 (R117). -/
def alertBits (d : Dev) : Nat := (upTo 16).foldl (fun a f => a + (gb d (TRIPNET_FSTAT.ALERT f)).toNat * 2 ^ f) 0

/-- The HEART payload (R400). -/
def heartWords (d : Dev) (cyc : Word) : List Word :=
  let w := setFld (setFld (setFld 0 35 34 (roleOf d)) 33 30 (mode d)) 15 0 (alertBits d)
  [setBitW (setBitW (setBitW w 29 (twinReady d)) 28 (diverged d)) 27 (gb d MERID_STAT.SLAVE_OK), cyc]

/-! ### Takeover conditions (R404, R406) -/

/-- OWN_IN has been low for OWNFILT + 1 consecutive ticks. -/
def ownQuiet (d : Dev) : Bool := match d.twin.ownLowFrom with
  | some t => decide (t + gf d TWIN_SCFG.OWNFILT ≤ d.now)
  | none => false

/-- LINK or TIMEOUT, as a CAUSE code: the one that expiry recorded, else by what the link has been since the last good HEART
(R404, R406; log entry 184). -/
def lostCause (d : Dev) : Nat :=
  let c := gf d TWIN_STAT.CAUSE
  if c = 1 ∨ c = 2 then c else if d.twin.linkBad || !linkIsUp d then 2 else 1

/-- The first cause of R406 that applies, as a CAUSE code. -/
def takeoverCause (d : Dev) : Option Nat :=
  if d.twin.swReq then some 5
  else if sst d = 3 then some (lostCause d)
  else if gb d TWIN_SCFG.OWNTK && d.twin.ownFell then some 3
  else if d.twin.hbAt.isSome && gf d TWIN_STAT.PROLE != 1 then some 4
  else none

/-- Every condition of R406 but READY holds. -/
def takeoverMet (d : Dev) : Option Nat :=
  if twinOn d && roleOf d == 2 && mode d == mStandby && ownQuiet d && sst d != 4 then takeoverCause d else none

/-- The takeover is decided in this tick. -/
def takeoverDue (d : Dev) : Option Nat := (takeoverMet d).filter fun c => decide (c = 5) || twinReady d

/-- NOTREADY is raised once while every condition but READY holds (R406). -/
def notReadyCheck (d : Dev) : Dev :=
  match takeoverMet d with
  | none => if d.twin.notReadyTold then withTwin d fun x => { x with notReadyTold := false } else d
  | some c => if c ≠ 5 ∧ twinReady d = false ∧ d.twin.notReadyTold = false then twinEvt (withTwin d fun x => { x with notReadyTold := true }) 5 else d

/-- SST takes a value. -/
def setSst (d : Dev) (n : Nat) : Dev := twinTrip (pf d TWIN_STAT.SST n)

/-- WAIT begins: TO counts from entry (R404). Before any HEART, LINK_FAIL counts from entry too. -/
def sstWait (d : Dev) : Dev :=
  setSst (withTwin d fun x => { x with toFrom := d.now, linkBad := (x.hbAt.isSome && x.linkBad) || !linkIsUp d }) 1

/-- TO in ticks: 1-7 µs act as 8 (R404). -/
def toTicks (d : Dev) : Nat := 1000 * max 8 d.twin.toUs

/-- HEARTBEAT_TIMEOUT (R404, R406). -/
def heartbeatDue (d : Dev) : Bool := twinOn d && (sst d == 1 || sst d == 2) && decide (d.twin.toFrom + toTicks d ≤ d.now)
def heartbeatTimeout (d : Dev) : Dev :=
  if heartbeatDue d then
    let c := if d.twin.linkBad || !linkIsUp d then 2 else 1
    let d1 := twinEvt (setSst (pf d TWIN_STAT.CAUSE c) 3) 3
    notReadyCheck (if gb d TWIN_STAT.OWNIN then twinEvt d1 6 else d1)
  else d

/-- OWN_IN_CHANGE: the synchronised level of OWN_IN (R16, R390, R406); before option load it is not sampled (R475). -/
def ownInChange (d0 : Dev) (level : Bool) : Dev :=
  let d := { d0 with rstc := { d0.rstc with ownPin := level } }
  if gb d TWIN_STAT.OWNIN = level ∨ d.rstc.phase ≠ .started then d
  else
    let d1 := withTwin (pb d TWIN_STAT.OWNIN level) fun x => { x with
      ownLowFrom := if level then none else some d.now, ownFell := x.ownFell || !level }
    notReadyCheck (ownUpdate d1)

/-! ### Link state (R391, R394, R411) -/

/-- The PLL follows the peer only while ROLE is STANDBY and the link is UP (R411). -/
def twinFollow (d : Dev) : Dev :=
  let b := roleOf d == 2 && linkIsUp d && twinOn d
  if d.merid.peerFollow = b then d else setPeerFollow d b

/-- A DOWN link trains while it is enabled and no lane is held by a test facility (R391, R412). -/
def linkTrain (d : Dev) : Dev :=
  if twinOn d && gf d TWIN_LSTAT.LST == 0 && gf d TWIN_TEST.GEN == 0 && gf d TWIN_TEST.CHK == 0 then pf d TWIN_LSTAT.LST 1 else d

/-- The link goes DOWN: LINK_FAIL, frames in the replay buffer discarded; a lost FOLIO frame is a divergence (R391,
R394, R401). -/
def linkDown (d : Dev) : Dev :=
  if gf d TWIN_LSTAT.LST = 0 then d
  else
    let lost := d.twin.replay.any fun r => decide (r.frame.typ = 4)
    let d1 := pf (pf d TWIN_LSTAT.LST 0) TWIN_LSTAT.LOCK 0
    let d2 := withTwin d1 fun x => { x with
      replay := [], cycle := [], ackDue := false, nakDue := false, timeDue := false, linkBad := true, delayed := [], swap := none }
    let d3 := twinEvt (incF d2 TWIN_LCNT.FAIL 1) 1
    linkTrain (twinFollow (if lost then diverge d3 else d3))

/-- LANE_LOCK_LOSS (R391): the other lanes keep their lock until the link trains anew. -/
def laneLockLoss (d : Dev) (lane : Nat) : Dev :=
  if gf d TWIN_LSTAT.LST = 2 then linkDown d
  else pbit d TWIN_LSTAT.LOCK lane false

/-- LINK_UP: training ends with all lanes locked and deskewed (R391). -/
def linkUp (d : Dev) : Dev :=
  if gf d TWIN_LSTAT.LST = 1 ∧ twinOn d = true then
    let d1 := pf (pf d TWIN_LSTAT.LST 2) TWIN_LSTAT.LOCK 0xF
    twinFollow (twinEvt (withTwin d1 fun x => { x with
      txSeq := 0, rxSeq := 255, gap := false, ackDue := false, nakDue := false, replay := [], cycOk := true, nextTime := d.now + 100000 }) 0)
  else d

/-- Length and second tap of the pseudo-random pattern that PAT selects: PRBS7, 15, 23, 31 (R412; log entry 187). -/
def prbsTaps (pat : Nat) : Nat × Nat := if pat = 0 then (7, 6) else if pat = 1 then (15, 14) else if pat = 2 then (23, 18) else (31, 28)

/-- The next `k` bits of the pattern from a register state. -/
def prbsBits (len tap : Nat) : Nat → Nat → List Bool
  | 0, _ => []
  | k + 1, r =>
    let b := r.testBit (len - 1) != r.testBit (tap - 1)
    b :: prbsBits len tap k ((r * 2 + b.toNat) % 2 ^ len)

/-- The first 16 octets of a lane's pattern, from the register of all ones. -/
def prbsOctets (pat : Nat) : List (BitVec 8) :=
  let bs := prbsBits (prbsTaps pat).1 (prbsTaps pat).2 128 (2 ^ (prbsTaps pat).1 - 1)
  (upTo 16).map fun i => BitVec.ofNat 8 ((upTo 8).foldl (fun n j => 2 * n + (bs.getD (8 * i + j) false).toNat) 0)

/-- What a lane sends under TWIN_TEST. -/
def prbsLane (d : Dev) (n : Nat) : List (BitVec 8) :=
  if gbit d TWIN_TEST.GEN n then prbsOctets (fld (rd d TWIN_TEST.at) (9 + 2 * n) (8 + 2 * n)) else []

/-- TWIN_TEST written: lanes held by PRBS take the link DOWN, a sending one carries its pattern; freed, it trains (R412). -/
def onTest (d : Dev) : Dev :=
  let held := fld (rd d TWIN_TEST.at) 3 0 ||| fld (rd d TWIN_TEST.at) 7 4
  let d1 := withTwin (pf d TWIN_LSTAT.TEST held) fun x =>
    if held = 0 then x
    else { x with lastTx := [], lanes := (upTo 4).map (prbsLane d) }
  if held ≠ 0 then pf (linkDown d1) TWIN_LSTAT.LST 0 else linkTrain d1

/-- PRBS_CHECKER_SYNC: a checking lane has received 32 bits without error; once in SYNC it counts errors (R412). -/
def prbsCheck (d : Dev) (lane errors : Nat) : Dev :=
  if gbit d TWIN_TEST.CHK lane then
    (if gb d (TWIN_PRBS.SYNC lane) then incF d (TWIN_PRBS.ERR lane) errors else pb d (TWIN_PRBS.SYNC lane) true)
  else d

/-! ### Receiving frames (R393, R394) -/

/-- Replay entries that an ASEQ covers are released. -/
def ackUpTo (d : Dev) (aseq : Nat) : Dev :=
  if d.twin.replay.any fun r => decide (r.seq = aseq) then
    withTwin d fun x => { x with replay := (x.replay.dropWhile fun r => decide (r.seq ≠ aseq)).drop 1 }
  else d

/-- A gap: one NAK is sent for it. -/
def gapFound (d : Dev) : Dev :=
  if d.twin.gap then d else withTwin d fun x => { x with gap := true, nakDue := true }

/-- A sequenced frame arrives: whether it is delivered. -/
def receive (d : Dev) (seq aseq : Nat) (lenOk : Bool) : Dev × Bool :=
  if !linkIsUp d || !twinOn d then (d, false)
  else if !lenOk then (gapFound d, false)
  else
    let d1 := ackUpTo d aseq
    if seq = (d.twin.rxSeq + 1) % 256 then
      (withTwin d1 fun x => { x with rxSeq := seq, gap := false, ackDue := true }, sst d != 4)
    else (gapFound d1, false)

/-- BAD_FRAME: a bad frame, or a good one out of order with its ASEQ. -/
def badFrame (d : Dev) (aseq : Option Nat) : Dev :=
  if !linkIsUp d || !twinOn d then d
  else gapFound (match aseq with
    | some a => ackUpTo d a
    | none => d)

def ackFrame (d : Dev) (aseq : Nat) : Dev := if linkIsUp d && twinOn d then ackUpTo d aseq else d

/-- NAK_FRAME: retransmission in order from the frame after ASEQ (R394). -/
def nakFrame (d : Dev) (aseq : Nat) : Dev :=
  if linkIsUp d && twinOn d then
    withTwin (ackUpTo d aseq) fun x => { x with replay := x.replay.map fun r => { r with again := decide (r.tries < 3) } }
  else d

/-- REPLAY_TIMEOUT: the oldest frame is unacknowledged 750 tk after its last transmission (R394). -/
def replayDue (d : Dev) : Bool := linkIsUp d && (match d.twin.replay with
  | r :: _ => !r.again && decide (r.sentAt + 750 ≤ d.now)
  | [] => false)
def replayTimeout (d : Dev) : Dev :=
  if replayDue d then
    match d.twin.replay with
    | r :: _ => if 3 ≤ r.tries then linkDown d
      else withTwin d fun x => { x with replay := x.replay.map fun y => { y with again := decide (y.tries < 3) } }
    | [] => d
  else d

/-- HEART_FRAME delivered (R400, R401, R404). -/
def heartIn (d : Dev) (w0 : Word) : Dev :=
  let alert := fld w0 15 0
  let rise := alert &&& (0xFFFF - d.twin.peerAlert)
  let d1 := withTwin d fun x => { x with
    hbAt := some d.now, toFrom := d.now, toUs := gf d TWIN_TIMEOUT.TO, linkBad := false, ownFell := false, peerAlert := alert
    heartActive := x.heartActive || (mode d == mStandby && decide (fld w0 35 34 = 1)) }
  let d2 := pb (pb (pf d1 TWIN_STAT.PROLE (fld w0 35 34)) TWIN_STAT.PREADY (bit w0 29)) TWIN_STAT.SLVHB (gb d MERID_STAT.SLAVE_OK)
  let d3 := if rise = 0 then d2 else twinEvt (pf d2 TWIN_STAT.PALERT (gf d2 TWIN_STAT.PALERT ||| rise)) 8
  let d4 := if bit w0 28 then diverge d3 else d3
  notReadyCheck (if sst d4 = 1 ∨ sst d4 = 3 then setSst d4 2 else d4)

def heartFrame (d : Dev) (seq aseq : Nat) (w0 : Word) : Dev :=
  match receive d seq aseq true with
  | (d1, true) => heartIn d1 w0
  | (d1, false) => d1

/-- The device applies mirrored state (R399). -/
def mirrors (d : Dev) : Bool := roleOf d == 2 && (mode d == mStandby || mode d == mConfig)

/-- State words 0x60-0x7F of an engine replaced; its state follows ST_FLAGS without the actions of R187 (R399). -/
def replaceStw (d : Dev) (e : Nat) (ws : List Word) : Dev :=
  let w := fun k => ws.getD k 0
  let d1 := forUpTo 16 (fun k d => if k = 6 ∨ k = 8 ∨ k = 9 ∨ k = 0xA then d else setStw d e k (w k)) d
  let f := w 6
  let st := setFld (setBitW (setBitW (setBitW (setFld (rd d1 (TRAV_STAT.at e)) 1 0 (fld f 1 0)) 18 (bit f 2)) 16 (bit f 3)) 17 (bit f 4)) 23 21 (fld f 7 5)
  let d2 := wr d1 (TRAV_STAT.at e) st
  let d3 := withTrav (pf d2 (TRAV_FECNT.CNT e) (fld (w 8) 31 0)) e fun t => { t with feAt := d.now }
  let d4 := wr d3 (TRAV_FESTAT.at e) (setFld (rd d3 (TRAV_FESTAT.at e)) 2 0 (fld (w 9) 2 0))
  let o := w 0xA
  let ov := setFld (setBitW (setFld (rd d4 (TRAV_OVSTAT.at e)) 2 0 (fld o 2 0)) 4 (bit o 3)) 15 8 (fld o 11 4)
  feSource (withTrav (wr d4 (TRAV_OVSTAT.at e) ov) e fun t => { t with prevAct := bit o 12, phValid := bit o 13 }) e

/-- Between two updates the engine takes state words that wait for it (R399). -/
def takeEngine (d : Dev) (e : Nat) : Dev :=
  match tabFind d.twin.engPend e with
  | none => d
  | some ws =>
    if (travOf d e).upd.isSome then d
    else replaceStw (withTwin d fun x => { x with engPend := tabErase x.engPend e }) e ws

def engineFrame (d : Dev) (seq aseq e : Nat) (ws : List Word) : Dev :=
  match receive d seq aseq (ws.length == 32) with
  | (d1, true) => if mirrors d1 then
      takeEngine (withTwin d1 fun x => { x with engPend := tabPut x.engPend e ws
                                                engGot := if mode d = mStandby ∧ e ∉ x.engGot then e :: x.engGot else x.engGot }) e
    else d1
  | (d1, false) => d1

/-- BTS lies within ±4 tk of a boundary of the device's own Forme (R399). -/
def alignedBts (d : Dev) (f : Nat) (bts : Word) : Bool :=
  let x := formeOf d f
  let p := formeD x
  let own := shortTs d + BitVec.ofNat 36 x.nextB - BitVec.ofNat 36 d.now
  let m := ((bts - own).toInt % (p : Int)).toNat
  counting d f && p != 0 && (decide (m ≤ 4) || decide (p ≤ m + 4))

def formeFrame (d : Dev) (seq aseq f : Nat) (ws : List Word) : Dev :=
  match receive d seq aseq (ws.length == 5) with
  | (d1, true) => if mirrors d1 then
      let ok := alignedBts d1 f (ws.getD 0 0)
      let d2 := withTwin d1 fun x => { x with gactPend := tabPut x.gactPend f (ws.drop 1), cycOk := x.cycOk && ok }
      if ok then d2 else notReadyCheck (twinEvt (pb d2 TWIN_STAT.ALIGN false) 11)
    else d1
  | (d1, false) => d1

/-- At a boundary the Forme takes the GACT values that wait for it (R399). -/
def takeGact (d : Dev) (f : Nat) : Dev :=
  match tabFind d.twin.gactPend f with
  | none => d
  | some ws => forUpTo 4 (fun n d => wr d (FORME_GACT.at f n) (ws.getD n 0)) (withTwin d fun x => { x with gactPend := tabErase x.gactPend f })

/-- END: the cycle number, and ALIGN of the cycle that is complete (R399). -/
def endFrame (d : Dev) (seq aseq : Nat) (cyc : Word) : Dev :=
  match receive d seq aseq true with
  | (d1, true) => if mirrors d1 then
      notReadyCheck (withTwin (pb (wr d1 TWIN_MCYC.at cyc) TWIN_STAT.ALIGN d1.twin.cycOk) fun x => { x with cycOk := true })
    else d1
  | (d1, false) => d1

/-- The round trip that a TIME frame shows: word 1 tells the receipt of the newest of this device's frames for which the peer's
stay is no longer than the whole; none: no frame of this device has been received yet (log entry 40). -/
def roundTrip (now w0 w1 : Word) : List Word → Option Nat
  | [] => none
  | t :: ts => if w1 = 0 then none else if (w0 - w1).toNat ≤ (now - t).toNat then some ((now - t).toNat - (w0 - w1).toNat) else roundTrip now w0 w1 ts

/-- TIME_FRAME: the delay is half of the round trip, and the offset from the peer's counter follows (R30, R411; log
entry 40): word 0 is the peer's sending, word 1 its receipt of this device's last TIME frame. -/
def timeFrame (d : Dev) (aseq : Nat) (w0 w1 : Word) : Dev :=
  if !linkIsUp d || !twinOn d then d
  else
    let d1 := ackUpTo d aseq
    let now := shortTs d
    let dl := match roundTrip now w0 w1 d.twin.timeSent with
      | some t => t / 2
      | none => d.twin.delay
    let d2 := withTwin d1 fun x => { x with timePeer := w0, timeRecv := now, delay := dl }
    if d.merid.peerFollow && peerChosen (rd d MERID_CTL.at) then setSlaveOk d2 (decide ((now - w0 - BitVec.ofNat 36 dl).toInt.natAbs ≤ 2)) else d2

/-- TIME_FRAME_SEND: every 100 µs a TIME frame is due (R411). -/
def timeSendDue (d : Dev) : Bool := linkIsUp d && twinOn d && decide (d.twin.nextTime ≤ d.now)
def timeFrameSend (d : Dev) : Dev :=
  if timeSendDue d then withTwin d fun x => { x with timeDue := true, nextTime := d.now + 100000 } else d

/-! ### Sending (R392, R394-R398, R413) -/

/-- CRC-16 over `n` bits of a word from bit `n - 1` down (R392). -/
def crcBits (w : Nat) : Nat → Nat → Nat
  | 0, c => c
  | n + 1, c =>
    let fb := (w.testBit n) != c.testBit 15
    crcBits w n ((c * 2 % 65536) ^^^ (if fb then 0x1021 else 0))

/-- Whether a TYPE is sequenced (R392). -/
def sequenced (typ : Nat) : Bool := decide (3 ≤ typ ∧ typ ≤ 9)

/-- The words of a frame on the lanes; `mask` is XORed into H0 after the CRC was formed (R413). -/
def frameWords (f : TwinFrame) (seq aseq : Nat) (mask : Word) : List Word :=
  let h0 := setFld (setFld (setFld (setFld 0 35 32 f.typ) 31 24 seq) 23 16 aseq) 15 7 f.payload.length
  let h1 := setFld 0 35 16 f.param
  let crc := crcBits (fld h1 35 16) 20 (crcBits h0.toNat 36 0xFFFF)
  (h0 ^^^ mask) :: setFld h1 15 0 crc :: f.payload

/-- The octets of a frame: each pair of words as nine, most significant first; an odd last word padded with four zero bits
(R392; log entry 185). -/
def maeluOctets : List Word → List (BitVec 8)
  | a :: b :: t =>
    let n := a.toNat * 2 ^ 36 + b.toNat
    (upTo 9).map (fun i => BitVec.ofNat 8 (n / 256 ^ (8 - i))) ++ maeluOctets t
  | [a] => (upTo 5).map fun i => BitVec.ofNat 8 (a.toNat * 16 / 256 ^ (4 - i))
  | [] => []

/-- What lane `n` carries of octets striped over lanes 0-3 in turn (R392). -/
def laneOctets (n : Nat) (os : List (BitVec 8)) : List (BitVec 8) := ((upTo os.length).filter fun i => decide (i % 4 = n)).map fun i => os.getD i 0

/-- Frames are put on the lanes. -/
def sendFrames (d : Dev) (fs : List (List Word)) : Dev :=
  let os := fs.flatMap maeluOctets
  withTwin d fun x => { x with lastTx := fs, lanes := (upTo 4).map fun n => laneOctets n os }

/-- Injection acts on the sequenced frame about to be sent (R413): KIND, or 0. -/
def injectNow (d : Dev) (retx : Bool) : Nat :=
  let n := gf d TWIN_INJ.COUNT
  if gf d TWIN_INJ.KIND = 0 ∨ (retx = true ∧ gb d TWIN_INJ.RETX = false) ∨ d.twin.injPassed < gf d TWIN_INJ.SKIP
      ∨ (n ≠ 0 ∧ n ≤ d.twin.injDone) then 0
  else gf d TWIN_INJ.KIND

/-- The injection counters after a sequenced frame. -/
def injectCount (d : Dev) (retx : Bool) (kind : Nat) : Dev :=
  if gf d TWIN_INJ.KIND = 0 ∨ (retx = true ∧ gb d TWIN_INJ.RETX = false) then d
  else withTwin d fun x => if kind = 0 then { x with injPassed := x.injPassed + 1 } else { x with injDone := x.injDone + 1 }

/-- Words of a sequenced frame put on the lanes, with a frame that was held for a swap behind them. -/
def putOnLanes (d : Dev) (w : List Word) : Dev :=
  match d.twin.swap with
  | some h => sendFrames (withTwin d fun x => { x with swap := none }) [w, h]
  | none => sendFrames d [w]

/-- A sequenced frame with its SEQ is transmitted under injection. -/
def transmit (d : Dev) (f : TwinFrame) (seq : Nat) (retx : Bool) : Dev :=
  let kind := injectNow d retx
  let a := d.twin.rxSeq
  let held := injectCount d retx kind
  -- the acknowledgement is paid by a frame that goes out now (R393)
  let d0 := withTwin held fun x => { x with ackDue := false }
  let m := rd d TWIN_INJMASK.at
  let plain := frameWords f seq a 0
  match kind with
  | 1 => sendFrames held []
  | 2 => putOnLanes d0 (frameWords f seq a m)
  | 3 =>
    let k := gf d TWIN_INJ.PIDX
    putOnLanes d0 (frameWords { f with payload := f.payload.set k (f.payload.getD k 0 ^^^ m) } seq a 0)
  | 4 => if d.twin.swap.isSome then putOnLanes d0 plain else sendFrames (withTwin held fun x => { x with swap := some plain }) []
  | 5 =>
    let t := d.now + 16 * gf d TWIN_INJ.DLY
    sendFrames (withTwin held fun x => { x with
      delayed := x.delayed ++ [(t, seq, plain)]
      replay := x.replay.map fun r => if r.seq = seq then { r with sentAt := t } else r }) []
  | _ => putOnLanes d0 plain

/-- A new sequenced frame: it stays in the replay buffer until an ASEQ covers it (R394). -/
def sendNew (d : Dev) (f : TwinFrame) : Dev :=
  let seq := d.twin.txSeq
  transmit (withTwin d fun x => { x with txSeq := (seq + 1) % 256, replay := x.replay ++ [⟨f, seq, d.now, 0, false⟩] }) f seq false

/-- An unsequenced frame. -/
def sendPlain (d : Dev) (typ : Nat) (ws : List Word) : Dev :=
  sendFrames (withTwin d fun x => { x with ackDue := false }) [frameWords ⟨typ, 0, ws⟩ 0 d.twin.rxSeq 0]

/-- A retransmission (R394). -/
def sendAgain (d : Dev) (r : ReplayEntry) : Dev :=
  let d1 := withTwin d fun x => { x with replay := x.replay.map fun y => if y.seq = r.seq then { y with again := false, tries := y.tries + 1, sentAt := d.now } else y }
  transmit (twinEvt (incF d1 TWIN_LCNT.RETX 1) 2) r.frame r.seq true

/-- Content of a mirror frame that was not captured before (R397): an engine between two updates; Overlay points and
memory words are read when they are sent. -/
def mirrorContent (m : MirrorItem) (s : State) : State × Option TwinFrame :=
  let d := s.dev
  match m.payload with
  | some ws => (s, some ⟨m.typ, m.idx, ws⟩)
  | none =>
    if m.typ = 5 then (s, if (travOf d m.idx).upd.isSome then none else some ⟨5, m.idx, (upTo 32).map (readStw d m.idx)⟩)
    else if m.typ = 7 then
      let k0 := tabGet 0 d.twin.k0 m.idx
      let n := ovN d m.idx
      let (s1, ws) := (upTo 32).foldl (fun (a : State × List Word) i =>
        match memLoad (.cluster ⟨m.idx / 4 % 16, Nat.mod_lt _ (by decide)⟩) true (ovAddr m.idx ((k0 + i) % n)) a.1 with
        | (t, .ok w) => (t, a.2 ++ [w])
        | (t, _) => let (d, w) := takeFree t.dev; (setDev t d, a.2 ++ [w])) (s, [])
      (setDev s1 (withTwin s1.dev fun x => { x with k0 := tabSet 0 x.k0 m.idx ((k0 + 32) % n) }), some ⟨7, k0 * 1024 + m.idx, ws⟩)
    else if m.typ = 8 then
      let base := m.base
      let (d1, granted) := reqTag d 38 (0x4000000 + base)
      if !granted then (setDev s d1, none) else
      let (s1, ws) := (upTo (min 256 m.len)).foldl (fun (a : State × List Word) i =>
        match memLoad .maelu true (0x4000000 + base + i) a.1 with
        | (t, .ok w) => (t, a.2 ++ [w])
        | (t, _) => let (d, w) := takeFree t.dev; (setDev t d, a.2 ++ [w])) (setDev s d1, [])
      (s1, some ⟨8, base, ws⟩)
    else (s, none)

/-- An unsequenced frame that is due: NAK, ACK where no other frame is to carry ASEQ, TIME (R395; log entry 108). -/
def sendUrgent (alone : Bool) (d : Dev) : Option Dev :=
  if d.twin.nakDue then some (incF (sendPlain (withTwin d fun x => { x with nakDue := false }) 2 []) TWIN_LCNT.NAK 1)
  else if d.twin.ackDue && alone then some (sendPlain d 1 [])
  else if d.twin.timeDue then
    some (sendPlain (withTwin d fun x => { x with timeDue := false, timeSent := shortTs d :: x.timeSent.take 3 }) 0xA [shortTs d, d.twin.timeRecv])
  else none

/-- FRAME_SEND: the next frame by R395: a delayed one that is due, NAK, ACK, TIME, retransmissions, FOLIO, mirror cycle.
While a frame is held by DELAY no later sequenced frame passes it. -/
def frameSend (s : State) : State :=
  let d := s.dev
  if !linkIsUp d || !twinOn d then s
  else match d.twin.delayed with
  | (t, seq, w) :: rest =>
    if t ≤ d.now then setDev s (putOnLanes (withTwin d fun x => { x with
        delayed := rest, replay := x.replay.map fun r => if r.seq = seq then { r with sentAt := d.now } else r }) w)
    else setDev s ((sendUrgent true d).getD d)
  | [] =>
    let ackOr := fun (s : State) => if s.dev.twin.ackDue then setDev s (sendPlain s.dev 1 []) else s
    match sendUrgent (d.twin.cycle.isEmpty && d.twin.fwd.isEmpty) d with
    | some d1 => setDev s d1
    | none => match d.twin.replay.find? fun r => r.again with
    | some r => setDev s (sendAgain d r)
    | none =>
      if d.twin.replay.length ≥ 32 then ackOr s
      else if d.twin.fwd ≠ [] then
        let es := d.twin.fwd.take 128
        setDev s (sendNew (withTwin d fun x => { x with fwd := x.fwd.drop 128 }) ⟨4, 0, es.flatMap fun e => [e.1, e.2]⟩)
      else match d.twin.cycle with
      | [] => s
      | m :: rest =>
        match mirrorContent m s with
        | (s1, none) => ackOr s1
        | (s1, some f) =>
          let d1 := withTwin s1.dev fun x => { x with cycle := rest }
          let d2 := if f.typ = 9 then wr d1 TWIN_MCYC.at (f.payload.getD 0 0) else d1
          setDev s1 (sendNew d2 f)

/-! ### Mirror cycles (R396, R397) and forwarding (R398) -/

/-- A change of the forwarded pages applies at A (R396). -/
def takePages (d : Dev) : Dev :=
  withTwin d fun x => { x with pageSel := (upTo 4).foldl (fun t w => tabSet 0 t w (rd d (TWIN_PAGESEL.at w))) [] }

/-- At the application tick of the mirror group: HEART, and a mirror cycle of an active device. Without mirroring, the
Overlay points start again at 0 (R397). -/
def mirrorFire (d0 : Dev) (g : Nat) : Dev :=
  let d := if g = gf d0 TWIN_MCFG.GRP then takePages d0 else d0
  if g ≠ gf d TWIN_MCFG.GRP ∨ linkIsUp d = false ∨ twinOn d = false then d
  else
    let want := gb d TWIN_MCFG.MEN && roleOf d == 1 && (mode d == mConfig || mode d == mRun)
    let still := d.twin.cycle.any fun m => decide (m.typ ≠ 3)
    let cyc := if want && !still then rd d TWIN_MCYC.at + 1 else rd d TWIN_MCYC.at
    let heart : MirrorItem := ⟨3, 0, some (heartWords d cyc), 0, 0⟩
    -- the HEART goes behind those that still wait, before every other frame
    let beat := d.twin.cycle.takeWhile (fun m => decide (m.typ = 3)) ++ [heart]
    let rest := d.twin.cycle.dropWhile fun m => decide (m.typ = 3)
    if want && still then
      twinEvt (incF (withTwin d fun x => { x with cycle := beat ++ rest }) TWIN_MCNT.SKIP 1) 12
    else if want then
      let eng := (engSelected d).map fun e => (⟨5, e, if (travOf d e).upd.isSome then none else some ((upTo 32).map (readStw d e)), 0, 0⟩ : MirrorItem)
      let frm := ((upTo 16).filter fun f => gbit d TWIN_FMSEL.SEL f).map fun f => (⟨6, f, none, 0, 0⟩ : MirrorItem)
      let ov := if gb d TWIN_MCFG.OEN then ((engSelected d).filter fun e => gb d (TRAV_OVCFG.EN e)).map fun e => (⟨7, e, none, 0, 0⟩ : MirrorItem) else []
      let mem := ((upTo 4).filter fun w => decide (gf d (TWIN_MEM.LEN w) ≠ 0)).map fun w => (⟨8, w, none, gf d (TWIN_MEM.BASE w), gf d (TWIN_MEM.LEN w)⟩ : MirrorItem)
      withTwin d fun x => { x with cycle := beat ++ eng ++ frm ++ ov ++ mem ++ [⟨9, 0, some [cyc], 0, 0⟩] }
    else withTwin d fun x => { x with cycle := beat ++ rest, k0 := if want then x.k0 else [] }

/-- An update boundary of an engine, or a boundary of a Forme, captures what the cycle still needs (R397). -/
def captureItem (d : Dev) (typ idx : Nat) (ws : List Word) : Dev :=
  if d.twin.cycle.any fun m => decide (m.typ = typ ∧ m.idx = idx ∧ m.payload = none) then
    withTwin d fun x => { x with cycle := x.cycle.map fun m => if m.typ = typ ∧ m.idx = idx ∧ m.payload = none then { m with payload := some ws } else m }
  else d
def captureEngine (d : Dev) (e : Nat) : Dev := if (travOf d e).upd.isSome then d else captureItem d 5 e ((upTo 32).map (readStw d e))
def captureForme (d : Dev) (f : Nat) : Dev := captureItem d 6 f (shortTs d :: (upTo 4).map fun n => rd d (FORME_GACT.at f n))

/-- The page is selected for forwarding, by the selectors of the last A (R396, R398). -/
def pageForwarded (d : Dev) (page : Nat) : Bool :=
  decide (0x40 ≤ page ∧ page < 0xD0) && bit (tabGet 0 d.twin.pageSel ((page - 0x40) / 36)) ((page - 0x40) % 36)

/-- WO bits of a register, forwarded as 0; none where every field is WO or W1C (R398). -/
def forwardMask (page off : Nat) : Option Word :=
  match regAt page (off % 0x80) with
  | some (r, _) =>
    if r.fields.all fun f => decide (f.acc = .wo ∨ f.acc = .w1c) then none
    else some (r.fields.foldl (fun m f => if f.acc = .wo then m ||| maskOf f.hi f.lo else m) 0)
  | none => none

/-- A write that a page accepted is forwarded to the standby (R398). A complement is forwarded with its WO bits as ones. -/
def forwardWrite (d : Dev) (ini : Initiator) (page off : Nat) (v : Word) : Dev :=
  if ini = .maelu ∨ gb d TWIN_MCFG.FEN = false ∨ roleOf d ≠ 1 ∨ pageForwarded d page = false then d
  else if off % 0x80 = 5 ∨ off % 0x80 = 7 then d
  else if off % 0x80 = 3 ∧ (if off < 0x80 then bit v 1 else !bit v 1) then d
  else match blockOf page with
  | some (.forme, _) => if off = FORME_RUN.at 0 % 256 then d else go
  | some (.trav, _) => if (TRAV_LAT.at 0 0 % 256 ≤ off ∧ off < TRAV_LAT.at 0 4 % 256) ∨ (TRAV_STW.at 0 0 % 256 ≤ off ∧ off < 0x80) then d else go
  | some _ => go
  | none => d
where
  go : Dev := match forwardMask page off with
    | none => d
    | some m =>
      let w := if off < 0x80 then v &&& ~~~m else v ||| m
      withTwin d fun x => { x with fwd := x.fwd ++ [(BitVec.ofNat 36 (page * 256 + off), w)] }

/-! ### Registers and modes (R412-R416) -/

/-- Writes of TWIN registers that are discarded with CFG_ERR (R413, R415). -/
def badTwin (off : Nat) (v : Word) : Bool :=
  if off = 0x12 then decide (fld v 13 0 = 0 ∨ 10000 < fld v 13 0)
  else if 0x18 ≤ off ∧ off < 0x1C then (upTo 36).any fun b => bit v b && (blockOf (0x40 + 36 * (off - 0x18) + b)).isNone
  else if 0x1C ≤ off ∧ off < 0x20 then decide (fld v 35 16 % 8 ≠ 0 ∨ 256 < fld v 8 0)
  else if off = 0x26 then decide (6 ≤ fld v 35 33)
  else false

/-- TEST, INJ and INJMASK are mode-locked outside CONFIG while debug is locked (R412). -/
def lockTwin (d : Dev) (off : Nat) : Bool :=
  decide (off = 0x21 ∨ off = 0x26 ∨ off = 0x27) && mode d != mConfig && !gb d SEC_STAT.DBGUNL

/-- A TWIN register written, TWIN_ROLE apart (Machine/TwinRole.lean). -/
def onTwin (d : Dev) (off : Nat) : Dev :=
  if off = 0x11 then notReadyCheck (twinTrip d)
  else if off = 0x21 then onTest d
  else if off = 0x26 then withTwin d fun x => { x with injPassed := 0, injDone := 0 }
  else d

/-- W1C of bit 10 of FOLIO_EVT.BLK has cleared DIVERGE: readiness is judged anew (R401). -/
def onDiverge (d : Dev) : Dev := notReadyCheck d

/-- SYS_MODE has changed from `old` (R412, R414): leaving CONFIG clears the test registers and the link
retrains; PARK and START take the link
DOWN; entering STANDBY begins readiness anew. -/
def twinMode (d : Dev) (old : Nat) : Dev :=
  let d1 := if old = mConfig ∧ mode d ≠ mConfig ∧ gb d SEC_STAT.DBGUNL = false then
      linkDown (pf (wr (wr (wr d TWIN_TEST.at 0) TWIN_INJ.at 0) TWIN_INJMASK.at 0) TWIN_LSTAT.TEST 0)
    else d
  let d2 := if mode d = mPark ∨ mode d = mStart then pf (linkDown d1) TWIN_LSTAT.LST 0 else linkTrain d1
  let d3 := if mode d = mStandby ∧ old ≠ mStandby then
      withTwin d2 fun x => { x with heartActive := false, engGot := [], ovGot := [], notReadyTold := false }
    else d2
  let d4 := if old = mPark ∧ (sst d3 = 1 ∨ sst d3 = 2) then withTwin d3 fun x => { x with toFrom := d.now } else d3
  let d5 := if mode d4 = mStandby then d4 else withTwin d4 fun x => { x with swReq := false }
  notReadyCheck (twinFollow (ownUpdate d5))

/-- FOLIO_CTL.EN of the TWIN folio: off, the link is DOWN; ROLE becomes SOLO in Machine/TwinRole.lean. -/
def twinEnable (d : Dev) (en : Bool) : Dev := if en then linkTrain d else pf (linkDown d) TWIN_LSTAT.LST 0

end Sys2Proof.Machine
end

