-- ==== Sys2Proof/Machine/Modes.lean ====
section
/-!
DEFINITION. Operating modes (R18-R20, R472-R474): the transition table, what each block does at a change of SYS_MODE,
PARK entry and wake, and the transitions that hardware makes (loss of lock R23, vote policy R68, R71).
-/
namespace Sys2Proof.Machine

/-- RUN is open to software (R472): from CONFIG, and from RECOVERY alike. -/
def runOk (d : Dev) : Bool :=
  gb d MERID_STAT.LOCK && gb d MERID_STAT.CAL_OK && gb d PACE_STAT.HELD && roleOf d != 2

/-- The condition of a software transition to mode `m` that is not in force (R472). -/
def softOk (d : Dev) (m : Nat) : Bool :=
  let o := mode d
  if o = mStart ∨ o = mPark then false
  else if m = mConfig then true
  else if m = mRun then (o == mConfig || o == mRecovery) && runOk d
  else if m = mStandby then roleOf d == 2 && (o != mConfig || gb d (FOLIO_CTL.EN twinPage))
  else decide (m = mRecovery ∨ m = mPark)

/-- SYS_MODE and SYS_STAT take a transition; source 2034 pulses (R472, R478). -/
def modeTake (d : Dev) (m why : Nat) : Dev :=
  raiseEvt (pf (pf (pf (pf d SYS_MODE.MODE m) SYS_STAT.MODE m) SYS_STAT.PREV (mode d)) SYS_STAT.WHY why) 0 0

/-- Units that start again where conversion, sampling and timers are allowed: after START and after PARK (R94, R111, R229,
R318). -/
def blocksResume (d : Dev) : Dev :=
  let d1 := forUpTo 24 (fun u d => if gb d (FOLIO_CTL.EN (survPage u)) then survWake d u else d) d
  let d2 := forUpTo 4 (fun g d =>
    let d1 := if gb d (FOLIO_CTL.EN (sdfPage (4 * g))) then fdGroup (sdfWake d g) g else d
    if gb d1 (FOLIO_CTL.EN (contPage g)) then contEnable d1 g true else d1) d1
  let d3 := forUpTo 16 (fun u d => if gb d (FOLIO_CTL.EN (brngPage u)) then brngPeriodic d u else d) d2
  forUpTo 8 (fun c d => restartTimers d c) d3

/-- RECOVERY entry: guard gutters, engines to HOLD, release under RECREL (R157, R190, R403). -/
def enterRecovery (d : Dev) : Dev :=
  let d1 := forUpTo 64 (fun e d => travRecovery d e) (guardRecovery d)
  if roleOf d1 = 1 ∧ gb d1 TWIN_SCFG.RECREL then twinEvt (pf (pf d1 TWIN_ROLE.ROLE 2) TWIN_STAT.ROLE 2) 9 else d1

/-- The first stage of PARK entry (R474): power pins safe and OWN_OUT low, Formes stop (R149), engines follow (R199). Then a
flash operation in progress, the cores and the outstanding tags complete before SYS_MODE becomes PARK (R260, R361, R440). -/
def parkBegin (s : State) : State :=
  let d := ownUpdate { s.dev with rstc := { s.dev.rstc with parkEntry := true } }
  forUpTo 64 (fun e s => travPark e s) (setDev s (forUpTo 16 (fun f d => formePark d f) (firesPark d)))

/-- What PARK entry does to the other blocks (R28, R41, R46, R94, R127, R228, R318, R334, R498). -/
def enterPark (s : State) : State :=
  let s2 := parkBegin s
  let d3 := forUpTo 24 (fun u d => survStop d u) s2.dev
  let d4 := noMeasAll (forUpTo 4 (fun g d => contEnable (fdGroup (sdfEnable d g false) g) g false) d3)
  let d5 := forUpTo 16 (fun u d => brngPark d u) d4
  let d6 := forUpTo 8 (fun c d => withCore d c fun k => { k with timers := [] }) d5
  let d7 := withMerid (pb d6 MERID_STAT.CAL_OK false) fun m => { m with linesDone := [] }
  let d8 := lowerTo (withPace (pb d7 PACE_STAT.HELD false) fun p => { p with saved := gf d7 PACE_VCMD.VCMD, sampling := false }) (gf d7 PACE_VMIN.VMIN)
  let d9 := withCba (pb d8 CBA_STAT.WIDE false) fun c => { c with allow := 0, window := 0, used := 0, shares := [] }
  let da := { d9 with host := { d9.host with l1 := true }, rstc := { d9.rstc with wakeReq := false, parkEntry := false }
                      evc := { d9.evc with prev := rawLevels d9 } }
  -- a level source named by a wake register is caught at its level
  let db := forUpTo 8 (fun k d =>
    let sn := senseOf (srcWord d (gf d (EVC_WAKESRC.SRC k)))
    if sn = 1 ∨ sn = 2 then wakeSource d k (tabGet false d.evc.raw (gf d (EVC_WAKESRC.SRC k))) else d) da
  setDev s2 (if wakeAsked db then { db with rstc := { db.rstc with wakeReq := true } } else db)

/-- SYS_MODE leaves PARK (R28, R41, R127, R199, R318, R335, R468). -/
def leavePark (d : Dev) : Dev :=
  let d1 := evcWake { d with rstc := { d.rstc with wakeTick := d.now, wakeReq := false, parkRecovery := false, swdCount := 0, swdWarned := false }
                             host := { d.host with l1 := false } }
  let d2 := withMerid d1 fun m => { m with calFrom := d.now, linesDone := [] }
  let d3 := withCba d2 fun c => { c with window := 0, used := 0, nextWindow := d.now + 16 }
  let d4 := forUpTo 64 (fun e d => travWake d e) d3
  judgeAll d4 d.now fun _ => true

/-- SYS_MODE becomes `m`: the power pins first, then every block (R19, R20, R38, R46). -/
def setMode (s : State) (m why : Nat) : State :=
  let old := mode s.dev
  let wasAll := filtAll s.dev
  let d1 := allPadsFollow (modeTake s.dev m why)
  let d2 := if filtAll d1 && !wasAll then filtRestart d1 else d1
  let d3 := if m = mRun ∨ m = mStandby ∨ m = mRecovery then onPaceCtl (pb d2 PACE_CTL.MODE false) else d2
  let d4 := if old = mPark then leavePark d3 else d3
  let d5 := if (old = mPark ∨ old = mStart) ∧ m ≠ mPark then blocksResume d4 else d4
  let d6 := if m = mRecovery then enterRecovery d5 else d5
  let s7 := if m = mPark then enterPark (setDev s d6) else setDev s d6
  setDev s7 (twinMode s7.dev old)

/-- A matching SYS_MODE pair that names `m` (R472, R473): whether it is refused by mode. -/
def modeRefused (d : Dev) (m : Nat) : Bool :=
  mode d == mStart || (if d.rstc.parkEntry then m != mPark else m != mode d && !softOk d m)

/-- The pair is accepted: naming the mode in force changes nothing, and PARK begins its entry, which the end of the command
completes (`parkFinish`). While an entry waits PARK is the mode it names. -/
def softMode (s : State) (m : Nat) : State :=
  if m = mode s.dev ∨ s.dev.rstc.parkEntry = true then s
  else
    let d := s.dev
    let s1 := setDev s { d with rstc := { d.rstc with modeFrom := some ⟨d.now, rd d SYS_STAT.at, gb d PACE_CTL.MODE⟩ } }
    if m = mPark then parkBegin s1 else setMode s1 m 0

/-- The pair that was accepted in this very tick (R473). -/
def pairNow (d : Dev) : Option ModePair := d.rstc.modeFrom.filter fun p => decide (p.tick = d.now)
/-- The mode before a pair. -/
def ModePair.old (p : ModePair) : Nat := fld p.stat 3 0

/-- A hardware transition to RECOVERY in the tick of an accepted pair applies first, and the pair is judged again against
RECOVERY (R473): the mode it named follows RECOVERY, or RECOVERY stays with MODE_LOCK. -/
def recoveryFirst (why : Nat) (s : State) : State :=
  let m := mode s.dev
  let s0 := setDev s { s.dev with rstc := { s.dev.rstc with modeFrom := none } }
  if m = mRecovery then setDev s0 (pf s0.dev SYS_STAT.WHY why)
  else if m = mPark then setDev s0 (pf (enterRecovery s0.dev) SYS_STAT.PREV mRecovery)
  else
    let s1 := setMode s0 mRecovery why
    if softOk s1.dev m then setMode s1 m 0 else setDev s1 (modeLock s1.dev 0)

/-- Vote policy RECOVERY (R68, R71, R473). -/
def voteRecovery (s : State) : State :=
  let m := mode s.dev
  match pairNow s.dev with
  | some p =>
    if s.dev.rstc.parkEntry = false ∧ (p.old = mConfig ∨ p.old = mRun ∨ p.old = mStandby) then recoveryFirst 3 s
    else if m = mRecovery ∨ p.old = mRecovery then s
    else setMode s mRecovery 3
  | none =>
    if m = mPark then setDev s { s.dev with rstc := { s.dev.rstc with parkRecovery := true } }
    else if m = mStart ∨ m = mRecovery then s
    else setMode s mRecovery 3

/-- PACE at a fall of LOCK: SHORT once regulation runs, HELD with it (R34, R36). -/
def lockShort (d : Dev) : Dev :=
  if gb d PACE_STAT.REG then pb (setShort d true) PACE_STAT.HELD false else d

/-- LOCK falls in the tick in which a pair for RUN was accepted: RUN is refused, and the pair changes nothing but MODE_LOCK
(R472, R473). -/
def runRefused (p : ModePair) (s : State) : State :=
  let s1 := setMode s p.old 0
  let d1 := wr s1.dev SYS_STAT.at p.stat
  let d2 := if gb d1 PACE_CTL.MODE = p.fixed then d1 else onPaceCtl (pb d1 PACE_CTL.MODE p.fixed)
  setDev s1 (modeLock { d2 with rstc := { d2.rstc with modeFrom := none } } 0)

/-- SYS_MODE at a fall of LOCK: RUN becomes RECOVERY (R23); a pair of this tick is judged after it (R473). -/
def modeUnlock (s : State) : State :=
  match pairNow s.dev with
  | some p =>
    if s.dev.rstc.parkEntry = false ∧ p.old = mRun then recoveryFirst 2 s
    else if mode s.dev = mRun then (if p.old = mRun then setMode s mRecovery 2 else runRefused p s)
    else s
  | none => if mode s.dev = mRun then setMode s mRecovery 2 else s

/-- LOCK falls and the device acts by mode (R22, R23): in RUN the pins go safe and SYS_MODE becomes RECOVERY. A phase error
while LOCK is 0 begins the 100 µs anew. -/
def lockLossAct (s : State) : State :=
  if gb s.dev MERID_STAT.LOCK then modeUnlock (setDev s (notReadyCheck (lockShort (lockDown s.dev)))) else setDev s (lockDown s.dev)

/-- REF_LOSS: no reference edge for 400 tk: REF_OK falls with MERID_REFLOSS, and LOCK with it (R22, R47). -/
def refLossAct (s : State) : State :=
  if gb s.dev MERID_STAT.REF_OK then lockLossAct (setDev s (raiseEvt (pb s.dev MERID_STAT.REF_OK false) 3 2)) else s

/-- PARK_WAKE (R46, R71, R474): PACE restores its command and takes one sample, then SYS_MODE leaves PARK. -/
def parkWakeDue (d : Dev) : Bool := mode d == mPark && d.rstc.wakeReq
def parkWake (mons : List Nat) (s : State) : State :=
  if parkWakeDue s.dev then
    let d1 := lowerTo s.dev s.dev.pace.saved
    let d2 := paceSample (withPace d1 fun p => { p with sampling := true, nextSample := d1.now }) mons
    setMode (setDev s d2) (if d2.rstc.parkRecovery then mRecovery else mConfig) 6
  else s

end Sys2Proof.Machine
end

