-- ==== Sys2Proof/Machine/Reset.lean ====
section
/-!
DEFINITION. Reset and start-up (chapter 20, R458-R471): cold, warm and block resets, option load, boot start, the system
watchdog and the pad hold.
-/
namespace Sys2Proof.Machine

/-! ### GP pins (R462, R479-R481) -/

/-- Function code of a GP pin (R480). -/
def pinFunc (d : Dev) (p : Nat) : Nat := fld (rd d (PINC_FUNC.at (p / 16))) (2 * (p % 16) + 1) (2 * (p % 16))

/-- Pins by number: power pins 0-127, OWN_OUT 128, NRST_OUT 129, TRIPIN00-31 at 130, OWN_IN 162, NRST_IN 163, AVS_CLK 164,
AVS_MDATA 165, AVS_SDATA 166, MREF_IN 167, PERST_N 168, GP000-127 at 200, SDDAT00-15 at 330, SDCLK00-15 at 346, BRA, BRB and BRZ
at 362, 378 and 394. -/
def gpPin (p : Nat) : Nat := 200 + p

/-- VDDIO bank of an output other than power pins, OWN_OUT and NRST_OUT (R479, R515). -/
def pinBank (p : Nat) : Nat :=
  if 200 ≤ p ∧ p < 328 then gpBank (p - 200) else if p < 200 then 0 else if p < 362 then 4 else 5
where
  /-- Bank of a GP pin. -/
  gpBank (p : Nat) : Nat := if p < 28 then 1 else if p < 60 then 2 else if p < 96 then 3 else 0

def serInit : SerSt := ⟨0, false, [], false⟩
def serOf (d : Dev) (k : Nat) : SerSt := tabGet serInit d.ser k

/-- What a peripheral drives on a GP pin between the frames, octets and records that commands carry out: 0 low, 1 high, 2
high-impedance (R479, R493; log entry 194). -/
def gpPeriph (d : Dev) (p : Nat) : Nat :=
  let rest := (Config.restLevel (gpPin p)).toNat
  if p < 24 then (if p % 12 = 0 then rest else if p % 12 < 6 then 0 else 2)
  else if p < 28 then (if p % 2 = 0 then 0 else 2)
  else if p < 60 then (if p % 2 = 0 then 1 else 2)
  else if p < 92 then
    let n := (p - 60) / 4
    if gb d (SPI_CTL.TARGET n) then 2
    else match p % 4 with
    | 0 => gf d (SPI_CTL.MODE n) / 2
    | 1 => rest
    | 2 => 2
    | _ => (!(serOf d (8 + n)).csLow).toNat
  else 2

/-- What the device drives on an output other than power pins, OWN_OUT and NRST_OUT (R462, R475, R480, R481): its held level
while its bank holds, and from a VDDA or VDDCORE brown-out to option load; AVSBus runs from option load on. -/
def outDriven (d : Dev) (p : Nat) : Nat :=
  let rest := (Config.restLevel p).toNat
  let avs := decide (p < 200)
  let loaded := decide (d.rstc.phase = .started)
  if avs && loaded then rest
  else if gbit d RSTC_HOLD.HOLD (pinBank p) || !loaded then tabGet 2 d.rstc.held p
  else if d.rstc.cold && mode d == mStart then 2
  else if p < 328 then
    let g := p - 200
    if pinFunc d g ≠ 0 then gpPeriph d g
    else if gbit d (GPIO_OE.OE (g / 32)) (g % 32) then (gbit d (GPIO_OUT.OUT (g / 32)) (g % 32)).toNat
    else 2
  else if p < 362 then (if gb d (SDF_CTL.CKOUT ((p - 346) / 4) ((p - 346) % 4)) then rest else 2)
  else if gf d (BRNG_CFG.MODE (p - 362)) = 3 ∧ gb d (BRNG_SSI.LISTEN (p - 362)) = false then rest
  else 2

/-- The outputs that the pad hold latches capture. -/
def heldPins : List Nat := [164, 165] ++ (upTo 128).map gpPin ++ (upTo 32).map (346 + ·)
/-- Their levels now. -/
def heldLevels (d : Dev) : Tab Nat := heldPins.foldl (fun t p => tabSet 2 t p (outDriven d p)) []

/-! ### Cold and warm reset (R459, R461, R462, R465, R466) -/

/-- Bit of RSTC_CAUSE of a source (R459). -/
def ResetSource.bit : ResetSource → Nat
  | .por => 0
  | .borio => 2
  | .bora => 3
  | .borcore => 4
  | .nrst => 5
  | .swdog => 6
  | .cwdog => 7
  | .swreq => 8
  | .hostreq => 9
  | .vote => 10
  | .crit => 11

def causesOf (l : List ResetSource) (w : Word) : Word := l.foldl (fun w s => setBitW w s.bit true) w

/-- Registers that a warm reset keeps whole (R466): causes, bank retirement, the MEMP log, counters and initialisation;
pad levels follow the pads. -/
def warmKept (key : Nat) : Bool :=
  key == RSTC_CAUSE.at || key == RSTC_DETAIL.at || key == RSTC_CRITADDR.at || key == FAB_RETIRE.at || key == FAB_BANKOFF.at
    || key == MEMP_STAT.at || key == MEMP_INIT.at || key == MEMP_WRAP.at || key == MEMP_TAIL.at
    || (decide (MEMP_CNT.at 0 ≤ key) && decide (key < MEMP_CNT.at 0 + 64)) || gpioIn key
where
  gpioIn (key : Nat) : Bool := (upTo 4).any fun i => key == GPIO_IN.at i

/-- Pads and supplies do not change with a reset: what is outside the device is carried over. -/
def carryOutside (d : Dev) (n : Dev) : Dev :=
  let n0 := pb n TWIN_STAT.OWNIN (gb d TWIN_STAT.OWNIN)
  let n1 := forUpTo 4 (fun i n => wr n (GPIO_IN.at i) (rd d (GPIO_IN.at i)))
    (forUpTo 16 (fun u n => pf n (BRNG_STAT.LVL u) (gf d (BRNG_STAT.LVL u))) n0)
  { n1 with
    brng := d.brng.filterMap fun e => if e.2.pinsOnly = brngInit then none else some (e.1, e.2.pinsOnly)
    now := d.now, freeCount := d.freeCount, vddaLow := d.vddaLow
    flash := { d.flash with op := none, last := 0, winFrom := d.now }
    ain := d.ain
    trip := { n1.trip with pins := d.trip.pins, pinFrom := d.trip.pinFrom }
    evc := { n1.evc with wakePins := d.evc.wakePins }
    twin := { n1.twin with ownLowFrom := if gb d TWIN_STAT.OWNIN then none else some d.now }
    rstc := { n1.rstc with ownPin := d.rstc.ownPin }
    sec := { n1.sec with seed := d.sec.seed, rng := d.sec.rng } }

/-- The power pins are in the states R461 gives them; OWN_OUT is low (R390, R465). -/
def pinsSafe (d : Dev) : Dev := ownUpdate d

/-- NRST_OUT is low: a reset is asserted or options are not loaded, and for 10 µs at least (R460). -/
def nrstOut (d : Dev) : Bool := d.rstc.nrstOutLow || decide (d.now < d.rstc.nrstOutTick + 10000)

/-- NRST_OUT falls with a reset, unless it is low already. -/
def nrstOutFell (d : Dev) : Nat := if nrstOut d then d.rstc.nrstOutTick else d.now
/-- What fired in the tick of the assertion before (R459, R473). -/
def firedNow (d : Dev) : List ResetSource := if d.rstc.phase = .asserted ∧ d.rstc.assertTick = d.now then d.rstc.fired else []

/-- A cold reset is asserted (R458, R461, R466): POR or a VDDIO brown-out also clears the safe-state copy and floats OWN_OUT; at
a brown-out of VDDA or VDDCORE the other outputs hold (R475). Sources that fire in one tick are all recorded (R459). -/
def coldReset (src : ResetSource) (s : State) : State :=
  let s0 := opAbort s
  let d := s0.dev
  let n := carryOutside d Dev.reset
  let fired := src :: (d.rstc.req ++ firedNow d)
  let n1 := wr n RSTC_CAUSE.at (causesOf fired 0)
  let whole := decide (src = .por ∨ src = .borio)
  let copy := if whole then none else d.rstc.safeCopy
  setDev s0 (pinsSafe (pb { n1 with
    rstc := { n1.rstc with
      assertTick := d.now, nrstLow := d.rstc.nrstLow, nrstTick := d.rstc.nrstTick, nrstOutTick := nrstOutFell d, safeCopy := copy
      fired := fired, ownFloat := whole || d.rstc.ownFloat, held := if whole then [] else heldLevels d } }
    RSTC_STAT.SAFECP copy.isSome))

/-- The device state of a warm reset (R466). -/
def warmDev (d : Dev) : Dev :=
  let b := Dev.reset
  let n := carryOutside d { b with
    regs := d.regs.filter fun e => warmKept e.1
    merid := { d.merid with late := [], discGood := 0 }
    memp := d.memp, latch := d.latch, guard := d.guard, jtag := d.jtag
    fab := { b.fab with next := d.fab.next } }
  -- the PLL keeps running on its reference; CAL_OK follows the lines, which stay calibrated
  let n1 := [MERID_STAT.LOCK, MERID_STAT.HOLDOVER, MERID_STAT.REF_OK, MERID_STAT.CAL_OK].foldl (fun n f => pb n f (gb d f)) n
  let n2 := pf (pf (pf n1 MERID_STAT.REFACT (gf d MERID_STAT.REFACT)) MERID_CTL.REFSEL (gf d MERID_CTL.REFSEL))
    MERID_CTL.REFMHZ (gf d MERID_CTL.REFMHZ)
  let n3 := pb n2 SEC_CFG.HOSTAUTH (gb d SEC_CFG.HOSTAUTH)
  forUpTo 24 (fun u n => pb n (SURV_STAT.CAL_OK u) (gb d (SURV_STAT.CAL_OK u))) n3

/-- The warm reset sources that wait assert (R459, R465): pins safe, OWN_OUT low, pad hold in force, everything else in
reset. During a reset the new sources are only recorded, and an option load in progress starts again (R464). -/
def warmAssert (s : State) : State :=
  let req := s.dev.rstc.req
  let s0 := opAbort s
  let d := s0.dev
  if d.rstc.phase = .asserted then
    setDev s0 (wr { d with rstc := { d.rstc with req := [], fired := req ++ firedNow d } } RSTC_CAUSE.at
      (causesOf req (rd d RSTC_CAUSE.at)))
  else
    let n := warmDev (setPeerFollow d false)
    let n1 := wr n RSTC_CAUSE.at (causesOf req (rd d RSTC_CAUSE.at))
    let n2 := pf (pb n1 RSTC_STAT.SAFECP d.rstc.safeCopy.isSome) RSTC_HOLD.HOLD 0x3F
    setDev s0 (pinsSafe { n2 with rstc := { n2.rstc with
      cold := false, assertTick := d.now, nrstLow := d.rstc.nrstLow, nrstTick := d.rstc.nrstTick, nrstOutTick := nrstOutFell d
      safeCopy := d.rstc.safeCopy, fired := req, ownFloat := d.rstc.ownFloat, held := heldLevels d } })

/-- BROWN_OUT (R458): of a VDDIO bank, VDDA or VDDCORE. -/
def brownOut (src : ResetSource) (s : State) : State := coldReset src s

/-- NRST_IN (R460): the level of the pin. A low of 200 ns asserts; of a shorter pulse of at least 50 ns it is open whether
it does. While another reset is asserted it is recorded (R459). -/
def nrstIn (d : Dev) (low : Bool) : Dev :=
  let held := d.now - d.rstc.nrstTick
  if low && !d.rstc.nrstLow then { d with rstc := { d.rstc with nrstLow := true, nrstTick := d.now } }
  else if low then (if 200 ≤ held then warmReq d .nrst else d)
  else if d.rstc.nrstLow then
    let d1 := { d with rstc := { d.rstc with nrstLow := false } }
    if held < 50 then d1
    else if 200 ≤ held then warmReq d1 .nrst
    else
      let d2 := { d1 with freeCount := d1.freeCount + 1 }
      if Config.nrstShort d.freeCount then warmReq d2 .nrst else d2
  else d
/-- A low of 200 ns has not been taken yet. -/
def nrstDue (d : Dev) : Bool :=
  d.rstc.nrstLow && decide (d.rstc.nrstTick + 200 ≤ d.now) && (decide (d.rstc.phase ≠ .asserted) || !gb d RSTC_CAUSE.NRST)

/-- The blocks leave reset: they see the level VDDA has now under the reset VREF (R93, R111). -/
def supplyLevels (d : Dev) : Dev := forUpTo 4 (fun g d => setContLow d g) (forUpTo 24 (fun u d => setLowA d u) d)

/-- POWER_ON_RELEASE (R458, R463): the oscillator runs and option load begins. -/
def powerOnRelease (d : Dev) : Dev :=
  if d.rstc.phase = .asserted ∧ d.rstc.cold = true then
    supplyLevels { d with rstc := { d.rstc with phase := .optionLoad, attempts := 0 } }
  else d

/-- WARM_RESET_RELEASE (R465): at least 2 µs after assertion and when every source has ended. -/
def releaseDue' (d : Dev) : Bool :=
  decide (d.rstc.phase = .asserted) && !d.rstc.cold && !d.rstc.nrstLow && decide (d.rstc.assertTick + 2000 ≤ d.now)
def warmRelease (d : Dev) : Dev :=
  if releaseDue' d then supplyLevels { d with rstc := { d.rstc with phase := .optionLoad, attempts := 0 } } else d

/-! ### Option load and boot start (R435, R436, R463, R464) -/

/-- The boot voltage of Colophon word 17 in mV (R435). -/
def bootVolt (w : Word) : Nat :=
  let v := fld w 9 0
  if v % 5 ≠ 0 ∨ v < 700 ∨ 950 < v then 850 else v

/-- The guard gutter of Colophon word 18: unprogrammed, 2,000 tk (R435). -/
def guardOf (w : Word) : Word := if fld w 16 0 = 0 then BitVec.ofNat 36 (2000 * 32) else BitVec.ofNat 36 (fld w 16 0)

/-- MERID_CTL.REFMHZ of Colophon word 16 (R435). -/
def optMhz (w : Word) : Nat := if fld w 11 6 = 0 then 25 else fld w 11 6

/-- The latches of a complete option load act (R21, R37, R157, R402, R436, R461, R463); the random source is tested and
instantiated (R454). -/
def optionsIn (d : Dev) (ce : Nat) : Dev :=
  let row := otpRow d
  let d1 := { d with latch := row, flash := { d.flash with latchCopies := [] }, guard := guardOf (tabGet 0 row 18) }
  let d2 := pf (pf d1 FLASHC_STAT.LDTRY (d.rstc.attempts + 1)) FLASHC_STAT.OTPCE (min 255 ce)
  let w16 := tabGet 0 row 16
  let d3 := pf (pf d2 MERID_CTL.REFSEL (fld w16 5 4)) MERID_CTL.REFMHZ (optMhz w16)
  let d4 := chooseRef (if d.rstc.cold then d3 else onMeridCtl d3 (rd d2 MERID_CTL.at))
  let bv := bootVolt (tabGet 0 row 17)
  let d5 := withPace (pf (pf d4 PACE_VFIX.VFIX bv) PACE_VCMD.VCMD bv) fun p => { p with toSend := true }
  let d6 := forUpTo 16 (fun f d => formeColophon d f) d5
  let d7 := withCba { d6 with rstc := { d6.rstc with
      phase := .started, safeCopy := some ((upTo 8).map fun k => tabGet 0 row (32 + k)), loadTick := d.now
      wakeTick := d.now, nrstOutLow := false, attempts := 0, ownFloat := false
      held := if d6.rstc.cold then [] else d6.rstc.held } } fun c => { c with nextWindow := d.now + 16 }
  let d8 := forUpTo 32 (fun p d => tripinFollow d p true) (rngStartUp (pb d7 RSTC_STAT.SAFECP true))
  -- the safe states are known now: a table that would drive both outputs of a pair is refused (R166)
  let d9 := forUpTo 64 (fun k d => padCheck d (k / 4) (k % 4)) d8
  -- OWN_OUT is driven low, and OWN_IN is sampled from now on (R463, R475)
  ownInChange (ownUpdate (judgeAll d9 d9.now fun _ => true)) d.rstc.ownPin

/-- OPTION_LOAD: one attempt. The row's own code says which groups are corrected and whether one is beyond correction; the
operands add what this reading of the cells met: whether every group was readable, and how many more were corrected. -/
def optionLoad (d : Dev) (ok : Bool) (ce : Nat) : Dev :=
  if d.rstc.phase = .optionLoad then
    if ok && !otpUnreadable d then optionsIn d (otpCorrected d + ce)
    else
      let n := d.rstc.attempts + 1
      let d1 := pf d FLASHC_STAT.LDTRY n
      { d1 with rstc := { d1.rstc with attempts := n, phase := if 4 ≤ n then .loadHold else .optionLoad } }
  else d

/-- BOOT_START (R15, R463): LOCK with both TCMs of core 0 initialised, or 5 ms after option load on holdover. -/
def bootStartDue (d : Dev) : Bool :=
  decide (d.rstc.phase = .started) && !d.rstc.booted && mode d == mStart &&
    ((gb d MERID_STAT.LOCK && gbit d MEMP_INIT.DONE 17 && gbit d MEMP_INIT.DONE 25)
      || (!gb d MERID_STAT.LOCK && decide (d.rstc.loadTick + 5000000 ≤ d.now)))

/-- The boot ROM starts; its journal scan comes first (R433). -/
def bootStart (s : State) : State :=
  if bootStartDue s.dev then
    (journalScan (setDev s { s.dev with rstc := { s.dev.rstc with booted := true } })).1
  else s

/-! ### System watchdog and pad hold (R462, R468) -/

def withRstc (d : Dev) (f : RstcSt → RstcSt) : Dev := { d with rstc := f d.rstc }

def swdRuns (d : Dev) : Bool := gb d RSTC_SWDOG.EN && mode d != mStart && mode d != mPark
def swdLimit (d : Dev) : Nat := 1024 * gf d RSTC_SWDOG.TIME
def swdWarnDue (d : Dev) : Bool := swdRuns d && !d.rstc.swdWarned && decide (swdLimit d ≤ 2 * d.rstc.swdCount)
def swdWarn (d : Dev) : Dev :=
  if swdWarnDue d then raiseEvt (withRstc d fun r => { r with swdWarned := true }) 1 0 else d
def swdExpiryDue (d : Dev) : Bool := swdRuns d && decide (swdLimit d ≤ d.rstc.swdCount)
def swdExpiry (d : Dev) : Dev := if swdExpiryDue d then warmReq d .swdog else d

/-- The watchdog counts afresh: a kick, or a write of RSTC_SWDOG. -/
def swdRestart (d : Dev) : Dev := withRstc d fun r => { r with swdCount := 0, swdWarned := false }

/-- A write of RSTC_HOLDREL releases banks (R462). -/
def holdRelease (d : Dev) (v : Word) : Dev :=
  let d1 := pf d RSTC_HOLD.HOLD (gf d RSTC_HOLD.HOLD - (gf d RSTC_HOLD.HOLD &&& fld v 5 0))
  withRstc d1 fun r => { r with held := r.held.filter fun e => !bit v (pinBank e.1) }

/-- An RSTC register written (R462, R468, R470). -/
def onRstc (d : Dev) (ini : Initiator) (off : Nat) (v : Word) : Dev :=
  if off = 0x10 then (if bit v 0 then warmReq d (if ini = .pcie ∨ ini = .sec then .hostreq else .swreq) else d)
  else if off = 0x11 then pb (swdRestart d) RSTC_STAT.SWDEN (gb d RSTC_SWDOG.EN)
  else if off = 0x12 then (if v = 0x3C3C#36 then swdRestart d else d)
  else if off = 0x14 then holdRelease d v
  else d

/-! ### Block reset (R73, R471) -/

/-- Blocks that refuse a pair with BRST = 1 as RANGE (R361, R438, R456, R477, R480, R516). -/
def brstRange (b : Blk) : Bool := match b with
  | .sys | .rstc | .pinc | .merid | .pace | .cba | .fab | .sec | .flashc => true
  | _ => false

/-- Blocks whose reset is accepted only in CONFIG (R123, R333, R375). -/
def brstConfig (b : Blk) : Bool := match b with
  | .tripnet | .evc | .galley => true
  | _ => false

/-- Blocks that refuse EN = 0 as RANGE (R123, R333, R361, R375, R438, R456, R480, R516). -/
def enRange (b : Blk) : Bool := match b with
  | .sys | .rstc | .pinc | .merid | .pace | .cba | .tripnet | .evc | .fab | .galley | .sec | .flashc => true
  | _ => false

/-- Every register of a page at its reset value, shadows and pending quoin values discarded (R58, R73). -/
def clearPage (d : Dev) (page : Nat) : Dev :=
  { d with
    regs := d.regs.filter fun e => decide (e.1 / 256 ≠ page)
    folio := { d.folio with
      copies := d.folio.copies.filter fun e => decide (e.1 / 256 ≠ page)
      shadows := d.folio.shadows.filter fun e => decide (e.1 / 256 ≠ page)
      quoin := d.folio.quoin.filter fun q => decide (q.page ≠ page)
      defer := d.folio.defer.filter fun e => decide (e.1 / 256 ≠ page)
      brst := tabErase d.folio.brst page
      brstEn := d.folio.brstEn.filter fun p => decide (p ≠ page) } }

/-- Records of an interface that is reset, and its parked takes, are forgotten. -/
def ifDrop (d : Dev) (lo n : Nat) : Dev :=
  withGalley d fun g => { g with
    recs := g.recs.filter fun e => !decide (lo ≤ e.1 ∧ e.1 < lo + n)
    parked := g.parked.filter fun e => !decide (lo ≤ e.1 ∧ e.1 < lo + n)
    refused := g.refused.filter fun e => !decide (lo ≤ e.1 ∧ e.1 < lo + n) }

/-- Records that a block's direct ports still offered are gone with its reset (R73): `n` producers from `lo` on. -/
def offersDrop (d : Dev) (lo n : Nat) : Dev :=
  { d with offers := d.offers.filter fun o => !decide (lo ≤ o.producer ∧ o.producer < lo + n) }

/-- What a block does beyond its registers when it is reset. -/
def blockCleared (d0 d : Dev) (b : Blk) (i page : Nat) : Dev :=
  match b with
  | .core => coreReset d i
  | .tsc => tscReset d i
  | .evc =>
    let lo := 256 * i
    let other := fun (l : List Nat) => l.filter fun s => decide (s / 256 ≠ i)
    let d := if i = 0 ∧ filtLen d0 ≠ filtLen d then filtRestart d else d
    withEvc d fun e => { e with words := e.words.filter fun x => decide (x.1 / 256 ≠ lo / 256), lines := []
                                late := other e.late, swDue := other e.swDue, fresh := other e.fresh
                                freshLost := other e.freshLost, cleared := other e.cleared
                                voidFrames := if i = 0 then [] else evcVoid d0 i e
                                wasWords := e.wasWords.filter fun x => decide (x.1 / 256 ≠ lo / 256) }
  | .memp => { wr d MEMP_INIT.at (rd d0 MEMP_INIT.at) with memp := ⟨[]⟩ }
  | .galley => galleyReset d
  | .twin =>
    let d1 := pb { d with twin := Dev.reset.twin } TWIN_STAT.OWNIN (gb d0 TWIN_STAT.OWNIN)
    twinFollow (ownUpdate (withTwin d1 fun x => { x with ownLowFrom := d0.twin.ownLowFrom }))
  | .forme => formeReset d i
  | .tripnet => tripnetReset d0 d page
  | .surv =>
    let d1 := pb { landDrop d i (16 + i) with
      surv := tabErase d.surv i, trigDue := d.trigDue.filter fun e => decide (e.1 / 16 ≠ i)
      offers := d.offers.filter fun o => decide (o.producer ≠ i) } (SURV_STAT.CAL_OK i) (gb d0 (SURV_STAT.CAL_OK i))
    setLowA d1 i
  | .sdf =>
    let mine := fun (n : Nat) => decide (n / 4 = i)
    forUpTo 4 (fun c d => fdOutputs d (4 * i + c)) { forUpTo 4 (fun c d => landDrop d (24 + 4 * i + c) (4 * i + c)) d with
      sdf := d.sdf.filter fun e => !mine e.1
      fd := d.fd.filter fun e => !mine e.1
      trigDue := d.trigDue.filter fun e => !(decide (0x1000 ≤ e.1 ∧ e.1 < 0x1010) && mine (e.1 - 0x1000))
      offers := d.offers.filter fun o => !(decide (24 ≤ o.producer ∧ o.producer < 40) && mine (o.producer - 24)) }
  | .cont => noMeasAll (setContLow (contReset d i) i)
  | .trav => offersDrop (travReset d i) (40 + i) 1
  | .brng => wr d (BRNG_STAT.at i) (rd d0 (BRNG_STAT.at i) &&& maskOf 7 5)
  | .press => pressReset d i
  | .pcie => { d with host := { Dev.reset.host with l1 := d.host.l1, gpioClr := d.host.gpioClr, gpioFrom := d.host.gpioFrom } }
  | .eth => offersDrop (ifDrop { d with eth := tabErase d.eth i } (192 + 8 * i) 8) (104 + i) 1
  | .canf => offersDrop (ifDrop { d with can := tabErase d.can i } (208 + i) 1) (106 + i) 1
  | .uart => offersDrop (ifDrop { d with ser := tabErase d.ser i } (216 + i) 1) (114 + i) 1
  | .spi => offersDrop (ifDrop { d with ser := tabErase d.ser (8 + i) } (224 + i) 1) (122 + i) 1
  | .i2c => offersDrop (ifDrop { d with ser := tabErase d.ser (16 + i) } (232 + i) 1) (130 + i) 1
  | .gpio => wr { d with host := { d.host with gpioClr := tabErase d.host.gpioClr i } } (GPIO_IN.at i) (rd d0 (GPIO_IN.at i))
  | .sys | .rstc | .pinc | .merid | .pace | .cba | .fab | .sec | .flashc | .avs | .dbg => d

/-- A block reset that its folio accepts; a clocked block waits for LOCK with its release. -/
def blockReset (d : Dev) (page : Nat) : Dev :=
  match blockOf page with
  | none => d
  | some (b, i) =>
    let d1 := if b = .brng then brngReset d i else d
    let d2 := blockCleared d (clearPage d1 page) b i page
    if b.selfTimed || gb d MERID_STAT.LOCK then d2
    else withFolio (pb d2 (FOLIO_STAT.BRST_PEND page) true) fun f => { f with brst := tabPut f.brst page none }

/-- BLOCK_RESET_RELEASE: 64 tk after LOCK rises (R471). -/
def brstDue (d : Dev) (page : Nat) : Bool := match tabFind d.folio.brst page with
  | some (some t) => decide (t ≤ d.now)
  | _ => false
def blockRelease (d : Dev) (page : Nat) : Dev :=
  if brstDue d page then
    pb (withFolio d fun f => { f with brst := tabErase f.brst page, brstEn := f.brstEn.filter fun p => decide (p ≠ page) })
      (FOLIO_STAT.BRST_PEND page) false
  else d

end Sys2Proof.Machine
end

