-- ==== Sys2Proof/Machine/Host.lean ====
section
/-!
DEFINITION. Host and field interfaces (chapter 21): GPIO, the PCIe link, MSI-X and the mailbox registers, the register
side of Ethernet, CAN FD and the serial controllers, AVSBus, JTAG and debug. What moves data through the fabric is in
Machine/IfMove.lean.
-/
namespace Sys2Proof.Machine

def withHost (d : Dev) (f : HostSt → HostSt) : Dev := { d with host := f d.host }

/-- The interfaces run (R498): CONFIG, RUN, STANDBY and RECOVERY. -/
def ifMode (d : Dev) : Bool := mode d != mStart && mode d != mPark

/-! ### Boundary pins (R475, R495) -/

def withJtag (d : Dev) (f : JtagSt → JtagSt) : Dev := { d with jtag := f d.jtag }

/-- Cells that only observe while debug is locked: PW00A-PW63B, OWN_OUT, NRST_OUT. -/
def guardedCell (p : Nat) : Bool := decide (p < 130)

/-- Pins whose cells only observe: they are inputs. -/
def inputPin (p : Nat) : Bool := (decide (130 ≤ p) && decide (p < 164)) || (decide (166 ≤ p) && decide (p < 200)) || (decide (330 ≤ p) && decide (p < 346)) || decide (378 ≤ p)

/-- Functional level of a boundary pin, none where the device drives none on it and knows none. -/
def pinFunctional (d : Dev) (p : Nat) : Option Bool :=
  if p < 128 then
    let l := padLevels d (p / 8) (p % 8 / 2)
    if p % 2 = 0 then l.1 else l.2
  else if p = 128 then (if d.rstc.ownFloat then none else some (gb d TWIN_STAT.OWNOUT))
  else if p = 129 then (if nrstOut d then some false else none)
  else if p < 162 then some (tabGet false d.trip.pins (p - 130))
  else if p = 162 then some d.rstc.ownPin
  else if p = 163 then some (!d.rstc.nrstLow)
  else if inputPin p then none
  else match outDriven d p with
    | 0 => some false
    | 1 => some true
    | _ => none

/-- Level of a boundary pin: JTAG overrides what it may drive (R495). -/
def pinLevel (d : Dev) (p : Nat) : Option Bool :=
  if inputPin p || (guardedCell p && !gb d SEC_STAT.DBGUNL) then pinFunctional d p
  else if d.jtag.floated then none
  else if d.jtag.driving then some (tabGet false d.jtag.cells p)
  else pinFunctional d p

/-- The pins of the boundary register: the digital pins by number. -/
def boundaryPins : List Nat := upTo 169 ++ (upTo 128).map gpPin ++ (upTo 80).map (330 + ·)

/-- The boundary register captures the pins; `board` lists the pins that are high where the device does not drive. -/
def capturePins (d : Dev) (board : List Nat) : Tab Bool :=
  boundaryPins.foldl (fun t p => tabSet false t p ((pinLevel d p).getD (decide (p ∈ board)))) []

/-- Cells shifted in: the pins whose cells are 1. -/
def cellsOf (high : List Nat) : Tab Bool := boundaryPins.foldl (fun t p => tabSet false t p (decide (p ∈ high))) []

/-! ### GPIO (R480, R481) -/

/-- A pin function code or PULL code that does not exist (R480). -/
def badPinc (off : Nat) (v : Word) : Bool :=
  if 0x10 ≤ off ∧ off < 0x18 then (upTo 16).any fun i => bit v (2 * i + 1)
  else if 0x20 ≤ off ∧ off < 0x30 then (upTo 8).any fun i => fld v (4 * i + 1) (4 * i) == 3
  else false

/-- OUT bits that GPIO_CLR has cleared in the present tick. -/
def gpioCleared (d : Dev) (b : Nat) : Word := match tabFind d.host.gpioClr b with
  | some (t, w) => if t = d.now then w else 0
  | none => 0

/-- A write of GPIO_SET: OUT bits are set, but for those that a CLR of this tick names (R481). -/
def gpioSet (d : Dev) (b : Nat) (v : Word) : Dev :=
  wr d (GPIO_OUT.at b) (rd d (GPIO_OUT.at b) ||| (v &&& maskOf 31 0 &&& ~~~(gpioCleared d b)))

/-- A write of GPIO_CLR (R481). -/
def gpioClr (d : Dev) (b : Nat) (v : Word) : Dev :=
  let m := v &&& maskOf 31 0
  withHost (wr d (GPIO_OUT.at b) (rd d (GPIO_OUT.at b) &&& ~~~m)) fun h =>
    { h with gpioClr := tabPut h.gpioClr b (d.now, gpioCleared d b ||| m) }

/-- The level of a GP pad: what the device drives on it, else what the board gives (R481). -/
def padLevel (d : Dev) (p : Nat) (board : Bool) : Bool := (pinLevel d (gpPin p)).getD board

/-- GPIO drives a pad to another level than IN shows (R481). -/
def gpioFollows (d : Dev) (p : Nat) : Bool := padLevel d p (gbit d (GPIO_IN.IN (p / 32)) (p % 32)) != gbit d (GPIO_IN.IN (p / 32)) (p % 32)

/-- Such a level is behind the 2-tick synchroniser (R481). -/
def gpioSeen (d : Dev) (p : Nat) : Bool := gpioFollows d p && (match tabFind d.host.gpioFrom p with
  | some t => decide (t + 2 ≤ d.now)
  | none => false)

/-- The synchronisers at the end of a tick: since when each pad has stood at its new level. -/
def gpioTick (d : Dev) : Dev :=
  withHost d fun h => { h with gpioFrom := ((upTo 128).filter fun p => gpioFollows d p).map fun p => (p, tabGet d.now h.gpioFrom p) }

/-- GPIO_EDGE: pin GPp takes a level behind its synchroniser, the board's unless GPIO drives it; a selected edge sets its
event bit (R481), and a wake pin sees it too (R334). -/
def gpioEdge (d : Dev) (p : Nat) (board : Bool) : Dev :=
  let level := padLevel d p board
  let b := p / 32
  let i := p % 32
  let was := gbit d (GPIO_IN.IN b) i
  let sel := fld (rd d (GPIO_EDGE.at b (i / 16))) (2 * (i % 16) + 1) (2 * (i % 16))
  let d1 := pbit d (GPIO_IN.IN b) i level
  let d2 := if (level && !was && sel % 2 == 1) || (!level && was && sel / 2 == 1) then raiseEvt d1 (pageOf .gpio b) i else d1
  if p < 64 then wakePin d2 p level else d2

/-! ### PCI Express link, MSI-X (R482, R486, R488) -/

def pciePage : Nat := 0x100

/-- Host requests arrive (R482). -/
def linkOn (d : Dev) : Bool := gf d PCIE_STAT.LINK == 2

/-- The link goes down, LINK_DOWN where it was up; the stage and the capture stay with the device. -/
def pcieDown (d : Dev) (l : Nat) : Dev :=
  let d1 := pf (pb (pf d PCIE_STAT.LINK l) PCIE_STAT.WIDTH false) PCIE_STAT.SPEED 0
  if linkOn d then raiseEvt d1 pciePage 1 else d1

/-- FOLIO_CTL.EN of the PCIE folio: the link trains while it is 1 (R482). -/
def pcieEnable (d : Dev) (en : Bool) : Dev :=
  if en then (if gf d PCIE_STAT.LINK = 0 then pf d PCIE_STAT.LINK 1 else d) else pcieDown d 0

/-- PCIE_LINK_CHANGE: training ends with the link up at a width and speed, or the link goes down and trains anew. -/
def pcieLink (d : Dev) (up x2 : Bool) (gen : Nat) : Dev :=
  if gb d (FOLIO_CTL.EN pciePage) then
    (if up then
      let d1 := pf (pb (pf d PCIE_STAT.LINK 2) PCIE_STAT.WIDTH x2) PCIE_STAT.SPEED gen
      if linkOn d then d1 else raiseEvt d1 pciePage 0
    else pcieDown d 1)
  else d

/-- ACC_ERR: a host write that failed or was discarded, with its word address (R486). -/
def accErr (d : Dev) (a : Nat) : Dev := raiseEvt (pf d PCIE_ERRADDR.ADDR a) pciePage 2

/-- MSIX_MESSAGE: the message of a vector whose source has had an event is sent; a masked vector stays pending. -/
def msixMessage (d : Dev) (v : Nat) : Dev :=
  if v ∈ d.host.msixDue ∧ linkOn d = true ∧ d.host.msixOn = true ∧ v ∉ d.host.msixMask then
    withHost d fun h => { h with msix := h.msix ++ [v], msixDue := h.msixDue.erase v }
  else d

/-! ### Mailbox (R487) -/

/-- Vector 0 signals each mailbox response while PCIE_MSIXSRC0.EN = 0 (R488). -/
def responseMsi (d : Dev) : Dev :=
  if gb d (PCIE_MSIXSRC.EN 0) then d else withHost d fun h => { h with msixDue := msixPend h.msixDue [0] }

/-- The device puts a response of octets in the device-to-host buffer. -/
def respond (d : Dev) (bs : List (BitVec 8)) : Dev :=
  let put := fun (t : Tab (BitVec 8)) => ((upTo 1024).zip bs).foldl (fun t e => tabSet 0 t e.1 e.2) t
  responseMsi (withHost d fun h => { h with d2h := put h.d2h, rspLen := bs.length })

/-- The frame handed over, as octets. -/
def frameOctets (d : Dev) : List (BitVec 8) := (upTo (min 1024 d.host.cmdLen)).map fun k => tabGet 0 d.host.h2d k

/-- The device takes the frame: CMDLEN reads 0. -/
def frameTaken (d : Dev) : Dev := withHost d fun h => { h with cmdLen := 0, held := false }

/-- A CMDLEN written: discarded while a frame is held; non-zero, it hands the frame over with event CMD. -/
def cmdlenWrite (d : Dev) (n : Nat) : Dev :=
  if d.host.held then d
  else if n = 0 then withHost d fun h => { h with cmdLen := 0 }
  else raiseEvt (withHost d fun h => { h with cmdLen := n, held := true }) pciePage 3

/-- RSPLEN written: 0 releases the response buffer. -/
def rsplenWrite (d : Dev) (n : Nat) : Dev := if n = 0 then withHost d fun h => { h with rspLen := 0 } else d

/-- Octet `i` of a dword. -/
def octetOf (v : BitVec 32) (i : Nat) : BitVec 8 := v.extractLsb' (8 * i) 8
def dwordOf (t : Tab (BitVec 8)) (k : Nat) : BitVec 32 :=
  tabGet 0 t (k + 3) ++ tabGet 0 t (k + 2) ++ tabGet 0 t (k + 1) ++ tabGet 0 t k

/-- A host write of the mailbox dword at an octet offset; BOOTGO is in Machine/Boot.lean. -/
def mailboxWrite (d : Dev) (ofs : Nat) (v : BitVec 32) : Dev :=
  if ofs = 0 then withHost d fun h => { h with bootBase := v.toNat % 2 ^ 28 }
  else if ofs = 0x100 then cmdlenWrite d v.toNat
  else if ofs = 0x104 then rsplenWrite d v.toNat
  else if 0x1000 ≤ ofs ∧ ofs < 0x1400 then
    withHost d fun h => { h with h2d := forUpTo 4 (fun i t => tabSet 0 t (ofs - 0x1000 + i) (octetOf v i)) h.h2d }
  else d

/-- BOOTST. -/
def bootSt (h : HostSt) : BitVec 32 := BitVec.ofNat 32 (h.bootWaiting.toNat * 2 ^ 31 + h.bootBusy.toNat * 2 ^ 30 + h.bootCode % 16)

/-- A host read of the mailbox dword at an octet offset. -/
def mailboxRead (h : HostSt) (ofs : Nat) : BitVec 32 :=
  if ofs = 0 then BitVec.ofNat 32 h.bootBase
  else if ofs = 8 then bootSt h
  else if ofs = 0x100 then BitVec.ofNat 32 h.cmdLen
  else if ofs = 0x104 then BitVec.ofNat 32 h.rspLen
  else if 0x1000 ≤ ofs ∧ ofs < 0x1400 then dwordOf h.h2d (ofs - 0x1000)
  else if 0x1400 ≤ ofs ∧ ofs < 0x1800 then dwordOf h.d2h (ofs - 0x1400)
  else 0

/-! ### Ethernet registers (R489-R491, R497) -/

def ethInit : EthSt := ⟨0, 0, 0, 0, 0, 0, 0, 255, none, [], 0, 0, none⟩
def ethOf (d : Dev) (m : Nat) : EthSt := tabGet ethInit d.eth m
def withEth (d : Dev) (m : Nat) (f : EthSt → EthSt) : Dev := { d with eth := tabSet ethInit d.eth m (f (ethOf d m)) }
def ethPage (m : Nat) : Nat := 0x101 + m

def ethOn (d : Dev) (m : Nat) : Bool := gb d (ETH_CTL.TXEN m) || gb d (ETH_CTL.RXEN m)

/-- Writes of ETH registers that are discarded with CFG_ERR (R497): SPEED 0b11, a list outside shared SRAM or longer than
256, a configuration field while the MAC is enabled. -/
def badEth (d : Dev) (m off : Nat) (v : Word) : Bool :=
  let old := rd d (ETH_CTL.at m)
  match off with
  | 0x10 => fld v 29 28 == 3 || (ethOn d m && decide (fld v 33 28 ≠ fld old 33 28))
  | 0x14 => decide (fld v 27 0 < 0x4000000 ∨ 0x4100000 ≤ fld v 27 0)
  | 0x15 => decide (256 < fld v 8 0)
  | _ => (decide (off = 0x11 ∨ off = 0x12) || decide (0x18 ≤ off ∧ off < 0x23)) && ethOn d m

/-- The receive pins of RGMII carry their peripheral function, or the MAC sees its idle level (R479, R480). -/
def ethInput (d : Dev) (m : Nat) : Bool := gb d (ETH_CTL.IF m) || (upTo 6).all fun i => pinFunc d (6 + 12 * m + i) == 1

/-- The transmit pins of RGMII carry their peripheral function, or a frame does not leave the device (R479). -/
def ethOutput (d : Dev) (m : Nat) : Bool := gb d (ETH_CTL.IF m) || (upTo 6).all fun i => pinFunc d (12 * m + i) == 1

/-- The SPEED in force without negotiation follows ETH_CTL (R497). -/
def ethSpeed (d : Dev) (m : Nat) : Dev :=
  if gb d (ETH_CTL.SGAN m) then d else pf d (ETH_STAT.SPEED m) (gf d (ETH_CTL.SPEED m))

/-- ETH_MDIO.GO: a management frame starts (R497). -/
def mdioGo (d : Dev) (m : Nat) (v : Word) : Dev :=
  withEth (pb d (ETH_MDIO.BUSY m) true) m fun x => { x with mdio := some (bit v 34, fld v 30 26, fld v 25 21, fld v 15 0) }

/-- MDIO_DONE: the frame completes; after a read, DATA holds the value (R497), all ones where the pins of the frame do not carry
it: the line is idle (R479, R480). -/
def mdioDone (d : Dev) (m data : Nat) : Dev := match (ethOf d m).mdio with
  | none => d
  | some (write, _) =>
    let d1 := withEth (pb d (ETH_MDIO.BUSY m) false) m fun x => { x with mdio := none }
    let pins := pinFunc d (24 + 2 * m) == 1 && pinFunc d (25 + 2 * m) == 1
    if write then d1 else pf d1 (ETH_MDIO.DATA m) (if pins then data else 0xFFFF)

/-- An ETH register written. -/
def onEth (d : Dev) (m off : Nat) (v : Word) : Dev := match off with
  | 0x10 => ethSpeed d m
  | 0x23 => if bit v 35 then mdioGo d m v else d
  | _ => d

/-- ETH_LINK_STATE: SGMII symbol lock, auto-negotiation and the negotiated rate (R497). -/
def ethLinkState (d : Dev) (m : Nat) (sync done : Bool) (speed : Nat) : Dev :=
  let d1 := pb (pb d (ETH_STAT.SGSYNC m) sync) (ETH_STAT.AN_DONE m) done
  if gb d (ETH_CTL.SGAN m) && done then pf d1 (ETH_STAT.SPEED m) speed else ethSpeed d1 m

/-- Ticks of one octet at the SPEED in force. -/
def octetTicks (d : Dev) (m : Nat) : Nat := match gf d (ETH_STAT.SPEED m) with
  | 0 => 800
  | 1 => 80
  | _ => 8

/-- Ticks of a frame of `len` octets from its preamble to the end of its FCS. -/
def frameTime (d : Dev) (m len : Nat) : Nat := (8 + max 60 len + 4) * octetTicks d m

/-! ### CAN FD registers and fault confinement (R492) -/

def canInit : CanSt := ⟨false, [], []⟩
def canOf (d : Dev) (n : Nat) : CanSt := tabGet canInit d.can n
def withCan (d : Dev) (n : Nat) (f : CanSt → CanSt) : Dev := { d with can := tabSet canInit d.can n (f (canOf d n)) }
def canPage (n : Nat) : Nat := 0x108 + n

/-- A bit timing outside its ranges (R497). -/
def badTiming (v : Word) (s1 s2 sj : Nat) : Bool :=
  decide (fld v 35 24 = 0 ∨ fld v 23 16 = 0 ∨ s1 < fld v 23 16 ∨ fld v 15 8 = 0 ∨ s2 < fld v 15 8 ∨ fld v 7 0 = 0 ∨ sj < fld v 7 0
          ∨ fld v 15 8 < fld v 7 0)

/-- Writes of CANF registers that are discarded with CFG_ERR (R497). -/
def badCan (d : Dev) (n off : Nat) (v : Word) : Bool :=
  let on := gb d (CANF_CTL.EN n)
  let old := rd d (CANF_CTL.at n)
  match off with
  | 0x10 => on && decide (fld v 34 33 ≠ fld old 34 33 ∨ fld v 31 31 ≠ fld old 31 31 ∨ fld v 11 0 ≠ fld old 11 0)
  | 0x11 => on || badTiming v 255 128 128
  | 0x12 => on || badTiming v 31 16 16
  | _ => on && decide (0x13 ≤ off)

/-- STATE follows the counters (ISO 11898-1): passive above 127, bus-off above 255 transmit errors. -/
def canState (d : Dev) (n tec rec : Nat) : Dev :=
  let old := gf d (CANF_STAT.STATE n)
  let d1 := pf (pf d (CANF_STAT.TEC n) (min 255 tec)) (CANF_STAT.REC n) (min 255 rec)
  if tec > 255 then (if old = 2 then d1 else raiseEvt (pf d1 (CANF_STAT.STATE n) 2) (canPage n) 2)
  else if tec > 127 ∨ rec > 127 then (if old = 1 then d1 else raiseEvt (pf d1 (CANF_STAT.STATE n) 1) (canPage n) 1)
  else pf d1 (CANF_STAT.STATE n) 0

/-- The controller takes part on the bus (R492, R498). -/
def canLive (d : Dev) (n : Nat) : Bool := gb d (CANF_CTL.EN n) && ifMode d && gf d (CANF_STAT.STATE n) != 2

/-- A write of CANF_CTL.RECOV = 1 starts the recovery of a bus-off controller (R492). -/
def canRecov (d : Dev) (n : Nat) : Dev :=
  if gf d (CANF_STAT.STATE n) = 2 then withCan d n fun x => { x with recovering := true } else d

/-- BUS_OFF_RECOVERY_DONE (R492): error active again, both counters zero. -/
def canRecovered (d : Dev) (n : Nat) : Dev :=
  if (canOf d n).recovering then canState (withCan d n fun x => { x with recovering := false }) n 0 0 else d

/-- Whether a received identifier passes the acceptance filters (R497). -/
def canAccepts (d : Dev) (n : Nat) (w0 : Word) : Bool :=
  let on := (upTo 8).filter fun k => gb d (CANF_ID.EN n k)
  on.isEmpty || on.any fun k =>
    bit w0 33 == gb d (CANF_ID.IDE n k) && decide ((fld w0 28 0 ^^^ gf d (CANF_ID.ID n k)) &&& gf d (CANF_MASK.MASK n k) = 0)

/-! ### Serial controllers (R493, R497): UART 0-7, SPI 8-15, I²C 16-17 -/

def withSer (d : Dev) (k : Nat) (f : SerSt → SerSt) : Dev := { d with ser := tabSet serInit d.ser k (f (serOf d k)) }
def serPage (k : Nat) : Nat := 0x110 + k
def serCtl (k : Nat) : Nat := serPage k * 256 + 0x10
def serOn (d : Dev) (k : Nat) : Bool := bit (rd d (serCtl k)) 35
/-- STAT.TXBUSY of a serial controller: it has taken a record that is not sent yet (R497; log entry 209). -/
def serBusy (d : Dev) (k : Nat) : Bool := serOn d k && (tabFind d.galley.recs (216 + k)).isSome

/-- Writes of UART, SPI and I2C registers that are discarded with CFG_ERR (R497). -/
def badSer (d : Dev) (k off : Nat) (v : Word) : Bool :=
  let old := rd d (serCtl k)
  let value := if k < 8 then decide (fld v 31 30 = 3 ∨ fld v 15 0 < 40) else if k < 16 then decide (fld v 7 0 < 10) else fld v 33 32 == 3
  match off with
  | 0x10 => value || (serOn d k && decide (fld v 34 0 ≠ fld old 34 0))
  | 0x11 => serOn d k
  | 0x12 => serOn d k
  | _ => false

/-- The pins on which a controller receives carry their peripheral function (R479, R480; log entry 139). -/
def serInput (d : Dev) (k : Nat) : Bool :=
  if k < 8 then pinFunc d (45 + 2 * k) == 1
  else if k < 16 then !gb d (SPI_CTL.TARGET (k - 8)) || [0, 1, 3].all fun i => pinFunc d (60 + 4 * (k - 8) + i) == 1
  else pinFunc d (92 + 2 * (k - 16)) == 1 && pinFunc d (93 + 2 * (k - 16)) == 1

/-- The pins on which a controller sends carry their peripheral function (R479). -/
def serOutput (d : Dev) (k : Nat) : Bool :=
  if k < 8 then pinFunc d (44 + 2 * k) == 1
  else if k < 16 then (if gb d (SPI_CTL.TARGET (k - 8)) then [2] else [0, 1, 3]).all fun i => pinFunc d (60 + 4 * (k - 8) + i) == 1
  else pinFunc d (92 + 2 * (k - 16)) == 1 && pinFunc d (93 + 2 * (k - 16)) == 1

/-- The octets of a word that carries `n` of them (R5), as numbers. -/
def octetsOf (w : Word) (n : Nat) : List Nat := (upTo n).map fun i => fld w (8 * i + 7) (8 * i)
/-- The low `n` bits of a number, the least significant first. -/
def bitsUp (n v : Nat) : List Nat := (upTo n).map fun i => v / 2 ^ i % 2

/-- A UART character: start bit, DBITS data bits from the least significant on, parity, stop bits (R493, R497). -/
def uartBits (d : Dev) (u v : Nat) : List Nat :=
  let bs := bitsUp (5 + gf d (UART_CTL.DBITS u)) v
  let odd := bs.foldl (· + ·) 0 % 2
  let par := match gf d (UART_CTL.PAR u) with
    | 1 => [odd]
    | 2 => [1 - odd]
    | _ => []
  0 :: bs ++ par ++ (if gb d (UART_CTL.STOP2 u) then [1, 1] else [1])

/-- What a record puts on the line (R493, R497): UART characters; SPI octets in the order that LSBF gives; I²C octets, most
significant bit first, each with its acknowledge slot, between the START and STOP that word 1 asks for. The acknowledge is the
board's: a NACK ends the octets. -/
def serLine (d : Dev) (k : Nat) (w0 w1 : Word) (nack : Bool) : List Nat :=
  let os := octetsOf w0 (fld w1 2 0)
  if k < 8 then os.flatMap (uartBits d k)
  else if k < 16 then os.flatMap fun v => if gb d (SPI_CTL.LSBF (k - 8)) then bitsUp 8 v else (bitsUp 8 v).reverse
  else
    let last := os.length - 1
    (if bit w1 6 then [2] else []) ++ ((upTo os.length).flatMap fun i =>
      (bitsUp 8 (os.getD i 0)).reverse ++ [if nack && decide (i = last) then 1 else 0]) ++ (if bit w1 7 then [3] else [])

/-- The octets after a START begin with this device's own address (R493): 7 bits, or with A10 the two octets of 10 bits. -/
def ownAddress (d : Dev) (i : Nat) (octets : List (BitVec 8)) : Bool :=
  let a := gf d (I2C_CTL.OWNADDR i)
  let o := fun (n : Nat) => (octets.getD n 0).toNat
  if gb d (I2C_CTL.A10 i) then decide (o 0 / 2 = 0x78 + a / 256 ∧ (o 0 % 2 = 1 ∨ o 1 = a % 256)) else decide (o 0 / 2 = a % 128)

/-- Octets as the controller sees them: an SPI controller sees MISO high while the pin carries GPIO (R480). -/
def serSees (d : Dev) (k : Nat) (octets : List (BitVec 8)) : List (BitVec 8) :=
  if 8 ≤ k ∧ k < 16 ∧ gb d (SPI_CTL.TARGET (k - 8)) = false ∧ pinFunc d (62 + 4 * (k - 8)) ≠ 1 then octets.map fun _ => 0xFF else octets

/-! ### AVSBus (R494) -/

/-- DIV lies outside 10-250, which the register does not take. -/
def badAvs (off : Nat) (v : Word) : Bool := decide (off = 0x10 ∧ (fld v 7 0 < 10 ∨ 250 < fld v 7 0))
def lockAvs (d : Dev) (off : Nat) : Bool := decide (off = 0x10) && mode d != mStart && mode d != mConfig
/-- Any write of AVS_STAT clears FAILS. -/
def avsStatWrite (d : Dev) : Dev := pf d AVS_STAT.FAILS 0

/-! ### JTAG instructions (R495) -/

def jtagBypass (d : Dev) : Dev := withJtag d fun j => { j with instr := .bypass, dr := 0, driving := false, floated := false }
/-- IDCODE returns bits [31:0] of Colophon word 0. -/
def jtagIdcode (d : Dev) : Dev :=
  withJtag d fun j => { j with instr := .idcode, dr := (tabGet 0 d.latch 0).setWidth 32, driving := false, floated := false }
def jtagSample (d : Dev) (cells board : List Nat) : Dev :=
  withJtag d fun j => { j with instr := .samplePreload, seen := capturePins d board, cells := cellsOf cells, driving := false, floated := false }
def jtagExtest (d : Dev) (cells board : List Nat) : Dev :=
  withJtag d fun j => { j with instr := .extest, seen := capturePins d board, cells := cellsOf cells, driving := true, floated := false }
def jtagClamp (d : Dev) : Dev := withJtag d fun j => { j with instr := .clamp, dr := 0, driving := true, floated := false }
def jtagHighz (d : Dev) : Dev := withJtag d fun j => { j with instr := .highz, dr := 0, driving := false, floated := true }

/-! ### Debug (R496) -/

def dbgOpen (d : Dev) : Bool := gb d SEC_STAT.DBGUNL

/-- Debug is an initiator only while it is unlocked (R451). -/
def debugShut (d : Dev) (ini : Initiator) : Bool := ini == .debug && !dbgOpen d

/-- SEC_DBGCTL, SEC_DBGCHAL and SEC_DBGRESP, which locked debug still reaches (R451). -/
def secDebugReg (b : Blk) (off : Nat) : Bool := b == .sec && (off == 0x12 || (decide (0x36 ≤ off) && decide (off ≤ 0x6C)))

/-- HALTREQ: the core halts, or vector 12 is due with the next unexecuted instruction. -/
def haltReq (d : Dev) (c : Nat) : Dev :=
  if (coreOfDev d c).halted || ((coreOfDev d c).excs.any fun e => e.vec == 12) then d else debugStop d c none
/-- STEP: one instruction, or one element, and the core halts again; a breakpoint at IP does not stop it first. -/
def stepReq (d : Dev) (c : Nat) : Dev := setCore d c { coreOfDev d c with stepping := true, bpSkip := true }
/-- RESUME releases a halted core at its saved IP. -/
def resumeReq (d : Dev) (c : Nat) : Dev :=
  let k := coreOfDev d c
  if k.halted then setCore d c { k with halted := false, stepping := false, bpSkip := true } else d
/-- A write of DBG_CTLc: HALTREQ, then RESUME, then STEP of one write. -/
def onDbg (d : Dev) (off : Nat) (v : Word) : Dev :=
  if 0x10 ≤ off ∧ off < 0x18 then
    let c := off - 0x10
    let d1 := if bit v 35 then haltReq d c else d
    let d2 := if bit v 33 then resumeReq d1 c else d1
    if bit v 34 then stepReq d2 c else d2
  else d
/-- BREAKPOINT_HIT: a core that could execute stands at an enabled breakpoint. -/
def breakpointHit (d : Dev) (c : Nat) : Dev :=
  let k := coreOfDev d c
  if bpDue d c && k.excs.isEmpty && !k.draining then debugStop d c (some k.ip) else d

end Sys2Proof.Machine
end

