-- ==== Sys2Proof/Machine/TwinRole.lean ====
section
/-!
DEFINITION. Roles and takeover of a twin (R403-R407): the steps of chapter 17 that change SYS_MODE.
-/
namespace Sys2Proof.Machine

/-- A row of R403 covers a write of ROLE; any other write is refused as RANGE. -/
def roleCovered (d : Dev) (r : Nat) : Bool :=
  let en := gb d (FOLIO_CTL.EN twinPage)
  let m := mode d
  r == 0 || (r == 1 && en && (m == mConfig || (m == mStandby && !gb d TWIN_STAT.OWNIN)))
    || (r == 2 && en && (m == mConfig || m == mStandby || m == mRun))

/-- ROLE takes a value, shown in TWIN_STAT. -/
def setRole (d : Dev) (r : Nat) : Dev := pf (pf d TWIN_ROLE.ROLE r) TWIN_STAT.ROLE r

/-- From SOLO the supervisor starts to wait (R404). -/
def sstFromSolo (d : Dev) : Dev := if sst d = 0 then sstWait d else d

/-- ROLE becomes SOLO: SST SOLO, mirroring stops (R403, R404). -/
def roleSolo (d : Dev) : Dev :=
  let d1 := setSst (setRole d 0) 0
  twinFollow (ownUpdate (withTwin d1 fun x => { x with cycle := [], fwd := [], k0 := [], swReq := false, t0 := none, completeAt := none }))

/-- A ROLE write that R403 covers; the release of a device in RUN makes the pins safe first (R20), and OWN_OUT, if it was
asserted, falls at least 8 tk later (log entry 77). -/
def writeRole (s : State) (r : Nat) : State :=
  let d := s.dev
  if r = 0 then setDev s (roleSolo d)
  else if r = 1 then
    if mode d = mStandby then setDev s (if roleOf d = 2 then withTwin d fun x => { x with swReq := true } else d)
    else setDev s (twinFollow (ownUpdate (sstFromSolo (setRole d 1))))
  else
    -- a takeover under way ends with the role (R403; log entry 186)
    let d0 := if sst d = 4 then setSst (withTwin d fun x => { x with t0 := none, completeAt := none }) 3 else d
    let d1 := withTwin (sstFromSolo (setRole d0 2)) fun x => { x with swReq := false }
    if mode d = mRun then
      let d2 := if gb d TWIN_STAT.OWNOUT then
          { withTwin d1 (fun x => { x with relAt := some (d.now + 8 + Config.ownRelease d.freeCount) }) with freeCount := d.freeCount + 1 }
        else d1
      let s1 := setMode (setDev s d2) mStandby 5
      setDev s1 (twinEvt s1.dev 9)
    else setDev s (notReadyCheck (twinFollow (ownUpdate d1)))

/-- TAKEOVER_DECISION (R406, R407 t0): the condition is tested in every tick; met but for READY, it raises NOTREADY once. -/
def takeoverDecision (d : Dev) : Dev :=
  match takeoverDue d with
  | none => notReadyCheck d
  | some c =>
    let d1 := setSst (setRole (pf d TWIN_STAT.CAUSE c) 1) 4
    twinFollow (ownUpdate (withTwin d1 fun x => { x with
      t0 := some d.now, completeAt := none, swReq := false, engPend := [], gactPend := [] }))

/-- An application tick of the mirror group at least 8 tk after the decision completes the takeover (R407). -/
def takeoverArm (d : Dev) (g : Nat) : Dev :=
  match d.twin.t0 with
  | some t => if sst d = 4 ∧ g = gf d TWIN_MCFG.GRP ∧ t + 8 ≤ d.now then withTwin d fun x => { x with completeAt := some d.now } else d
  | none => d

/-- An engine whose Overlay table was not written completely goes to WARM as at a phase re-lock (R209, R407). -/
def overlayWarm (d : Dev) (e : Nat) : Dev :=
  if gb d (TRAV_OVCFG.EN e) && !ovDone d e && (ovst d e == 3 || ovst d e == 4) then pf (setOvst d e 3) (TRAV_OVSTAT.WCNT e) 0 else d

/-- TAKEOVER_COMPLETE (R404, R406, R407). Where SYS_MODE has left STANDBY meanwhile, it stays as it is (log entry 88). -/
def takeoverCompleteDue (d : Dev) : Bool := sst d == 4 && d.twin.completeAt.isSome
def takeoverComplete (s : State) : State :=
  if takeoverCompleteDue s.dev then
    let d1 := forUpTo 64 (fun e d => overlayWarm d e) s.dev
    -- a pair accepted in this tick is judged after the takeover (R473): the mode it named follows RUN
    let late := (pairNow d1).any fun p => p.old == mStandby
    let s2 := if mode d1 = mStandby then setMode (setDev s d1) mRun 4
      else setDev s (if late then pf d1 SYS_STAT.PREV mRun else d1)
    let d3 := setSst (twinEvt (withTwin s2.dev fun x => { x with t0 := none, completeAt := none }) 4) 3
    setDev s2 (ownUpdate (if gb d3 TWIN_STAT.OWNIN then twinEvt d3 6 else d3))
  else s

/-- FOLIO_CTL.EN of the TWIN folio; EN = 0 makes ROLE SOLO (R403). -/
def twinEn (d : Dev) (en : Bool) : Dev := if en then twinEnable d true else roleSolo (twinEnable d false)

end Sys2Proof.Machine
end

