-- ==== Sys2Proof/Machine/Vote.lean ====
section
/-!
DEFINITION. The vote over triplicated fields, their shadows and the Colophon latches (R66-R71, R436). Every use of a field
votes, so copies that disagree are found and settled before the next command acts; in PARK a read finds them.
-/
namespace Sys2Proof.Machine

/-- A function of the device alone. -/
def onD (s : State) (f : Dev → Dev) : State := setDev s (f s.dev)

/-- Policies of a vote failure (R68). -/
inductive VotePolicy where
  | reset
  | fallback
  | recovery
deriving DecidableEq, Repr

/-- The policy that a field's table names: every triplicated field of the TRIPNET and FORME folios has FALLBACK (R122, R173). -/
def policyOf (_key : Nat) : VotePolicy := .fallback

/-- What a failed field's fallback brings with it: the guard gutter for the pair's gutter (R157), the fallback routes for
the sources of a route field (R122). -/
def voteFallback (d : Dev) (key : Nat) : Dev :=
  let page := key / 256
  let o := key % 256
  if page = 0x50 ∨ page = 0x51 then routeFallback d key
  else if o < 0x38 then guardVote d (page - 0x40) (o - 0x34) true
  else if o < 0x40 then guardVote d (page - 0x40) (o - 0x38) false
  else d

/-- A failed vote: recorded, then the policy of the field (R68, R71). -/
def voteFailed (key : Nat) (s : State) : State :=
  let s1 := onD s fun d => voteMark d key 2
  match policyOf key with
  | .reset => onD s1 fun d => warmReq (pf d RSTC_DETAIL.VPAGE (key / 256)) .vote
  | .fallback => onD s1 fun d => voteFallback ((voteUnit key).foldl (fun d k => wr d k (fallbackOf d k)) d) key
  | .recovery => voteRecovery (onD s1 fun d => (voteUnit key).foldl (fun d k => wr d k (regReset k)) d)

/-- One triplicated field voted: a disagreeing copy rewritten (R67), or the field's policy (R68). -/
def scrubField (s : State) (key : Nat) : State :=
  match voteUnitOf s.dev key with
  | some i =>
    let vals := (voteUnit key).map fun k => (k, copyOf s.dev i k)
    onD s fun d => voteMark (vals.foldl (fun d x => wr d x.1 x.2) d) key 1
  | none => voteFailed key s

/-- The copies of a register's field disagree. -/
def disagrees (d : Dev) (key : Nat) : Bool := (voteUnit key).any fun k => (tabFind d.folio.copies k).isSome

/-- A read of a triplicated register votes its field (R66-R68). -/
def voteAt (key : Nat) (s : State) : State := if disagrees s.dev key then scrubField s key else s

/-- The copies of a shadow agree. -/
def Shadow.clean (s : Shadow) : Bool := s.landed.all fun e => decide (e.2.a = e.2.b ∧ e.2.b = e.2.c)

/-- The shadow of a triplicated register voted: corrected, or discarded with no policy (R70). -/
def scrubShadow (d : Dev) (key : Nat) : Dev :=
  match tabFind d.folio.shadows key with
  | none => d
  | some s =>
    if s.clean then d
    else if s.landed.all fun e => (vote3 e.2).isSome then
      voteMark (withFolio d fun f => { f with shadows := tabPut f.shadows key ⟨s.landed.map fun e =>
        let v := (vote3 e.2).getD 0
        (e.1, ⟨v, v, v⟩)⟩ }) key 1
    else fixStaged (voteMark (withFolio d fun f => { f with shadows := tabErase f.shadows key }) key 2) (key / 256)

/-- A Colophon latch voted: corrected, or a warm reset with cause VOTE (R436), with its kind and word address (R467). -/
def scrubLatch (d : Dev) (k : Nat) : Dev :=
  match tabFind d.flash.latchCopies k with
  | none => d
  | some t =>
    let d1 := { d with flash := { d.flash with latchCopies := tabErase d.flash.latchCopies k } }
    match vote3 t with
    | some v => { d1 with latch := tabSet 0 d1.latch k v }
    | none => warmReq (pf (pf (pf d1 RSTC_DETAIL.VPAGE 0x1FF) RSTC_DETAIL.KIND 3) RSTC_CRITADDR.ADDR (0x8400000 + k)) .vote

/-- No copy, shadow or latch disagrees. -/
def votesAgree (d : Dev) : Bool := d.folio.copies.isEmpty && d.flash.latchCopies.isEmpty && d.folio.shadows.all fun e => e.2.clean

/-- VOTE_SCRUB: every triplicated field, every shadow and every Colophon latch is voted; not in PARK (R66). The fields that
differ are those that `copies` lists. -/
def voteScrub (s : State) : State :=
  if mode s.dev == mPark then s
  else
    let s1 := (s.dev.folio.copies.map (·.1)).foldl (fun s k => voteAt k s) s
    onD s1 fun d =>
      let d2 := (d.folio.shadows.map (·.1)).foldl scrubShadow d
      (d2.flash.latchCopies.map (·.1)).foldl scrubLatch d2

/-- What every use does (R66): copies that disagree are settled. -/
def voteUse (s : State) : State := if votesAgree s.dev then s else voteScrub s

/-- The trip network uses the routes of the sources for which `uses` holds: their fields are voted in every mode, in PARK too
(R66-R68, R122, R127). -/
def routeUse (uses : Nat → Bool) (s : State) : State :=
  if s.dev.folio.copies.isEmpty then s
  else forUpTo 179 (fun k s => if uses k then voteAt (routeKey k) s else s) s

end Sys2Proof.Machine
end

