-- ==== Sys2Proof/Machine/Folio.lean ====
section
/-!
DEFINITION. The folio access (chapter 03): what one fabric write or read of a folio register does. A write is judged
(mode lock, bad value, the block's own refusals: R52, R517), lands in the shadow or the register (R53), and acts on its
block; a guarded register takes quoin pairs (R60-R63).
-/
namespace Sys2Proof.Machine

/-! ### Judging a write -/

/-- What a folio says to a write. -/
inductive Verdict where
  | ok
  /-- ignored without an error -/
  | ignore
  /-- refused because of the mode (R52) -/
  | lock
  /-- a value the register does not use: RANGE for a guarded register (R62) -/
  | range
  /-- CFG_ERR of the block (R517) -/
  | cfg
  /-- the block's own event for the value -/
  | own (k : Nat)
deriving DecidableEq, Repr

/-- SRC or INST of SYS_STROBESRCg that does not exist (R59). -/
def badStrobe (v : Word) : Bool :=
  decide (4 < fld v 11 9) || (decide (1 ≤ fld v 11 9 ∧ fld v 11 9 ≤ 3) && decide (15 < fld v 5 0))

/-- A write of FAB_QUOTAi that R344 refuses. -/
def badQuota (d : Dev) (i : Nat) (v : Word) : Bool :=
  let rsv := fld v 29 16
  let max := fld v 13 0
  let sum := (upTo 40).foldl (fun n k => n + if k = i then rsv else gf d (FAB_QUOTA.RSV k)) 0
  decide (max < rsv ∨ max = 0 ∨ 8192 < max ∨ 8192 < sum ∨ (i = 16 ∧ 4096 < max))

/-- A FAB_RETIRE pair that is no transition of R357. -/
def badRetire (d : Dev) (v : Word) : Bool :=
  let m := gf d FAB_RETIRE.MODE
  let b := gf d FAB_RETIRE.BANK
  !((decide (m = 0 ∧ fld v 5 4 = 1) && !gbit d FAB_BANKOFF.OFF 16)
    || decide (m = 1 ∧ fld v 5 4 = 0) || decide (m = 1 ∧ fld v 5 4 = 2 ∧ fld v 3 0 = b))

/-- A block that MEMP_CLRBLK does not clear (R356). -/
def badClrblk (v : Word) (s : State) : Bool :=
  let a := fld v 27 3 * 8
  match regionOf none a with
  | .sram _ | .itcm _ | .dtcm _ => false
  | .galley => bit (deliveredWord s.mem a) 35 || bit (deliveredWord s.mem (a + 4)) 35
  | .overlay => (upTo 8).any fun i => overlayLocked s.dev (a + i)
  | _ => true

/-- A value discarded by the register's table or rule: `old` the word the register (or its shadow) holds, `v` the word written. -/
def verdict (ini : Initiator) (b : Blk) (i off : Nat) (old v : Word) (s : State) : Verdict :=
  let d := s.dev
  let cfg := fun (x : Bool) => if x then Verdict.cfg else .ok
  match b with
  | .sys =>
    if off = 0x10 then (if 6 ≤ fld v 3 0 then .range else if modeRefused d (fld v 3 0) then .lock else .ok)
    else cfg (decide (0x20 ≤ off ∧ off < 0x30) && badStrobe v)
  | .rstc =>
    if off = 0x11 ∧ gb d RSTC_SWDOG.EN ∧ ¬ bit v 35 then .range
    else cfg (decide ((off = 0x11 ∧ fld v 15 0 = 0) ∨ (off = 0x12 ∧ v ≠ 0x3C3C#36)))
  | .pinc => cfg (badPinc off v)
  | .merid =>
    if off = 0x10 then
      (if (fld v 11 10 ≠ fld old 11 10 ∨ fld v 23 18 ≠ fld old 23 18) ∧ mode d ≠ mStart ∧ mode d ≠ mConfig then .lock
       else cfg (decide (fld v 23 18 < 10 ∨ 50 < fld v 23 18 ∨ fld v 9 8 = 3)))
    else if off = 0x16 then (if mode d = mConfig then .ok else .lock)
    else if off = 0x15 ∧ rateOwned d then .ignore
    else .ok
  | .pace =>
    if off = 0x10 ∧ bit v 8 ∧ ¬ bit old 8 ∧ mode d ≠ mConfig then .lock
    else if badPace d off v then .own 4 else .ok
  | .cba =>
    if off = 0x11 then (if fld v 9 0 < 200 ∨ 1000 < fld v 9 0 then .range else if ceilLow d v then .own 1 else .ok) else .ok
  | .evc => .ok
  | .fab =>
    if off = 0x10 then cfg (decide (fld v 15 0 = 0))
    else if off = 0x11 then (if badRetire d v then .range else .ok)
    else cfg (decide (0x20 ≤ off ∧ off < 0x48) && badQuota d (off - 0x20) v)
  | .memp =>
    if off = 0x10 then cfg (decide (64 < (gf d MEMP_STAT.HEAD + 128 - fld v 6 0) % 128)) else cfg (decide (off = 0x14) && badClrblk v s)
  | .galley => .ok
  | .sec => if off = 0x10 ∧ rangeSecCfg d v then .range else .ok
  | .flashc => cfg (badFlashc off v)
  | .twin =>
    if off = 0x10 then (if roleCovered d (fld v 1 0) then .ok else .range)
    else if lockTwin d off then .lock else cfg (badTwin off v)
  | .core => .ok
  | .tsc => cfg (badTsc d i off v || decide (off = 0x16 ∧ v ≠ 0xA5A5#36))
  | .forme => if lockForme d off v then .lock else cfg (badForme d i off v)
  | .tripnet => .ok
  | .surv => if lockSurv d i off v then .lock else cfg (badSurv off v)
  | .sdf => if badFdThr off v then .range else cfg (if off < 0x50 then badSdf off v else badFd off v)
  | .cont => if lockCont d i off v then .lock else cfg (badCont off v)
  | .trav =>
    if coefLocked d i off && decide (ini ≠ .maelu) then .own 10
    else if badTrav off v then .cfg
    else if off = 0x10 ∧ mode d = mStandby ∧ ini ≠ .maelu then .ignore else .ok
  | .brng => cfg (badBrng d i off v)
  | .press => cfg (badPress d i off v)
  | .pcie => .ok
  | .eth => if off = 0x23 ∧ gb d (ETH_MDIO.BUSY i) then .ignore else cfg (badEth d i off v)
  | .canf => cfg (badCan d i off v)
  | .uart => cfg (badSer d i off v)
  | .spi => cfg (badSer d (8 + i) off v)
  | .i2c => cfg (badSer d (16 + i) off v)
  | .avs => if lockAvs d off then .lock else cfg (badAvs off v)
  | .gpio => .ok
  | .dbg => .ok

/-! ### What an accepted word does to its block -/

/-- SYS_STROBE and SYS_STROBESRCg (R55, R59). -/
def onSys (d : Dev) (off : Nat) (old v : Word) : Dev :=
  if off = 0x18 then forUpTo 16 (fun g d => if bit v g then fireStrobe d g (d.now + 4) else d) d
  else if 0x20 ≤ off ∧ off < 0x30 then
    let g := off - 0x20
    withFolio d fun f => { f with
      srcWas := tabPut f.srcWas g (d.now, match tabFind f.srcWas g with
        | some (t, w) => if t = d.now then w else old
        | none => old)
      divCnt := tabSet 0 f.divCnt g 0 }
  else d

/-- MERID registers (R21, R25, R27, R29). -/
def onMerid (d : Dev) (off : Nat) (old v : Word) : Dev :=
  if off = 0x10 then
    let d1 := onMeridCtl d old
    if gb d MERID_STAT.LOCK && !gb d1 MERID_STAT.LOCK then notReadyCheck (lockShort d1) else d1
  else if off = 0x15 then pf d MERID_RATE.RATE (wrapN 24 (clampRate (signed 24 (fld v 23 0))))
  else if off = 0x16 then stepCounter d v
  else if 0x20 ≤ off ∧ off < 0x30 then judgeAlarm d (off - 0x20)
  else if off = 0x40 then onAlmen d old
  else d

/-- EVC registers (R323, R325, R328, R332, R337). -/
def onEvc (d : Dev) (q off : Nat) (old v : Word) : Dev :=
  if off = 0x11 then writeSrc d q v
  else if off = 0x40 then onGate d (bit old 0)
  else if off = 0x41 then (if max 1 (fld v 7 0) = max 1 (fld old 7 0) then d else filtRestart d)
  else if off = 0x42 then swSet d (fld v 10 0)
  else if 0x20 ≤ off ∧ off < 0x28 then onPend d q (off - 0x20) old v
  else if 0x28 ≤ off ∧ off < 0x30 then onLost d q (off - 0x28) old v
  else d

/-- MEMP_CLRBLK: a block zeroed with a valid code, in both copies under MIRROR (R356, R358). -/
def clearNamed (v : Word) (s : State) : State :=
  let a := fld v 27 3 * 8
  let r := regionOf none a
  let s1 := setMem s (clearBlock s.mem (physOf s.dev r a))
  match r with
  | .sram b => if mirrorOf s.dev b then setMem s1 (clearBlock s1.mem (spareBase + a % 0x10000)) else s1
  | _ => s1

/-- A TWIN register written; a test facility that is enabled brings the glitch filter into force (R325). -/
def onTwinReg (d : Dev) (off : Nat) (before : Dev) : Dev :=
  let d1 := onTwin d off
  if filtAll d1 && !filtAll before then filtRestart d1 else d1

/-- A write of a Traverse register that acts at once: a latch is an arrival with the acceptance timestamp (R177), a state
word is written in OPEN (R200). -/
def onTravReg (d : Dev) (e off : Nat) (old v : Word) : Dev :=
  if 0x30 ≤ off ∧ off < 0x34 then arrive d e (off - 0x30) (v.setWidth 32) (shortTs d) 0
  else if 0x60 ≤ off then writeStw d e (off - 0x60) v
  else onTrav d e off old v

/-- The effect of an accepted word on its block; the register holds it already, but for those of `selfKept`. -/
def folioHook (ini : Initiator) (b : Blk) (i page off : Nat) (old v : Word) (before : Dev) (s : State) : State :=
  match b with
  | .sys => if off = 0x10 then softMode s (fld v 3 0) else onD s fun d => onSys d off old v
  | .rstc => onD s fun d => onRstc d ini off v
  | .pinc => s
  | .merid => onD s fun d => onMerid d off old v
  | .pace => onD s fun d => if off = 0x10 ∨ off = 0x14 then onPaceCtl d else if off = 0x11 then onPaceTarget d else d
  | .cba => s
  | .evc => onD s fun d => onEvc d i off old v
  | .fab => onD s fun d => if off = 0x12 ∧ bit v 16 ∧ gf d FAB_RETIRE.MODE = 1 then pf d FAB_RETIRE.MODE 0 else d
  | .memp => if off = 0x10 then onD s fixUnread else if off = 0x14 then clearNamed v s else s
  | .galley => onD s fun d => onGalley d off v
  | .sec => onD s fun d => onSec d off v
  | .flashc => s
  | .twin => if off = 0x10 then writeRole s (fld v 1 0) else onD s fun d => onTwinReg d off before
  | .core => s
  | .tsc => onD s fun d => onTsc d i off old v
  | .forme => onD s fun d => if 0x20 ≤ off ∧ off < 0x2C then edgeWrite d i off v else onForme d i off old v
  | .tripnet =>
    let s1 := if page = 0x51 ∧ off = 0x54 then routeUse (fun k => activeInTick s.dev k) s else s
    onD s1 fun d => onTripnet d page off old v
  | .surv => onD s fun d => onSurv d i off old v
  | .sdf => onD s fun d => if off < 0x50 then sdfSeen d (onSdf d i off old v) (4 * i + (off - 0x10) / 16) else onFd d i off old v
  | .cont => onD s fun d => noMeasAll (onCont d i off old v)
  | .trav => onD s fun d => onTravReg d i off old v
  | .brng => onD s fun d => onBrng d i off v
  | .press => onD s fun d => onPress d i off v
  | .pcie => s
  | .eth => onD s fun d => onEth d i off v
  | .canf => onD s fun d => if off = 0x10 ∧ bit v 32 then canRecov d i else d
  | .uart | .spi | .i2c => s
  | .avs => onD s fun d => if off = 8 then avsStatWrite d else d
  | .gpio => onD s fun d => if off = 0x12 then gpioSet d i v else if off = 0x13 then gpioClr d i v else d
  | .dbg => onD s fun d => onDbg d off v

/-- Registers whose hook keeps the word itself. -/
def selfKept (b : Blk) (off : Nat) : Bool := match b with
  | .sys | .twin => off == 0x10
  | .evc => off == 0x11
  | .forme => decide (0x20 ≤ off ∧ off < 0x2C)
  | .trav => decide (0x30 ≤ off ∧ off < 0x34)
  | _ => false

/-- A Traverse register applied while an update is in progress acts after it (R57). -/
def deferred (d : Dev) (b : Blk) (i : Nat) : Bool := match b with
  | .trav => (travOf d i).upd.isSome
  | _ => false

/-- A staged word is applied: held back for the update in progress, or in force with its effect. -/
def commitStaged (ini : Initiator) (b : Blk) (i page off : Nat) (v : Word) (s : State) : State :=
  let key := page * 256 + off
  if deferred s.dev b i then onD s fun d => fixStaged (withFolio d fun f => { f with defer := f.defer ++ [(key, v)] }) page
  else folioHook ini b i page off (rd s.dev key) v s.dev (onD s fun d => wr d key v)

/-- Words that apply in one tick act together (R192): TRAV_OVCFG, which starts from TRAV_OVORG and TRAV_OVWJ, comes after
the registers below the state words, and they after it. -/
def actTogether {α : Type} (l : List (Nat × α)) : List (Nat × α) :=
  let rank := fun (k : Nat) => if k < 0x8000 ∨ 0xC000 ≤ k ∨ (k % 256 < 0x60 ∧ k % 256 ≠ 0x40) then 0 else if k % 256 = 0x40 then 1 else 2
  (l.filter fun e => rank e.1 == 0) ++ (l.filter fun e => rank e.1 == 1) ++ l.filter fun e => rank e.1 == 2

/-- The captured words of an engine act at the end of its update (R57). -/
def flushDefer (e : Nat) (s : State) : State :=
  let page := travPage e
  let mine := actTogether (s.dev.folio.defer.filter fun x => decide (x.1 / 256 = page))
  mine.foldl (fun s x => commitStaged .galley .trav e page (x.1 % 256) x.2 s)
    (onD s fun d => fixStaged (withFolio d fun f => { f with defer := f.defer.filter fun x => decide (x.1 / 256 ≠ page) }) page)

/-- Captured words of engines whose update ended with the entry into PARK act there (R192, R199). -/
def deferFlush (s : State) : State :=
  (s.dev.folio.defer.map fun x => x.1 / 256 - 0x80).foldl
    (fun s e => if (travOf s.dev e).upd.isNone then flushDefer e s else s) s

/-- One captured shadow applies at tick `a`, with its effect. -/
def applyOne (key a : Nat) (s : State) : State :=
  match blockOf (key / 256) with
  | none => s
  | some (b, i) =>
    let old := rd s.dev key
    let (d1, did) := applyShadow s.dev key a
    if did then commitStaged .galley b i (key / 256) (key % 256) (rd d1 key) (setDev s (wr d1 key old)) else setDev s d1

/-- Every shadow of a registration group applies at tick `a` (R55, R56). -/
def applyGroup (g a : Nat) (s : State) : State :=
  let keys := actTogether (s.dev.folio.shadows.filter fun e => groupOf s.dev e.1 == some g)
  keys.foldl (fun s k => applyOne k.1 a s) s

/-- GRP becomes 0x1F: the non-critical shadows of the page apply as immediate writes (R54). -/
def applyLoose (page : Nat) (s : State) : State :=
  let keys := (s.dev.folio.shadows.map (·.1)).filter fun k => decide (k / 256 = page) && !isCritical k
  keys.foldl (fun s k =>
    match shadowVal s.dev k, blockOf page with
    | some v, some (b, i) =>
      commitStaged .galley b i page (k % 256) v
        (onD s fun d => fixStaged (withFolio d fun f => { f with shadows := tabErase f.shadows k }) page)
    | _, _ => s) s

/-! ### Header words -/

/-- FOLIO_CTL.EN of a block changes. -/
def enableHook (b : Blk) (i : Nat) (en : Bool) (d : Dev) : Dev :=
  match b with
  | .surv => survEnable d i en
  | .sdf => fdGroup (sdfEnable d i en) i
  | .cont => noMeasAll (contEnable d i en)
  | .trav => travEnable d i en
  | .brng => brngEnable d i en
  | .press => pressEnable d i en
  | .twin => twinEn d en
  | .forme => padsFollow d i
  | .pcie => pcieEnable d en
  | _ => d

/-- Cores 1-7 are not released in START (R448). -/
def enableLocked (d : Dev) (b : Blk) (i : Nat) (en : Bool) : Bool :=
  match b with
  | .core => en && decide (0 < i) && mode d == mStart
  | _ => false

/-- A matching pair on FOLIO_CTL: what it says (R62, R73, R448, R516). -/
def ctlVerdict (d : Dev) (b : Blk) (i : Nat) (v : Word) : Verdict :=
  if bit v 1 then (if brstRange b then .range else if brstConfig b && mode d != mConfig then .lock else .ok)
  else if !bit v 0 && enRange b then .range
  else if enableLocked d b i (bit v 0) then .lock
  else .ok

/-- EN is written, and the block acts on its change. -/
def enableWrite (b : Blk) (i page : Nat) (en : Bool) (d : Dev) : Dev :=
  let was := gb d (FOLIO_CTL.EN page)
  let d1 := pb d (FOLIO_CTL.EN page) en
  if was = en then d1 else cbaRecheck (enableHook b i en d1) d

/-- BRST resets the block, with the EN bit of the write ignored (R73); otherwise EN is written, which a block whose release
waits for LOCK keeps for the release (R471; log entry 167). -/
def applyCtl (b : Blk) (i page : Nat) (v : Word) (d : Dev) : Dev :=
  if bit v 1 then blockReset d page
  else if gb d (FOLIO_STAT.BRST_PEND page) then
    withFolio d fun f => { f with brstEn := (f.brstEn.filter fun p => decide (p ≠ page)) ++ if bit v 0 then [page] else [] }
  else enableWrite b i page (bit v 0) d

/-- BLOCK_RESET_RELEASE, with the EN = 1 that waited for it (R471). -/
def blockReleaseStep (d : Dev) (page : Nat) : Dev :=
  match blockOf page with
  | some (b, i) =>
    let d1 := blockRelease d page
    if brstDue d page && d.folio.brstEn.contains page then enableWrite b i page true d1 else d1
  | none => blockRelease d page

/-- FOLIO_GROUP as it is kept: GRP 0x10-0x1E leaves GRP, CGRP is reserved without critical fields (R50). -/
def groupWord (b : Blk) (old v : Word) : Word :=
  let v1 := if 0x10 ≤ fld v 4 0 ∧ fld v 4 0 < 0x1F then setFld v 4 0 (fld old 4 0) else v
  (if b.crit then v1 else setFld v1 11 8 (fld old 11 8)) &&& (maskOf 11 7 ||| maskOf 4 0)

/-! ### Writing -/

/-- The register word that a write leaves: RW bits from the write, W1C bits cleared, WO bits 0, the rest kept (R8). -/
def mergeWord (r : RegDef) (old v : Word) : Word :=
  (v &&& r.mask .rw) ||| (old &&& (r.mask .ro ||| (r.mask .w1c &&& ~~~v)))

/-- A header write that is not guarded. -/
def headerWrite (b : Blk) (page off : Nat) (r : RegDef) (v : Word) (s : State) : State :=
  let key := page * 256 + off
  let old := rd s.dev key
  if off = 4 then
    let w := groupWord b old v
    let s1 := onD s fun d => wr d key w
    if fld w 4 0 = 0x1F ∧ fld old 4 0 ≠ 0x1F then applyLoose page s1 else s1
  else
    let s1 := onD s fun d => wr d key (mergeWord r old v)
    if b = .twin ∧ off = 5 ∧ bit old 10 ∧ bit v 10 then onD s1 onDiverge
    else if b = .forme ∧ off = 6 then onD s1 fun d => tripSources d (page - 0x40) (rd d (TRIPNET_FSTAT.at (page - 0x40)))
    else s1

/-- A verdict that refuses, reported for a register that is guarded or not (R62, R517). -/
def refuseWrite (d : Dev) (page off : Nat) (guarded : Bool) : Verdict → Dev
  | .ok | .ignore => d
  | .lock => modeLock d page
  | .range => if guarded then quoinFail d page off 6 else cfgErr d page off
  | .cfg => cfgErr d page off
  | .own k => raiseEvt d page k

/-- A store of a core's instruction in the boot ROM, for the ROM's command interface (R438): the store that is being
performed, or one by the instruction that retired last. -/
def fromRom (d : Dev) (ini : Initiator) : Bool := match ini with
  | .core c => ((coreOfDev d c).romStore).getD (decide ((coreOfDev d c).lastIp / 2 < 0x4000))
  | _ => false

/-- In START the folios of these blocks are writable only by the boot ROM (R94, R103, R199, R234); another's write is a mode
lock (log entry 98). -/
def startLocked (d : Dev) (ini : Initiator) (b : Blk) : Bool :=
  mode d == mStart && (b == .surv || b == .sdf || b == .trav || b == .brng) && !fromRom d ini

/-- One write that has come through its guard: judged, landed in the shadow or the register, with its effect, and
forwarded to a standby (R398). -/
def applyWrite (ini : Initiator) (b : Blk) (i page off : Nat) (r : RegDef) (v : Word) (s : State) : State :=
  let key := page * 256 + off
  let fwd := fun (s : State) => onD s fun d =>
    let d1 := forwardWrite d ini page off v
    if r.guarded then forwardWrite d1 ini page (off + 0x80) (~~~v) else d1
  if startLocked s.dev ini b then onD s fun d => modeLock d page
  else if off = 3 then
    match ctlVerdict s.dev b i v with
    | .ok => fwd (onD s (applyCtl b i page v))
    | x => onD s fun d => refuseWrite d page off true x
  else if off < 8 then fwd (headerWrite b page off r v s)
  else
    let held := if r.staged then (shadowVal s.dev key).getD (rd s.dev key) else rd s.dev key
    let w := mergeWord r held v
    let x := v &&& (r.mask .rw ||| r.mask .wo ||| r.mask .w1c)
    match verdict ini b i off held x s with
    | .ok =>
      if r.staged then
        (if (groupOf s.dev key).isSome then fwd (onD s fun d => landShadow d key w) else fwd (commitStaged ini b i page off w s))
      else if selfKept b off then fwd (folioHook ini b i page off held x s.dev s)
      else fwd (folioHook ini b i page off held x s.dev (onD s fun d => wr d key w))
    | y => onD s fun d => refuseWrite d page off r.guarded y

/-! ### Quoin pairs (R60-R63) -/

/-- The pending value of an initiator on a page. -/
def quoinOf (d : Dev) (page : Nat) (ini : Initiator) : Option QuoinPend :=
  d.folio.quoin.find? fun q => decide (q.page = page ∧ q.ini = ini)

/-- It is dropped. -/
def quoinDrop (d : Dev) (page : Nat) (ini : Initiator) : Dev :=
  withFolio d fun f => { f with quoin := f.quoin.filter fun q => !decide (q.page = page ∧ q.ini = ini) }

/-- QUOIN_TIMEOUT: a pending value has waited 4,096 tk (R61, R62). -/
def quoinExpired (d : Dev) (q : QuoinPend) : Bool := decide (q.tick + 4096 ≤ d.now)
def quoinTimeout (d : Dev) (page : Nat) (ini : Initiator) : Dev :=
  match quoinOf d page ini with
  | some q => if quoinExpired d q then quoinFail (quoinDrop d page ini) page q.off 4 else d
  | none => d

/-- A guarded register or complement port: the register of offset `k`. -/
def guardedAt (page k : Nat) : Option RegDef :=
  match regAt page k with
  | some (r, _) => if r.guarded then some r else none
  | none => none

/-- A write to a folio by an initiator, with its pending value already dealt with. -/
def freshWrite (ini : Initiator) (b : Blk) (i page off : Nat) (v : Word) (s : State) : State :=
  if off ≥ 0x80 then
    (if (guardedAt page (off - 0x80)).isSome then onD s fun d => quoinFail d page (off - 0x80) 3 else s)
  else match regAt page off with
  | none => s
  | some (r, _) =>
    if r.guarded then
      (if 4 ≤ (s.dev.folio.quoin.filter fun q => decide (q.page = page)).length then onD s fun d => quoinFail d page off 5
       else onD s fun d => withFolio d fun f => { f with quoin := f.quoin ++ [⟨page, off, ini, v, d.now⟩] })
    else applyWrite ini b i page off r v s

/-- A write in the order of R60-R62: the complement of a pending value completes or fails its pair; any other write of the
initiator discards the value and is handled afresh. -/
def quoinWrite (ini : Initiator) (b : Blk) (i page off : Nat) (v : Word) (s : State) : State :=
  let s0 := onD s fun d => quoinTimeout d page ini
  match quoinOf s0.dev page ini with
  | none => freshWrite ini b i page off v s0
  | some q =>
    let s1 := onD s0 fun d => quoinDrop d page ini
    if off = q.off + 0x80 then
      match guardedAt page q.off with
      | some r =>
        if v = ~~~q.val then applyWrite ini b i page q.off r q.val s1 else onD s1 fun d => quoinFail d page q.off 1
      | none => s1
    else freshWrite ini b i page off v (onD s1 fun d => quoinFail d page q.off 2)

/-- Commands that a Galley write queued run at once (R367). -/
def galleyRun (s : State) : State := if s.dev.galley.cmds = [] then s else runCmds s

/-- One whole-word write to a folio page: unlisted pages and reserved offsets ignore it (R9), the ROM's command interface
denies it (R438), a block that waits for LOCK after its reset takes none (R471), and locked debug reaches three registers
(R451). -/
def folioStore (ini : Initiator) (page off : Nat) (v : Word) (s : State) : State × BusRes :=
  match blockOf page with
  | none => (s, .ok 0)
  | some (b, i) =>
    if debugShut s.dev ini && !secDebugReg b off then (s, .err)
    else if b = .dbg ∧ 0x10 ≤ off % 0x80 ∧ dbgOpen s.dev = false then (s, .ok 0)
    else if b = .flashc ∧ 0x20 ≤ off ∧ off < 0x40 then
      (if fromRom s.dev ini then (s, .ok 0) else (onD s fun d => raiseEvt d flashPage 2, .err))
    else if 8 ≤ off % 0x80 ∧ gb s.dev (FOLIO_STAT.BRST_PEND page) then (s, .ok 0)
    else (galleyRun (deferFlush (quoinWrite ini b i page off v s)), .ok 0)

/-- A matching pair, value then complement. -/
def folioPair (ini : Initiator) (page off : Nat) (v : Word) (s : State) : State :=
  (folioStore ini page (off + 0x80) (~~~v) (folioStore ini page off v s).1).1

/-- A store to a folio address, 0x0F00_0000 + page × 0x100 + offset. -/
def folioStoreAt (ini : Initiator) (a : Nat) (v : Word) (s : State) : State × BusRes :=
  folioStore ini ((a - 0xF000000) / 256) (a % 256) v s

end Sys2Proof.Machine
end

