-- ==== Sys2Proof/Machine/FolioRead.lean ====
section
/-!
DEFINITION. Reads of folio registers (R49, R53, R63): the applied or shadow value, the live views that blocks show, and
the few reads with a side effect.
-/
namespace Sys2Proof.Machine

/-- No record is in progress at the takers lo to lo+n-1. -/
def recIdle (d : Dev) (lo n : Nat) : Bool := d.galley.recs.all fun r => decide (r.1 < lo ∨ lo + n ≤ r.1)

/-- None of the takers lo to lo+n-1 has a parked take. -/
def parkIdle (d : Dev) (lo n : Nat) : Bool := d.galley.parked.all fun p => decide (p.1 < lo ∨ lo + n ≤ p.1)

/-- FOLIO_STAT.IDLE of a block (R50): no operation in progress and no fabric request outstanding. -/
def idleOf (d : Dev) (b : Blk) (i : Nat) : Bool :=
  match b with
  | .surv => (survOf d i).convs.isEmpty && (survPend d i) == 0 && d.landings.all fun l => decide (l.unit ≠ i)
  | .sdf => (upTo 4).all fun c => (sdfOf d (4 * i + c)).sync.isEmpty && d.landings.all fun l => decide (l.unit ≠ 24 + 4 * i + c)
  | .trav => (travOf d i).upd.isNone
  | .brng => (brngOf d i).frame.isNone && d.landings.all fun l => decide (l.unit ≠ 40 + i)
  | .press => (upTo 16).all fun c => decide (chState d (16 * i + c) = 0 ∨ 4 ≤ chState d (16 * i + c))
  | .galley => d.galley.posted.isEmpty && d.galley.waiters.isEmpty && d.galley.parked.isEmpty
  | .core => (pendingStores (coreOfDev d i)).isEmpty && !coreRuns d i
  | .flashc => d.flash.op.isNone
  | .fab => gf d FAB_STAT.INUSE == 0
  | .forme => !counting d i
  | .twin => d.twin.replay.isEmpty && d.twin.fwd.isEmpty && d.twin.cycle.isEmpty
  | .memp => gf d MEMP_INIT.DONE == 0x7FFFFFFFF
  | .pace | .avs => !d.pace.toSend
  | .cba => d.cba.held.isEmpty
  | .tripnet => d.trip.due.isEmpty && d.trip.swDue.isEmpty
  | .cont => (upTo 16).all fun c =>
    let x := compOf d (16 * i + c)
    (x.hLoads ++ x.lLoads).all fun l => decide (l.1 ≤ d.now)
  | .pcie => !d.host.held && !(d.fab.waiting.any fun w => decide (w.1 = 35))
  | .eth => (ethOf d i).mdio.isNone && recIdle d (192 + 8 * i) 8 && parkIdle d (192 + 8 * i) 8
  | .canf => !(canOf d i).recovering && recIdle d (208 + i) 1
  | .uart => recIdle d (216 + i) 1
  | .spi => recIdle d (224 + i) 1
  | .i2c => recIdle d (232 + i) 1
  | .sec => !d.host.held
  | .sys | .rstc | .pinc | .merid | .evc | .tsc | .gpio | .dbg => true

/-- The filtered input of a source: a pulse is active in its tick, unless the filter hides it (R320, R325). -/
def inputOf (d : Dev) (s : Nat) : Bool := match tabFind d.evc.pulses s with
  | some t => decide (t = d.now) && !(filtOn d s && decide (filtLen d > 1))
  | none => filtered d s

/-- EVC_LEVELw of a page: the filtered inputs (R337). -/
def evcLevels (d : Dev) (q w : Nat) : Word :=
  (upTo 32).foldl (fun a b => if inputOf d (256 * q + 32 * w + b) then setBitW a b true else a) 0

/-- DBG_CTLc with HALTED (R497). -/
def dbgCtl (d : Dev) (c : Nat) : Word := setBitW (rd d (DBG_CTL.at c)) 31 (coreOfDev d c).halted

/-- The register of an offset as its block shows it, before any side effect. -/
def viewReg (b : Blk) (i off : Nat) (d : Dev) : Word :=
  let w := rd d (pageOf b i * 256 + off)
  match b with
  | .merid => if off = 0x14 then shortTs d else w
  | .evc =>
    if 0x38 ≤ off ∧ off < 0x40 then evcLevels d i (off - 0x38)
    else if i = 0 ∧ off = 8 then setBitW (setBitW (setBitW w 2 (testOn d)) 1 (filtAll d)) 0 (gb d EVC_GATE.GATE)
    else w
  | .memp =>
    let e := (tabFind d.memp.log (gf d MEMP_LOGSEL.SEL)).getD ⟨0, 0⟩
    if off = 0x12 then e.a else if off = 0x13 then e.b else w
  | .galley => if off = 8 then galleyStat d else w
  | .press => if i = 0 ∧ off = 8 then setFld w 12 0 (heldBy d 16) else w
  | .sec => if 0x20 ≤ off ∧ off < 0x36 then devPub d (off - 0x20) else w
  | .twin => if off = 8 then twinStat d else if off = 0xD then hbAge d else w
  | .core => if off = 8 then coreStat d i else if off = 9 then BitVec.ofNat 36 (coreOfDev d i).lastIp else w
  | .tsc => if off = 8 then tscStat d i else if off = 9 then tscReady d i else if off = 0xA then tscWaiting d i else w
  | .forme =>
    if off = 8 then formeStat d i else if off = 9 then formeCnt d i else if off = 0xD then formePstat d i
    else if off = 0xF then formePadst d i else if 0x20 ≤ off ∧ off < 0x2C then edgeRead d i off else w
  | .surv => if off = 8 then survStat d i else if off = 0xA then survPend d i else w
  | .sdf => if off = 8 then sdfStat d i else w
  | .brng => if off = 8 then brngStat d i else w
  | .trav =>
    if off = 8 then travStat d i
    else if off = 0x55 then BitVec.ofNat 36 (feLive d i (gb d (TRAV_FECFG.EN i)))
    else if 0x60 ≤ off then readStw d i (off - 0x60) else w
  | .dbg => if 0x10 ≤ off ∧ off < 0x18 then dbgCtl d (off - 0x10) else w
  | .uart => if off = 8 then setBitW w 0 (serBusy d i) else w
  | .spi => if off = 8 then setBitW w 0 (serBusy d (8 + i)) else w
  | .i2c => if off = 8 then setBitW w 0 (serBusy d (16 + i)) else w
  | _ => w

/-- Counters that a read clears, as their tables state. -/
def readClears (b : Blk) (off : Nat) : Bool := match b with
  | .surv => off == 0x0B
  | .forme => off == 0x0C || off == 0x0E
  | .trav => off == 0x09 || off == 0x4B
  | .brng => off == 0x26
  | .core => off == 0x0A || off == 0x0B
  | .fab => off == 0x09
  | .memp => off == 0x0A || (decide (0x20 ≤ off) && decide (off < 0x45))
  | .twin => off == 0x0A || off == 0x0C
  | _ => false

/-- One block register read, with its side effect. -/
def readReg (b : Blk) (i off : Nat) (d : Dev) : Dev × Word :=
  let key := pageOf b i * 256 + off
  if readClears b off then (wr d key 0, viewReg b i off d)
  else match b with
  | .merid => if off = 0x12 then readTickh d else (d, viewReg b i off d)
  | .evc => if off = 0x11 then readSrc d i else (d, viewReg b i off d)
  | .sec => if off = 0x11 then rngRead d else (d, viewReg b i off d)
  | .twin => if 0x22 ≤ off ∧ off < 0x26 then (pf d (TWIN_PRBS.ERR (off - 0x22)) 0, viewReg b i off d) else (d, viewReg b i off d)
  | .forme => if off = 0xD then formePstatRead d i else (d, viewReg b i off d)
  | .surv => if 0x70 ≤ off ∧ off < 0x80 then survResRead d i (off - 0x70) else (d, viewReg b i off d)
  | .sdf => if off % 16 = 5 ∧ off < 0x50 then sdfResRead d (4 * i + (off - 0x10) / 16) else (d, viewReg b i off d)
  | _ => (d, viewReg b i off d)

/-- One whole-word read of a folio page: reserved offsets and unlisted pages read zero (R9, R51), a complement port reads the
complement of the applied value (R63), a staged register reads its shadow while SHV = 1 (R53), the DBG registers read zero
while debug is locked (R497), the ROM's command interface reads zero (R438), and a block whose release waits for LOCK shows its
reset values (R471). -/
def folioLoad (page off : Nat) (s : State) : State × Word :=
  let s := voteAt (page * 256 + off % 0x80) s
  let d := s.dev
  match blockOf page with
  | none => (s, 0)
  | some (b, i) =>
    if b = .dbg ∧ 0x10 ≤ off % 0x80 ∧ dbgOpen d = false then (s, 0)
    else if off ≥ 0x80 then
      (match guardedAt page (off - 0x80) with
       | some _ => (s, ~~~(rd d (page * 256 + off - 0x80)))
       | none => (s, 0))
    else match regAt page off with
    | none => (s, 0)
    | some (r, _) =>
      if off = 2 then (s, setBitW (rd d (page * 256 + 2)) 0 (idleOf d b i))
      else if off < 8 then (s, rd d (page * 256 + off))
      else if gb d (FOLIO_STAT.BRST_PEND page) then (s, regReset (page * 256 + off))
      else if r.staged && gb d (FOLIO_GROUP.SHV page) then
        (match shadowVal d (page * 256 + off) with
         | some v => (s, v)
         | none => let (d1, w) := readReg b i off d; (setDev s d1, w))
      else let (d1, w) := readReg b i off d; (setDev s d1, w)

/-- A load from a folio address. -/
def folioLoadAt (a : Nat) (s : State) : State × Word := folioLoad ((a - 0xF000000) / 256) (a % 256) s

end Sys2Proof.Machine
end

