-- ==== Sys2Proof/Machine/Fabric.lean ====
section
/-!
DEFINITION. One access of any initiator to the address space (R338, R339), none for locked debug (R451): folio space, descriptors of Galley RAM,
Overlay tables in use, and plain memory.
-/
namespace Sys2Proof.Machine

/-- A load of one word (R49, R339). -/
def fabLoad (ini : Initiator) (sup : Bool) (a : Nat) (s : State) : State × BusRes :=
  if debugShut s.dev ini then (s, .err)
  else match regionOf (coreOf ini) a with
  | .folio => let (s1, w) := folioLoadAt a s; (s1, .ok w)
  | _ => memLoad ini sup a s

/-- A store of the bits under `mask` of one word (R49, R202, R339, R367). -/
def fabStore (ini : Initiator) (a : Nat) (mask v : Word) (s : State) : State × BusRes :=
  if debugShut s.dev ini then (s, .err)
  else match regionOf (coreOf ini) a with
  | .folio => if mask = BitVec.allOnes 36 then folioStoreAt ini a v s else (s, .err)
  | .galley => galleyStore ini a mask v s
  | .overlay => if overlayLocked s.dev a then (s, .err) else memStore ini a mask v s
  | _ => memStore ini a mask v s

/-- An aligned double loaded: one access of a RAM, which is logged once (R253, R354). -/
def fabLoadDouble (ini : Initiator) (sup : Bool) (a : Nat) (s : State) : State × List Word × Option (Nat × BusRes) :=
  match fabLoad ini sup a s with
  | (s1, .ok w0) =>
    (match fabLoad ini sup (a + 1) s1 with
     | (s2, .ok w1) => (if regionOf (coreOf ini) a = .folio then s2 else s1, [w0, w1], none)
     | (s2, r) => (s2, [w0], some (a + 1, r)))
  | (s1, r) => (s1, [], some (a, r))

/-- An aligned double stored: in a RAM its two words together heal a bad word that either covers, and count as one access (R253,
R353, R354). -/
def fabStoreDouble (ini : Initiator) (a : Nat) (v w : Word) (s : State) : State × Option (Nat × BusRes) :=
  let all := BitVec.allOnes 36
  let r := regionOf (coreOf ini) a
  let cls := classify (flawOf s.mem (physOf s.dev r a))
  let second := r ≠ .folio ∧ cls.1 = 1 ∧ cls.2.1 = (a + 1) % 8
  match (if second then fabStore ini (a + 1) all w s else fabStore ini a all v s) with
  | (s1, .ok _) =>
    (match (if second then fabStore ini a all v s1 else fabStore ini (a + 1) all w s1) with
     | (s2, .ok _) => (if r = .folio then s2 else setDev s2 s1.dev, none)
     | (s2, x) => (s2, some (if second then a else a + 1, x)))
  | (s1, x) => (s1, some (if second then a + 1 else a, x))

/-- Words loaded in order until one fails: those loaded, and the failure with its address. -/
def fabLoads (ini : Initiator) (sup : Bool) : Nat → Nat → State → State × List Word × Option (Nat × BusRes)
  | _, 0, s => (s, [], none)
  | a, n + 1, s =>
    match fabLoad ini sup a s with
    | (s1, .ok w) =>
      let (s2, ws, e) := fabLoads ini sup (a + 1) n s1
      (s2, w :: ws, e)
    | (s1, r) => (s1, [], some (a, r))

/-- Words stored in order until one fails. -/
def fabStores (ini : Initiator) : Nat → List Word → State → State × Option (Nat × BusRes)
  | _, [], s => (s, none)
  | a, w :: ws, s =>
    match fabStore ini a (BitVec.allOnes 36) w s with
    | (s1, .ok _) => fabStores ini (a + 1) ws s1
    | (s1, r) => (s1, some (a, r))

end Sys2Proof.Machine
end

