-- ==== Sys2Proof/Machine/KamulMem.lean ====
section
/-!
DEFINITION. The data port of a Kamul core: loads, posted stores and their answers, pushes, masked calls and returns,
block instructions and queue instructions (R237, R245, R250-R258, R271-R278).
-/
namespace Sys2Proof.Machine

def coreIni (c : Nat) : Initiator := .core (Fin.ofNat 8 c)
def allBits : Word := BitVec.allOnes 36

/-- The core's own record changed. -/
def onCore (c : Nat) (f : CoreSt → CoreSt) (s : State) : State := setDev s (withCore s.dev c f)

/-- A precise fault of the instruction at IP. -/
def kFault (c vec sub : Nat) (fa : Option Word) (s : State) : State := onCore c (fun k => k.fault vec sub fa) s

/-! ### Loads (R237, R238, R250, R255, R347) -/

/-- What a load of the data port gives: data, a wait at its handshake, or a fault with its address. -/
inductive LoadRes where
  | ok (w : Word)
  | wait
  | fault (vec sub : Nat) (a : Word)
deriving DecidableEq, Repr

/-- A parity failure of a fabric request or response (R347). -/
def parityErr (d : Dev) (h a : Nat) (par : Parity) : Dev :=
  match par with
  | .good => d
  | .request => fabError d a h 1 0
  | .response => fabError d a h 2 0

/-- The target's answer to a load. -/
def loadAnswer (a : Nat) : State × BusRes → State × LoadRes
  | (s, .ok w) => (s, .ok w)
  | (s, .err) => (s, .fault 7 1 (BitVec.ofNat 36 a))
  | (s, .ecc) => (s, .fault 8 1 (BitVec.ofNat 36 a))
  | (s, .wait) => (s, .wait)

/-- The load reaches its target, over a private path or through the fabric with a tag. -/
def targetLoad (c a : Nat) (par : Parity) (s : State) : State × LoadRes :=
  let sup := (coreOfDev s.dev c).sup
  if direct c a then loadAnswer a (memLoad (coreIni c) sup a s)
  else
    let (d1, granted) := reqTag s.dev (2 * c + 1) a
    let s1 := setDev s d1
    if !granted then (s1, .wait)
    else match par with
    | .good => loadAnswer a (fabLoad (coreIni c) sup a s1)
    | .request => (setDev s1 (parityErr s1.dev (2 * c + 1) a par), .fault 7 1 (BitVec.ofNat 36 a))
    | .response =>
      let (s2, _) := fabLoad (coreIni c) sup a s1
      (setDev s2 (parityErr s2.dev (2 * c + 1) a par), .fault 7 1 (BitVec.ofNat 36 a))

/-- A load of the bits `need` of one word: forwarded from pending stores, or from the target (R255). -/
def wordLoad (c a : Nat) (need : Word) (par : Parity) (s : State) : State × LoadRes :=
  let k := coreOfDev s.dev c
  let r := regionOf (some c) a
  if a ≥ 2 ^ 28 then (s, .fault 7 5 (BitVec.ofNat 36 a))
  else if (r = .rom ∨ r = .colophon) ∧ k.sup = false then (s, .fault 7 1 (BitVec.ofNat 36 a))
  else if r = .folio then
    (if (pendingStores k).isEmpty then targetLoad c a par s else (s, .wait))
  else
    let (m, v) := forwardOf c k a
    if need &&& ~~~m = 0 then (s, .ok v)
    else if need &&& m ≠ 0 then (s, .wait)
    -- requests of one core to one target complete in the order of their issue (R345)
    else if k.issued.any fun e => !e.orphan && decide (targetOf c e.addr = targetOf c a) then (s, .wait)
    else targetLoad c a par s

/-- A load instruction ends: data written and retired, or it still waits, or its fault is raised with nothing done. -/
def endLoad (c len : Nat) (put : CoreSt → Word → CoreSt) : State × LoadRes → State
  | (s, .ok w) => onCore c (fun k => (put k w).retire len) s
  | (s, .wait) => s
  | (s, .fault v b a) => kFault c v b (some a) s

/-- Address RS + immediate, modulo 2^36 (R238, R271). -/
def effAddr (k : CoreSt) (rs : Nat) (imm : Word) : Nat := (k.gr rs + imm).toNat

/-- LDW. -/
def kLoadWord (c len rd rs : Nat) (imm : Word) (par : Parity) (s : State) : State :=
  kInstr c len [rd, rs] (fun s => endLoad c len (fun k w => k.setGr rd w)
    (wordLoad c (effAddr (coreOfDev s.dev c) rs imm) allBits par s)) s

/-- The bits of half `h` of a word (R251). -/
def halfMask (h : Nat) : Word := if h % 2 = 0 then maskOf 35 18 else maskOf 17 0
def halfOf (w : Word) (h : Nat) : Half := if h % 2 = 0 then w.extractLsb' 18 18 else w.extractLsb' 0 18

/-- LDH, LDHS, LDHF: a half at a half address, widened as the instruction selects (R245, R251). -/
def kLoadHalf (c rd rs : Nat) (imm : Word) (wide : Half → Word) (s : State) : State :=
  kInstr c 2 [rd, rs] (fun s =>
    let h := effAddr (coreOfDev s.dev c) rs imm
    endLoad c 2 (fun k w => k.setGr rd (wide (halfOf w h))) (wordLoad c (h / 2) (halfMask h) .good s)) s

/-- The regions of R237 as the check of a split access names them (R252). -/
def regionRow (c a : Nat) : Nat :=
  if a ≥ 2 ^ 28 then 9
  else match regionOf (some c) a with
  | .itcm _ => if a < 0x2000000 then 0 else 5
  | .dtcm _ => if a < 0x2000000 then 1 else 5
  | .rom => 2
  | .flash _ => 3
  | .sram _ => 4
  | .galley | .overlay => 6
  | .colophon => 7
  | .folio => 8
  | .none => 9

/-- A split access is refused before it begins: the sub-cause of vector 10 (R252). -/
def splitBad (c a : Nat) : Option Nat :=
  if regionRow c a = 8 ∨ regionRow c (a + 1) = 8 then some 2
  else if regionRow c a ≠ regionRow c (a + 1) then some 1 else none

/-- CORE_STALL.SPLIT counts a split access. -/
def countSplit (c : Nat) (s : State) : State := setDev s (incF s.dev (CORE_STALL.SPLIT c) 1)

/-- Both words of a double, the lower address first; an aligned one of a RAM is forwarded whole or not at all (R253, R255). -/
def doubleLoad (c a : Nat) (s : State) : State × LoadRes × Word :=
  let k := coreOfDev s.dev c
  let (m0, _) := forwardOf c k a
  let (m1, _) := forwardOf c k (a + 1)
  let whole : Bool := m0 &&& m1 = allBits
  if a % 2 = 0 ∧ regionRow c a ≠ 8 ∧ whole = false ∧ (m0 ≠ 0 ∨ m1 ≠ 0) then (s, .wait, 0)
  else match wordLoad c a allBits .good s with
    | (s1, .ok w0) =>
      (match wordLoad c (a + 1) allBits .good s1 with
       -- an aligned double of a RAM is one request and one access (R253, R342, R354)
       | (s2, .ok w1) => (if a % 2 = 0 ∧ regionRow c a ≠ 8 then s1 else s2, .ok w0, w1)
       | (s2, r) => (s2, r, 0))
    | (s1, r) => (s1, r, 0)

/-- LDD: RD takes bits [71:36], the pair is even (R271). -/
def kLoadDouble (c rd rs : Nat) (imm : Word) (s : State) : State :=
  kInstr c 2 [rd, rd + 1, rs] (fun s =>
    let a := effAddr (coreOfDev s.dev c) rs imm
    if rd % 2 = 1 then onCore c (fun k => k.illegal 3) s
    else match (if a % 2 = 1 then splitBad c a else none) with
    | some b => kFault c 10 b (some (BitVec.ofNat 36 a)) s
    | none =>
      -- a split access counts once it has been made, with or without a fault
      let once := fun (s : State) => if a % 2 = 1 then countSplit c s else s
      match doubleLoad c a s with
      | (s1, .ok w0, w1) => onCore c (fun k => ((k.setGr rd w0).setGr (rd + 1) w1).retire 2) (once s1)
      | (s1, .wait, _) => s1
      | (s1, r, _) => endLoad c 2 (fun k _ => k) (once s1, r)) s

/-- FLD and POPF take their value after the FP claim of R298. -/
def kLoadFp (c fd rs : Nat) (imm : Word) (s : State) : State :=
  kInstr c 2 [rF fd, rs] (fun s =>
    let s1 := fpClaim c s
    endLoad c 2 (fun k w => k.setFr fd (w.setWidth 32))
      (wordLoad c (effAddr (coreOfDev s1.dev c) rs imm) allBits .good s1)) s

/-! ### Stores (R250, R254) -/

/-- A buffer entry of the running slot. -/
def storeEntry (k : CoreSt) (a : Nat) (mask v : Word) (v2 : Option Word) (split second : Bool) : StoreEntry :=
  { addr := a, mask := mask, val := v, val2 := v2, split := split, second := second, slot := k.run, stamp := k.retCnt + 1
    rom := decide (k.ip / 2 < 0x4000), tag := none, orphan := false }

/-- A store is refused before the buffer: folio space in user mode (R250). -/
def storeBarred (c a : Nat) (k : CoreSt) : Bool := !k.sup && decide (a < 2 ^ 28) && decide (regionOf (some c) a = .folio)

/-- A store enters the buffer, and the instruction retires; until there is an entry it waits (R254). -/
def portStore (c len a : Nat) (mask v : Word) (v2 : Option Word) (done : CoreSt → CoreSt) (s : State) : State :=
  let k := coreOfDev s.dev c
  if storeBarred c a k then kFault c 1 3 none s
  else
    let (d1, put) := pushStore s.dev c (storeEntry k a mask v v2 false false)
    if put then onCore c (fun k => (done k).retire len) (setDev s d1) else setDev s d1

/-- STW. -/
def kStoreWord (c len rd rs : Nat) (imm : Word) (s : State) : State :=
  kInstr c len [rd, rs] (fun s =>
    let k := coreOfDev s.dev c
    portStore c len (effAddr k rs imm) allBits (k.gr rd) none id s) s

/-- A half placed in a word. -/
def halfWord (h : Nat) (v : Half) : Word := if h % 2 = 0 then v.setWidth 36 <<< 18 else v.setWidth 36

/-- STH, STHF. -/
def kStoreHalf (c rd rs : Nat) (imm : Word) (narrow : CoreSt → Word → Half × FlagW) (s : State) : State :=
  kInstr c 2 [rd, rs, rFlags] (fun s =>
    let k := coreOfDev s.dev c
    let h := effAddr k rs imm
    let (v, f) := narrow k (k.gr rd)
    portStore c 2 (h / 2) (halfMask h) (halfWord h v) none (fun k => k.flags f) s) s

/-- STD: a split store takes two entries, the lower address first (R252, R254). -/
def kStoreDouble (c rd rs : Nat) (imm : Word) (s : State) : State :=
  kInstr c 2 [rd, rd + 1, rs] (fun s =>
    let k := coreOfDev s.dev c
    let a := effAddr k rs imm
    if rd % 2 = 1 then onCore c (fun k => k.illegal 3) s
    else if a % 2 = 0 then portStore c 2 a allBits (k.gr rd) (some (k.gr (rd + 1))) id s
    else match splitBad c a with
    | some b => kFault c 10 b (some (BitVec.ofNat 36 a)) s
    | none =>
      let (d1, put) := pushStores s.dev c [storeEntry k a allBits (k.gr rd) none true false,
        storeEntry k (a + 1) allBits (k.gr (rd + 1)) none false true]
      if put then onCore c (fun k => k.retire 2) (countSplit c (setDev s d1)) else setDev s d1) s

/-- STHF: S4.31 to S0.17, rounded under RND and saturated under UNIT (R245, R246, R247). -/
def narrowFrac (k : CoreSt) (v : Word) : Half × FlagW :=
  let r := rndShift k.rnd v.toInt 14
  if r > 2 ^ 17 - 1 then (0x1FFFF#18, { v := some true, ss := true })
  else if r < -(2 ^ 17) then (0x20000#18, { v := some true, ss := true })
  else (BitVec.ofInt 18 r, { v := some false })

/-- FST and PUSHF store FD with bits [35:32] zero (R245). -/
def kStoreFp (c fd rs : Nat) (imm : Word) (s : State) : State :=
  kInstr c 2 [rF fd, rs] (fun s =>
    let s1 := fpClaim c s
    let k := coreOfDev s1.dev c
    portStore c 2 (effAddr k rs imm) allBits ((k.fr fd).setWidth 36) none id s1) s

/-! ### Stack (R271, R313) -/

/-- The effective stack limit E. -/
def stackLimit (k : CoreSt) : Int := (k.slim.toNat : Int) - (if k.depth = 0 then 0 else 32)

/-- PUSH and PUSHF: the value is read after SP is decremented. -/
def kPushVal (c rs r : Nat) (fp : Bool) (val : CoreSt → Word) (s : State) : State :=
  kInstr c 1 [14, r] (fun s =>
    if rs ≠ 0 then onCore c (fun k => k.illegal 2) s
    else
      let s1 := if fp then fpClaim c s else s
      let k := coreOfDev s1.dev c
      let sp := k.gr 14 - 1
      if ((k.gr 14).toNat : Int) - 1 < stackLimit k then kFault c 2 1 (some sp) s1
      else portStore c 1 sp.toNat allBits (val (k.setGr 14 sp)) none (fun k => k.setGr 14 sp) s1) s

/-- POP and POPF: load, then increment SP. -/
def kPopVal (c rs r : Nat) (fp : Bool) (put : CoreSt → Word → CoreSt) (s : State) : State :=
  kInstr c 1 [14, r] (fun s =>
    if rs ≠ 0 then onCore c (fun k => k.illegal 2) s
    else
      let s1 := if fp then fpClaim c s else s
      let sp := (coreOfDev s1.dev c).gr 14
      endLoad c 1 (fun k w => let k1 := put k w; k1.setGr 14 (k1.gr 14 + 1)) (wordLoad c sp.toNat allBits .good s1)) s

/-! ### Answers of stores (R254, R257, R347) -/

/-- Vector and sub-cause of a refused store: its address, a half store to a folio, a region that only loads (R310). -/
def storeRefused (c : Nat) (e : StoreEntry) : Option (Nat × Nat) :=
  if e.addr ≥ 2 ^ 28 then some (7, 5)
  else match regionOf (some c) e.addr with
  | .folio => if e.mask = allBits then none else some (7, 3)
  | .rom | .flash _ | .colophon => some (7, 4)
  | _ => none

/-- The target performs the store: answered, failed with a vector and sub-cause, or still waiting (none). -/
def storePerform (c : Nat) (e : StoreEntry) (s : State) : State × Option (Option (Nat × Nat)) :=
  match storeRefused c e with
  | some f => (s, some (some f))
  | none =>
    -- a folio sees where the store instruction lies (R438)
    let mark := fun (o : Option Bool) (s : State) =>
      if regionOf (some c) e.addr = .folio then onCore c (fun k => { k with romStore := o }) s else s
    let (s0, r) := match e.val2 with
      | none => fabStore (coreIni c) e.addr e.mask e.val (mark (some e.rom) s)
      | some v2 => (match fabStoreDouble (coreIni c) e.addr e.val v2 (mark (some e.rom) s) with
        | (s1, none) => (s1, .ok e.val)
        | (s1, some x) => (s1, x.2))
    let s1 := mark none s0
    match r with
    | .ok _ => (s1, some none)
    | .err => (s1, some (some (7, 2)))
    | .ecc => (s1, some (some (8, 2)))
    | .wait => (s1, none)

/-- A store fault reported when the target answers (R257, R293). -/
def storeExc (e : StoreEntry) (vec sub : Nat) : Exc :=
  { vec := vec, sub := sub, ip := none, faddr := some (BitVec.ofNat 36 e.addr), arith := none, trapn := 0, store := true
    splitPartial := e.second, slot := e.slot, stamp := e.stamp }

/-- The second entry of a split store whose first word failed is dropped (R252). -/
def dropSecond (l : List StoreEntry) : List StoreEntry := match l with
  | e :: t => if e.second then t else e :: t
  | [] => []

/-- The answer of issued store `idx` reaches the core: its entry and tag are freed, and a fault is raised. -/
def storeAnswered (c idx : Nat) (f : Option (Nat × Nat)) (d : Dev) : Dev :=
  match (coreOfDev d c).issued[idx]? with
  | none => d
  | some e =>
    let d1 := match e.tag with
      | some t => dropTag d t
      | none => d
    match f with
    | none => withCore d1 c fun k => { k with issued := k.issued.eraseIdx idx }
    | some (v, b) =>
      let after := (coreOfDev d1 c).issued.drop (idx + 1)
      let gone := e.split && (after.head?.any fun x => x.second)
      let d2 := match (if gone then after.head? else none) with
        | some x => (match x.tag with
          | some t => dropTag d1 t
          | none => d1)
        | none => d1
      withCore d2 c fun k =>
        { k with issued := k.issued.take idx ++ (if e.split then dropSecond after else after)
                 wbuf := if e.split && after.isEmpty then dropSecond k.wbuf else k.wbuf
                 excs := if e.orphan then k.excs else k.excs ++ [storeExc e v b] }

/-- STORE_ACK: the target of an issued store answers. Stores of one core to one target answer in order, and the second
word of a split store after its first (R252, R254). -/
def storeAck (c idx : Nat) (par : Parity) (s : State) : State :=
  let k := coreOfDev s.dev c
  match k.issued[idx]? with
  | none => s
  | some e =>
    if (k.issued.take idx).any fun x => decide (targetOf c x.addr = targetOf c e.addr) || (e.second && x.split) then s
    -- 16n + 16 ticks after issue the tag is retired: no response is taken any more (R346)
    else if (e.tag.any fun t => match tabFind s.dev.fab.tags t with
      | some g => decide (g.issued + 16 * gf s.dev FAB_TAGTIMEOUT.TO + 16 ≤ s.dev.now)
      | none => false) then s
    else if e.tag.isSome ∧ par = .request then
      setDev s (storeAnswered c idx (some (7, 2)) (parityErr s.dev (2 * c + 1) e.addr par))
    else match storePerform c e s with
    | (_, none) => s
    | (s1, some f) =>
      if e.tag.isSome ∧ par = .response then
        setDev s1 (storeAnswered c idx (some (7, 2)) (parityErr s1.dev (2 * c + 1) e.addr par))
      else setDev s1 (storeAnswered c idx f s1.dev)

/-! ### Masked calls and returns (R272, R273) -/

/-- The registers that a mask names, bit 14 ignored, rising. -/
def maskRegs (m : Word) : List Nat := (upTo 16).filter fun r => decide (r ≠ 14) && bit m r

/-- A transfer of control to a half address held in a register: an address above 29 bits is a fetch bus error (R238). -/
def CoreSt.jumpTo (k : CoreSt) (w : Word) : CoreSt :=
  let k1 := k.jumpsTo (fld w 28 0)
  if w.toNat < 2 ^ 29 then k1 else k1.fault 6 1 (some (w >>> 1))

/-- The instruction stops at an element boundary: IP stays and RESUME = 1 (R272, R277). -/
def kInterrupt (c : Nat) (s : State) : State := onCore c CoreSt.interrupt s

/-- How a run of elements ended: all done, or stopped by an event, a wait or a fault. -/
inductive RunRes where
  | done
  | stopped
deriving DecidableEq, Repr

/-- A masked or block instruction waits at a handshake with `i` elements done: it goes on from there, unless an event is taken
(R272). -/
def kWait (c i : Nat) (s : State) : State := onCore c (fun k => { k with prog := some i }) s

/-- The instruction stands at the boundary after its element `i`: a single step ends there (R496), or an event is taken. -/
def kBoundary (c i : Nat) (s : State) : State :=
  if (coreOfDev s.dev c).stepping then let s1 := kWait c i s; setDev s1 (spendStep s1.dev c) else kInterrupt c s

/-- How many elements may run: one under a single step (R496). -/
def stopAfter (k : CoreSt) (stop : Option Nat) : Option Nat := if k.stepping then some 1 else stop

/-- The element stores of a masked call: `left` more may run. -/
def callStores (c sp : Nat) : Nat → List Nat → Option Nat → State → State × RunRes
  | i, _, some 0, s => (kBoundary c i s, .stopped)
  | _, [], _, s => (s, .done)
  | i, r :: rs, left, s =>
    let k := coreOfDev s.dev c
    let a := (sp + i) % 2 ^ 36
    if storeBarred c a k then (kFault c 1 3 none (kInterrupt c s), .stopped)
    else
      let (d1, put) := pushStore s.dev c (storeEntry k a allBits (k.gr r) none false false)
      if put then callStores c sp (i + 1) rs (left.map (· - 1)) (setDev s d1) else (kWait c i (setDev s d1), .stopped)

/-- A masked call (R272); `stop`: an event is taken after that many stores. -/
def maskedCall (c len : Nat) (mask : Word) (target : CoreSt → Word) (stop : Option Nat) (s : State) : State :=
  let k := coreOfDev s.dev c
  let regs := maskRegs mask
  let n := regs.length
  let low := k.gr 14 - BitVec.ofNat 36 n
  if k.resume = false ∧ k.prog = none ∧ ((k.gr 14).toNat : Int) - n < stackLimit k then kFault c 2 2 (some low) s
  else
    let s1 := if k.resume || k.prog.isSome then s else onCore c (fun k => k.setGr 14 low) s
    let sp := ((coreOfDev s1.dev c).gr 14).toNat
    let i := k.prog.getD 0
    -- element 0 is a step of its own (R496)
    if k.stepping && !k.resume && k.prog.isNone then kBoundary c 0 s1
    else match callStores c sp i (regs.drop i) (stopAfter k stop) s1 with
    | (s2, .done) => onCore c (fun k => let t := target k; (k.setGr 15 (BitVec.ofNat 36 (ipAdd k.ip len))).jumpTo t) s2
    | (s2, .stopped) => s2

/-- The element loads of a masked return. -/
def retLoads (c sp : Nat) : Nat → List Nat → Option Nat → State → State × RunRes
  | i, _, some 0, s => (kBoundary c i s, .stopped)
  | _, [], _, s => (s, .done)
  | i, r :: rs, left, s =>
    match wordLoad c ((sp + i) % 2 ^ 36) allBits .good s with
    | (s1, .ok w) => retLoads c sp (i + 1) rs (left.map (· - 1)) (onCore c (fun k => k.setGr r w) s1)
    | (s1, .wait) => (kWait c i s1, .stopped)
    | (s1, .fault v b a) => (kFault c v b (some a) (kInterrupt c s1), .stopped)

/-- A masked return (R273): the final element loads G15 when it is named, and is not interruptible. -/
def maskedReturn (c : Nat) (mask : Word) (stop : Option Nat) (s : State) : State :=
  let sp := (coreOfDev s.dev c).gr 14
  let regs := maskRegs mask
  let low := regs.filter fun r => decide (r ≠ 15)
  let fin := fun (k : CoreSt) (w : Option Word) =>
    let t := k.gr 15
    let k1 := match w with
      | some w => k.setGr 15 w
      | none => k
    (k1.setGr 14 (sp + BitVec.ofNat 36 regs.length)).jumpTo t
  let i := (coreOfDev s.dev c).prog.getD 0
  match retLoads c sp.toNat i (low.drop i) (stopAfter (coreOfDev s.dev c) stop) s with
  | (s1, .stopped) => s1
  | (s1, .done) =>
    if 15 ∈ regs then
      match wordLoad c ((sp.toNat + low.length) % 2 ^ 36) allBits .good s1 with
      | (s2, .ok w) => onCore c (fun k => fin k (some w)) s2
      | (s2, .wait) => kWait c low.length s2
      | (s2, .fault v b a) => kFault c v b (some a) (kInterrupt c s2)
    else onCore c (fun k => fin k none) s1

/-! ### Block instructions (R275-R277) -/

/-- One element of BLKMOV. -/
def blkStep (c rd rs rt : Nat) (s : State) : State × RunRes :=
  let k := coreOfDev s.dev c
  match wordLoad c (k.gr rs).toNat allBits .good s with
  | (s1, .wait) => (kWait c 0 s1, .stopped)
  | (s1, .fault v b a) => (kFault c v b (some a) (kInterrupt c s1), .stopped)
  | (s1, .ok w) =>
    let a := (k.gr rd).toNat
    if storeBarred c a k then (kFault c 1 3 none (kInterrupt c s1), .stopped)
    else
      let (d2, put) := pushStore s1.dev c (storeEntry k a allBits w none false false)
      if !put then (kWait c 0 (setDev s1 d2), .stopped)
      else
        let up := fun (k : CoreSt) (r : Nat) => k.setGr r (k.gr r + 1)
        (onCore c (fun k => let k1 := up (up k rs) rd; k1.setGr rt (k1.gr rt - 1)) (setDev s1 d2), .done)

/-- One element of VMAC. -/
def vmacStep (c acc rd rs rt : Nat) (s : State) : State × RunRes :=
  let k := coreOfDev s.dev c
  match wordLoad c (k.gr rs).toNat allBits .good s with
  | (s1, .wait) => (kWait c 0 s1, .stopped)
  | (s1, .fault v b a) => (kFault c v b (some a) (kInterrupt c s1), .stopped)
  | (s1, .ok x) =>
    match wordLoad c (k.gr rt).toNat allBits .good s1 with
    | (s2, .wait) => (kWait c 0 s2, .stopped)
    | (s2, .fault v b a) => (kFault c v b (some a) (kInterrupt c s2), .stopped)
    | (s2, .ok y) =>
      (onCore c (fun k =>
        let (v, f) := accSum (k.acc acc) (x.toInt * y.toInt)
        let k1 := (k.setAcc acc v).flags f
        let k2 := k1.setGr rs (k1.gr rs + 1)
        let k3 := k2.setGr rt (k2.gr rt + 1)
        k3.setGr rd (k3.gr rd - 1)) s2, .done)

/-- Elements while the count register is not 0, at most `n` of them. -/
def elements (c cnt : Nat) (step : State → State × RunRes) : Nat → State → State × RunRes
  | 0, s => (s, .done)
  | n + 1, s =>
    if (coreOfDev s.dev c).gr cnt = 0 then (s, .done)
    else match step s with
    | (s1, .done) => elements c cnt step n s1
    | r => r

/-- A block instruction; `stop`: an event is taken after that many elements. -/
def blockRun (c cnt : Nat) (step : State → State × RunRes) (stop : Option Nat) (s : State) : State :=
  let todo := ((coreOfDev s.dev c).gr cnt).toNat
  let n := match stopAfter (coreOfDev s.dev c) stop with
    | some j => min j todo
    | none => todo
  match elements c cnt step n s with
  | (s1, .stopped) => s1
  | (s1, .done) => if (coreOfDev s1.dev c).gr cnt = 0 then onCore c (fun k => k.retire 2) s1 else kBoundary c 0 s1

/-! ### Queue instructions (R278, R370-R372) -/

/-- QPUT: after a drain, the word is offered; under BLOCK it waits. -/
def kQputOp (c rd rs : Nat) (s : State) : State :=
  kInstr c 1 [rd, rs, rFlags] (fun s =>
    let k := coreOfDev s.dev c
    if !(pendingStores k).isEmpty then s
    else if (k.gr rs).toNat ≥ 2 ^ 15 then kFault c 7 6 (some (k.gr rs)) s
    else match putOrWait (k.gr rs).toNat (k.gr rd) c k.ip k.depth k.run s with
    | (s1, .accepted) => setDev s1 (endQput s1.dev c false)
    | (s1, .rejected) => setDev s1 (endQput s1.dev c true)
    | (s1, .fault a) => kFault c 7 7 (some (BitVec.ofNat 36 a)) s1
    | (s1, _) => s1) s

/-- QTAKE never waits for a word. -/
def kQtakeOp (c rd rs : Nat) (s : State) : State :=
  kInstr c 1 [rd, rs, rFlags] (fun s =>
    let k := coreOfDev s.dev c
    let z := fun (k : CoreSt) (b : Bool) => k.setPsw (setBitW k.psw pswZ b)
    if (k.gr rs).toNat ≥ 2 ^ 15 then kFault c 7 6 (some (k.gr rs)) s
    else match takeTurn (k.gr rs).toNat s with
    | (s1, .word w) => onCore c (fun k => (z (k.setGr rd w) false).retire 1) s1
    | (s1, .empty) | (s1, .rejected) => onCore c (fun k => (z k true).retire 1) s1
    | (s1, .fault a) => kFault c 7 7 (some (BitVec.ofNat 36 a)) s1
    | (s1, _) => s1) s

/-! ### System instructions and control registers (R243, R278-R280, R290, R311) -/

/-- An instruction of the SX format with unused ARG bits (R263). -/
def kSys (c : Nat) (use : List Nat) (arg : BitVec 8) (f : State → State) (s : State) : State :=
  kInstr c 1 use (fun s => if arg = 0 then f s else onCore c (fun k => k.illegal 2) s) s

/-- YIELD: the slot goes behind every READY slot of its priority; a switch that this makes due follows (R290). -/
def kYieldOp (c : Nat) (s : State) : State :=
  let k := coreOfDev s.dev c
  if k.depth ≥ 1 then onCore c (fun k => k.illegal 6) s
  else
    let s1 := onCore c (fun k => { k.retire 1 with giveWay := true }) s
    onCore c (fun k => { k with giveWay := k.giveWay && switchDue s1.dev c && !switchFree s1.dev c }) (taskSwitch c s1)

/-- WAITEV (R290). -/
def kWaitevOp (c : Nat) (s : State) : State :=
  let k := coreOfDev s.dev c
  if k.depth ≥ 1 then onCore c (fun k => k.illegal 6) s
  else if k.run ∈ k.pend then onCore c (fun k => { k.retire 1 with pend := k.pend.erase k.run }) s
  else taskSwitch c (onCore c (fun k => { k.retire 1 with waiting := true }) s)

/-- MOVC of an FP control register needs the FP registers (R299). -/
def kMovc (c rd cn : Nat) (f : State → State) (s : State) : State :=
  kInstr c 1 (rd :: if cn = 0 then [rFlags] else []) (fun s => f (if cn = 4 then fpClaim c s else s)) s

/-- A control register as MOVC reads it; none: an illegal number (R243, R311). -/
def ctlRead (d : Dev) (k : CoreSt) (cn : Nat) : Option Word :=
  if cn = 0 then some (viewPsw d k.psw)
  else if cn = 1 then some (BitVec.ofNat 36 k.ip)
  else if cn = 2 then some k.tsbp
  else if cn = 3 then some k.slim
  else if cn = 4 then some k.fpsr
  else if cn = 5 then some k.cause
  else if cn = 6 then some k.arithSrc
  else if cn = 7 then some k.faddr
  else if cn < 12 then some (tabGet 0 k.saveIp (cn - 8))
  else if cn < 16 then some (tabGet 0 k.savePsw (cn - 12))
  else if cn < 32 then some (tabGet 0 k.maskset (cn - 16))
  else none

/-- MOVC from a control register: C5-C15 need supervisor mode (R311). -/
def kMovcFromOp (c rd cn : Nat) (s : State) : State :=
  kMovc c rd cn (fun s =>
    let k := coreOfDev s.dev c
    if 5 ≤ cn ∧ cn < 16 ∧ k.sup = false then kFault c 1 1 none s
    else match ctlRead s.dev k cn with
    | some w => onCore c (fun k => (k.setGr rd w).retire 1) s
    | none => kFault c 5 4 none s) s

/-- PSW as a MOVC leaves it: in user mode only SAT, RND, SS and the flags change; COMPAT and FPA are read-only (R241, R242). -/
def pswWrite (k : CoreSt) (v : Word) : Word :=
  let m : Word := if k.sup then 0xC8F00001F#36 else 0x00F00001F#36
  cleanPsw ((v &&& m) ||| (k.psw &&& ~~~m))

/-- A TSBP value names a TSB of the local data TCM (R296). -/
def tsbpOk (v : Word) : Bool := decide (0x110000 ≤ v.toNat ∧ v.toNat < 0x118000 ∧ v.toNat % 64 = 0)

/-- MOVC to a control register; PSW and FPSR wait for pending arithmetic (R282). -/
def kMovcToOp (c rd cn : Nat) (s : State) : State :=
  kMovc c rd cn (fun s =>
    let k := coreOfDev s.dev c
    let v := k.gr rd
    let own := decide (cn = 2 ∨ cn = 3 ∨ (5 ≤ cn ∧ cn < 32))
    if (cn = 0 ∨ cn = 4) ∧ arithPending k then s
    else if cn = 1 ∨ 32 ≤ cn then kFault c 5 4 none s
    else if own && !k.sup then kFault c 1 2 none s
    else if 5 ≤ cn ∧ cn < 8 then kFault c 5 4 none s
    else if cn = 2 ∧ tsbpOk v = false then kFault c 5 7 none s
    else onCore c (fun k =>
      let k1 :=
        if cn = 0 then (k.retire 1).setPsw (pswWrite (k.retire 1) v)
        else if cn = 2 then { k with tsbp := v }.retire 1
        else if cn = 3 then { k with slim := v }.retire 1
        else if cn = 4 then { k with fpsr := v &&& fpsrMask }.retire 1
        else if cn < 12 then { k with saveIp := tabSet 0 k.saveIp (cn - 8) (v &&& maskOf 28 0) }.retire 1
        else if cn < 16 then { k with savePsw := tabSet 0 k.savePsw (cn - 12) v }.retire 1
        else { k with maskset := tabSet 0 k.maskset (cn - 16) (v &&& maskOf 15 0) }.retire 1
      k1) s) s

end Sys2Proof.Machine
end

