-- ==== Sys2Proof/Machine/PressMove.lean ====
section
/-!
DEFINITION. Press transfers (R377-R381): loading a slip, moving words, completing.
-/
namespace Sys2Proof.Machine

def pressIni (ch : Nat) : Initiator := .press (Fin.ofNat 128 ch)

/-- A failing access of Press halts it: the cause of PRESS_HALTADDR (R383, R387); a wait does nothing. -/
def pressFault (a : Nat) (r : BusRes) (d : Dev) : Dev :=
  match r with
  | .ok _ | .wait => d
  | .err => pressBusError d 1 a
  | .ecc => pressBusError d 2 a

/-- SLIP_LOAD (R377, R378, R379): the slip at PRESS_CHPTR is fetched and checked. -/
def slipLoad (ch : Nat) (s : State) : State :=
  if chState s.dev ch ≠ 1 ∨ pressRuns s.dev = false then s
  else
    let a := gf s.dev (PRESS_CHPTR.SLIP (ch / 16) (ch % 16))
    let (d1, granted) := reqTag s.dev 16 a
    let s0 := setDev s d1
    if !granted then s0
    else match fabLoads (pressIni ch) false a 8 s0 with
    | (_, _, some (_, .wait)) => s
    | (s1, _, some (b, r)) => onD s1 (pressFault b r)
    | (s1, ws, none) =>
      if slipBad ws then onD s1 fun d => pressFail d ch 1
      else
        let x : PressSt := ⟨ws, 0, 0, []⟩
        onD s1 fun d =>
          let d1 := pf (withPress d ch fun _ => x) (PRESS_CHREM.REM (ch / 16) (ch % 16)) (slipTotal x)
          if slipMode x = 0 then setChState (withPress d1 ch fun x => { x with credit := slipTotal x }) ch 3
          else awaitTrigger d1 ch

/-- A LINE slip whose line is done waits for its next trigger (R377, R379). -/
def afterMove (ch : Nat) (d : Dev) : Dev :=
  let x := pressOf d ch
  if x.moved ≥ x.credit ∧ x.moved < slipTotal x then awaitTrigger d ch else d

/-- The queue refuses operations (R370): disabled, faulted or with a descriptor that fails its parity. -/
def queueOff (q : Nat) (s : State) : Bool :=
  match openQueue q s with
  | (_, none, false) => true
  | _ => false

/-- The destination side of a word: `n` words have moved, or the channel waits at its queue, stops or halts (R380, R383);
where the request must wait, the whole move is still to come, from `s0`. -/
def pressWrite (ch : Nat) (ws : List Word) (s0 s : State) : State :=
  let x := pressOf s.dev ch
  let dst := slipWord x 1
  if bit dst 35 then
    let q := fld dst 14 0
    let off := queueOff q s
    match putOrWait q (ws.headD 0) (8 + ch) 0 0 0 s with
    | (s1, .accepted) => onD s1 fun d => afterMove ch (pressMoved d ch 1)
    | (s1, .rejected) => onD s1 fun d => if off then pressFail d ch 2 else afterMove ch (pressMoved d ch 1)
    | (s1, .fault _) => onD s1 fun d => pressFail d ch 2
    | (s1, .full) => s1
    | (_, _) => s0
  else
    let a := slipAddr dst (slipWord x 4) (slipWord x 5) x.moved
    let (d1, granted) := reqTag s.dev 16 a
    if !granted then setDev s0 (reqTag s0.dev 16 a).1
    else match (if ws.length = 2 then fabStoreDouble (pressIni ch) a (ws.getD 0 0) (ws.getD 1 0) (setDev s d1)
        else fabStores (pressIni ch) a ws (setDev s d1)) with
    | (s1, none) => onD s1 fun d => afterMove ch (pressMoved d ch ws.length)
    | (_, some (_, .wait)) => s0
    | (s1, some (b, r)) => onD s1 (pressFault b r)

/-- PRESS_TRANSFER (R380, R383, R386): the next word, or aligned double, of an active channel is moved; under DOUBLE every access
to an address is an aligned double, and a queue takes or gives single words. -/
def pressTransfer (ch : Nat) (s : State) : State :=
  let x := pressOf s.dev ch
  if chState s.dev ch ≠ 3 ∨ pressRuns s.dev = false ∨ x.slip = [] ∨ x.credit ≤ x.moved
    ∨ (s.dev.galley.waiters.any fun w => decide (w.who = 8 + ch)) then s
  else
    let src := slipWord x 0
    let n := if slipDouble x then 2 else 1
    if bit src 35 || !x.hand.isEmpty then
      if x.hand.length < pressUnit x ∧ bit src 35 then s else pressWrite ch (x.hand.take (pressUnit x)) s s
    else
      let a := slipAddr src (slipWord x 2) (slipWord x 3) x.moved
      let (d1, granted) := reqTag s.dev 16 a
      let s0 := setDev s d1
      if !granted then s0
      else match (if n = 2 then fabLoadDouble (pressIni ch) false a s0 else fabLoads (pressIni ch) false a 1 s0) with
      | (_, _, some (_, .wait)) => s
      | (s1, _, some (b, r)) => onD s1 (pressFault b r)
      | (s1, ws, none) =>
        -- an aligned double goes to a queue word by word
        if pressUnit x < n then
          let s2 := onD s1 fun d => withPress d ch fun x => { x with hand := ws }
          pressWrite ch (ws.take 1) s2 s2
        else pressWrite ch ws s s1

/-- SLIP_COMPLETE (R381, R382): REM reads 0, the completion line pulses, and the chain goes on unless a STOP is pending. -/
def slipComplete (d : Dev) (ch : Nat) : Dev :=
  let x := pressOf d ch
  if chState d ch ≠ 3 ∨ x.slip = [] ∨ x.moved < slipTotal x ∨ pressRuns d = false then d
  else
    let ctl := slipWord x 6
    let d1 := pf d (PRESS_CHREM.REM (ch / 16) (ch % 16)) 0
    let d2 := if bit ctl 30 then drive d1 (1856 + fld ctl 29 24) else d1
    if bit ctl 31 && !gb d2 (PRESS_CHSTAT.STOPREQ (ch / 16) (ch % 16)) then
      setChState (pf { d2 with press := tabErase d2.press ch } (PRESS_CHPTR.SLIP (ch / 16) (ch % 16)) (fld (slipWord x 7) 27 0)) ch 1
    else chanIdle d2 ch

end Sys2Proof.Machine
end

