-- ==== Sys2Proof/Machine/RomService.lean ====
section
/-!
DEFINITION. The ROM service routines (R422-R433, R437) as calls of a core: the core stands at the entry point, the
operation runs whole, or starts and finishes in two commands, and the routine returns with RETM 0x8000.
-/
namespace Sys2Proof.Machine

/-- Entry points as half addresses (R423). -/
def entryProgram : Nat := 0x20
def entryErase : Nat := 0x22
def entrySeal : Nat := 0x24
def entryVerify : Nat := 0x26
def entryStatus : Nat := 0x28
def entryScan : Nat := 0x2A
def entryOtp : Nat := 0x2C

/-! ### Return (R422) -/

/-- Fresh free values, in order (log entry 12). -/
def takeFrees : Nat → Dev → Dev × List Word
  | 0, d => (d, [])
  | n + 1, d =>
    let (d1, w) := takeFree d
    let (d2, ws) := takeFrees n d1
    (d2, w :: ws)

/-- The routine used up to 24 words of the stack below its frame: what they hold is open (R422). -/
def stackUsed (c sp : Nat) (s : State) : State :=
  forUpTo 24 (fun i s =>
    let a := (sp + 2 ^ 36 - 1 - i) % 2 ^ 36
    match regionOf (some c) a with
    | .itcm _ | .dtcm _ | .sram _ =>
      let (d1, w) := takeFree s.dev
      (memStore (coreIni c) a allBits w (setDev s d1)).1
    | _ => s) s

/-- The registers at the return: status in G1, named results, open values in the other argument registers and in the
condition flags; the rest is preserved. -/
def romRegs (status : Nat) (res : List (Nat × Word)) (free : List Word) (lp : Word) (k : CoreSt) : CoreSt :=
  let k1 := k.setGr 1 (BitVec.ofNat 36 status)
  let k2 := [2, 3, 4, 5, 6].foldl (fun k r => k.setGr r ((tabFind res r).getD (free.getD r 0))) k1
  let fl := free.getD 0 0
  let k3 := k2.setPsw ((k2.psw &&& ~~~(maskOf 3 0)) ||| (fl &&& maskOf 3 0))
  let t := k3.gr 15
  ((k3.setGr 15 lp).setGr 14 (k3.gr 14 + 1)).jumpTo t

/-- The routine returns with a status and named results. -/
def romReturn (c status : Nat) (res : List (Nat × Word)) (used : Bool) (lp : Word) (s : State) : State :=
  let s1 := if used then stackUsed c ((coreOfDev s.dev c).gr 14).toNat s else s
  let (d2, free) := takeFrees 7 s1.dev
  onCore c (romRegs status res free lp) (setDev s1 d2)

/-- The operation in progress is the one of this very call. -/
def ownOp (s : State) (c : Nat) : Bool :=
  match s.dev.flash.op with
  | some o => decide (o.core = c ∧ o.depth = (coreOfDev s.dev c).depth ∧ o.run = (coreOfDev s.dev c).run)
  | none => false

/-- A call that stands at its entry point: the stack check, then the routine with the caller's saved LP at hand. The
check of R422 counts the frame of the call: SP here is one below the caller's. -/
def romCall (c entry : Nat) (body : Word → State → State) (s : State) : State :=
  if (coreOfDev s.dev c).ip ≠ entry then s
  else
    let run := fun (s : State) =>
      let k := coreOfDev s.dev c
      let sp := k.gr 14
      match wordLoad c sp.toNat allBits .good s with
      | (s1, .ok lp) =>
        if (sp.toNat : Int) - 24 < stackLimit k then romReturn c flStack [] false lp s1 else body lp s1
      | (s1, .wait) => s1
      | (s1, .fault v b a) => kFault c v b (some a) s1
    kInstr c 1 [14, 15] run s

/-- The arguments of a call. -/
def argOf (s : State) (c r : Nat) : Nat := ((coreOfDev s.dev c).gr r).toNat
/-- STALL_OK. -/
def stallOk (s : State) (c : Nat) : Bool := bit ((coreOfDev s.dev c).gr 6) 0
/-- G6 bits that no routine defines (R422). -/
def badG6 (s : State) (c defined : Nat) : Bool := decide (argOf s c 6 / 2 ^ defined ≠ 0)
/-- The operation would run in the caller's bank (R425). -/
def selfBank (s : State) (c bank : Nat) : Bool := decide (lpBank ((coreOfDev s.dev c).gr 15) = some bank)

/-- A status is kept for FL_STATUS (R427). -/
def keepStatus (st : Nat) (s : State) : State := onD s fun d => withFlash d fun x => { x with last := st }

/-- An operation as a call runs it: refused with a status, started (BUSY shows), or done with its status. -/
def romOp (c : Nat) (ph : RomPhase) (kind addr : Nat) (refused : Option Nat) (self : Bool) (begin_ : State → State)
    (act : State → State × Nat) (lp : Word) (s : State) : State :=
  let done := fun (s : State) =>
    let (s1, st) := act s
    romReturn c st [] true lp (keepStatus st (onD s1 opEnd))
  let start := fun (s : State) => onD (begin_ s) fun d => opStart d kind addr ((coreOfDev d c).gr 2) c (self && stallOk s c)
  match ph with
  | .finish => if ownOp s c then done s else s
  | .start | .whole =>
    if ownOp s c then s
    else if s.dev.flash.op.isSome then romReturn c flBusy [] true lp (keepStatus flBusy s)
    else match refused with
    | some st => romReturn c st [] true lp (keepStatus st s)
    | none =>
      if self && !stallOk s c then romReturn c flSelfBank [] true lp (keepStatus flSelfBank s)
      else match ph with
      | .start => start s
      | _ => done (start s)

/-- The operation of a core that was reset completes on its own: nothing returns (R258, R424). -/
def orphanDone (kind : Nat) (ph : RomPhase) (act : State → State × Nat) (s : State) : Option State :=
  match s.dev.flash.op, ph with
  | some o, .finish => if o.core = 8 ∧ o.kind = kind then some (onD (act s).1 opEnd) else none
  | _, _ => none

/-! ### The routines (R428-R433, R437) -/

/-- The address or sector refusals that program, erase and seal share (R426, R431, R433). -/
def sectorRefused (a align : Nat) : Option Nat :=
  if inFlash a = false ∨ a % align ≠ 0 ∨ journalSector (sectorOf a) then some flAddr else none

/-- What a programmed word reads back: the value, or another one with its row syndrome after 4 pulses (R428). -/
def programAct (a : Nat) (v : Word) (out : Option (Word × BitVec 4)) (s : State) : State × Nat :=
  match out with
  | none => (programWord a v 0 s, flOk)
  | some (held, syn) => (programWord a held syn.toNat s, flProgFail)

/-- FL_PROGRAM_WORD (R428). -/
def flProgramWord (c : Nat) (ph : RomPhase) (out : Option (Word × BitVec 4)) (s : State) : State :=
  let opAct := fun (s : State) => match s.dev.flash.op with
    | some o => programAct o.addr o.val out s
    | none => (s, flOk)
  match orphanDone 1 ph opAct s with
  | some t => t
  | none => romCall c entryProgram (fun lp s =>
    let a := argOf s c 1
    let refused :=
      if badG6 s c 1 then some flArg
      else match sectorRefused a 1 with
      | some e => some e
      | none => if suspectSector s (sectorOf a) then some flSuspect else if flashSealed s.dev a then some flSealed
                else if wordProgrammed s.dev a then some flNotErased else none
    romOp c ph 1 a refused (inFlash a && selfBank s c (flashBankOf a)) id opAct lp s) s

/-- The words of a failed erase keep values of their own (R426, R431). -/
def eraseAct (out : EraseOutcome) (s : State) : State × Nat :=
  match s.dev.flash.op with
  | none => (s, flOk)
  | some o =>
    let sec := sectorOf o.addr
    match out with
    | .verifyFail held =>
      let s1 := eraseSector sec s
      (held.foldl (fun s e => setMem s (putWord s.mem (sectorBase sec + e.1.val) e.2)) s1, flEraseFail)
    | _ =>
      let s1 := onD (eraseSector sec s) fun d => withFlash d fun x => { x with sealWord := tabPut x.sealWord sec 1 }
      (appendRecord (sec / 4096) 2 sec s1, flOk)

/-- FL_ERASE_SECTOR (R431): the intent is journalled first; a sector for it is made only where there is no room. -/
def flEraseSector (c : Nat) (ph : RomPhase) (out : EraseOutcome) (s : State) : State :=
  match orphanDone 2 ph (eraseAct out) s with
  | some t => t
  | none => romCall c entryErase (fun lp s =>
    let a := argOf s c 1
    let refused := if badG6 s c 1 then some flArg else match sectorRefused a 512 with
      | some e => some e
      | none => if out = .noJournal ∧ journalFits (flashBankOf a) s = false ∧ !(selfBank s c (flashBankOf a) && !stallOk s c) then some flJournal
                else none
    let bank := flashBankOf a
    romOp c ph 2 a refused (inFlash a && selfBank s c bank) (fun s => appendRecord bank 1 (sectorOf a) (journalRoom bank s))
      (eraseAct out) lp s) s

/-- FL_SEAL_BLOCK (R429). -/
def flSealBlock (c : Nat) (ph : RomPhase) (s : State) : State :=
  let opAct := fun (s : State) => match s.dev.flash.op with
    | some o => (sealBlock o.addr s, flOk)
    | none => (s, flOk)
  match orphanDone 3 ph opAct s with
  | some t => t
  | none => romCall c entrySeal (fun lp s =>
    let a := argOf s c 1
    let refused :=
      if badG6 s c 1 then some flArg
      else match sectorRefused a 8 with
      | some e => some e
      | none => if suspectSector s (sectorOf a) then some flSuspect else if flashSealed s.dev a then some flSealed else none
    romOp c ph 3 a refused (inFlash a && selfBank s c (flashBankOf a)) id opAct lp s) s

/-- A verify pass ended. -/
inductive VerifyRes where
  | same
  | differs (a : Nat)
  | wait
deriving DecidableEq, Repr

/-- A read of this word is a corrected read of flash (R349, R421). -/
def corrects (s : State) (a : Nat) : Bool :=
  let cls := (classify (flawOf s.mem a)).1
  inFlash a && flashSealed s.dev a && decide (1 ≤ cls ∧ cls ≤ 3)

/-- FL_VERIFY compares word by word (R430): `n` words from `i` on; corrected flash reads are counted. -/
def verifyLoop (c a b : Nat) : Nat → Nat → Nat → State → State × Nat × VerifyRes
  | 0, _, cnt, s => (s, cnt, .same)
  | n + 1, i, cnt, s =>
    let cnt1 := if corrects s (a + i) then cnt + 1 else cnt
    let cnt2 := if corrects s (b + i) then cnt1 + 1 else cnt1
    match wordLoad c (a + i) allBits .good s with
    | (s1, .wait) => (s1, cnt, .wait)
    | (s1, .fault _ _ _) => (s1, cnt, .differs (a + i))
    | (s1, .ok x) =>
      match wordLoad c (b + i) allBits .good s1 with
      | (s2, .wait) => (s2, cnt, .wait)
      | (s2, .fault _ _ _) => (s2, cnt1, .differs (a + i))
      | (s2, .ok y) => if x = y then verifyLoop c a b n (i + 1) cnt2 s2 else (s2, cnt2, .differs (a + i))

/-- FL_VERIFY. -/
def flVerify (c : Nat) (s : State) : State :=
  romCall c entryVerify (fun lp s =>
    let a := argOf s c 1
    let n := argOf s c 3
    let ret := fun (st : Nat) (x y : Nat) (s : State) => romReturn c st [(2, BitVec.ofNat 36 x), (3, BitVec.ofNat 36 y)] true lp s
    if badG6 s c 1 ∨ n = 0 ∨ 2 ^ 20 < n then ret flArg 0 0 s
    else if inFlash a = false then ret flAddr 0 0 s
    else match verifyLoop c a (argOf s c 2) n 0 0 s with
    | (s1, cnt, .same) => ret flOk 0 cnt s1
    | (s1, cnt, .differs x) => ret flVerifyFail x cnt s1
    | (_, _, .wait) => s) s

/-- FL_STATUS. -/
def flStatus (c : Nat) (s : State) : State :=
  romCall c entryStatus (fun lp s =>
    let bank := match lpBank ((coreOfDev s.dev c).gr 15) with
      | some b => b
      | none => 0xF
    if badG6 s c 1 then romReturn c flArg [] true lp s
    else romReturn c flOk [(2, rd s.dev FLASHC_STAT.at), (3, BitVec.ofNat 36 s.dev.flash.last), (4, BitVec.ofNat 36 bank)] true lp s) s

/-- A store of the routine that fails is reported to its core (R257). -/
def romStores (c a : Nat) (ws : List Word) (s : State) : State :=
  match fabStores (coreIni c) a ws s with
  | (s1, none) => s1
  | (s1, some (b, r)) => onCore c (fun k => { k with excs := k.excs ++
      [storeExc (storeEntry k b allBits 0 none false false) (if r = .ecc then 8 else 7) 2] }) s1

/-- FL_JOURNAL_SCAN (R433): the list of SUSPECT sectors goes to the buffer, up to its capacity. -/
def flJournalScan (c : Nat) (s : State) : State :=
  romCall c entryScan (fun lp s =>
    let (s1, l) := journalScan s
    let self := match lpBank ((coreOfDev s.dev c).gr 15) with
      | some b => !stallOk s c && decide (bankRecords b s1 ≠ bankRecords b s)
      | none => false
    if badG6 s c 1 then romReturn c flArg [] true lp s
    else if s.dev.flash.op.isSome then romReturn c flBusy [] true lp s
    else if self then romReturn c flSelfBank [] true lp s
    else
      let s2 := romStores c (argOf s c 1) ((l.take (argOf s c 2)).map fun x => BitVec.ofNat 36 x) s1
      romReturn c flOk [(2, BitVec.ofNat 36 l.length)] true lp s2) s

/-- The words of a field's value, loaded from the caller's memory. -/
def fieldVals (c a : Nat) : Nat → State → State × List Word × Option LoadRes
  | 0, s => (s, [], none)
  | n + 1, s =>
    match wordLoad c a allBits .good s with
    | (s1, .ok w) =>
      let (s2, ws, e) := fieldVals c (a + 1) n s1
      (s2, w :: ws, e)
    | (s1, r) => (s1, [], some r)

/-- A field takes its value from memory (R437): fields 9-16 do not. -/
def fieldHasValue (id : Nat) : Bool := !decide (9 ≤ id ∧ id ≤ 16)

/-- OTP_PROGRAM_FIELD (R437): QUERY only reports; the value words are read when the programming runs. -/
def otpProgramField (c : Nat) (ph : RomPhase) (s : State) : State :=
  let orphan := fun (s : State) => match s.dev.flash.op with
    | some o => (onD s fun d => let (d1, ws) := takeFrees 11 d; programField d1 o.addr ws, flOk)
    | none => (s, flOk)
  match (match s.dev.flash.op with
    | some o => if inFlash o.addr then none else orphanDone 3 ph orphan s
    | none => none) with
  | some t => t
  | none => romCall c entryOtp (fun lp s =>
    let id := argOf s c 1
    let query := bit ((coreOfDev s.dev c).gr 6) 1
    let refused :=
      if badG6 s c 2 ∨ (id ≠ 0 ∧ (fieldWords id).isNone) then some flArg
      else if fieldLocked s.dev id then some flLocked
      else if fieldUsed s.dev id then some flOtpUsed
      else if otpCond s.dev = false ∨ (id = 9 ∧ rngOk s.dev = false) then some flCond else none
    if query then
      (if badG6 s c 2 ∨ (id ≠ 0 ∧ (fieldWords id).isNone) then romReturn c flArg [] true lp s
       else romReturn c flOk [(2, if fieldUsed s.dev id then 1 else 0)] true lp s)
    else
      let self := (lpBank ((coreOfDev s.dev c).gr 15)).isSome
      let op := fun (act : State → State × Nat) => romOp c ph 3 id refused self (fun s => s) act lp
      -- a call that does nothing reads no value (R424-R426)
      if !ownOp s c && (s.dev.flash.op.isSome || refused.isSome || (self && !stallOk s c)) then op (fun s => (s, flOk)) s
      else
        let n := if fieldHasValue id then ((fieldWords id).map (·.2)).getD 0 else 0
        match fieldVals c (argOf s c 2) n s with
        | (_, _, some .wait) => s
        | (s1, _, some (.fault v b a)) => kFault c v b (some a) s1
        | (s1, vals, _) => op (fun s => (onD s fun d => programField d id vals, flOk)) s1) s

end Sys2Proof.Machine
end

