-- ==== Sys2Proof/Machine/Boot.lean ====
section
/-!
DEFINITION. Secure boot (R443-R449): the boot ROM's treatment of one image candidate, from flash or from the host.
-/
namespace Sys2Proof.Machine

/-- Codes of R445. -/
def bootOk : Nat := 0
def bootFormat : Nat := 1
def bootKey : Nat := 2
def bootRollback : Nat := 3
def bootSig : Nat := 4
def bootTag : Nat := 5
def bootRead : Nat := 6

/-- Where a candidate comes from: BOOTSRC codes (R456). -/
inductive BootSrc where
  | bank (b : Fin 2)
  | host
deriving DecidableEq, Repr

def BootSrc.code : BootSrc → Nat
  | .bank b => b.val
  | .host => 3
def bankBase (b : Nat) : Nat := if b = 0 then 0x8000000 else 0x8200000

/-- SEC_BOOTST of a candidate. -/
def bootstOf (d : Dev) : BootSrc → Nat
  | .bank b => if b.val = 0 then gf d SEC_BOOTST.BANK0 else gf d SEC_BOOTST.BANK1
  | .host => gf d SEC_BOOTST.HOST
def setBootst (d : Dev) (c : Nat) : BootSrc → Dev
  | .bank b => if b.val = 0 then pf d SEC_BOOTST.BANK0 c else pf d SEC_BOOTST.BANK1 c
  | .host => withHost (pf d SEC_BOOTST.HOST c) fun h => { h with bootCode := c }

/-- VER in the header of a bank, for the order of BOOT = 0b010. -/
def headerVer (s : State) (b : Nat) : Nat := match fabLoad .sec true (bankBase b + 1) s with
  | (_, .ok w) => fld w 6 0
  | _ => 0

/-- The flash candidates in the order of R443. -/
def bootOrder (s : State) : List BootSrc :=
  match fld (latchWord s.dev 16) 2 0 with
  | 1 => [.bank 1]
  | 2 => if headerVer s 0 < headerVer s 1 then [.bank 1, .bank 0] else [.bank 0, .bank 1]
  | 3 => []
  | _ => [.bank 0]

/-- The next candidate: not examined yet. -/
def nextCandidate (s : State) : Option BootSrc := (bootOrder s).find? fun c => bootstOf s.dev c == 0xF

/-- How the examination of a candidate ended: with a code (OK: all but the anti-rollback update and the start is done), or a
wait at a memory's handshake. -/
inductive BootRes where
  | code (c : Nat)
  | wait
deriving DecidableEq, Repr

/-- The anti-rollback count as loaded (R435, R449). -/
def rollback (d : Dev) : Nat := rollbackCount (latchWord d)

/-- Step 8 waits for the voltage conditions of R437, which alone bind the ROM (R449). -/
def rollCond (d : Dev) : Bool := gb d PACE_STAT.HELD && decide (850 ≤ gf d PACE_VCMD.VCMD ∧ gf d PACE_VCMD.VCMD ≤ 950)

/-- Step 9: SYS_MODE becomes CONFIG and core 0 starts at ENTRY with the registers named at their reset values. -/
def startImage (src : BootSrc) (h : ImageHdr) (s : State) : State :=
  let d1 := pf (pf (pf s.dev SEC_STAT.BOOTSRC src.code) SEC_STAT.KEYIDX h.keyIdx) SEC_STAT.VER h.ver
  let d2 := withHost (setBootst (withSec d1 fun x => { x with raising := none }) bootOk src) fun x =>
    { x with bootWaiting := false, bootBusy := false }
  let i := coreInit 0
  let d3 := withCore d2 0 fun k => { k with ctx := { k.ctx with g := i.ctx.g, psw := i.ctx.psw, ip := fld (h.w 5) 28 0 }, fpsr := 0 }
  setMode (setDev s d3) mConfig 1

/-- Step 7: the payload goes to LOAD, decrypted with ENC; a failure with its code. -/
def placePayload (h : ImageHdr) (payload : List Word) (s : State) : State × BootRes :=
  let put := fun (ws : List Word) =>
    match fabStores .sec h.load ws s with
    | (s1, none) => (s1, BootRes.code bootOk)
    | (_, some (_, .wait)) => (s, .wait)
    | (s1, _) => (s1, .code bootRead)
  let tagFail := match put (payload.map fun _ => 0) with
    | (_, .wait) => (s, BootRes.wait)
    | (s1, _) => (s1, .code bootTag)
  if h.load = 0 then (s, .code bootOk)
  else if !h.enc then put payload
  else match imageKey s.dev h with
  | none => tagFail
  | some k => match Config.gcmOpen k h.iv (wordsOctets (h.ws.take 7)) h.tag (wordsOctets payload) with
    | none => tagFail
    | some bs => put (octetsWords h.len bs)

/-- The payload is read, once (step 6), where it is verified or placed: an open boot in place reads none. -/
def readPayload (h : ImageHdr) (base : Nat) (opened : Bool) (s : State) : State × List Word × Option (Nat × BusRes) :=
  if opened && decide (h.load = 0) then (s, [], none) else fabLoads .sec true (base + 0x80) h.len s

/-- Steps 2 to 9 of R444 for one candidate; an image that raises the counter waits for that, bit by bit (R449). -/
def verifyImage (src : BootSrc) (base : Nat) (s0 : State) : State × BootRes :=
  -- the reads of SEC take a tag of its holder (R343)
  let (dt, granted) := reqTag s0.dev 34 base
  let s := setDev s0 dt
  if !granted then (s, .wait)
  else match fabLoads .sec true base 128 s with
  | (_, _, some (_, .wait)) => (s, .wait)
  | (s1, _, some _) => (s1, .code bootRead)
  | (s1, ws, none) =>
    let h : ImageHdr := ⟨ws⟩
    if !headerOk s1.dev h base (decide (src = .host)) then (s1, .code bootFormat)
    else
      let isOpen := !slotSet s1.dev 0 && !slotSet s1.dev 1 && !h.enc
      let s2 := if isOpen then onD s1 fun d => pb d SEC_STAT.OPEN true else s1
      if !isOpen && !keyMatches s2.dev h.keyIdx h.key then (s2, .code bootKey)
      else if h.ver < rollback s2.dev then (s2, .code bootRollback)
      else match readPayload h base isOpen s2 with
      | (_, _, some (_, .wait)) => (s, .wait)
      | (s3, _, some _) => (s3, .code bootRead)
      | (s3, payload, none) =>
        if !isOpen && !Config.ecdsaVerify h.key (imageDigest h payload) h.sig then (s3, .code bootSig)
        else
          match placePayload h payload s3 with
          | (_, .wait) => (s, .wait)
          | (s4, .code c) =>
            if c ≠ bootOk then (s4, .code c)
            else if h.roll && decide (rollback s3.dev < h.ver) then
              (onD s4 fun d => withSec d fun x => { x with raising := some (src.code, ws) }, .code bootOk)
            else (startImage src h s4, .code bootOk)

/-- Step 8 goes on (R449): the lowest unprogrammed bit of the counter is programmed under the conditions that bind the ROM;
the image starts once the count equals VER. -/
def raiseStep (code : Nat) (h : ImageHdr) (s : State) : State :=
  if rollbackCount (otpWord s.dev) < h.ver then
    (if rollCond s.dev then onD s fun d => programField d 10 [] else s)
  else startImage (if code = 3 then .host else .bank (Fin.ofNat 2 code)) h s

/-- Every flash candidate has failed: the ROM enables the PCIe endpoint and accepts host images (R446). -/
def openMailbox (d : Dev) : Dev :=
  let d1 := if gb d (FOLIO_CTL.EN pciePage) then d else pcieEnable (pb d (FOLIO_CTL.EN pciePage) true) true
  withHost d1 fun h => { h with bootWaiting := true, bootBusy := false }

/-- The boot ROM runs: core 0 has started it and no image has booted. -/
def romBoots (d : Dev) : Bool := d.rstc.booted && decide (d.rstc.phase = .started) && mode d == mStart

/-- The ROM verifies the image at BOOTBASE: BUSY stands while a memory makes it wait (R446, R487); its
answer is signalled as a mailbox response is (R488, worked example). -/
def hostImage (s : State) : State :=
  match verifyImage .host s.dev.host.bootBase s with
  | (s1, .wait) => onD s1 fun d => withHost d fun h => { h with bootBusy := true }
  | (s1, .code c) => onD s1 fun d =>
    if d.sec.raising.isSome then withHost d fun h => { h with bootBusy := true }
    else responseMsi (if c = bootOk then d else withHost (setBootst d c .host) fun h => { h with bootBusy := false })

/-- BOOT_CANDIDATE: the next flash candidate is examined; without one the host mailbox opens. A host image that waits is taken
up again. -/
def bootCandidate (s : State) : State :=
  if !romBoots s.dev then s
  else match s.dev.sec.raising with
  | some (code, ws) =>
    let s1 := raiseStep code ⟨ws⟩ s
    if code = 3 ∧ s1.dev.sec.raising.isNone then onD s1 responseMsi else s1
  | none =>
  if s.dev.host.bootWaiting then (if s.dev.host.bootBusy then hostImage s else s)
  else match nextCandidate s with
  | none => onD s openMailbox
  | some src =>
    let base := match src with
      | .bank b => bankBase b.val
      | .host => 0
    match verifyImage src base s with
    | (s1, .wait) => s1
    | (s1, .code c) =>
      if c = bootOk then s1
      else
        let s2 := onD s1 fun d => setBootst d c src
        if (nextCandidate s2).isNone then onD s2 openMailbox else s2

/-- BOOTGO: a host write of 1 makes the ROM verify the image at BOOTBASE (R446, R487). -/
def bootGo (v : BitVec 32) (s : State) : State :=
  if v = 1 ∧ romBoots s.dev = true ∧ s.dev.host.bootWaiting = true ∧ s.dev.host.bootBusy = false ∧ linkOn s.dev = true then hostImage s else s

end Sys2Proof.Machine
end

