-- ==== Sys2Proof/Machine/HostFrames.lean ====
section
/-!
DEFINITION. Session frames of the command mailbox (R452, R453, R487).
-/
namespace Sys2Proof.Machine

/-- A frame is held and its answer has room. -/
def frameReady (d : Dev) : Bool := d.host.held && decide (d.host.rspLen = 0) && mode d != mPark

def frameType (d : Dev) : Nat := (tabGet 0 d.host.h2d 0).toNat

/-- The frame is refused: type 0xFF. -/
def refuseFrame (d : Dev) : Dev := respond (frameTaken d) [0xFF#8]

/-- HELLO_FRAME (R452): accepted, it opens a session with the key of both ephemeral keys and nonces and is answered with Qd,
Nd and the device's signature; otherwise, or where Qh is not a point (log entry 16), it is refused. A frame of an unknown
type is refused here too (R487). -/
def helloFrame (d : Dev) : Dev :=
  if !frameReady d || frameType d == 2 || frameType d == 3 then d
  else
    let f := frameOctets d
    let at_ := fun (i n : Nat) => (f.drop i).take n
    let key := octetPair (at_ 146 96)
    let slot := (f.getD 145 0).toNat
    let nh := at_ 97 48
    let msg := at_ 1 96 ++ nh ++ pairOctets (devicePub d)
    let ok := frameType d == 1 && decide (d.host.cmdLen = 338) && keyMatches d slot key
      && Config.ecdsaVerify key (Config.sha384 msg) (octetPair (at_ 242 96))
      && gb d SEC_CFG.SESSEN && rngOk d && secretSet d && mode d != mStart
    let (d1, c) := drawRng d
    let (d2, nd) := drawRng d1
    let (d3, r) := drawRng d2
    let own := privateKey c.toNat
    match (if ok then Config.ecMul own (octetPair (at_ 1 96)) else none) with
    | none => refuseFrame d
    | some z =>
      let qd := pairOctets ((Config.ecMul own Config.ecBase).getD (0, 0))
      let ks := BitVec.ofNat 256 (Config.kdf (quantOctets z.1) (label "K9600-SESSION" ++ nh ++ quantOctets nd) 256)
      let sig := Config.ecdsaSign (deviceKey d) (Config.sha384 (at_ 1 96 ++ qd ++ nh ++ quantOctets nd)) r
      let d4 := withSec (sessionEnd (frameTaken d3)) fun x => { x with key := ks, lastSeq := 0, fails := 0 }
      respond (secEvt (pb d4 SEC_STAT.SESS true) 2) (0x81#8 :: (qd ++ quantOctets nd ++ pairOctets sig))

/-- CLOSE_FRAME: the session ends. -/
def closeFrame (d : Dev) : Dev :=
  if frameReady d && frameType d == 3 then
    (if d.host.cmdLen = 1 then sessionEnd (frameTaken d) else refuseFrame d)
  else d

/-- A write that has come through its guard would be refused (R52, R60, R62). -/
def applyRefused (ini : Initiator) (b : Blk) (i off : Nat) (r : RegDef) (page : Nat) (v : Word) (s : State) : Bool :=
  let bad : Verdict → Bool := fun x => match x with | .ok | .ignore => false | _ => true
  if off = 3 then bad (ctlVerdict s.dev b i v)
  else if off < 8 then false
  else
    let key := page * 256 + off
    let held := if r.staged then (shadowVal s.dev key).getD (rd s.dev key) else rd s.dev key
    bad (verdict ini b i off held (v &&& (r.mask .rw ||| r.mask .wo ||| r.mask .w1c)) s)

/-- A folio write is discarded: it stands alone at a complement, names no register or one that takes no write, or is
refused. -/
def freshRefused (ini : Initiator) (b : Blk) (i page off : Nat) (v : Word) (s : State) : Bool :=
  if off ≥ 0x80 then true
  else match regAt page off with
  | none => true
  | some (r, _) =>
    if r.guarded then decide (4 ≤ (s.dev.folio.quoin.filter fun q => decide (q.page = page)).length)
    else r.mask .rw ||| r.mask .wo ||| r.mask .w1c == 0 || applyRefused ini b i off r page v s
/-- A folio write is discarded on its page: no folio is there, locked debug or a block that waits for its release takes none
(R451, R471), or its guard or its register refuses it. -/
def writeRefused (ini : Initiator) (page off : Nat) (v : Word) (s : State) : Bool :=
  match blockOf page with
  | none => true
  | some (b, i) =>
    (b == .dbg && decide (0x10 ≤ off % 0x80) && !dbgOpen s.dev) || (decide (8 ≤ off % 0x80) && gb s.dev (FOLIO_STAT.BRST_PEND page)) ||
    match quoinOf s.dev page ini with
    | none => freshRefused ini b i page off v s
    | some q =>
      if off = q.off + 0x80 ∧ quoinExpired s.dev q = false then
        match guardedAt page q.off with
        | some r => decide (v ≠ ~~~q.val) || applyRefused ini b i q.off r page q.val s
        | none => false
      else true

/-- A folio write that is discarded under its page's rules (R52, R62). -/
def storeRefusedAt (ini : Initiator) (a : Nat) (v : Word) (s : State) : Bool :=
  regionOf none a == .folio && writeRefused ini ((a - 0xF000000) / 256) (a % 256) v s

/-- The writes of a CMD frame in order, as the SEC initiator, and whether each was applied (R453); one to a RAM that is being
initialised waits for it (R352; log entry 182). -/
def cmdWrites : List Word → State → State × List Bool
  | a :: v :: t, s0 =>
    let s := if a.toNat < 2 ^ 28 then initSpan none a.toNat 1 (onD s0 brushTag) else s0
    let (s1, r) := if a.toNat < 2 ^ 28 then fabStore .sec a.toNat (BitVec.allOnes 36) v s else (s, .err)
    let (s2, l) := cmdWrites t s1
    (s2, (match r with
      | .ok _ => !storeRefusedAt .sec a.toNat v s
      | _ => false) :: l)
  | _, s => (s, [])

/-- The GCM IV of a frame: its direction, 1 from the host and 2 from SEC, then SEQ (R453). -/
def frameIv (dir seq : Nat) : BitVec 96 := BitVec.ofNat 96 (dir * 2 ^ 64 + seq)

/-- CMD_FRAME (R453): a frame whose tag fails or whose SEQ is not new acts not at all; otherwise its writes are performed and
answered. -/
def cmdFrame (s : State) : State :=
  let d := s.dev
  if !frameReady d || frameType d != 2 then s
  else
    let f := frameOctets d
    let n := (f.getD 9 0).toNat
    let ks := d.sec.key
    let seq := octetsNat ((f.drop 1).take 8)
    if n = 0 ∨ 60 < n ∨ d.host.cmdLen ≠ 26 + 9 * n ∨ gb d SEC_STAT.SESS = false then onD s refuseFrame
    else
      let tag := BitVec.ofNat 128 (octetsNat ((f.drop (10 + 9 * n)).take 16))
      match (if d.sec.lastSeq ≤ seq then Config.gcmOpen d.sec.key (frameIv 1 seq) [] tag ((f.drop 10).take (9 * n)) else none) with
      | none => onD s fun d => refuseFrame (sessionFail d)
      | some bs =>
        let ws := octetsWords (2 * n) bs
        let s1 := onD s fun d => withSec (frameTaken d) fun x => { x with lastSeq := seq + 1, fails := 0 }
        let (s2, done) := cmdWrites ((upTo (2 * n)).map fun i => ws.getD i 0) s1
        let told := done.map fun b => if b then 1#8 else 0#8
        onD s2 fun d => respond d (0x82#8 :: (natOctets 8 seq ++ BitVec.ofNat 8 n :: Config.gcmSeal ks (frameIv 2 seq) [] told))

end Sys2Proof.Machine
end

