-- ==== Sys2Proof/Machine/IfMove.lean ====
section
/-!
DEFINITION. What the host and field interfaces move through the fabric and the queues (R483-R493): host accesses, frames,
gate control lists, CAN and serial records.
-/
namespace Sys2Proof.Machine

/-! ### Host accesses (R483-R487) -/

/-- Host requests are served: link up, reset over, not in PARK (R482, R498). -/
def hostServed (d : Dev) : Bool := linkOn d && decide (d.rstc.phase = .started) && mode d != mPark

/-- A host store of some bits of a word: with a tag of holder 35, and ACC_ERR when it fails (R486); whether it was made. -/
def hostStore (a : Nat) (mask v : Word) (s : State) : State × Bool :=
  let (d1, granted) := reqTag s.dev 35 a
  let s1 := setDev s d1
  if !granted then (s1, false)
  else match fabStore .pcie a mask v s1 with
  | (s2, .ok _) => (s2, true)
  | (_, .wait) => (s1, false)
  | (s2, _) => (onD s2 fun d => accErr d a, true)

/-- The request of a host read, apart from a write's to the same address. -/
def readKey (a : Nat) : Nat := 2 ^ 28 + a

/-- A host read waits for a tag of holder 35, then goes on (R486). -/
def withHostTag (a : Nat) (f : State → State) (s : State) : State :=
  let (d1, granted) := reqTag s.dev 35 (readKey a)
  if granted then f (setDev s d1) else setDev s d1

/-- A host load: the word, or none for Completer Abort; it waits for the initialisation of its region (R352). -/
def hostLoad (a : Nat) (s : State) : State × Option Word :=
  match fabLoad .pcie false a (initNow none a s) with
  | (s1, .ok w) => (s1, some w)
  | (s1, _) => (s1, none)

def folioAddr (ofs : Nat) : Nat := 0xF000000 + ofs / 8

/-- Octet offset in BAR0 (R483). -/
def bar0Offset : Bar0Dword → Nat
  | .folio n => 8 * n
  | .mailbox n => 0x800000 + 4 * n

/-- A host write of a BAR0 dword (R484, R487): a folio slot's high or low dword, or a mailbox register. -/
def bar0Write (ofs : Nat) (v : BitVec 32) (s : State) : State :=
  if !hostServed s.dev then s
  else if 0x800000 ≤ ofs then
    let o := ofs - 0x800000
    if o = 4 then bootGo v s else onD s fun d => mailboxWrite d o v
  else if ofs % 8 = 4 then onD s fun d => withHost d fun h => { h with stage := v.toNat % 16 }
  else if ofs % 8 = 0 then
    let w : Word := BitVec.ofNat 36 (s.dev.host.stage * 2 ^ 32 + v.toNat)
    let clear := fun (d : Dev) => withHost d fun h => { h with stage := 0 }
    if gb s.dev SEC_CFG.HOSTAUTH then onD s fun d => accErr (clear d) (folioAddr ofs)
    else
      let (s1, made) := hostStore (folioAddr ofs) (BitVec.allOnes 36) w s
      if made then onD s1 clear else s1
  else s

/-- The value of a host read, none for Completer Abort. -/
def readBack (v : Option (BitVec 32)) (d : Dev) : Dev := withHost d fun h => { h with readBack := v }

/-- A host read of a folio slot's low dword captures the guard nibble (R484). -/
def bar0LowRead (ofs : Nat) (s : State) : State :=
  if !linkOn s.dev then s
  else if !hostServed s.dev then onD s (readBack none)
  else withHostTag (folioAddr ofs) (fun s =>
    let (s1, w) := folioLoadAt (folioAddr ofs) s
    onD s1 fun d => readBack (some (w.setWidth 32)) (withHost d fun h => { h with capture := fld w 35 32 })) s

/-- The word of BAR2 and BAR4 at index `j` of the window (R483). -/
def barWord (d : Dev) (j : Nat) : Nat := (0x1000000 * gf d PCIE_W2BASE.WIN + j) % 2 ^ 28

/-- Guard nibbles of eight words, or none when one of them fails. -/
def bar4Read (j : Nat) (s : State) : State × Option (BitVec 32) :=
  (upTo 8).foldl (fun (acc : State × Option (BitVec 32)) i =>
    match hostLoad (barWord acc.1.dev (8 * j + i)) acc.1 with
    | (s1, some w) => (s1, acc.2.map fun x => x ||| BitVec.ofNat 32 (fld w 35 32 * 16 ^ i))
    | (s1, none) => (s1, none)) (s, some 0)

/-- A host read (R486, R487). -/
def hostRead (t : HostTarget) (s : State) : State :=
  if !linkOn s.dev then s
  else if !hostServed s.dev then onD s (readBack none)
  else match t with
  | .bar0High => onD s fun d => readBack (some (BitVec.ofNat 32 d.host.capture)) d
  | .mailbox o => onD s fun d => readBack (some (mailboxRead d.host o)) d
  | .bar2 j => withHostTag (barWord s.dev j) (fun s =>
      let (s1, w) := hostLoad (barWord s.dev j) s
      onD s1 (readBack (w.map fun w => w.setWidth 32))) s
  | .bar4 j => withHostTag (barWord s.dev (8 * j)) (fun s => let (s1, v) := bar4Read j s; onD s1 (readBack v)) s

/-- BAR2_WRITE: the word is stored with zero guard bits (R485). -/
def bar2Write (j : Nat) (v : BitVec 32) (s : State) : State :=
  if hostServed s.dev then (hostStore (barWord s.dev j) (BitVec.allOnes 36) (v.setWidth 36) s).1 else s

/-- BAR4_WRITE: the guard nibbles of the words whose octet is enabled (R485). -/
def bar4Write (j : Nat) (v : BitVec 32) (be : BitVec 4) (s : State) : State :=
  if hostServed s.dev then
    forUpTo 8 (fun i s => if be.getLsbD (i / 2) then
      (hostStore (barWord s.dev (8 * j + i)) (maskOf 35 32) (BitVec.ofNat 36 (v.toNat / 16 ^ i % 16 * 2 ^ 32)) s).1 else s) s
  else s

/-! ### Ethernet (R489-R491) -/

def ethIni (m : Nat) : Initiator := .eth (Fin.ofNat 2 m)

/-- The first `n` octets of words that carry four each; bits [35:32] are ignored (R5). -/
def octetsIn (ws : List Word) (n : Nat) : List (BitVec 8) := (upTo n).map fun i => (ws.getD (i / 4) 0).extractLsb' (8 * (i % 4)) 8

/-- Octets packed four to a word, octet 0 in bits [7:0] (R5). DESIGN CHOICE: the lanes of a last, partly filled word that
no octet fills are written 0 (log entry 18). -/
def packOctets : List (BitVec 8) → List Word
  | a :: b :: c :: e :: t => BitVec.ofNat 36 (a.toNat + b.toNat * 2 ^ 8 + c.toNat * 2 ^ 16 + e.toNat * 2 ^ 24) :: packOctets t
  | [] => []
  | t => [BitVec.ofNat 36 ((upTo t.length).foldl (fun n i => n + (t.getD i 0).toNat * 2 ^ (8 * i)) 0)]

/-- The corrected timestamp of a start of frame (R489). -/
def ethStamp (d : Dev) (m : Nat) : Word := wordOfInt ((shortTs d).toNat + signed 18 (gf d (ETH_TSOFS.OFS m)))

/-- An entry of a gate control list: gates and interval (R490). -/
def gclAt (m base idx : Nat) (s : State) : State × Option (Nat × Nat) :=
  match fabLoad (ethIni m) false (base + idx) s with
  | (s1, .ok w) => (s1, some (fld w 35 28, fld w 27 0))
  | (s1, _) => (s1, none)

/-- `n` entries of a list from `idx` on: for how many ticks class `c` stays open, and whether to the end of them. -/
def openRun (m base c : Nat) (s : State) : Nat → Nat → Nat × Bool
  | 0, _ => (0, true)
  | n + 1, idx => match (gclAt m base idx s).2 with
    | some (g, t) => if g.testBit c then let (u, e) := openRun m base c s n (idx + 1); (t + u, e) else (0, false)
    | none => (0, false)

/-- The gate of a class stays open for `t` ticks (R489, R490): through the rest of the cycle, and then under the list that the
registers name; a class that is open in all of that never closes. -/
def gateHolds (m c t : Nat) (s : State) : Bool :=
  let d := s.dev
  let e := ethOf d m
  if !e.gates.testBit c then false
  else if e.gclLen = 0 then true
  else
    let rest := (signed 36 (e.gclEnd + 2 ^ 36 - (shortTs d).toNat)).toNat
    let (a, toEnd) := openRun m e.gclBase c s (e.gclLen - (e.gclIdx + 1)) (e.gclIdx + 1)
    let (b, whole) := openRun m (gf d (ETH_GCLBASE.BASE m)) c s (gf d (ETH_GCLLEN.LEN m)) 0
    decide (t ≤ rest + a) || (toEnd && (whole || decide (t ≤ rest + a + b)))

/-- The octets of an interframe gap. -/
def interframe : Nat := 12

/-- ETH_TRANSMIT (R489, R491): the record that class `c` has taken is sent when the MAC is free and its gate stays open for the
frame; its payload is read with a tag of the MAC's holder (R343). -/
def ethTransmit (m c : Nat) (s : State) : State :=
  let k := 192 + 8 * m + c
  let d := s.dev
  match tabFind d.galley.recs k with
  | none => s
  | some r =>
    if r.bad ∨ recComplete k r.words = false ∨ gb d (ETH_CTL.TXEN m) = false ∨ ifMode d = false ∨ d.now < (ethOf d m).busyTo then s
    else
      let buf := fld (r.words.getD 0 0) 27 0
      let ctl := r.words.getD 1 0
      let len := fld ctl 15 0
      let taken := fun (d : Dev) => withEth (withGalley d fun g => { g with recs := tabErase g.recs k }) m fun e => { e with
        late := e.late - (e.late &&& 2 ^ c) }
      if len < 14 ∨ 1514 < len then onD s taken
      else if gateHolds m c (frameTime d m len) s then
        let (dt, granted) := reqTag d (36 + m) buf
        if !granted then setDev s dt
        else match fabLoads (ethIni m) false buf ((len + 3) / 4) (setDev s dt) with
        | (s1, ws, none) => onD s1 fun d =>
          let ts := ethStamp d m
          let d1 := withEth (taken d) m fun e => { e with
            lastTx := some (buf, ts.toNat), lastFrame := if ethOutput d m then octetsIn ws len else e.lastFrame
            busyTo := d.now + frameTime d m len + interframe * octetTicks d m }
          offerRecord d1 (104 + m) (gf d (ETH_DONEQ.Q m)) (ethPage m) 0 [BitVec.ofNat 36 buf, if bit ctl 16 then ts else 0]
        | (_, _, some (_, .wait)) => s
        | (s1, _, some _) => onD s1 taken
      else if (ethOf d m).gates.testBit c ∧ (ethOf d m).late.testBit c = false then
        onD s fun d => raiseEvt (withEth d m fun e => { e with late := e.late ||| 2 ^ c }) (ethPage m) 1
      else s

/-- A frame passes the address filter (R497). -/
def ethAccepts (d : Dev) (m : Nat) (f : List (BitVec 8)) : Bool :=
  let o := fun i => (f.getD i 0).toNat
  let station := decide (o 0 + o 1 * 2 ^ 8 = gf d (ETH_MACH.ADDR m) ∧
    o 2 + o 3 * 2 ^ 8 + o 4 * 2 ^ 16 + o 5 * 2 ^ 24 = gf d (ETH_MACL.ADDR m))
  gb d (ETH_CTL.PROMISC m) || station || (f.getD 0 0).getLsbD 0

/-- ETH_RECEIVE (R491): a frame without its FCS goes to a free buffer and its record to ETH_RXQ, or it is dropped. -/
def ethReceive (m : Nat) (f : List (BitVec 8)) (fcsErr : Bool) (s : State) : State :=
  let d := s.dev
  if gb d (ETH_CTL.RXEN m) = false ∨ ifMode d = false ∨ ethInput d m = false ∨ ethAccepts d m f = false then s
  else
    let drop := fun (s : State) => onD s fun d => raiseEvt d (ethPage m) 0
    -- a MAC that is given no tag has nowhere to store the frame (log entry 196)
    if !canTag d (36 + m) then drop s
    else match takeTurn (gf d (ETH_FREEQ.Q m)) (onD s fun d => brushTag d) with
    | (s1, .word w) =>
      let buf := fld w 27 0
      (match fabStores (ethIni m) buf (packOctets (f.take 2048)) (initSpan none buf (packOctets (f.take 2048)).length s1) with
       | (s2, none) => onD s2 fun d =>
         let ptp := decide ((f.getD 12 0).toNat * 256 + (f.getD 13 0).toNat = 0x88F7)
         let ts := if gb d (ETH_CTL.TSALL m) || ptp then ethStamp d m else 0
         let w1 := f.length % 2 ^ 16 + (if fcsErr then 2 ^ 16 else 0) + (if 1514 < f.length then 2 ^ 17 else 0)
         offerRecord d (104 + m) (gf d (ETH_RXQ.Q m)) (ethPage m) 0 [BitVec.ofNat 36 buf, BitVec.ofNat 36 w1, ts]
       | (s2, some _) => drop s2)
    | (s1, .busy) => s1
    | (s1, _) => drop s1

/-- Length of the cycle of a list; none while an entry cannot be read. -/
def cycleLen (m base : Nat) (s : State) : Nat → Nat → Option Nat
  | 0, acc => some acc
  | n + 1, acc => match (gclAt m base n s).2 with
    | some (_, t) => cycleLen m base s n (acc + t)
    | none => none

/-- Ticks from one short timestamp to another, signed. -/
def stampAfter (a b : Nat) : Int := signed 36 (a + 2 ^ 36 - b)

/-- The short timestamp stands at a cycle start: GCLSTART plus a whole number of cycles (R490). -/
def cycleStarts (m : Nat) (s : State) : Bool :=
  let d := s.dev
  let el := stampAfter (shortTs d).toNat (gf d (ETH_GCLSTART.START m))
  decide (0 ≤ el) && (match cycleLen m (gf d (ETH_GCLBASE.BASE m)) s (gf d (ETH_GCLLEN.LEN m)) 0 with
    | some n => decide (el.toNat % max 1 n = 0)
    | none => false)

/-- A gate control list entry is due: the present one has ended, or the timestamp was set back before it. -/
def gclDue (m : Nat) (s : State) : Bool :=
  let e := ethOf s.dev m
  let now := (shortTs s.dev).toNat
  ifMode s.dev && (if e.gclLen = 0 then gf s.dev (ETH_GCLLEN.LEN m) != 0 && cycleStarts m s
    else decide (0 ≤ stampAfter now e.gclEnd) || decide (stampAfter now e.gclFrom < 0))

/-- Entry `idx` of the list in force is the present one, from `from_` on for `t` ticks. -/
def gclSet (d : Dev) (m idx g from_ t : Nat) : Dev :=
  withEth d m fun e => { e with gates := g, gclIdx := idx, gclFrom := from_ % 2 ^ 36, gclEnd := (from_ + t) % 2 ^ 36 }

/-- An entry that cannot be read is tried again at the next tick. -/
def gclAgain (d : Dev) (m : Nat) : Dev :=
  withEth d m fun e => { e with gclFrom := (shortTs d).toNat, gclEnd := ((shortTs d).toNat + 1) % 2 ^ 36 }

/-- The entry in which a cycle that began at `anchor` stands after `pos` ticks, from entry `idx` at `at_` on; an interval of 0
is passed over. -/
def gclPlace (m anchor pos : Nat) : Nat → Nat → Nat → State → State
  | 0, _, _, s => onD s fun d => gclAgain d m
  | n + 1, idx, at_, s => match gclAt m (ethOf s.dev m).gclBase idx s with
    | (s1, some (g, t)) => if pos < at_ + t then onD s1 fun d => gclSet d m idx g (anchor + at_) t else gclPlace m anchor pos n (idx + 1) (at_ + t) s1
    | (s1, none) => onD s1 fun d => gclAgain d m

/-- The list in force is followed from the timestamp of its cycle's start. -/
def gclFollow (m : Nat) (s : State) : State :=
  let e := ethOf s.dev m
  let n := (cycleLen m e.gclBase s e.gclLen 0).getD 0
  let el := stampAfter (shortTs s.dev).toNat e.gclAnchor
  if n = 0 then onD s fun d => gclAgain d m
  else
    let anchor := (((e.gclAnchor : Int) + el / n * n) % (2 ^ 36 : Nat)).toNat
    gclPlace m anchor (el % n).toNat e.gclLen 0 0 (onD s fun d => withEth d m fun e => { e with gclAnchor := anchor })

/-- A cycle begins at `anchor` with the registers as they stand; with GCLLEN = 0 every gate is open. -/
def cycleBegin (m anchor : Nat) (s : State) : State :=
  let n := gf s.dev (ETH_GCLLEN.LEN m)
  let s1 := onD s fun d => withEth d m fun e => { e with
    gclBase := gf d (ETH_GCLBASE.BASE m), gclLen := n, gclStart := gf d (ETH_GCLSTART.START m), gclAnchor := anchor
    gates := if n = 0 then 255 else e.gates }
  if n = 0 then s1 else gclFollow m s1

/-- GCL_ENTRY (R490): the next entry of the cycle, or the next cycle, which begins a whole number of cycles after the last with
the registers as they stand, at the new GCLSTART where that has changed. -/
def gclStep (m : Nat) (s : State) : State :=
  if gclDue m s then
    let e := ethOf s.dev m
    let now := (shortTs s.dev).toNat
    let el := stampAfter now e.gclAnchor
    let n := (cycleLen m e.gclBase s e.gclLen 0).getD 0
    if e.gclLen = 0 then cycleBegin m now s
    else if n ≠ 0 ∧ 0 ≤ el ∧ el < n then gclFollow m s
    else if gf s.dev (ETH_GCLSTART.START m) = e.gclStart ∨ gf s.dev (ETH_GCLLEN.LEN m) = 0 then
      cycleBegin m (if n = 0 then now else (((e.gclAnchor : Int) + el / n * n) % (2 ^ 36 : Nat)).toNat) s
    else if cycleStarts m s then cycleBegin m now s
    else onD s fun d => withEth d m fun e => { e with gclLen := 0 }
  else s

/-! ### CAN FD (R492, R497) -/

/-- CAN_TRANSMIT: the record that the controller has taken is sent, or ends in a transmit error. -/
def canTransmit (n : Nat) (ok : Bool) (d : Dev) : Dev :=
  let k := 208 + n
  match tabFind d.galley.recs k with
  | none => d
  | some r =>
    if r.bad ∨ recComplete k r.words = false ∨ canLive d n = false ∨ gb d (CANF_CTL.LOM n) then d
    else
      let taken := fun (d : Dev) => withGalley d fun g => { g with recs := tabErase g.recs k }
      if bit (r.words.getD 0 0) 35 && !gb d (CANF_CTL.FDEN n) then taken d
      else
        let tec := gf d (CANF_STAT.TEC n)
        let rec_ := gf d (CANF_STAT.REC n)
        let w0 := r.words.getD 0 0
        let w1 := r.words.getD 1 0
        -- without its pins the controller reads back recessive: a bit error (R479, R480)
        if ok && pinFunc d (28 + 2 * n) == 1 && pinFunc d (29 + 2 * n) == 1 then canState (withCan (taken d) n fun x => { x with
            lastTx := [w0 &&& (maskOf 35 32 ||| maskOf 28 0), w1 &&& maskOf 4 0]
            lastData := octetsIn (r.words.drop 3) (if bit w0 32 then 0 else canLength (bit w0 35) (fld w1 3 0)) }) n (tec - 1) rec_
        else canState d n (tec + 8) rec_

/-- REC after a good reception: one less, or from above 127 a value of 119-127 that the standard leaves open. -/
def recGood (d : Dev) (n : Nat) : Dev × Nat :=
  let r := gf d (CANF_STAT.REC n)
  if r ≤ 127 then (d, r - 1)
  else let (d1, w) := takeFree d; (d1, 119 + w.toNat % 9)

/-- CAN_RECEIVE: a frame, with its words 0 and 1 and its data octets, or a receive error; its RX pin must carry the
controller's function, or it sees the recessive level (R480). -/
def canReceive (n : Nat) (ok : Bool) (w0 w1 : Word) (data : List (BitVec 8)) (d : Dev) : Dev :=
  if canLive d n = false ∨ pinFunc d (29 + 2 * n) ≠ 1 ∨ (bit w0 35 && !gb d (CANF_CTL.FDEN n)) then d
  else if ok then
    let (d1, r) := recGood d n
    let d2 := if gb d (CANF_CTL.LOM n) then d else canState d1 n (gf d1 (CANF_STAT.TEC n)) r
    if canAccepts d2 n w0 then
      let len := if bit w0 32 then 0 else canLength (bit w0 35) (fld w1 3 0)
      let ws := (w0 &&& (maskOf 35 32 ||| maskOf 28 0)) :: (w1 &&& maskOf 4 0) :: shortTs d2
        :: packOctets ((upTo len).map fun i => data.getD i 0)
      offerRecord d2 (106 + n) (gf d2 (CANF_RXQ.Q n)) (canPage n) 0 ws
    else d2
  else if gb d (CANF_CTL.LOM n) then d
  else canState d n (gf d (CANF_STAT.TEC n)) (gf d (CANF_STAT.REC n) + 1)

/-! ### UART, SPI and I²C (R493, R497): 0-7, 8-15, 16-17 -/

/-- SERIAL_TRANSMIT: the record that the controller has taken is sent, where its pins carry it; an SPI target without one sends
0xFF octets. `err`: an I²C octet met a NACK or the arbitration was lost. -/
def serialTransmit (k : Nat) (err : Bool) (d : Dev) : Dev :=
  let sent := fun (w0 w1 : Word) (nack : Bool) (d : Dev) =>
    if serOutput d k then withSer d k fun x => { x with
      lastTx := w0 &&& maskOf (8 * fld w1 2 0 - 1) 0, line := serLine d k w0 w1 nack } else d
  if serOn d k = false ∨ ifMode d = false then d
  else match tabFind d.galley.recs (216 + k) with
  | some r =>
    if r.bad ∨ recComplete (216 + k) r.words = false then d
    else
      let w0 := r.words.getD 0 0
      let w1 := r.words.getD 1 0
      let n := fld w1 2 0
      let d1 := withGalley d fun g => { g with recs := tabErase g.recs (216 + k) }
      if n = 0 ∨ 4 < n then raiseEvt d1 (serPage k) 3
      else
        -- I²C lines that are not the controller's read high: no acknowledge (R480)
        let nack := decide (16 ≤ k) && (err || !serOutput d k)
        let d2 := withSer (sent w0 w1 nack d1) k fun x => { x with csLow := decide (8 ≤ k ∧ k < 16) && !gb d (SPI_CTL.TARGET (k - 8)) && !bit w1 7 }
        if nack then raiseEvt d2 (serPage k) 2 else d2
  | none =>
    if 8 ≤ k ∧ k < 16 ∧ gb d (SPI_CTL.TARGET (k - 8)) then raiseEvt (sent (maskOf 31 0) 4 false d) (serPage k) 1
    else d

def serRxq (d : Dev) (k : Nat) : Nat :=
  if k < 8 then gf d (UART_RXQ.Q k) else if k < 16 then gf d (SPI_RXQ.Q (k - 8)) else gf d (I2C_RXQ.Q (k - 16))

/-- Flags of word 1 bits [7:3] that a controller can raise (R493): framing and break for UART, parity where it has one; for I²C
NACK, arbitration lost, START and STOP. -/
def serFlags (d : Dev) (k : Nat) (flags : BitVec 5) : BitVec 5 :=
  if k < 8 then flags &&& (if gf d (UART_CTL.PAR k) = 0 then 0b00101#5 else 0b00111#5)
  else if k < 16 then 0
  else flags &&& 0b11101#5

/-- Octets as received: a UART keeps its data bits (R493). -/
def serData (d : Dev) (k : Nat) (octets : List (BitVec 8)) : List (BitVec 8) :=
  if k < 8 then octets.map fun b => BitVec.ofNat 8 (b.toNat % 2 ^ (5 + gf d (UART_CTL.DBITS k))) else serSees d k octets

/-- SERIAL_RECEIVE: one to four octets with the flags of word 1 bits [7:3]. An I²C target takes a transfer that begins with its
own address, up to the next START. -/
def serialReceive (k : Nat) (octets : List (BitVec 8)) (flags : BitVec 5) (d : Dev) : Dev :=
  if serOn d k = false ∨ ifMode d = false ∨ serInput d k = false ∨ octets = [] ∨ 4 < octets.length then d
  else
    let fl := serFlags d k flags
    let target := decide (16 ≤ k) && gb d (I2C_CTL.TARGET (k - 16))
    let mine := !target || (if fl.getLsbD 3 then ownAddress d (k - 16) octets else (serOf d k).addressed)
    let d0 := if target then withSer d k fun x => { x with addressed := mine && !fl.getLsbD 4 } else d
    if !mine then d0
    else
      let w1 : Word := BitVec.ofNat 36 (octets.length + fl.toNat * 8)
      let d1 := if fl.toNat % 8 = 0 then d0 else raiseEvt d0 (serPage k) 2
      offerRecord d1 (114 + k) (serRxq d k) (serPage k) 0 [(packOctets (serData d k octets)).getD 0 0, w1]

end Sys2Proof.Machine
end

