-- ==== Sys2Proof/Machine/Late.lean ====
section
/-!
DEFINITION. Steps over several blocks: memory initialisation (R352), tags that wait, time
out or answer late (R344, R346), and the mirrored frames that write folios, Overlay tables and memory (R399).
-/
namespace Sys2Proof.Machine

/-! ### Fabric -/

/-- MEMORY_INIT_DONE: a RAM region is zero with a valid code, and its bit rises; from fabric wake after a cold reset (R352). -/
def memoryInitDone (k : Nat) (s : State) : State :=
  let d := s.dev
  if d.rstc.phase = .started ∧ gbit d MEMP_INIT.DONE k = false then
    initDone k s
  else s

/-- TAG_GRANT: the waiting request next in round robin gets its tag; it goes on when it is made again (R344). -/
def tagGrant (d : Dev) : Dev :=
  match nextWaiting d with
  | none => d
  | some (h, a) =>
    let (d1, id) := takeTag (withFab d fun f => { f with waiting := f.waiting.erase (h, a) }) h a
    withFab d1 fun f => { f with tags := f.tags.map fun t => if t.1 = id then (t.1, { t.2 with granted := true }) else t }

/-- Ticks of the tag timeout (R346). -/
def tagLimit (d : Dev) : Nat := 16 * gf d FAB_TAGTIMEOUT.TO

/-- A tag's entry is retired: it leaves its holder's quota and counts as a zombie (R346). -/
def retireTag (d : Dev) (id : Nat) (t : TagSt) : Dev :=
  let d1 := withFab d fun f => { f with tags := tabPut f.tags id { t with zombie := some d.now, granted := false } }
  let d2 := pf (pf d1 (FAB_TAGUSE.HELD t.holder) (heldBy d1 t.holder - 1)) FAB_STAT.INUSE (gf d1 FAB_STAT.INUSE - 1)
  fabError (incF d2 FAB_STAT.ZOMBIE 1) t.addr t.holder 3 1

/-- The core and the place of the issued store that holds a tag. -/
def storeOfTag (d : Dev) (id : Nat) : Option (Nat × Nat) :=
  (upTo 8).findSome? fun c => ((coreOfDev d c).issued.findIdx? fun e => e.tag = some id).map fun i => (c, i)

/-- FAB_TIMEOUT: the tag's holder gets a bus error (R346). A store may have taken effect (`took`). A load, fetch or Press
access that waited and was granted its tag ends the same way. -/
def fabTimeout (id : Nat) (took : Bool) (s : State) : State :=
  match tabFind s.dev.fab.tags id with
  | none => s
  | some t =>
    if t.zombie.isSome ∨ s.dev.now < t.issued + tagLimit s.dev then s
    else match storeOfTag s.dev id with
    | some (c, i) =>
      let s1 := match (coreOfDev s.dev c).issued[i]? with
        | some e => if took then (storePerform c e s).1 else s
        | none => s
      let d1 := withCore s1.dev c fun k => { k with issued := k.issued.map fun e => if e.tag = some id then { e with tag := none } else e }
      setDev s1 (storeAnswered c i (some (7, 2)) (retireTag d1 id t))
    | none =>
      let s1 := setDev s (retireTag s.dev id t)
      match s1.dev.galley.posted.find? fun p => decide (p.tag = id) with
      | some p => putTimeout p s1
      | none =>
      if t.holder = 16 then setDev s1 (pressBusError s1.dev 3 t.addr)
      else if t.holder = 35 then
        -- a read ends with Completer Abort, a write with ACC_ERR (R486)
        setDev s1 (if readKey 0 ≤ t.addr then readBack none s1.dev else accErr s1.dev t.addr)
      else if t.holder < 16 then
        let c := t.holder / 2
        if !coreReady s1.dev c then s1
        else if t.holder % 2 = 0 then fetchFault c 6 3 false s1
        else kFault c 7 1 (some (BitVec.ofNat 36 t.addr)) s1
      else s1

/-- FAB_LATE: the late response of a retired entry is discarded, and the entry is free again (R346). -/
def fabLate (d : Dev) (id : Nat) : Dev :=
  match tabFind d.fab.tags id with
  | some t => if t.zombie.isSome then raiseEvt (dropTag d id) fabPage 2 else d
  | none => d

/-- ZOMBIE_RELEASE: a further 16n ticks have passed (R346). -/
def zombieDue (d : Dev) (id : Nat) : Bool := match tabFind d.fab.tags id with
  | some t => (match t.zombie with
    | some z => decide (z + tagLimit d ≤ d.now)
    | none => false)
  | none => false
def zombieRelease (d : Dev) (id : Nat) : Dev := if zombieDue d id then dropTag d id else d

/-! ### Mirrored frames (R399) -/

/-- One entry of a FOLIO frame: written by the Maelu link; a refused one counts and sets DIVERGE (R399, R401). -/
def folioEntry (w v : Word) (s : State) : State :=
  let page := fld w 16 8
  let off := fld w 7 0
  let bad := writeRefused .maelu page off v s
  let s1 := (folioStore .maelu page off v s).1
  if bad then setDev s1 (notReadyCheck (diverge (incF s1.dev TWIN_MCNT.REFUSED 1))) else s1

def folioEntries : List Word → State → State
  | w :: v :: rest, s => folioEntries rest (folioEntry w v s)
  | _, s => s

/-- FOLIO_FRAME (R398, R399). -/
def folioFrame (seq aseq : Nat) (ws : List Word) (s : State) : State :=
  let n := ws.length
  match receive s.dev seq aseq (decide (2 ≤ n ∧ n ≤ 256 ∧ n % 2 = 0)) with
  | (d1, true) => if mirrors d1 then folioEntries ws (setDev s d1) else setDev s d1
  | (d1, false) => setDev s d1

/-- Points from k0 on, modulo N, written through the cluster's private port (R212, R397, R399). -/
def overlayPoints (e n : Nat) : Nat → List Word → State → State
  | _, [], s => s
  | k, w :: rest, s =>
    let s1 := (memStore (.cluster (Fin.ofNat 16 (e / 4))) (ovAddr e (k % n)) allBits w (initNow none (ovAddr e (k % n)) s)).1
    let s2 := if mode s1.dev = mStandby then
        setDev s1 (withTwin s1.dev fun x => { x with ovGot := tabSet 0 x.ovGot e (tabGet 0 x.ovGot e ||| 2 ^ (k % n)) })
      else s1
    overlayPoints e n (k + 1) rest s2

/-- OVERLAY_FRAME (R399). -/
def overlayFrame (seq aseq e k0 : Nat) (ws : List Word) (s : State) : State :=
  match receive s.dev seq aseq (ws.length == 32) with
  | (d1, true) => if mirrors d1 then overlayPoints e (ovN d1 e) k0 ws (setDev s d1) else setDev s d1
  | (d1, false) => setDev s d1

/-- MEM_FRAME: the words stored at the same addresses by the link (R399). -/
def memWords : Nat → List Word → State → State
  | _, [], s => s
  | a, w :: rest, s => memWords (a + 1) rest (memStore .maelu a allBits w (initNow none a s)).1
def memFrame (seq aseq ofs : Nat) (ws : List Word) (s : State) : State :=
  match receive s.dev seq aseq (decide (1 ≤ ws.length ∧ ws.length ≤ 256)) with
  | (d1, true) => if mirrors d1 then memWords (0x4000000 + ofs) ws (setDev s (brushTag d1)) else setDev s d1
  | (d1, false) => setDev s d1

end Sys2Proof.Machine
end

