-- ==== Sys2Proof/Machine/Cmd.lean ====
section
/-!
DEFINITION. What the commands share: every command answers a next state; a warm reset that was asked for is asserted
before it; the conditions that follow state (EVAL, forgotten waiters) settle after it.
-/
namespace Sys2Proof.Machine

/-- After a command: waiters whose producer has gone are forgotten (R278, R386), and EVAL follows its conditions (R455). -/
def settle (s : State) : State := onD (dropWaiters s) evalUpdate

/-- One store of a core's buffer issued and one answered. -/
def drainStep (c : Nat) (s : State) : State := storeAck c 0 .good (onD s fun d => (issueOldest d c).1)

/-- Before PARK each core drains its buffer, and the puts whose payload is on its way are committed (R260, R361). -/
def parkDrain (s : State) : State :=
  let s1 := forUpTo 8 (fun c s =>
    forUpTo (coreOfDev s.dev c).issued.length (fun _ s => drainStep c s) (forUpTo 4 (fun _ s => drainStep c s) s)) s
  s1.dev.galley.posted.foldl (fun s p => putCommit p.queue s) s1

/-- The entry into PARK goes on once no flash operation runs: cores and tags complete, then SYS_MODE is PARK and PACE falls
(R440, R474). -/
def parkFinish (s : State) : State :=
  if s.dev.rstc.parkEntry && s.dev.flash.op.isNone then setMode (parkDrain s) mPark 0 else s

/-- Stores that cores have issued reach their targets when a warm reset discards their tags; unissued ones are lost (R465,
R466). -/
def landStores (s : State) : State :=
  forUpTo 8 (fun c s => forUpTo (coreOfDev s.dev c).issued.length (fun _ s => storeAck c 0 .good s) s) s

/-- A warm reset that was asked for acts before anything else does. -/
def resetFirst (s : State) : State :=
  if s.dev.rstc.req = [] then s else if s.dev.rstc.phase = .asserted then warmAssert s else warmAssert (landStores s)

/-- A command as a function of the state; what uses the fields votes them first (R66). -/
def onState (f : State → State) (s : State) : Host.Outcome State Fault Refusal :=
  .next { settle (parkFinish (f (voteUse (resetFirst s)))) with pending := s.pending }

/-- A command that leaves the memories alone. -/
def onDev (f : Dev → Dev) (s : State) : Host.Outcome State Fault Refusal := onState (fun s => onD s f) s

/-- Requests of an initiator arrive: not while the device is in reset or loads its options, none in PARK (R361); the host's with
the link up (R482), debug's with a tag of its own holder (R344, R496). -/
def iniServed (d : Dev) (ini : Initiator) : Bool :=
  decide (d.rstc.phase = .started) && mode d != mPark && (match ini with
    | .pcie => linkOn d
    | .debug => canTag d 39
    | _ => true)

/-- SEC_CFG.HOSTAUTH = 1 discards the host's folio writes (R453, R486). -/
def hostBarred (d : Dev) (ini : Initiator) : Bool := ini == .pcie && gb d SEC_CFG.HOSTAUTH

/-- A store that its target answered with a bus error: a core takes vector 7, Press halts, the host sees ACC_ERR (R257, R383,
R486). -/
def iniAnswered (ini : Initiator) (a : Nat) (x : State × BusRes) : State :=
  match x.2, ini with
  | .err, .core c => storeFails c 7
  | .ecc, .core c => storeFails c 8
  | .err, .press _ => onD x.1 fun d => pressBusError d 1 a
  | .ecc, .press _ => onD x.1 fun d => pressBusError d 2 a
  | .err, .pcie | .ecc, .pcie => onD x.1 fun d => accErr d a
  | _, _ => x.1
where
  storeFails (c : Fin 8) (vec : Nat) : State :=
    onCore c (fun k => { k with excs := k.excs ++ [storeExc (storeEntry k a allBits 0 none false false) vec 2] }) x.1

/-- A folio write by an initiator, one write or a matching pair as the register asks (R53, R63). -/
def ownWrite (ini : Initiator) (key : Nat) (v : Word) (s : State) : State :=
  let page := key / 256
  let off := key % 256
  if !iniServed s.dev ini then s
  else if hostBarred s.dev ini then onD s fun d => accErr d (0xF000000 + key)
  else if (guardedAt page off).isSome then folioPair ini page off v s
  else iniAnswered ini (0xF000000 + key) (folioStore ini page off v s)

/-- One folio write just as it stands: value, complement or plain (R60). -/
def ownStore (ini : Initiator) (page off : Nat) (v : Word) (s : State) : State :=
  if !iniServed s.dev ini then s
  else if hostBarred s.dev ini then onD s fun d => accErr d (0xF000000 + page * 256 + off)
  else iniAnswered ini (0xF000000 + page * 256 + off) (folioStore ini page off v s)

/-- A folio read with its effect on the register read. -/
def ownRead (ini : Initiator) (key : Nat) (s : State) : State :=
  if !iniServed s.dev ini ∨ debugShut s.dev ini then s else (folioLoad (key / 256) (key % 256) s).1

/-- A word with one bit set. -/
def oneBit (i : Nat) : Word := BitVec.ofNat 36 (2 ^ i)

/-! ### Registration groups and alarms (R25, R55, R136, R396) -/

/-- GROUP_APPLY: the group fires at its application tick: shadows, then sync, then mirroring. -/
def groupDue (d : Dev) (g : Nat) : Option Nat := (d.folio.fires.find? fun x => decide (x.1 = g ∧ x.2 ≤ d.now)).map (·.2)

/-- What fires registration groups in this tick, each once: alarms, boundaries, mid-period ticks (R55, R143). -/
def registerTick (d : Dev) : Dev :=
  let d1 := forUpTo 16 (fun n d =>
    if alarmDue d n && !decide (n ∈ d.merid.alarmRegd) then
      sourceEvent (withMerid d fun m => { m with alarmRegd := m.alarmRegd ++ [n] }) 3 n d.now else d) d
  forUpTo 16 (fun f d =>
    let d2 := if boundaryDue d f && !(formeOf d f).regd then sourceEvent (withForme d f fun x => { x with regd := true }) 1 f d.now else d
    if midDue d2 f && !(formeOf d2 f).midRegd then sourceEvent (withForme d2 f fun x => { x with midRegd := true }) 2 f d2.now else d2) d1

/-- The groups that are due now. -/
def dueGroups (d : Dev) : List Nat := (List.range 16).filter fun g => (groupDue d g).isSome

/-- Step 1 of R143 for a group: its shadows apply; Formes under UPD = GROUP make their offers later in the tick. -/
def groupShadows (g : Nat) (s : State) : State :=
  match groupDue s.dev g with
  | none => s
  | some a => onD (applyGroup g a (onD s fun d => takeFire d g a)) fun d => markGrouped d g

/-- Steps 1 and 2 of R143 for the groups that are due: the shadows of all, then the sync of each (given by `sync`), then
mirroring (R396). -/
def groupsCore (sync : Nat → State → State) (s : State) : State :=
  let gs := dueGroups s.dev
  let s1 := gs.foldl (fun s g => groupShadows g s) s
  gs.foldl (fun s g => onD (sync g s) fun d => takeoverArm (mirrorFire d g) g) s1

/-- Forme `f` is at τ = 0 of a period that began in this tick. -/
def atZero (d : Dev) (f : Nat) : Bool := counting d f && (formeOf d f).nextB == d.now + formeD (formeOf d f)

/-- A boundary of a Forme as the twin sees it: mirrored GACT values are taken, and it is captured for a cycle (R397, R399). -/
def mirrorBoundary (d : Dev) (f : Nat) : Dev := captureForme (takeGact d f) f

/-- A step of this tick that may begin periods (a start, a sync): a boundary tick it brings about fires its groups, whose
shadows apply first (R55, R143); each group at most once in a tick, so the depth is bounded by the groups. -/
def withRegistration : Nat → (Dev → Dev) → State → State
  | 0, step, s => onD s step
  | n + 1, step, s =>
    let after := step s.dev
    let hits := (List.range 16).filter fun f => atZero after f && !atZero s.dev f
    if hits = [] then setDev s after
    else
      let s1 := onD s fun d => hits.foldl (fun d f => sourceEvent d 1 f d.now) d
      let s2 := onD (groupsCore (fun g => withRegistration n fun d => syncEvent d 1 g) s1) step
      -- each is a boundary for the mirror, too (R397, R399)
      onD s2 fun d => (hits.filter fun f => atZero d f).foldl mirrorBoundary d

/-- The registration of this tick: every group that is due applies (R55, R143). -/
def applyDue (s : State) : State := groupsCore (fun g => withRegistration 16 fun d => syncEvent d 1 g) (onD s registerTick)

/-- GROUP_APPLY: the group applies with all that apply in its tick, and the offers of the tick are made (R55, R141, R143). -/
def groupApply (g : Nat) (s : State) : State := if (groupDue s.dev g).isSome then onD (applyDue s) offersOfTick else s

/-- ALARM_FIRE (R25, R26, R47): the groups of the tick, the triggers and Formes that name it, then the reload. -/
def alarmFire (n : Nat) (s : State) : State :=
  if alarmDue s.dev n then
    onD (withRegistration 16 (fun d => syncEvent d 2 n) (applyDue s)) fun d =>
      alarmReload (drive (publishTrig (offersOfTick d) 4 n 0) (1920 + n)) n
  else s

/-! ### Meridian -/

/-- CALDONE (R28, R47). -/
def calFinish (d : Dev) : Dev := if calDue d then raiseEvt (pb d MERID_STAT.CAL_OK true) 3 3 else d

/-- PEER_TIMING_LOSS: the fallback reference is followed (R30). -/
def peerTimingLoss (d : Dev) : Dev := if d.merid.peerFollow then setPeerFollow d false else d

/-- A second sample in a row below 660 mV is a VDDCORE brown-out (R458). -/
def lowCore (d : Dev) : Bool := decide (2 ≤ d.pace.lowV)

/-- PACE_SAMPLE, judged for a VDDCORE brown-out (R32, R458). -/
def paceSampleStep (mons : List Nat) (s : State) : State :=
  let d := paceSample s.dev mons
  if lowCore d then coldReset .borcore (setDev s d) else setDev s d

/-! ### Survey and fast detectors -/

/-- The modulator clock of a channel stops or returns: the channel and its fast detector see it (R101, R130). -/
def sdfClock (d : Dev) (n : Nat) (back : Bool) : Dev :=
  sdfSeen d (if back then sdfClockReturn d n else sdfClockLoss d n) n

/-- VDDA crosses the thresholds of R93: Survey units and Contour groups follow. -/
def vddaLevel (d : Dev) (low : Bool) : Dev := forUpTo 4 (fun g d => setContLow d g) (vddaCross d low)

/-! ### Formes and engines -/

/-- FORME_COUNTER_START (R135, R143). -/
def counterStartStep (f : Nat) (s : State) : State :=
  if startDue s.dev f then onD (withRegistration 16 (fun d => formeCounterStart d f) (applyDue s)) offersOfTick else s

/-- FORME_BOUNDARY (R143, R397, R399, R518): registration, then the period; mirrored GACT values are taken, and the
boundary is captured for a mirror cycle. -/
def formeBoundaryStep (f : Nat) (s : State) : State :=
  if boundaryDue s.dev f then
    onD (applyDue s) fun d => if boundaryDue d f then mirrorBoundary (offerGrouped (formeBoundary d f) f) f else d
  else s

/-- FORME_MID_PERIOD (R133, R141, R143, R167). -/
def formeMidStep (f : Nat) (s : State) : State :=
  if midDue s.dev f then onD (applyDue s) fun d => if midDue d f then formeMidOffers (formeMidMark d f) f else d else s

/-- TRAV_UPDATE: a started update lets its refused takes be made again (R182, R371). -/
def travUpdateStep (e : Nat) (s : State) : State :=
  let s1 := travUpdate e s
  if (travOf s1.dev e).lastStart ≠ (travOf s.dev e).lastStart then
    onD s1 fun d => takesAgain d e
  else s1

/-- UPDATE_WRITEBACK: between two updates mirrored state is taken, captured registers act, the mirror cycle reads the
words (R57, R397, R399). -/
def writebackStep (e : Nat) (s : State) : State :=
  let s1 := updateWriteback e s
  if (travOf s.dev e).upd.isSome && (travOf s1.dev e).upd.isNone then
    onD (flushDefer e (onD s1 fun d => takeEngine d e)) fun d => captureEngine d e
  else s1

/-! ### Events (R326, R328) -/

/-- A trigger through the event controller reaches its slot, channel or unit where that names the route (R80, R99, R229). -/
def sampleRoute (d : Dev) (t : Nat) : Dev :=
  let u := t / 256 % 32
  let k := t % 16
  match t / 8192 with
  | 0 => if gbit d (SURV_SHEETEN.EN u) k && gf d (SURV_TRIG.TSRC u k) == 5 then publish d (16 * u + k) d.now else d
  | 1 => if gb d (FOLIO_CTL.EN (0x78 + k / 4)) && gf d (SDF_TRIG.TSRC (k / 4) (k % 4)) == 5 then publish d (0x1000 + k) d.now else d
  | 2 => if gf d (BRNG_SMP.TSRC k) = 5 then brngTrigger d k d.now else d
  | _ => d

/-- EVENT_DELIVERY: a pending event under its KIND. -/
def eventDeliverable (d : Dev) (src : Nat) : Bool :=
  let w := srcWord d src
  mode d != mPark && evcPend d src && (match kindOf w with
    | 1 => !gateShut d && !decide (48 * fld w 14 12 + fld w 5 0 ∈ d.evc.lines)
    | 2 => !gateShut d
    | k => decide (3 ≤ k))
def eventDelivery (d : Dev) (src : Nat) : Dev :=
  if eventDeliverable d src then
    let w := srcWord d src
    let t := tgtOf w
    let d1 := setPend d src false
    match kindOf w with
    | 1 => withEvc d fun e => { e with lines := (48 * fld w 14 12 + fld w 5 0) :: e.lines }
    | 2 => activate d1 (fld w 14 12) (fld w 4 0)
    | 3 => pressTrig d1 (t % 128)
    | 4 => travTrigger d1 (t % 64)
    | 5 => sampleRoute d1 t
    | _ => d
  else d

/-- PARK_WAKE, then the scrub of wake (R66, R71, R474) and the Galley commands that PARK held (R367); its pace sample too is judged for a VDDCORE brown-out (R458). -/
def parkWakeStep (mons : List Nat) (s : State) : State :=
  if parkWakeDue s.dev then
    let s1 := parkWake mons s
    if lowCore s1.dev then coldReset .borcore s1 else galleyRun (voteScrub s1)
  else s

/-! ### Instructions without a file of their own (R270, R279) -/

def targetLen : Target → Nat
  | .disp _ => 2
  | .reg _ _ => 1

def dispLen : Disp → Nat
  | .short _ => 1
  | .long _ => 2
def dispVal : Disp → Int
  | .short d => d.toInt
  | .long d => d.toInt

/-- BR: the displacement counts from the instruction's own IP. -/
def CoreSt.branch (k : CoreSt) (cond : Nat) (d : Disp) : CoreSt :=
  if condHolds k.psw cond then k.jumpsTo (ipAdd k.ip (dispVal d)) else k.retire (dispLen d)

/-- JMP and CALL; the short form has RD = 0. -/
def CoreSt.jump (k : CoreSt) (t : Target) (link : Bool) : CoreSt :=
  let lk := fun (k : CoreSt) => if link then k.setGr 15 (BitVec.ofNat 36 (ipAdd k.ip (targetLen t))) else k
  match t with
  | .disp d => (lk k).jumpsTo (ipAdd k.ip d.toInt)
  | .reg rd rs => if rd = 0 then (lk k).jumpTo (k.gr rs) else k.illegal 2

/-- DRAIN and SYNC: no pending store; SYNC also no arithmetic exception to come. -/
def drainOp (c : Nat) (sync : Bool) (s : State) : State :=
  let k := coreOfDev s.dev c
  if (pendingStores k).isEmpty && !(sync && arithPending k) then onCore c (fun k => k.retire 1) s
  else onCore c (fun k => { k with draining := true }) s

/-- FLUSHI. -/
def flushiOp (c : Nat) (s : State) : State :=
  let k := coreOfDev s.dev c
  if pendingTo c k (fun r => match r with | .itcm n => n == c | _ => false) then s
  else onCore c (fun k => { k.retire 1 with fbuf := [], pre := [] }) s

/-- TRAP n: vector 13 with the IP after it. -/
def CoreSt.trapOp (k : CoreSt) (n : Nat) : CoreSt :=
  let k1 := k.retire 1
  { k1 with excs := k1.excs ++ [{ vec := 13, sub := 0, ip := some k1.ip, faddr := none, arith := none, trapn := n,
                                  store := false, splitPartial := false, slot := k.run, stamp := k1.retCnt }] }

/-- CALLMR and CALLQ read their target from RS; G14 is illegal there (R272). -/
def regCall (c len : Nat) (mask : CoreSt → Word) (rs : Nat) (stop : Option Nat) (s : State) : State :=
  kInstr c len (rs :: 14 :: 15 :: maskRegs (mask (coreOfDev s.dev c))) (fun s =>
    if rs = 14 then onCore c (fun k => k.illegal 3) s
    else maskedCall c len (mask (coreOfDev s.dev c)) (fun k => k.gr rs) stop s) s

/-- One-operand FP functions: FP3 requires FT = 0, before the FP registers are claimed (R263, R268). -/
def kFpOne (c : Nat) (o : Alu2) (f : FMode → F32 → FRes) (s : State) : State :=
  match o with
  | .long _ _ ft => if ft = 0 then kFp c 2 (Alu2.usesF o) (fun k => k.fpOne o f) s else kPure c 2 [] (fun k => k.illegal 2) s
  | .short _ _ => kFp c 1 (Alu2.usesF o) (fun k => k.fpOne o f) s

/-- FCVT requires RT = 0. -/
def kFcvt (c rt : Nat) (use : List Nat) (f : CoreSt → CoreSt) (s : State) : State :=
  if rt = 0 then kFp c 2 use f s else kPure c 2 [] (fun k => k.illegal 2) s

/-! ### ROM command interface, DBG_CTL, CANF_CTL -/

/-- A register's bits under `keep`, with one more bit set: a command bit written beside fields that stay as they are. -/
def commandBit (ini : Initiator) (key : Nat) (keep : Word) (i : Nat) (s : State) : State :=
  ownWrite ini key ((rd s.dev key &&& keep) ||| oneBit i) s

/-- Supplies as reset sources (R458, R459). -/
def supplySource : Supply → ResetSource
  | .vddio => .borio
  | .vdda => .bora
  | .vddcore => .borcore

end Sys2Proof.Machine
end

