-- ==== Sys2Proof/Machine/CmdCore.lean ====
section
/-!
DEFINITION. Commands of Kamul cores beside their instructions: release, fetch, write buffer, entries, tasks (chapters 11-13): one meaning per command.
-/
namespace Sys2Proof.Machine

/-- CORE_RELEASE (R259). -/
def execCoreRelease (ini : Initiator) (c : Fin 8) (s : State) : Host.Outcome State Fault Refusal :=
  onState (fun s => ownWrite ini (FOLIO_CTL.at (corePage c)) 1 s) s

/-- CORE_HOLD (R259). -/
def execCoreHold (ini : Initiator) (c : Fin 8) (s : State) : Host.Outcome State Fault Refusal :=
  onState (fun s => ownWrite ini (FOLIO_CTL.at (corePage c)) 0 s) s

/-- LINE_FILL (R239). -/
def execLineFill (c : Fin 8) (second : Bool) (s : State) : Host.Outcome State Fault Refusal :=
  onState (fun s => lineFill c second s) s

/-- STORE_ISSUE (R254). -/
def execStoreIssue (c : Fin 8) (s : State) : Host.Outcome State Fault Refusal :=
  onDev (fun d => (issueOldest d c).1) s

/-- STORE_ACK (R256). -/
def execStoreAck (c : Fin 8) (idx : Nat) (par : Parity) (s : State) : Host.Outcome State Fault Refusal :=
  onState (fun s => storeAck c idx par s) s

/-- EXCEPTION_ENTRY (R300). -/
def execExceptionEntry (c : Fin 8) (s : State) : Host.Outcome State Fault Refusal :=
  onState (fun s => exceptionEntry c s) s

/-- INTERRUPT_ENTRY (R302). -/
def execInterruptEntry (c : Fin 8) (s : State) : Host.Outcome State Fault Refusal :=
  onState (fun s => interruptEntry c s) s

/-- TASK_ACTIVATION (R288). -/
def execTaskActivation (c : Fin 8) (slot : Fin 32) (s : State) : Host.Outcome State Fault Refusal :=
  onDev (fun d => activate d c slot) s

/-- TSC_SWACT (R288). -/
def execTscSwact (ini : Initiator) (c : Fin 8) (mask : BitVec 32) (s : State) : Host.Outcome State Fault Refusal :=
  onState (fun s => ownWrite ini (TSC_SWACT.at c) (mask.setWidth 36) s) s

/-- SLOT_TIMER_EXPIRY (R288). -/
def execSlotTimerExpiry (c : Fin 8) (slot : Fin 32) (s : State) : Host.Outcome State Fault Refusal :=
  onDev (fun d => timerExpire d c slot) s

/-- TSC_TMR_WRITE (R316). -/
def execTscTmrWrite (ini : Initiator) (c : Fin 8) (slot : Fin 32) (val : Word) (s : State) : Host.Outcome State Fault Refusal :=
  onState (fun s => ownWrite ini (TSC_TMR.at c slot) val s) s

/-- SLOT_ENABLE (R291). -/
def execSlotEnable (ini : Initiator) (c : Fin 8) (slot : Fin 32) (val : Word) (s : State) : Host.Outcome State Fault Refusal :=
  onState (fun s => ownWrite ini (TSC_SLOTCFG.at c slot) val s) s

/-- TASK_SWITCH (R293). -/
def execTaskSwitch (c : Fin 8) (s : State) : Host.Outcome State Fault Refusal :=
  onState (fun s => taskSwitch c s) s

/-- WD_EXPIRE (R315). -/
def execWdExpire (c : Fin 8) (s : State) : Host.Outcome State Fault Refusal :=
  onDev (fun d => wdExpire d c) s

/-- WDKICK (R315). -/
def execWdkick (ini : Initiator) (c : Fin 8) (key : Word) (s : State) : Host.Outcome State Fault Refusal :=
  onState (fun s => ownWrite ini (TSC_WDKICK.at c) key s) s

end Sys2Proof.Machine
end

