-- ==== Sys2Proof/Machine/CmdEvent.lean ====
section
/-!
DEFINITION. Commands of the event controller and wake (chapters 14 and 20): one meaning per command.
-/
namespace Sys2Proof.Machine

/-- EVENT_SENSED (R324). -/
def execEventSensed (src : Fin 2048) (s : State) : Host.Outcome State Fault Refusal :=
  onDev (fun d => senseSource d src) s

/-- GLITCH_FILTER_SETTLE (R325). -/
def execGlitchFilterSettle (src : Fin 2048) (s : State) : Host.Outcome State Fault Refusal :=
  onDev (fun d => glitchSettle d src) s

/-- EVENT_DELIVERY (R326). -/
def execEventDelivery (src : Fin 2048) (s : State) : Host.Outcome State Fault Refusal :=
  onDev (fun d => eventDelivery d src) s

/-- EVC_SRC_ACCESS (R337). -/
def execEvcSrcAccess (ini : Initiator) (q : Fin 8) (write : Option Word) (s : State) : Host.Outcome State Fault Refusal :=
  onState (fun s => match write with
    | some w => ownWrite ini (EVC_SRC.at q) w s
    | none => ownRead ini (EVC_SRC.at q) s) s

/-- EVC_GATE_WRITE (R328). -/
def execEvcGateWrite (ini : Initiator) (gate : Bool) (s : State) : Host.Outcome State Fault Refusal :=
  onState (fun s => ownWrite ini EVC_GATE.at (if gate then 1 else 0) s) s

/-- EVC_SWSET (R332). -/
def execEvcSwset (ini : Initiator) (src : Fin 2048) (s : State) : Host.Outcome State Fault Refusal :=
  onState (fun s => ownWrite ini EVC_SWSET.at (BitVec.ofNat 36 src) s) s

/-- EVC_PEND_DISCARD (R332). -/
def execEvcPendDiscard (ini : Initiator) (q : Fin 8) (w : Fin 8) (mask : BitVec 32) (s : State) : Host.Outcome State Fault Refusal :=
  onState (fun s => ownWrite ini (EVC_PEND.at q w) (mask.setWidth 36) s) s

/-- WAKE_EDGE (R334). -/
def execWakeEdge (pin : Bool) (k : Fin 64) (level : Bool) (s : State) : Host.Outcome State Fault Refusal :=
  onDev (fun d => if pin then wakePin d k level else wakeSource d (k % 8) level) s

/-- PARK_WAKE (R474). -/
def execParkWake (mons : List Nat) (s : State) : Host.Outcome State Fault Refusal :=
  onState (fun s => parkWakeStep mons s) s

end Sys2Proof.Machine
end

