-- ==== Sys2Proof/Machine/CmdFlash.lean ====
section
/-!
DEFINITION. Commands of flash, ROM service and Colophon (chapter 18): one meaning per command.
-/
namespace Sys2Proof.Machine

/-- FL_PROGRAM_WORD (R428). -/
def execFlProgramWord (c : Fin 8) (ph : RomPhase) (stuck : Option (Word × BitVec 4)) (s : State) : Host.Outcome State Fault Refusal :=
  onState (fun s => flProgramWord c ph stuck s) s

/-- FL_ERASE_SECTOR (R431). -/
def execFlEraseSector (c : Fin 8) (ph : RomPhase) (out : EraseOutcome) (s : State) : Host.Outcome State Fault Refusal :=
  onState (fun s => flEraseSector c ph out s) s

/-- FL_SEAL_BLOCK (R429). -/
def execFlSealBlock (c : Fin 8) (ph : RomPhase) (s : State) : Host.Outcome State Fault Refusal :=
  onState (fun s => flSealBlock c ph s) s

/-- FL_VERIFY (R430). -/
def execFlVerify (c : Fin 8) (s : State) : Host.Outcome State Fault Refusal :=
  onState (fun s => flVerify c s) s

/-- FL_STATUS (R427). -/
def execFlStatus (c : Fin 8) (s : State) : Host.Outcome State Fault Refusal :=
  onState (fun s => flStatus c s) s

/-- FL_JOURNAL_SCAN (R433). -/
def execFlJournalScan (c : Fin 8) (s : State) : Host.Outcome State Fault Refusal :=
  onState (fun s => flJournalScan c s) s

/-- OTP_PROGRAM_FIELD (R437). -/
def execOtpProgramField (c : Fin 8) (ph : RomPhase) (s : State) : Host.Outcome State Fault Refusal :=
  onState (fun s => otpProgramField c ph s) s

/-- FL_RT_MARGIN (R421). -/
def execFlRtMargin (s : State) : Host.Outcome State Fault Refusal :=
  onDev (fun d => rtMargin d) s

/-- CMD_DENY (R438). -/
def execCmdDeny (ini : Initiator) (off : Nat) (val : Word) (s : State) : Host.Outcome State Fault Refusal :=
  onState (fun s => ownStore ini flashPage (0x20 + off % 32) val s) s

/-- OPTION_LOAD (R436). -/
def execOptionLoad (ok : Bool) (ce : Nat) (s : State) : Host.Outcome State Fault Refusal :=
  onDev (fun d => optionLoad d ok ce) s

end Sys2Proof.Machine
end

