-- ==== Sys2Proof/Machine/CmdFolio.lean ====
section
/-!
DEFINITION. Commands of folio writes, quoin pairs, registration groups and the scrubber (chapter 03): one meaning per command.
-/
namespace Sys2Proof.Machine

/-- REGISTER_WRITE (R53). -/
def execRegisterWrite (ini : Initiator) (page : Nat) (off : Nat) (val : Word) (s : State) : Host.Outcome State Fault Refusal :=
  onState (fun s => ownStore ini page off val s) s

/-- READ_CLEAR_COUNTER (R95). -/
def execReadClearCounter (ini : Initiator) (page : Nat) (off : Nat) (s : State) : Host.Outcome State Fault Refusal :=
  onState (fun s => ownRead ini (page * 256 + off % 256) s) s

/-- QUOIN_VALUE_WRITE (R60). -/
def execQuoinValueWrite (ini : Initiator) (page : Nat) (off : Nat) (val : Word) (s : State) : Host.Outcome State Fault Refusal :=
  onState (fun s => ownStore ini page (off % 128) val s) s

/-- QUOIN_COMPLEMENT_WRITE (R63). -/
def execQuoinComplementWrite (ini : Initiator) (page : Nat) (off : Nat) (val : Word) (s : State) : Host.Outcome State Fault Refusal :=
  onState (fun s => ownStore ini page (off % 128 + 0x80) val s) s

/-- QUOIN_TIMEOUT (R62). -/
def execQuoinTimeout (ini : Initiator) (page : Nat) (s : State) : Host.Outcome State Fault Refusal :=
  onDev (fun d => quoinTimeout d page ini) s

/-- BLOCK_ENABLE (R50). -/
def execBlockEnable (ini : Initiator) (page : Nat) (en : Bool) (s : State) : Host.Outcome State Fault Refusal :=
  onState (fun s => ownWrite ini (FOLIO_CTL.at page) (if en then 1 else 0) s) s

/-- BLOCK_RESET (R73). -/
def execBlockReset (ini : Initiator) (page : Nat) (s : State) : Host.Outcome State Fault Refusal :=
  onState (fun s => ownWrite ini (FOLIO_CTL.at page) 2 s) s

/-- BLOCK_RESET_RELEASE (R471). -/
def execBlockResetRelease (page : Nat) (s : State) : Host.Outcome State Fault Refusal :=
  onDev (fun d => blockReleaseStep d page) s

/-- FOLIO_GROUP_WRITE (R54). -/
def execFolioGroupWrite (ini : Initiator) (page : Nat) (val : Word) (s : State) : Host.Outcome State Fault Refusal :=
  onState (fun s => ownWrite ini (FOLIO_GROUP.at page) val s) s

/-- SYS_STROBE (R55). -/
def execSysStrobe (ini : Initiator) (mask : BitVec 16) (s : State) : Host.Outcome State Fault Refusal :=
  onState (fun s => ownWrite ini SYS_STROBE.at (mask.setWidth 36) s) s

/-- STROBESRC_WRITE (R59). -/
def execStrobesrcWrite (ini : Initiator) (g : Fin 16) (val : Word) (s : State) : Host.Outcome State Fault Refusal :=
  onState (fun s => ownWrite ini (SYS_STROBESRC.at g) val s) s

/-- GROUP_APPLY (R55). -/
def execGroupApply (g : Fin 16) (s : State) : Host.Outcome State Fault Refusal :=
  onState (fun s => groupApply g s) s

/-- VOTE_SCRUB (R66). -/
def execVoteScrub (s : State) : Host.Outcome State Fault Refusal :=
  onState (fun s => voteScrub s) s

end Sys2Proof.Machine
end

