-- ==== Sys2Proof/Machine/CmdForme.lean ====
section
/-!
DEFINITION. Commands of Formes (chapters 06 and 07): one meaning per command.
-/
namespace Sys2Proof.Machine

/-- FORME_RUN_START (R135). -/
def execFormeRunStart (ini : Initiator) (f : Fin 16) (s : State) : Host.Outcome State Fault Refusal :=
  onState (fun s => ownWrite ini (FORME_RUN.at f) 1 s) s

/-- FORME_RUN_STOP (R135). -/
def execFormeRunStop (ini : Initiator) (f : Fin 16) (s : State) : Host.Outcome State Fault Refusal :=
  onState (fun s => ownWrite ini (FORME_RUN.at f) 0 s) s

/-- FORME_COUNTER_START (R135). -/
def execFormeCounterStart (f : Fin 16) (s : State) : Host.Outcome State Fault Refusal :=
  onState (fun s => counterStartStep f s) s

/-- FORME_BOUNDARY (R518). -/
def execFormeBoundary (f : Fin 16) (s : State) : Host.Outcome State Fault Refusal :=
  onState (fun s => formeBoundaryStep f s) s

/-- FORME_COUNTER_STOP (R135). -/
def execFormeCounterStop (f : Fin 16) (s : State) : Host.Outcome State Fault Refusal :=
  onDev (fun d => formeCounterStop d f) s

/-- FORME_MID_PERIOD (R133). -/
def execFormeMidPeriod (f : Fin 16) (s : State) : Host.Outcome State Fault Refusal :=
  onState (fun s => formeMidStep f s) s

/-- CARRIER_EVENT (R147). -/
def execCarrierEvent (f : Fin 16) (peak : Bool) (s : State) : Host.Outcome State Fault Refusal :=
  onDev (fun d => carrierEvent d f peak) s

/-- REF_EDGE (R139). -/
def execRefEdge (f : Fin 16) (n : Fin 4) (s : State) : Host.Outcome State Fault Refusal :=
  onDev (fun d => refEdge d f n) s

/-- PAIR_EDGE_EVENT (R148). -/
def execPairEdgeEvent (f : Fin 16) (n : Fin 4) (s : State) : Host.Outcome State Fault Refusal :=
  onDev (fun d => pairEdgeEvent d f n) s

/-- EDGE_SHADOW_WRITE (R141). -/
def execEdgeShadowWrite (ini : Initiator) (f : Fin 16) (k : Fin 12) (val : Word) (s : State) : Host.Outcome State Fault Refusal :=
  onState (fun s => ownWrite ini (FORME_CMPA.at f k) val s) s

/-- LATE_LOAD_DECISION (R142). -/
def execLateLoadDecision (f : Fin 16) (n : Fin 4) (s : State) : Host.Outcome State Fault Refusal :=
  onDev (fun d => lateLoad d f n) s

/-- GUTTER_TURN_ON (R153). -/
def execGutterTurnOn (f : Fin 16) (n : Fin 4) (s : State) : Host.Outcome State Fault Refusal :=
  onDev (fun d => gutterTurnOn d f n) s

/-- INTERLOCK_RELEASE (R163). -/
def execInterlockRelease (f : Fin 16) (n : Fin 4) (s : State) : Host.Outcome State Fault Refusal :=
  onDev (fun d => interlockRelease d f n) s

/-- MIN_PULSE_END (R159). -/
def execMinPulseEnd (f : Fin 16) (n : Fin 4) (s : State) : Host.Outcome State Fault Refusal :=
  onDev (fun d => minPulseEnd d f n) s

end Sys2Proof.Machine
end

