-- ==== Sys2Proof/Machine/CmdHost.lean ====
section
/-!
DEFINITION. Commands of host and field interfaces and debug (chapter 21): one meaning per command.
-/
namespace Sys2Proof.Machine

/-- GPIO_SET (R481). -/
def execGpioSet (ini : Initiator) (b : Fin 4) (val : BitVec 32) (s : State) : Host.Outcome State Fault Refusal :=
  onState (fun s => ownWrite ini (GPIO_SET.at b) (val.setWidth 36) s) s

/-- GPIO_CLR (R481). -/
def execGpioClr (ini : Initiator) (b : Fin 4) (val : BitVec 32) (s : State) : Host.Outcome State Fault Refusal :=
  onState (fun s => ownWrite ini (GPIO_CLR.at b) (val.setWidth 36) s) s

/-- GPIO_EDGE (R481). -/
def execGpioEdge (p : Fin 128) (level : Bool) (s : State) : Host.Outcome State Fault Refusal :=
  onDev (fun d => gpioEdge d p level) s

/-- PCIE_LINK_CHANGE (R482). -/
def execPcieLinkChange (up x2 : Bool) (gen : Fin 4) (s : State) : Host.Outcome State Fault Refusal :=
  onDev (fun d => pcieLink d up x2 gen) s

/-- BAR0_HIGH_WRITE (R484). -/
def execBar0HighWrite (val : BitVec 32) (s : State) : Host.Outcome State Fault Refusal :=
  onState (fun s => bar0Write 4 val s) s

/-- BAR0_LOW_WRITE (R484). -/
def execBar0LowWrite (slot : Bar0Dword) (val : BitVec 32) (s : State) : Host.Outcome State Fault Refusal :=
  onState (fun s => bar0Write (bar0Offset slot) val s) s

/-- BAR0_LOW_READ (R484). -/
def execBar0LowRead (slot : Fin 1048576) (s : State) : Host.Outcome State Fault Refusal :=
  onState (fun s => bar0LowRead (8 * slot) s) s

/-- BAR2_WRITE (R485). -/
def execBar2Write (j : Nat) (val : BitVec 32) (s : State) : Host.Outcome State Fault Refusal :=
  onState (fun s => bar2Write j val s) s

/-- BAR4_WRITE (R485). -/
def execBar4Write (j : Nat) (val : BitVec 32) (be : BitVec 4) (s : State) : Host.Outcome State Fault Refusal :=
  onState (fun s => bar4Write j val be s) s

/-- HOST_READ (R486). -/
def execHostRead (t : HostTarget) (s : State) : Host.Outcome State Fault Refusal :=
  onState (fun s => hostRead t s) s

/-- CMDLEN_WRITE (R487). -/
def execCmdlenWrite (n : BitVec 32) (s : State) : Host.Outcome State Fault Refusal :=
  onDev (fun d => if hostServed d then cmdlenWrite d n.toNat else d) s

/-- RSPLEN_WRITE (R487). -/
def execRsplenWrite (n : BitVec 32) (s : State) : Host.Outcome State Fault Refusal :=
  onDev (fun d => if hostServed d then rsplenWrite d n.toNat else d) s

/-- MSIX_MESSAGE (R488). -/
def execMsixMessage (v : Fin 64) (s : State) : Host.Outcome State Fault Refusal :=
  onDev (fun d => msixMessage d v) s

/-- ETH_TRANSMIT (R491). -/
def execEthTransmit (m : Fin 2) (cls : Fin 8) (s : State) : Host.Outcome State Fault Refusal :=
  onState (fun s => ethTransmit m cls s) s

/-- ETH_RECEIVE (R491). -/
def execEthReceive (m : Fin 2) (octets : List (BitVec 8)) (fcsErr : Bool) (s : State) : Host.Outcome State Fault Refusal :=
  onState (fun s => ethReceive m octets fcsErr s) s

/-- GCL_ENTRY (R490). -/
def execGclEntry (m : Fin 2) (s : State) : Host.Outcome State Fault Refusal :=
  onState (fun s => gclStep m s) s

/-- MDIO_GO (R497). -/
def execMdioGo (ini : Initiator) (m : Fin 2) (val : Word) (s : State) : Host.Outcome State Fault Refusal :=
  onState (fun s => ownWrite ini (ETH_MDIO.at m) (val ||| oneBit 35) s) s

/-- MDIO_DONE (R497). -/
def execMdioDone (m : Fin 2) (data : BitVec 16) (s : State) : Host.Outcome State Fault Refusal :=
  onDev (fun d => mdioDone d m data.toNat) s

/-- CAN_TRANSMIT (R492). -/
def execCanTransmit (n : Fin 8) (ok : Bool) (s : State) : Host.Outcome State Fault Refusal :=
  onDev (fun d => canTransmit n ok d) s

/-- CAN_RECEIVE (R492). -/
def execCanReceive (n : Fin 8) (ok : Bool) (w0 w1 : Word) (data : List (BitVec 8)) (s : State) : Host.Outcome State Fault Refusal :=
  onDev (fun d => canReceive n ok w0 w1 data d) s

/-- CAN_RECOV (R492). -/
def execCanRecov (ini : Initiator) (n : Fin 8) (s : State) : Host.Outcome State Fault Refusal :=
  onState (fun s => commandBit ini (CANF_CTL.at n) 0xE80000FFF 32 s) s

/-- SERIAL_TRANSMIT (R493). -/
def execSerialTransmit (k : Fin 18) (err : Bool) (s : State) : Host.Outcome State Fault Refusal :=
  onDev (fun d => serialTransmit k err d) s

/-- SERIAL_RECEIVE (R493). -/
def execSerialReceive (k : Fin 18) (octets : List (BitVec 8)) (flags : BitVec 5) (s : State) : Host.Outcome State Fault Refusal :=
  onDev (fun d => serialReceive k octets flags d) s

/-- AVS_STAT_WRITE (R494). -/
def execAvsStatWrite (ini : Initiator) (val : Word) (s : State) : Host.Outcome State Fault Refusal :=
  onState (fun s => ownWrite ini AVS_STAT.at val s) s

/-- BYPASS (R495). -/
def execBypass (s : State) : Host.Outcome State Fault Refusal :=
  onDev (fun d => jtagBypass d) s

/-- IDCODE (R495). -/
def execIdcode (s : State) : Host.Outcome State Fault Refusal :=
  onDev (fun d => jtagIdcode d) s

/-- SAMPLE_PRELOAD (R495). -/
def execSamplePreload (cells board : List Nat) (s : State) : Host.Outcome State Fault Refusal :=
  onDev (fun d => jtagSample d cells board) s

/-- EXTEST (R495). -/
def execExtest (cells board : List Nat) (s : State) : Host.Outcome State Fault Refusal :=
  onDev (fun d => jtagExtest d cells board) s

/-- CLAMP (R495). -/
def execClamp (s : State) : Host.Outcome State Fault Refusal :=
  onDev (fun d => jtagClamp d) s

/-- HIGHZ (R495). -/
def execHighz (s : State) : Host.Outcome State Fault Refusal :=
  onDev (fun d => jtagHighz d) s

/-- HALTREQ (R496). -/
def execHaltreq (ini : Initiator) (c : Fin 8) (s : State) : Host.Outcome State Fault Refusal :=
  onState (fun s => commandBit ini (DBG_CTL.at c) 0x10000000F 35 s) s

/-- STEP (R496). -/
def execStep (ini : Initiator) (c : Fin 8) (s : State) : Host.Outcome State Fault Refusal :=
  onState (fun s => commandBit ini (DBG_CTL.at c) 0x10000000F 34 s) s

/-- RESUME (R496). -/
def execResume (ini : Initiator) (c : Fin 8) (s : State) : Host.Outcome State Fault Refusal :=
  onState (fun s => commandBit ini (DBG_CTL.at c) 0x10000000F 33 s) s

/-- BREAKPOINT_HIT (R496). -/
def execBreakpointHit (c : Fin 8) (s : State) : Host.Outcome State Fault Refusal :=
  onDev (fun d => breakpointHit d c) s

/-- ETH_LINK_STATE (R497). -/
def execEthLinkState (m : Fin 2) (sync done : Bool) (speed : Fin 4) (s : State) : Host.Outcome State Fault Refusal :=
  onDev (fun d => ethLinkState d m sync done speed) s

/-- BUS_OFF_RECOVERY_DONE (R492). -/
def execBusOffRecoveryDone (n : Fin 8) (s : State) : Host.Outcome State Fault Refusal :=
  onDev (fun d => canRecovered d n) s

end Sys2Proof.Machine
end

