-- ==== Sys2Proof/Machine/CmdMem.lean ====
section
/-!
DEFINITION. Commands of the fabric and stored-data protection (chapter 15): one meaning per command.
-/
namespace Sys2Proof.Machine

/-- TAG_GRANT (R344). -/
def execTagGrant (s : State) : Host.Outcome State Fault Refusal :=
  onDev (fun d => tagGrant d) s

/-- FAB_TIMEOUT (R346). -/
def execFabTimeout (id : Nat) (took : Bool) (s : State) : Host.Outcome State Fault Refusal :=
  onState (fun s => fabTimeout id took s) s

/-- FAB_LATE (R346). -/
def execFabLate (id : Nat) (s : State) : Host.Outcome State Fault Refusal :=
  onDev (fun d => fabLate d id) s

/-- ZOMBIE_RELEASE (R346). -/
def execZombieRelease (id : Nat) (s : State) : Host.Outcome State Fault Refusal :=
  onDev (fun d => zombieRelease d id) s

/-- MEMORY_INIT_DONE (R352). -/
def execMemoryInitDone (region : Fin 35) (s : State) : Host.Outcome State Fault Refusal :=
  onState (fun s => memoryInitDone region s) s

/-- RETIRE_MIRROR (R358). -/
def execRetireMirror (ini : Initiator) (bank : Fin 16) (s : State) : Host.Outcome State Fault Refusal :=
  onState (fun s => ownWrite ini FAB_RETIRE.at (BitVec.ofNat 36 (16 + bank)) s) s

/-- RETIRE_NONE (R357). -/
def execRetireNone (ini : Initiator) (bank : Fin 16) (s : State) : Host.Outcome State Fault Refusal :=
  onState (fun s => ownWrite ini FAB_RETIRE.at (BitVec.ofNat 36 bank) s) s

/-- RETIRE_SUBST (R359). -/
def execRetireSubst (ini : Initiator) (bank : Fin 16) (s : State) : Host.Outcome State Fault Refusal :=
  onState (fun s => ownWrite ini FAB_RETIRE.at (BitVec.ofNat 36 (32 + bank)) s) s

/-- FAB_BANKOFF_WRITE (R360). -/
def execFabBankoffWrite (ini : Initiator) (val : Word) (s : State) : Host.Outcome State Fault Refusal :=
  onState (fun s => ownWrite ini FAB_BANKOFF.at val s) s

/-- MEMP_CLRBLK (R356). -/
def execMempClrblk (ini : Initiator) (val : Word) (s : State) : Host.Outcome State Fault Refusal :=
  onState (fun s => ownWrite ini MEMP_CLRBLK.at val s) s

/-- MEMP_TAIL_WRITE (R354). -/
def execMempTailWrite (ini : Initiator) (val : Word) (s : State) : Host.Outcome State Fault Refusal :=
  onState (fun s => ownWrite ini MEMP_TAIL.at val s) s

end Sys2Proof.Machine
end

