-- ==== Sys2Proof/Machine/CmdQueue.lean ====
section
/-!
DEFINITION. Commands of Galley and Press (chapter 16): one meaning per command.
-/
namespace Sys2Proof.Machine

/-- SETPOINT_ARRIVAL (R182). -/
def execSetpointArrival (e : Fin 64) (s : State) : Host.Outcome State Fault Refusal :=
  onDev (fun d => setpointArrival d e) s

/-- QUEUE_ENABLE (R367). -/
def execQueueEnable (ini : Initiator) (q : Fin 32768) (s : State) : Host.Outcome State Fault Refusal :=
  onState (fun s => ownWrite ini GALLEY_QCMD.at (BitVec.ofNat 36 (1 * 65536 + q)) s) s

/-- QUEUE_DISABLE (R367). -/
def execQueueDisable (ini : Initiator) (q : Fin 32768) (s : State) : Host.Outcome State Fault Refusal :=
  onState (fun s => ownWrite ini GALLEY_QCMD.at (BitVec.ofNat 36 (2 * 65536 + q)) s) s

/-- QUEUE_FLUSH (R367). -/
def execQueueFlush (ini : Initiator) (q : Fin 32768) (s : State) : Host.Outcome State Fault Refusal :=
  onState (fun s => ownWrite ini GALLEY_QCMD.at (BitVec.ofNat 36 (3 * 65536 + q)) s) s

/-- QUEUE_CLRSTAT (R367). -/
def execQueueClrstat (ini : Initiator) (q : Fin 32768) (s : State) : Host.Outcome State Fault Refusal :=
  onState (fun s => ownWrite ini GALLEY_QCMD.at (BitVec.ofNat 36 (4 * 65536 + q)) s) s

/-- QUEUE_PUT (R370). -/
def execQueuePut (p : Producer) (s : State) : Host.Outcome State Fault Refusal :=
  onState (fun s => queuePut p s) s

/-- PUT_COMMIT (R369). -/
def execPutCommit (q : Fin 32768) (s : State) : Host.Outcome State Fault Refusal :=
  onState (fun s => putCommit q s) s

/-- QUEUE_TAKE (R369). -/
def execQueueTake (t : Taker) (s : State) : Host.Outcome State Fault Refusal :=
  onState (fun s => queueTake t s) s

/-- PARKED_TAKE_COMPLETE (R371). -/
def execParkedTakeComplete (q : Fin 32768) (s : State) : Host.Outcome State Fault Refusal :=
  onState (fun s => parkedTakeComplete q s) s

/-- BLOCK_PUT_SERVED (R370). -/
def execBlockPutServed (q : Fin 32768) (s : State) : Host.Outcome State Fault Refusal :=
  onState (fun s => blockPutServed q s) s

/-- DESC_WR (R367). -/
def execDescWr (ini : Initiator) (q : Fin 32768) (k : Fin 4) (val : Word) (s : State) : Host.Outcome State Fault Refusal :=
  onState (fun s => if !iniServed s.dev ini then s else iniAnswered ini (descAddr q k) (fabStore ini (descAddr q k) allBits val s)) s

/-- PRESS_START (R387). -/
def execPressStart (ini : Initiator) (ch : Fin 128) (s : State) : Host.Outcome State Fault Refusal :=
  onState (fun s => ownWrite ini (PRESS_CHCTL.at (ch / 16) (ch % 16)) 1 s) s

/-- SLIP_LOAD (R378). -/
def execSlipLoad (ch : Fin 128) (s : State) : Host.Outcome State Fault Refusal :=
  onState (fun s => slipLoad ch s) s

/-- PRESS_SWTRIG (R379). -/
def execPressSwtrig (ini : Initiator) (ch : Fin 128) (s : State) : Host.Outcome State Fault Refusal :=
  onState (fun s => ownWrite ini (PRESS_CHCTL.at (ch / 16) (ch % 16)) 4 s) s

/-- PRESS_TRIGGER (R379). -/
def execPressTrigger (ch : Fin 128) (s : State) : Host.Outcome State Fault Refusal :=
  onDev (fun d => pressTrig d ch) s

/-- PRESS_STOP (R382). -/
def execPressStop (ini : Initiator) (ch : Fin 128) (s : State) : Host.Outcome State Fault Refusal :=
  onState (fun s => ownWrite ini (PRESS_CHCTL.at (ch / 16) (ch % 16)) 2 s) s

/-- PRESS_TRANSFER (R380). -/
def execPressTransfer (ch : Fin 128) (s : State) : Host.Outcome State Fault Refusal :=
  onState (fun s => pressTransfer ch s) s

/-- SLIP_COMPLETE (R381). -/
def execSlipComplete (ch : Fin 128) (s : State) : Host.Outcome State Fault Refusal :=
  onDev (fun d => slipComplete d ch) s

/-- PRESS_HALT (R383). -/
def execPressHalt (s : State) : Host.Outcome State Fault Refusal :=
  onDev (fun d => pressHalt d) s

/-- HCLR (R383). -/
def execHclr (ini : Initiator) (s : State) : Host.Outcome State Fault Refusal :=
  onState (fun s => commandBit ini PRESS_GCTL.at (oneBit 1) 0 s) s

end Sys2Proof.Machine
end

