-- ==== Sys2Proof/Machine/CmdReset.lean ====
section
/-!
DEFINITION. Commands of reset, modes and pins (chapter 20): one meaning per command.
-/
namespace Sys2Proof.Machine

/-- POWER_ON_RELEASE (R458). -/
def execPowerOnRelease (s : State) : Host.Outcome State Fault Refusal :=
  onDev (fun d => powerOnRelease d) s

/-- BROWN_OUT (R458). -/
def execBrownOut (supply : Supply) (s : State) : Host.Outcome State Fault Refusal :=
  onState (fun s => brownOut (supplySource supply) s) s

/-- NRST_IN (R460). -/
def execNrstIn (low : Bool) (s : State) : Host.Outcome State Fault Refusal :=
  onDev (fun d => nrstIn d low) s

/-- WARM_RESET (R465). -/
def execWarmReset (s : State) : Host.Outcome State Fault Refusal :=
  onState (fun s => s) s

/-- WARM_RESET_RELEASE (R465). -/
def execWarmResetRelease (s : State) : Host.Outcome State Fault Refusal :=
  onDev (fun d => warmRelease d) s

/-- SYSTEM_WATCHDOG_EXPIRY (R468). -/
def execSystemWatchdogExpiry (s : State) : Host.Outcome State Fault Refusal :=
  onDev (fun d => swdExpiry d) s

/-- SWD_WARN (R468). -/
def execSwdWarn (s : State) : Host.Outcome State Fault Refusal :=
  onDev (fun d => swdWarn d) s

/-- SWKICK (R468). -/
def execSwkick (ini : Initiator) (key : Word) (s : State) : Host.Outcome State Fault Refusal :=
  onState (fun s => ownWrite ini RSTC_SWKICK.at key s) s

/-- SWRST (R470). -/
def execSwrst (ini : Initiator) (s : State) : Host.Outcome State Fault Refusal :=
  onState (fun s => ownWrite ini RSTC_SWRST.at 1 s) s

/-- HOLDREL (R462). -/
def execHoldrel (ini : Initiator) (banks : BitVec 6) (s : State) : Host.Outcome State Fault Refusal :=
  onState (fun s => ownWrite ini RSTC_HOLDREL.at (banks.setWidth 36) s) s

/-- MODE_CONFIG (R472). -/
def execModeConfig (ini : Initiator) (s : State) : Host.Outcome State Fault Refusal :=
  onState (fun s => ownWrite ini SYS_MODE.at (BitVec.ofNat 36 mConfig) s) s

/-- MODE_RUN (R472). -/
def execModeRun (ini : Initiator) (s : State) : Host.Outcome State Fault Refusal :=
  onState (fun s => ownWrite ini SYS_MODE.at (BitVec.ofNat 36 mRun) s) s

/-- MODE_STANDBY (R472). -/
def execModeStandby (ini : Initiator) (s : State) : Host.Outcome State Fault Refusal :=
  onState (fun s => ownWrite ini SYS_MODE.at (BitVec.ofNat 36 mStandby) s) s

/-- MODE_RECOVERY (R472). -/
def execModeRecovery (ini : Initiator) (s : State) : Host.Outcome State Fault Refusal :=
  onState (fun s => ownWrite ini SYS_MODE.at (BitVec.ofNat 36 mRecovery) s) s

/-- MODE_PARK (R474). -/
def execModePark (ini : Initiator) (s : State) : Host.Outcome State Fault Refusal :=
  onState (fun s => ownWrite ini SYS_MODE.at (BitVec.ofNat 36 mPark) s) s

/-- PINC_WRITE (R480). -/
def execPincWrite (ini : Initiator) (pad : Bool) (w : Fin 16) (val : Word) (s : State) : Host.Outcome State Fault Refusal :=
  onState (fun s => ownWrite ini (if pad then PINC_PAD.at w else PINC_FUNC.at w) val s) s

end Sys2Proof.Machine
end

