-- ==== Sys2Proof/Machine/CmdSample.lean ====
section
/-!
DEFINITION. Commands of Survey, sigma-delta and Bearing (chapters 04 and 10): one meaning per command.
-/
namespace Sys2Proof.Machine

/-- SURVEY_TRIGGER (R81). -/
def execSurveyTrigger (u : Fin 24) (slot : Fin 16) (s : State) : Host.Outcome State Fault Refusal :=
  onDev (fun d => surveyTrigger d u slot) s

/-- SURV_SWTRIG (R80). -/
def execSurvSwtrig (ini : Initiator) (u : Fin 24) (val : Word) (s : State) : Host.Outcome State Fault Refusal :=
  onState (fun s => ownWrite ini (SURV_SWTRIG.at u) val s) s

/-- SURVEY_COMMIT (R82). -/
def execSurveyCommit (u : Fin 24) (s : State) : Host.Outcome State Fault Refusal :=
  onDev (fun d => surveyCommit d u) s

/-- SAMPLING_INSTANT (R78). -/
def execSamplingInstant (u : Fin 24) (s : State) : Host.Outcome State Fault Refusal :=
  onDev (fun d => samplingInstant d u) s

/-- SURVEY_RESULT (R84). -/
def execSurveyResult (u : Fin 24) (outs : List Nat) (s : State) : Host.Outcome State Fault Refusal :=
  onDev (fun d => surveyResult d u outs) s

/-- SURV_RES_READ (R89). -/
def execSurvResRead (ini : Initiator) (u : Fin 24) (slot : Fin 16) (s : State) : Host.Outcome State Fault Refusal :=
  onState (fun s => ownRead ini (SURV_RES.at u slot) s) s

/-- SURV_CALREQ (R92). -/
def execSurvCalreq (ini : Initiator) (u : Fin 24) (val : Word) (s : State) : Host.Outcome State Fault Refusal :=
  onState (fun s => ownWrite ini (SURV_CALREQ.at u) val s) s

/-- CAL_DONE (R92). -/
def execCalDone (u : Fin 24) (s : State) : Host.Outcome State Fault Refusal :=
  onDev (fun d => calDone d u) s

/-- VDDA_LOW (R93). -/
def execVddaLow (low : Bool) (s : State) : Host.Outcome State Fault Refusal :=
  onDev (fun d => vddaLevel d low) s

/-- SURV_READY (R94). -/
def execSurvReady (u : Fin 24) (s : State) : Host.Outcome State Fault Refusal :=
  onDev (fun d => survReady d u) s

/-- SDF_CLOCK_LOSS (R97). -/
def execSdfClockLoss (n : Fin 16) (s : State) : Host.Outcome State Fault Refusal :=
  onDev (fun d => sdfClock d n false) s

/-- SDF_TRIGGER (R99). -/
def execSdfTrigger (n : Fin 16) (s : State) : Host.Outcome State Fault Refusal :=
  onDev (fun d => sdfTrigEvent d n) s

/-- SDF_SWTRIG (R102). -/
def execSdfSwtrig (ini : Initiator) (n : Fin 16) (val : Word) (s : State) : Host.Outcome State Fault Refusal :=
  onState (fun s => ownWrite ini (SDF_SWTRIG.at (n / 4) (n % 4)) val s) s

/-- SDF_RESULT (R100). -/
def execSdfResult (n : Fin 16) (edges : List SdEdge) (s : State) : Host.Outcome State Fault Refusal :=
  onDev (fun d => sdfResult d n edges) s

/-- SDF_RES_READ (R102). -/
def execSdfResRead (ini : Initiator) (n : Fin 16) (s : State) : Host.Outcome State Fault Refusal :=
  onState (fun s => ownRead ini (SDF_RES.at (n / 4) (n % 4)) s) s

/-- BEARING_EDGE (R225). -/
def execBearingEdge (u : Fin 16) (a b : Bool) (s : State) : Host.Outcome State Fault Refusal :=
  onDev (fun d => bearingEdge d u a b) s

/-- INDEX (R227). -/
def execBearingIndex (u : Fin 16) (level : Bool) (s : State) : Host.Outcome State Fault Refusal :=
  onDev (fun d => bearingIndex d u level) s

/-- BRNG_POSSET (R227). -/
def execBrngPosset (ini : Initiator) (u : Fin 16) (val : Word) (s : State) : Host.Outcome State Fault Refusal :=
  onState (fun s => ownWrite ini (BRNG_POSSET.at u) val s) s

/-- BEARING_SAMPLE (R229). -/
def execBearingSample (u : Fin 16) (s : State) : Host.Outcome State Fault Refusal :=
  onDev (fun d => bearingSample (reachAll d) u) s

/-- SSI_FRAME_END (R230). -/
def execSsiFrameEnd (u : Fin 16) (s : State) : Host.Outcome State Fault Refusal :=
  onDev (fun d => ssiFrameEnd d u) s

/-- PERIOD_EDGE (R231). -/
def execPeriodEdge (u : Fin 16) (level : Bool) (s : State) : Host.Outcome State Fault Refusal :=
  onDev (fun d => periodEdge d u level) s

/-- PER_LOST (R231). -/
def execPerLost (u : Fin 16) (s : State) : Host.Outcome State Fault Refusal :=
  onDev (fun d => perLost d u) s

/-- SDF_CLOCK_RETURN (R97). -/
def execSdfClockReturn (n : Fin 16) (s : State) : Host.Outcome State Fault Refusal :=
  onDev (fun d => sdfClock d n true) s

end Sys2Proof.Machine
end

