-- ==== Sys2Proof/Machine/CmdSec.lean ====
section
/-!
DEFINITION. Commands of boot and security (chapter 19): one meaning per command.
-/
namespace Sys2Proof.Machine

/-- BOOT_START (R463). -/
def execBootStart (s : State) : Host.Outcome State Fault Refusal :=
  onState (fun s => bootStart s) s

/-- BOOT_CANDIDATE (R444). -/
def execBootCandidate (s : State) : Host.Outcome State Fault Refusal :=
  onState (fun s => bootCandidate s) s

/-- BOOTGO (R446). -/
def execBootgo (val : BitVec 32) (s : State) : Host.Outcome State Fault Refusal :=
  onState (fun s => bootGo val s) s

/-- DEBUG_CHALLENGE (R451). -/
def execDebugChallenge (ini : Initiator) (s : State) : Host.Outcome State Fault Refusal :=
  onState (fun s => ownWrite ini SEC_DBGCTL.at 1 s) s

/-- DEBUG_SUBMIT (R451). -/
def execDebugSubmit (ini : Initiator) (s : State) : Host.Outcome State Fault Refusal :=
  onState (fun s => ownWrite ini SEC_DBGCTL.at 2 s) s

/-- HELLO_FRAME (R452). -/
def execHelloFrame (s : State) : Host.Outcome State Fault Refusal :=
  onDev (fun d => helloFrame d) s

/-- CMD_FRAME (R453). -/
def execCmdFrame (s : State) : Host.Outcome State Fault Refusal :=
  onState (fun s => cmdFrame s) s

/-- CLOSE_FRAME (R452). -/
def execCloseFrame (s : State) : Host.Outcome State Fault Refusal :=
  onDev (fun d => closeFrame d) s

/-- RNG_READ (R454). -/
def execRngRead (ini : Initiator) (s : State) : Host.Outcome State Fault Refusal :=
  onState (fun s => ownRead ini SEC_RNG.at s) s

/-- RNG_FAIL (R454). -/
def execRngFail (s : State) : Host.Outcome State Fault Refusal :=
  onDev (fun d => rngFail d) s

end Sys2Proof.Machine
end

