-- ==== Sys2Proof/Machine/CmdTime.lean ====
section
/-!
DEFINITION. Commands of Meridian, PACE and CBA (chapter 02): one meaning per command.
-/
namespace Sys2Proof.Machine

/-- MERID_CTL_WRITE (R21). -/
def execMeridCtlWrite (ini : Initiator) (val : Word) (s : State) : Host.Outcome State Fault Refusal :=
  onState (fun s => ownWrite ini MERID_CTL.at val s) s

/-- REF_LOSS (R22). -/
def execRefLoss (s : State) : Host.Outcome State Fault Refusal :=
  onState (fun s => refLossAct s) s

/-- LOCK_LOSS (R23). -/
def execLockLoss (s : State) : Host.Outcome State Fault Refusal :=
  onState (fun s => lockLossAct s) s

/-- LOCK_ACQUIRE (R22). -/
def execLockAcquire (s : State) : Host.Outcome State Fault Refusal :=
  onDev (fun d => lockUp d) s

/-- PEER_TIMING_LOSS (R30). -/
def execPeerTimingLoss (s : State) : Host.Outcome State Fault Refusal :=
  onDev (fun d => peerTimingLoss d) s

/-- TICKH_READ (R24). -/
def execTickhRead (ini : Initiator) (s : State) : Host.Outcome State Fault Refusal :=
  onState (fun s => ownRead ini MERID_TICKH.at s) s

/-- ALARM_WRITE (R25). -/
def execAlarmWrite (ini : Initiator) (n : Fin 16) (val : Word) (s : State) : Host.Outcome State Fault Refusal :=
  onState (fun s => ownWrite ini (MERID_ALM.at n) val s) s

/-- ALARM_FIRE (R25). -/
def execAlarmFire (n : Fin 16) (s : State) : Host.Outcome State Fault Refusal :=
  onState (fun s => alarmFire n s) s

/-- MERID_STEP (R27). -/
def execMeridStep (ini : Initiator) (val : Word) (s : State) : Host.Outcome State Fault Refusal :=
  onState (fun s => ownWrite ini MERID_STEP.at val s) s

/-- DISC_SERVO_UPDATE (R29). -/
def execDiscServoUpdate (offsetNs : Int) (rate : Int) (s : State) : Host.Outcome State Fault Refusal :=
  onDev (fun d => discUpdate d offsetNs rate) s

/-- LINE_RECAL (R28). -/
def execLineRecal (forme : Fin 16) (line : Fin 8) (s : State) : Host.Outcome State Fault Refusal :=
  onDev (fun d => lineRecal d forme line) s

/-- CALDONE (R28). -/
def execCaldone (s : State) : Host.Outcome State Fault Refusal :=
  onDev (fun d => calFinish d) s

/-- PACE_SAMPLING_START (R37). -/
def execPaceSamplingStart (s : State) : Host.Outcome State Fault Refusal :=
  onDev (fun d => paceStart d) s

/-- PACE_SAMPLE (R32). -/
def execPaceSample (mons : List Nat) (s : State) : Host.Outcome State Fault Refusal :=
  onState (fun s => paceSampleStep mons s) s

/-- PACE_DROOP (R34). -/
def execPaceDroop (_mon : Fin 16) (val : Nat) (s : State) : Host.Outcome State Fault Refusal :=
  onDev (fun d => paceDroop d val) s

/-- AVS_TRANSACTION (R33). -/
def execAvsTransaction (answer : Option (BitVec 16 × BitVec 10 × BitVec 16)) (s : State) : Host.Outcome State Fault Refusal :=
  onDev (fun d => avsTransaction d answer) s

/-- PACE_TARGET_WRITE (R36). -/
def execPaceTargetWrite (ini : Initiator) (val : Word) (s : State) : Host.Outcome State Fault Refusal :=
  onState (fun s => ownWrite ini PACE_TARGET.at val s) s

/-- PACE_VBOUND_WRITE (R36). -/
def execPaceVboundWrite (ini : Initiator) (upper : Bool) (val : Word) (s : State) : Host.Outcome State Fault Refusal :=
  onState (fun s => ownWrite ini (if upper then PACE_VMAX.at else PACE_VMIN.at) val s) s

/-- PACE_MODE_WRITE (R38). -/
def execPaceModeWrite (ini : Initiator) (val : Word) (s : State) : Host.Outcome State Fault Refusal :=
  onState (fun s => ownWrite ini PACE_CTL.at val s) s

/-- CBA_WINDOW (R40). -/
def execCbaWindow (events : List (Nat × Nat)) (s : State) : Host.Outcome State Fault Refusal :=
  onDev (fun d => cbaWindow d events) s

/-- CBA_CEILING_WRITE (R44). -/
def execCbaCeilingWrite (ini : Initiator) (val : Word) (s : State) : Host.Outcome State Fault Refusal :=
  onState (fun s => ownWrite ini CBA_CEILING.at val s) s

/-- REFERENCE_RETURN (R22). -/
def execReferenceReturn (s : State) : Host.Outcome State Fault Refusal :=
  onDev (fun d => refReturn d) s

end Sys2Proof.Machine
end

