-- ==== Sys2Proof/Machine/CmdTrav.lean ====
section
/-!
DEFINITION. Commands of Traverse engines (chapters 08 and 09): one meaning per command.
-/
namespace Sys2Proof.Machine

/-- LATCH_ARRIVAL (R177). -/
def execLatchArrival (e : Fin 64) (n : Fin 4) (s : State) : Host.Outcome State Fault Refusal :=
  onDev (fun d => latchArrival d e n) s

/-- TRAV_LAT_WRITE (R177). -/
def execTravLatWrite (ini : Initiator) (e : Fin 64) (n : Fin 4) (val : Word) (s : State) : Host.Outcome State Fault Refusal :=
  onState (fun s => ownWrite ini (TRAV_LAT.at e n) val s) s

/-- TRAV_SWTRIG (R179). -/
def execTravSwtrig (ini : Initiator) (e : Fin 64) (s : State) : Host.Outcome State Fault Refusal :=
  onState (fun s => ownWrite ini (TRAV_SWTRIG.at e) 1 s) s

/-- TRAV_UPDATE (R184). -/
def execTravUpdate (e : Fin 64) (s : State) : Host.Outcome State Fault Refusal :=
  onState (fun s => travUpdateStep e s) s

/-- UPDATE_WRITEBACK (R197). -/
def execUpdateWriteback (e : Fin 64) (s : State) : Host.Outcome State Fault Refusal :=
  onState (fun s => writebackStep e s) s

/-- FORCED_STATE_CHANGE (R190). -/
def execForcedStateChange (e : Fin 64) (s : State) : Host.Outcome State Fault Refusal :=
  onDev (fun d => forcedChange d e) s

/-- STARVE (R198). -/
def execStarve (e : Fin 64) (s : State) : Host.Outcome State Fault Refusal :=
  onDev (fun d => starve d e) s

/-- OVERLAY_ZERO_FILL (R209). -/
def execOverlayZeroFill (e : Fin 64) (s : State) : Host.Outcome State Fault Refusal :=
  onState (fun s => overlayZeroFill e s) s

/-- FE_TRIP (R214). -/
def execFeTrip (e : Fin 64) (s : State) : Host.Outcome State Fault Refusal :=
  onDev (fun d => feTrip d e) s

/-- SAFE_ACTION (R215). -/
def execSafeAction (e : Fin 64) (s : State) : Host.Outcome State Fault Refusal :=
  onDev (fun d => safeAction d e) s

/-- FECLR (R217). -/
def execFeclr (ini : Initiator) (e : Fin 64) (s : State) : Host.Outcome State Fault Refusal :=
  onState (fun s => ownWrite ini (TRAV_FECLR.at e) 1 s) s

end Sys2Proof.Machine
end

