-- ==== Sys2Proof/Machine/CmdTrip.lean ====
section
/-!
DEFINITION. Commands of Contour and the trip network (chapter 05): one meaning per command.
-/
namespace Sys2Proof.Machine

/-- CONTOUR_CROSSING (R106). -/
def execContourCrossing (k : Fin 64) (vp vn : Nat) (s : State) : Host.Outcome State Fault Refusal :=
  onDev (fun d => contourCrossing d k vp vn) s

/-- BLANKING_END (R108). -/
def execBlankingEnd (k : Fin 64) (s : State) : Host.Outcome State Fault Refusal :=
  onDev (fun d => blankingEnd d k) s

/-- SLOPE_DAC_LOAD (R109). -/
def execSlopeDacLoad (k : Fin 64) (s : State) : Host.Outcome State Fault Refusal :=
  onDev (fun d => slopeDacLoad d k) s

/-- CONTOUR_READY (R111). -/
def execContourReady (g : Fin 4) (s : State) : Host.Outcome State Fault Refusal :=
  onDev (fun d => contourReady d g) s

/-- FAST_DETECTOR_CHANGE (R112). -/
def execFastDetectorChange (n : Fin 16) (edges : List SdEdge) (s : State) : Host.Outcome State Fault Refusal :=
  onDev (fun d => fastDetector d n edges) s

/-- TRIPIN_CHANGE (R113). -/
def execTripinChange (p : Fin 32) (level : Bool) (s : State) : Host.Outcome State Fault Refusal :=
  onDev (fun d => tripinChange d p level) s

/-- TRIPIN_FILTER_QUALIFY (R113). -/
def execTripinFilterQualify (p : Fin 32) (s : State) : Host.Outcome State Fault Refusal :=
  onDev (fun d => tripinQualify d p) s

/-- TRIP_LATCH (R66, R117). -/
def execTripLatch (src : Fin 179) (s : State) : Host.Outcome State Fault Refusal :=
  onState (fun s => onD (routeUse (fun k => k == src.val && tripLatchDue s.dev src) s) fun d => tripLatchStep d src) s

/-- TRIP_CLEAR_A (R119). -/
def execTripClearA (ini : Initiator) (formes : BitVec 16) (s : State) : Host.Outcome State Fault Refusal :=
  onState (fun s => ownWrite ini TRIPNET_CLR.at (formes.setWidth 36 ||| oneBit 16) s) s

/-- TRIP_CLEAR_B (R119). -/
def execTripClearB (ini : Initiator) (formes : BitVec 16) (s : State) : Host.Outcome State Fault Refusal :=
  onState (fun s => ownWrite ini TRIPNET_CLR.at (formes.setWidth 36 ||| oneBit 17) s) s

/-- TRIP_CLEAR_C (R119). -/
def execTripClearC (ini : Initiator) (formes : BitVec 16) (s : State) : Host.Outcome State Fault Refusal :=
  onState (fun s => ownWrite ini TRIPNET_CLR.at (formes.setWidth 36 ||| oneBit 18) s) s

/-- TRIP_CLEAR_D (R119). -/
def execTripClearD (ini : Initiator) (formes : BitVec 16) (s : State) : Host.Outcome State Fault Refusal :=
  onState (fun s => ownWrite ini TRIPNET_CLR.at (formes.setWidth 36 ||| oneBit 19) s) s

/-- SWTRIP (R126). -/
def execSwtrip (ini : Initiator) (act : Bool) (s : State) : Host.Outcome State Fault Refusal :=
  onState (fun s => ownWrite ini TRIPNET_SWTRIP.at (if act then 1 else 0) s) s

/-- ROUTE_WORD_WRITE (R121). -/
def execRouteWordWrite (ini : Initiator) (src : Fin 179) (val : Word) (s : State) : Host.Outcome State Fault Refusal :=
  onState (fun s => ownWrite ini (routeKey src) val s) s

end Sys2Proof.Machine
end

