-- ==== Sys2Proof/Machine/CmdTwin.lean ====
section
/-!
DEFINITION. Commands of twin operation (chapter 17): one meaning per command.
-/
namespace Sys2Proof.Machine

/-- LANE_LOCK_LOSS (R391). -/
def execLaneLockLoss (lane : Fin 4) (s : State) : Host.Outcome State Fault Refusal :=
  onDev (fun d => laneLockLoss d lane) s

/-- LINK_UP (R391). -/
def execLinkUp (s : State) : Host.Outcome State Fault Refusal :=
  onDev (fun d => linkUp d) s

/-- FRAME_SEND (R395). -/
def execFrameSend (s : State) : Host.Outcome State Fault Refusal :=
  onState (fun s => frameSend s) s

/-- BAD_FRAME (R393). -/
def execBadFrame (aseq : Option (BitVec 8)) (s : State) : Host.Outcome State Fault Refusal :=
  onDev (fun d => badFrame d (aseq.map BitVec.toNat)) s

/-- ACK_FRAME (R393). -/
def execAckFrame (aseq : BitVec 8) (s : State) : Host.Outcome State Fault Refusal :=
  onDev (fun d => ackFrame d aseq.toNat) s

/-- NAK_FRAME (R394). -/
def execNakFrame (aseq : BitVec 8) (s : State) : Host.Outcome State Fault Refusal :=
  onDev (fun d => nakFrame d aseq.toNat) s

/-- REPLAY_TIMEOUT (R394). -/
def execReplayTimeout (s : State) : Host.Outcome State Fault Refusal :=
  onDev (fun d => replayTimeout d) s

/-- HEART_FRAME (R400). -/
def execHeartFrame (seq aseq : BitVec 8) (w0 _w1 : Word) (s : State) : Host.Outcome State Fault Refusal :=
  onDev (fun d => heartFrame d seq.toNat aseq.toNat w0) s

/-- FOLIO_FRAME (R399). -/
def execFolioFrame (seq aseq : BitVec 8) (ws : List Word) (s : State) : Host.Outcome State Fault Refusal :=
  onState (fun s => folioFrame seq.toNat aseq.toNat ws s) s

/-- ENGINE_FRAME (R399). -/
def execEngineFrame (seq aseq : BitVec 8) (e : Fin 64) (ws : List Word) (s : State) : Host.Outcome State Fault Refusal :=
  onDev (fun d => engineFrame d seq.toNat aseq.toNat e ws) s

/-- FORME_FRAME (R399). -/
def execFormeFrame (seq aseq : BitVec 8) (f : Fin 16) (ws : List Word) (s : State) : Host.Outcome State Fault Refusal :=
  onDev (fun d => formeFrame d seq.toNat aseq.toNat f ws) s

/-- OVERLAY_FRAME (R399). -/
def execOverlayFrame (seq aseq : BitVec 8) (e : Fin 64) (k0 : BitVec 10) (ws : List Word) (s : State) : Host.Outcome State Fault Refusal :=
  onState (fun s => overlayFrame seq.toNat aseq.toNat e k0.toNat ws s) s

/-- MEM_FRAME (R399). -/
def execMemFrame (seq aseq : BitVec 8) (ofs : BitVec 20) (ws : List Word) (s : State) : Host.Outcome State Fault Refusal :=
  onState (fun s => memFrame seq.toNat aseq.toNat ofs.toNat ws s) s

/-- END_FRAME (R399). -/
def execEndFrame (seq aseq : BitVec 8) (cyc : Word) (s : State) : Host.Outcome State Fault Refusal :=
  onDev (fun d => endFrame d seq.toNat aseq.toNat cyc) s

/-- TIME_FRAME (R411). -/
def execTimeFrame (aseq : BitVec 8) (w0 w1 : Word) (s : State) : Host.Outcome State Fault Refusal :=
  onDev (fun d => timeFrame d aseq.toNat w0 w1) s

/-- TIME_FRAME_SEND (R411). -/
def execTimeFrameSend (s : State) : Host.Outcome State Fault Refusal :=
  onDev (fun d => timeFrameSend d) s

/-- ROLE_SOLO (R403). -/
def execRoleSolo (ini : Initiator) (s : State) : Host.Outcome State Fault Refusal :=
  onState (fun s => ownWrite ini TWIN_ROLE.at 0 s) s

/-- ROLE_ACTIVE (R403). -/
def execRoleActive (ini : Initiator) (s : State) : Host.Outcome State Fault Refusal :=
  onState (fun s => ownWrite ini TWIN_ROLE.at 1 s) s

/-- ROLE_STANDBY (R403). -/
def execRoleStandby (ini : Initiator) (s : State) : Host.Outcome State Fault Refusal :=
  onState (fun s => ownWrite ini TWIN_ROLE.at 2 s) s

/-- HEARTBEAT_TIMEOUT (R404). -/
def execHeartbeatTimeout (s : State) : Host.Outcome State Fault Refusal :=
  onDev (fun d => heartbeatTimeout d) s

/-- OWN_IN_CHANGE (R390). -/
def execOwnInChange (level : Bool) (s : State) : Host.Outcome State Fault Refusal :=
  onDev (fun d => ownInChange d level) s

/-- TAKEOVER_DECISION (R406). -/
def execTakeoverDecision (s : State) : Host.Outcome State Fault Refusal :=
  onDev (fun d => takeoverDecision d) s

/-- TAKEOVER_COMPLETE (R407). -/
def execTakeoverComplete (s : State) : Host.Outcome State Fault Refusal :=
  onState (fun s => takeoverComplete s) s

/-- SPLIT (R409). -/
def execSplit (s : State) : Host.Outcome State Fault Refusal :=
  onDev (fun d => split d) s

/-- DIVERGE_CLEAR (R401). -/
def execDivergeClear (ini : Initiator) (s : State) : Host.Outcome State Fault Refusal :=
  onState (fun s => ownWrite ini (FOLIO_EVT.at twinPage) (oneBit 10) s) s

/-- PRBS_CHECKER_SYNC (R412). -/
def execPrbsCheckerSync (lane : Fin 4) (errors : Nat) (s : State) : Host.Outcome State Fault Refusal :=
  onDev (fun d => prbsCheck d lane errors) s

end Sys2Proof.Machine
end

