-- ==== Sys2Proof/Machine/KamulAlu.lean ====
section
/-!
DEFINITION. Commands of Kamul integer and accumulator instructions (chapter 12): one meaning per command.
-/
namespace Sys2Proof.Machine

/-- ADD (R266). -/
def execKAdd (c : Fin 8) (o : Alu2) (s : State) : Host.Outcome State Fault Refusal :=
  onState (fun s => kPure c (Alu2.len o) (Alu2.uses o) (fun k => k.two o (fun a b => aluAdd a b false)) s) s

/-- SUB (R266). -/
def execKSub (c : Fin 8) (o : Alu2) (s : State) : Host.Outcome State Fault Refusal :=
  onState (fun s => kPure c (Alu2.len o) (Alu2.uses o) (fun k => k.two o (fun a b => aluSub a b true)) s) s

/-- ADC (R266). -/
def execKAdc (c : Fin 8) (o : Alu2) (s : State) : Host.Outcome State Fault Refusal :=
  onState (fun s => kPure c (Alu2.len o) (Alu2.uses o) (fun k => k.two o (fun a b => aluAdd a b k.cIn)) s) s

/-- SBC (R266). -/
def execKSbc (c : Fin 8) (o : Alu2) (s : State) : Host.Outcome State Fault Refusal :=
  onState (fun s => kPure c (Alu2.len o) (Alu2.uses o) (fun k => k.two o (fun a b => aluSub a b k.cIn)) s) s

/-- AND (R266). -/
def execKAnd (c : Fin 8) (o : Alu2) (s : State) : Host.Outcome State Fault Refusal :=
  onState (fun s => kPure c (Alu2.len o) (Alu2.uses o) (fun k => k.two o (fun a b => aluLogic (a &&& b))) s) s

/-- OR (R266). -/
def execKOr (c : Fin 8) (o : Alu2) (s : State) : Host.Outcome State Fault Refusal :=
  onState (fun s => kPure c (Alu2.len o) (Alu2.uses o) (fun k => k.two o (fun a b => aluLogic (a ||| b))) s) s

/-- XOR (R266). -/
def execKXor (c : Fin 8) (o : Alu2) (s : State) : Host.Outcome State Fault Refusal :=
  onState (fun s => kPure c (Alu2.len o) (Alu2.uses o) (fun k => k.two o (fun a b => aluLogic (a ^^^ b))) s) s

/-- ANDN (R266). -/
def execKAndn (c : Fin 8) (o : Alu2) (s : State) : Host.Outcome State Fault Refusal :=
  onState (fun s => kPure c (Alu2.len o) (Alu2.uses o) (fun k => k.two o (fun a b => aluLogic (a &&& ~~~b))) s) s

/-- SHL (R266). -/
def execKShl (c : Fin 8) (o : Alu2) (s : State) : Host.Outcome State Fault Refusal :=
  onState (fun s => kPure c (Alu2.len o) (Alu2.uses o) (fun k => k.two o (fun a b => aluShl a (fld b 5 0))) s) s

/-- SHR (R266). -/
def execKShr (c : Fin 8) (o : Alu2) (s : State) : Host.Outcome State Fault Refusal :=
  onState (fun s => kPure c (Alu2.len o) (Alu2.uses o) (fun k => k.two o (fun a b => aluShr a (fld b 5 0))) s) s

/-- SAR (R266). -/
def execKSar (c : Fin 8) (o : Alu2) (s : State) : Host.Outcome State Fault Refusal :=
  onState (fun s => kPure c (Alu2.len o) (Alu2.uses o) (fun k => k.two o (fun a b => aluSar a (fld b 5 0))) s) s

/-- MOV (R266). -/
def execKMov (c : Fin 8) (o : Alu2) (s : State) : Host.Outcome State Fault Refusal :=
  onState (fun s => kPure c (Alu2.len o) (Alu2.uses o) (fun k => k.one o (aluLogic)) s) s

/-- NEG (R266). -/
def execKNeg (c : Fin 8) (o : Alu2) (s : State) : Host.Outcome State Fault Refusal :=
  onState (fun s => kPure c (Alu2.len o) (Alu2.uses o) (fun k => k.one o (fun b => aluSub 0 b true)) s) s

/-- NOT (R266). -/
def execKNot (c : Fin 8) (o : Alu2) (s : State) : Host.Outcome State Fault Refusal :=
  onState (fun s => kPure c (Alu2.len o) (Alu2.uses o) (fun k => k.one o (fun b => aluLogic (~~~b))) s) s

/-- CMP (R266). -/
def execKCmp (c : Fin 8) (o : Alu2) (s : State) : Host.Outcome State Fault Refusal :=
  onState (fun s => kPure c (Alu2.len o) (Alu2.uses o) (fun k => k.compare o fun a b => aluSub a b true) s) s

/-- TST (R266). -/
def execKTst (c : Fin 8) (o : Alu2) (s : State) : Host.Outcome State Fault Refusal :=
  onState (fun s => kPure c (Alu2.len o) (Alu2.uses o) (fun k => k.compare o fun a b => aluLogic (a &&& b)) s) s

/-- MIN (R266). -/
def execKMin (c : Fin 8) (rd rs rt : Fin 16) (s : State) : Host.Outcome State Fault Refusal :=
  onState (fun s => kPure c 2 [rd, rs, rt, rFlags] (fun k => k.three rd rs rt (fun a b => aluLogic (if a.slt b then a else b))) s) s

/-- MAX (R266). -/
def execKMax (c : Fin 8) (rd rs rt : Fin 16) (s : State) : Host.Outcome State Fault Refusal :=
  onState (fun s => kPure c 2 [rd, rs, rt, rFlags] (fun k => k.three rd rs rt (fun a b => aluLogic (if a.slt b then b else a))) s) s

/-- MINU (R266). -/
def execKMinu (c : Fin 8) (rd rs rt : Fin 16) (s : State) : Host.Outcome State Fault Refusal :=
  onState (fun s => kPure c 2 [rd, rs, rt, rFlags] (fun k => k.three rd rs rt (fun a b => aluLogic (if a.ult b then a else b))) s) s

/-- MAXU (R266). -/
def execKMaxu (c : Fin 8) (rd rs rt : Fin 16) (s : State) : Host.Outcome State Fault Refusal :=
  onState (fun s => kPure c 2 [rd, rs, rt, rFlags] (fun k => k.three rd rs rt (fun a b => aluLogic (if a.ult b then b else a))) s) s

/-- CLZ (R266). -/
def execKClz (c : Fin 8) (rd rs _rt : Fin 16) (s : State) : Host.Outcome State Fault Refusal :=
  onState (fun s => kPure c 2 [rd, rs, rFlags] (fun k => k.threeOne rd rs aluClz) s) s

/-- POPC (R266). -/
def execKPopc (c : Fin 8) (rd rs _rt : Fin 16) (s : State) : Host.Outcome State Fault Refusal :=
  onState (fun s => kPure c 2 [rd, rs, rFlags] (fun k => k.threeOne rd rs aluPopc) s) s

/-- ADDI (R264). -/
def execKAddi (c : Fin 8) (o : ImmOp) (s : State) : Host.Outcome State Fault Refusal :=
  onState (fun s => kPure c (ImmOp.len o) (ImmOp.uses o) (fun k => k.immOp o fun a b => aluAdd a b false) s) s

/-- ANDI (R265). -/
def execKAndi (c : Fin 8) (rd rs : Fin 16) (imm : BitVec 21) (s : State) : Host.Outcome State Fault Refusal :=
  onState (fun s => kPure c 2 [rd, rs, rFlags] (fun k => k.logImm rd rs imm (fun a b => a &&& b)) s) s

/-- ORI (R265). -/
def execKOri (c : Fin 8) (rd rs : Fin 16) (imm : BitVec 21) (s : State) : Host.Outcome State Fault Refusal :=
  onState (fun s => kPure c 2 [rd, rs, rFlags] (fun k => k.logImm rd rs imm (fun a b => a ||| b)) s) s

/-- XORI (R265). -/
def execKXori (c : Fin 8) (rd rs : Fin 16) (imm : BitVec 21) (s : State) : Host.Outcome State Fault Refusal :=
  onState (fun s => kPure c 2 [rd, rs, rFlags] (fun k => k.logImm rd rs imm (fun a b => a ^^^ b)) s) s

/-- MOVI (R264). -/
def execKMovi (c : Fin 8) (rd : Fin 16) (imm : BitVec 8) (s : State) : Host.Outcome State Fault Refusal :=
  onState (fun s => kPure c 1 [rd] (fun k => k.loadImm rd (imm.signExtend 36) 1) s) s

/-- CMPI (R264). -/
def execKCmpi (c : Fin 8) (o : ImmOp) (s : State) : Host.Outcome State Fault Refusal :=
  onState (fun s => kPure c (ImmOp.len o) (ImmOp.uses o) (fun k => k.cmpImm o fun a b => aluSub a b true) s) s

/-- LDI (R265). -/
def execKLdi (c : Fin 8) (rd : Fin 16) (imm : BitVec 25) (s : State) : Host.Outcome State Fault Refusal :=
  onState (fun s => kPure c 2 [rd] (fun k => k.loadImm rd (imm.signExtend 36) 2) s) s

/-- LDHI (R265). -/
def execKLdhi (c : Fin 8) (rd : Fin 16) (imm : BitVec 25) (s : State) : Host.Outcome State Fault Refusal :=
  onState (fun s => kPure c 2 [rd] (fun k => k.loadImm rd (imm.setWidth 36 <<< 11) 2) s) s

/-- SHI_SHL (R264). -/
def execKShiShl (c : Fin 8) (rd : Fin 16) (cnt : Fin 64) (s : State) : Host.Outcome State Fault Refusal :=
  onState (fun s => kPure c 1 [rd, rFlags] (fun k => k.shiftImm rd cnt aluShl) s) s

/-- SHI_SHR (R264). -/
def execKShiShr (c : Fin 8) (rd : Fin 16) (cnt : Fin 64) (s : State) : Host.Outcome State Fault Refusal :=
  onState (fun s => kPure c 1 [rd, rFlags] (fun k => k.shiftImm rd cnt aluShr) s) s

/-- SHI_SAR (R264). -/
def execKShiSar (c : Fin 8) (rd : Fin 16) (cnt : Fin 64) (s : State) : Host.Outcome State Fault Refusal :=
  onState (fun s => kPure c 1 [rd, rFlags] (fun k => k.shiftImm rd cnt aluSar) s) s

/-- SHI_ROR (R264). -/
def execKShiRor (c : Fin 8) (rd : Fin 16) (cnt : Fin 64) (s : State) : Host.Outcome State Fault Refusal :=
  onState (fun s => kPure c 1 [rd, rFlags] (fun k => k.shiftImm rd cnt aluRor) s) s

/-- MUL (R266). -/
def execKMul (c : Fin 8) (rd rs rt : Fin 16) (s : State) : Host.Outcome State Fault Refusal :=
  onState (fun s => kPure c 2 [rd, rs, rt, rFlags] (fun k => k.three rd rs rt (aluMul)) s) s

/-- MULH (R265). -/
def execKMulh (c : Fin 8) (rd rs rt : Fin 16) (s : State) : Host.Outcome State Fault Refusal :=
  onState (fun s => kPure c 2 [rd, rs, rt] (fun k => k.three rd rs rt (aluMulh)) s) s

/-- MULU (R265). -/
def execKMulu (c : Fin 8) (rd rs rt : Fin 16) (s : State) : Host.Outcome State Fault Refusal :=
  onState (fun s => kPure c 2 [rd, rs, rt, rFlags] (fun k => k.three rd rs rt (aluMulu)) s) s

/-- MULHU (R265). -/
def execKMulhu (c : Fin 8) (rd rs rt : Fin 16) (s : State) : Host.Outcome State Fault Refusal :=
  onState (fun s => kPure c 2 [rd, rs, rt] (fun k => k.three rd rs rt (aluMulhu)) s) s

/-- DIV (R266). -/
def execKDiv (c : Fin 8) (rd rs rt : Fin 16) (s : State) : Host.Outcome State Fault Refusal :=
  onState (fun s => kPure c 2 [rd, rs, rt, rFlags] (fun k => k.division rd rs rt true aluDiv) s) s

/-- DIVU (R266). -/
def execKDivu (c : Fin 8) (rd rs rt : Fin 16) (s : State) : Host.Outcome State Fault Refusal :=
  onState (fun s => kPure c 2 [rd, rs, rt] (fun k => k.division rd rs rt false aluDivu) s) s

/-- REM (R266). -/
def execKRem (c : Fin 8) (rd rs rt : Fin 16) (s : State) : Host.Outcome State Fault Refusal :=
  onState (fun s => kPure c 2 [rd, rs, rt, rFlags] (fun k => k.division rd rs rt true aluRem) s) s

/-- REMU (R266). -/
def execKRemu (c : Fin 8) (rd rs rt : Fin 16) (s : State) : Host.Outcome State Fault Refusal :=
  onState (fun s => kPure c 2 [rd, rs, rt] (fun k => k.division rd rs rt false aluRemu) s) s

/-- ACC_MUL (R269). -/
def execKAccMul (c : Fin 8) (o : MacOp) (s : State) : Host.Outcome State Fault Refusal :=
  onState (fun s => kPure c (MacOp.len o) (MacOp.uses o) (fun k => k.macOp o (fun _ a b => accSet (a.toInt * b.toInt))) s) s

/-- MAC (R269). -/
def execKMac (c : Fin 8) (o : MacOp) (s : State) : Host.Outcome State Fault Refusal :=
  onState (fun s => kPure c (MacOp.len o) (MacOp.uses o) (fun k => k.macOp o (fun z a b => accSum z (a.toInt * b.toInt))) s) s

/-- MSU (R269). -/
def execKMsu (c : Fin 8) (o : MacOp) (s : State) : Host.Outcome State Fault Refusal :=
  onState (fun s => kPure c (MacOp.len o) (MacOp.uses o) (fun k => k.macOp o (fun z a b => accSum z (-(a.toInt * b.toInt)))) s) s

/-- ACC_MULU (R269). -/
def execKAccMulu (c : Fin 8) (o : MacOp) (s : State) : Host.Outcome State Fault Refusal :=
  onState (fun s => kPure c (MacOp.len o) (MacOp.uses o) (fun k => k.macOp o (fun _ a b => accSet (a.toNat * b.toNat))) s) s

/-- MACU (R269). -/
def execKMacu (c : Fin 8) (o : MacOp) (s : State) : Host.Outcome State Fault Refusal :=
  onState (fun s => kPure c (MacOp.len o) (MacOp.uses o) (fun k => k.macOp o (fun z a b => accSum z (a.toNat * b.toNat))) s) s

/-- EXTF (R248). -/
def execKExtf (c : Fin 8) (rd acc : Fin 16) (s : State) : Host.Outcome State Fault Refusal :=
  onState (fun s => kPure c 1 [rd, rFlags] (fun k => k.extract rd acc (accExtF k.rnd k.sat)) s) s

/-- EXTI (R248). -/
def execKExti (c : Fin 8) (rd acc : Fin 16) (s : State) : Host.Outcome State Fault Refusal :=
  onState (fun s => kPure c 1 [rd, rFlags] (fun k => k.extract rd acc (accExtI k.sat)) s) s

/-- CLRA (R269). -/
def execKClra (c : Fin 8) (rd acc : Fin 16) (s : State) : Host.Outcome State Fault Refusal :=
  onState (fun s => kPure c 1 [] (fun k => k.clrA rd acc) s) s

/-- MOVFA_H (R269). -/
def execKMovfaH (c : Fin 8) (rd acc : Fin 16) (s : State) : Host.Outcome State Fault Refusal :=
  onState (fun s => kPure c 1 [rd, rd + 1] (fun k => k.movFa rd acc true) s) s

/-- MOVFA_L (R269). -/
def execKMovfaL (c : Fin 8) (rd acc : Fin 16) (s : State) : Host.Outcome State Fault Refusal :=
  onState (fun s => kPure c 1 [rd, rd + 1] (fun k => k.movFa rd acc false) s) s

/-- MOVTA_H (R269). -/
def execKMovtaH (c : Fin 8) (rd acc : Fin 16) (s : State) : Host.Outcome State Fault Refusal :=
  onState (fun s => kPure c 1 [rd, rd + 1] (fun k => k.movTa rd acc true) s) s

/-- MOVTA_L (R269). -/
def execKMovtaL (c : Fin 8) (rd acc : Fin 16) (s : State) : Host.Outcome State Fault Refusal :=
  onState (fun s => kPure c 1 [rd, rd + 1] (fun k => k.movTa rd acc false) s) s

end Sys2Proof.Machine
end

