-- ==== Sys2Proof/Machine/KamulFlow.lean ====
section
/-!
DEFINITION. Commands of Kamul control flow, block, queue and system instructions (chapter 12): one meaning per command.
-/
namespace Sys2Proof.Machine

/-- NOP (R279). -/
def execKNop (c : Fin 8) (arg : BitVec 8) (s : State) : Host.Outcome State Fault Refusal :=
  onState (fun s => kSys c [] arg (onCore c fun k => k.retire 1) s) s

/-- DRAIN (R279). -/
def execKDrain (c : Fin 8) (arg : BitVec 8) (s : State) : Host.Outcome State Fault Refusal :=
  onState (fun s => kSys c [] arg (drainOp c false) s) s

/-- FLUSHI (R279). -/
def execKFlushi (c : Fin 8) (arg : BitVec 8) (s : State) : Host.Outcome State Fault Refusal :=
  onState (fun s => kSys c [] arg (flushiOp c) s) s

/-- SYNC_INSTR (R279). -/
def execKSync (c : Fin 8) (arg : BitVec 8) (s : State) : Host.Outcome State Fault Refusal :=
  onState (fun s => kSys c [] arg (drainOp c true) s) s

/-- YIELD (R290). -/
def execKYield (c : Fin 8) (arg : BitVec 8) (s : State) : Host.Outcome State Fault Refusal :=
  onState (fun s => kSys c [] arg (kYieldOp c) s) s

/-- WAITEV (R290). -/
def execKWaitev (c : Fin 8) (arg : BitVec 8) (s : State) : Host.Outcome State Fault Refusal :=
  onState (fun s => kSys c [] arg (kWaitevOp c) s) s

/-- RETX (R303). -/
def execKRetx (c : Fin 8) (arg : BitVec 8) (s : State) : Host.Outcome State Fault Refusal :=
  onState (fun s => kSys c [rFlags] arg (retx c) s) s

/-- RET (R279). -/
def execKRet (c : Fin 8) (arg : BitVec 8) (s : State) : Host.Outcome State Fault Refusal :=
  onState (fun s => kSys c [15] arg (onCore c fun k => k.jumpTo (k.gr 15)) s) s

/-- TRAP (R279). -/
def execKTrap (c : Fin 8) (n : BitVec 8) (s : State) : Host.Outcome State Fault Refusal :=
  onState (fun s => kPure c 1 [] (fun k => k.trapOp n.toNat) s) s

/-- RETQ (R273). -/
def execKRetq (c : Fin 8) (arg : BitVec 8) (stop : Option Nat) (s : State) : Host.Outcome State Fault Refusal :=
  onState (fun s => kInstr c 1 (14 :: 15 :: maskRegs (tabGet 0 (coreOfDev s.dev c).maskset arg.toNat)) (fun s => if arg.toNat < 16 then maskedReturn c (tabGet 0 (coreOfDev s.dev c).maskset arg.toNat) stop s else onCore c (fun k => k.illegal 2) s) s) s

/-- BR (R270). -/
def execKBr (c : Fin 8) (cond : Fin 16) (d : Disp) (s : State) : Host.Outcome State Fault Refusal :=
  onState (fun s => kPure c (dispLen d) (if cond = 14 then [] else [rFlags]) (fun k => k.branch cond d) s) s

/-- JMP (R270). -/
def execKJmp (c : Fin 8) (t : Target) (s : State) : Host.Outcome State Fault Refusal :=
  onState (fun s => kPure c (targetLen t) (Target.uses t) (fun k => k.jump t false) s) s

/-- CALL (R270). -/
def execKCall (c : Fin 8) (t : Target) (s : State) : Host.Outcome State Fault Refusal :=
  onState (fun s => kPure c (targetLen t) (15 :: (Target.uses t)) (fun k => k.jump t true) s) s

/-- CALLM (R272). -/
def execKCallm (c : Fin 8) (mask : BitVec 16) (disp : BitVec 13) (stop : Option Nat) (s : State) : Host.Outcome State Fault Refusal :=
  onState (fun s => kInstr c 2 (14 :: 15 :: maskRegs (mask.setWidth 36)) (maskedCall c 2 (mask.setWidth 36) (fun k => BitVec.ofNat 36 (ipAdd k.ip disp.toInt)) stop) s) s

/-- CALLMR (R272). -/
def execKCallmr (c : Fin 8) (mask : BitVec 16) (rs : Fin 16) (stop : Option Nat) (s : State) : Host.Outcome State Fault Refusal :=
  onState (fun s => regCall c 2 (fun _ => mask.setWidth 36) rs stop s) s

/-- CALLQ (R272). -/
def execKCallq (c : Fin 8) (k rs : Fin 16) (stop : Option Nat) (s : State) : Host.Outcome State Fault Refusal :=
  onState (fun s => regCall c 1 (fun x => tabGet 0 x.maskset k) rs stop s) s

/-- RETM (R273). -/
def execKRetm (c : Fin 8) (mask : BitVec 16) (disp : BitVec 13) (stop : Option Nat) (s : State) : Host.Outcome State Fault Refusal :=
  onState (fun s => kInstr c 2 (14 :: 15 :: maskRegs (mask.setWidth 36)) (fun s => if disp = 0 then maskedReturn c (mask.setWidth 36) stop s else onCore c (fun k => k.illegal 2) s) s) s

/-- BLKMOV (R275). -/
def execKBlkmov (c : Fin 8) (rd rs rt : Fin 16) (stop : Option Nat) (s : State) : Host.Outcome State Fault Refusal :=
  onState (fun s => kInstr c 2 [rd, rs, rt] (blockRun c rt (blkStep c rd rs rt) stop) s) s

/-- VMAC (R276). -/
def execKVmac (c : Fin 8) (acc : Fin 2) (rd rs rt : Fin 16) (stop : Option Nat) (s : State) : Host.Outcome State Fault Refusal :=
  onState (fun s => kInstr c 2 [rd, rs, rt, rFlags] (blockRun c rd (vmacStep c acc rd rs rt) stop) s) s

/-- QPUT (R278). -/
def execKQput (c : Fin 8) (rd rs : Fin 16) (s : State) : Host.Outcome State Fault Refusal :=
  onState (fun s => kQputOp c rd rs s) s

/-- QTAKE (R278). -/
def execKQtake (c : Fin 8) (rd rs : Fin 16) (s : State) : Host.Outcome State Fault Refusal :=
  onState (fun s => kQtakeOp c rd rs s) s

/-- MOVC_FROM (R243). -/
def execKMovcFrom (c : Fin 8) (rd : Fin 16) (cn : Fin 64) (s : State) : Host.Outcome State Fault Refusal :=
  onState (fun s => kMovcFromOp c rd cn s) s

/-- MOVC_TO (R243). -/
def execKMovcTo (c : Fin 8) (rd : Fin 16) (cn : Fin 64) (s : State) : Host.Outcome State Fault Refusal :=
  onState (fun s => kMovcToOp c rd cn s) s

end Sys2Proof.Machine
end

