-- ==== Sys2Proof/Machine/KamulFrac.lean ====
section
/-!
DEFINITION. Commands of Kamul fraction and FP instructions (chapter 12): one meaning per command.
-/
namespace Sys2Proof.Machine

/-- FRMUL (R267). -/
def execKFrmul (c : Fin 8) (o : Alu2) (s : State) : Host.Outcome State Fault Refusal :=
  onState (fun s => kPure c (Alu2.len o) (Alu2.uses o) (fun k => k.two o (frMul k.rnd k.sat)) s) s

/-- FRADD (R267). -/
def execKFradd (c : Fin 8) (o : Alu2) (s : State) : Host.Outcome State Fault Refusal :=
  onState (fun s => kPure c (Alu2.len o) (Alu2.uses o) (fun k => k.two o (frAdd k.sat)) s) s

/-- FRSUB (R267). -/
def execKFrsub (c : Fin 8) (o : Alu2) (s : State) : Host.Outcome State Fault Refusal :=
  onState (fun s => kPure c (Alu2.len o) (Alu2.uses o) (fun k => k.two o (frSub k.sat)) s) s

/-- FRNEG (R267). -/
def execKFrneg (c : Fin 8) (o : Alu2) (s : State) : Host.Outcome State Fault Refusal :=
  onState (fun s => kPure c (Alu2.len o) (Alu2.uses o) (fun k => k.two o (fun _ b => frNeg k.sat b)) s) s

/-- FRABS (R267). -/
def execKFrabs (c : Fin 8) (o : Alu2) (s : State) : Host.Outcome State Fault Refusal :=
  onState (fun s => kPure c (Alu2.len o) (Alu2.uses o) (fun k => k.two o (fun _ b => frAbs k.sat b)) s) s

/-- RSHR (R267). -/
def execKRshr (c : Fin 8) (o : Alu2) (s : State) : Host.Outcome State Fault Refusal :=
  onState (fun s => kPure c (Alu2.len o) (Alu2.uses o) (fun k => k.two o (frShr k.rnd k.sat)) s) s

/-- FRSAT (R267). -/
def execKFrsat (c : Fin 8) (o : Alu2) (s : State) : Host.Outcome State Fault Refusal :=
  onState (fun s => kPure c (Alu2.len o) (Alu2.uses o) (fun k => k.two o (fun _ b => frSat k.sat b)) s) s

/-- FADD (R268). -/
def execKFadd (c : Fin 8) (o : Alu2) (s : State) : Host.Outcome State Fault Refusal :=
  onState (fun s => kFp c (Alu2.len o) (Alu2.usesF o) (fun k => k.fpTwo o fAdd) s) s

/-- FSUB (R268). -/
def execKFsub (c : Fin 8) (o : Alu2) (s : State) : Host.Outcome State Fault Refusal :=
  onState (fun s => kFp c (Alu2.len o) (Alu2.usesF o) (fun k => k.fpTwo o fSub) s) s

/-- FMUL (R268). -/
def execKFmul (c : Fin 8) (o : Alu2) (s : State) : Host.Outcome State Fault Refusal :=
  onState (fun s => kFp c (Alu2.len o) (Alu2.usesF o) (fun k => k.fpTwo o fMul) s) s

/-- FDIV (R268). -/
def execKFdiv (c : Fin 8) (o : Alu2) (s : State) : Host.Outcome State Fault Refusal :=
  onState (fun s => kFp c (Alu2.len o) (Alu2.usesF o) (fun k => k.fpTwo o fDiv) s) s

/-- FSQRT (R268). -/
def execKFsqrt (c : Fin 8) (o : Alu2) (s : State) : Host.Outcome State Fault Refusal :=
  onState (fun s => kFpOne c o fSqrt s) s

/-- FMIN (R268). -/
def execKFmin (c : Fin 8) (o : Alu2) (s : State) : Host.Outcome State Fault Refusal :=
  onState (fun s => kFp c (Alu2.len o) (Alu2.usesF o) (fun k => k.fpTwo o fMin) s) s

/-- FMAX (R268). -/
def execKFmax (c : Fin 8) (o : Alu2) (s : State) : Host.Outcome State Fault Refusal :=
  onState (fun s => kFp c (Alu2.len o) (Alu2.usesF o) (fun k => k.fpTwo o fMax) s) s

/-- FCMP (R268). -/
def execKFcmp (c : Fin 8) (o : Alu2) (s : State) : Host.Outcome State Fault Refusal :=
  onState (fun s => kFp c (Alu2.len o) (rFlags :: Alu2.usesF o) (fun k => k.fpCmp o) s) s

/-- FMOV (R268). -/
def execKFmov (c : Fin 8) (o : Alu2) (s : State) : Host.Outcome State Fault Refusal :=
  onState (fun s => kFpOne c o (fun _ a => f32Exact a) s) s

/-- FNEG (R268). -/
def execKFneg (c : Fin 8) (o : Alu2) (s : State) : Host.Outcome State Fault Refusal :=
  onState (fun s => kFpOne c o (fun _ a => f32Exact (fNegBits a)) s) s

/-- FABS (R268). -/
def execKFabs (c : Fin 8) (o : Alu2) (s : State) : Host.Outcome State Fault Refusal :=
  onState (fun s => kFpOne c o (fun _ a => f32Exact (fAbsBits a)) s) s

/-- FMAC (R265). -/
def execKFmac (c : Fin 8) (fd fs ft : Fin 16) (s : State) : Host.Outcome State Fault Refusal :=
  onState (fun s => kFp c 2 [rF fd, rF fs, rF ft] (fun k => k.fpMac fd fs ft false) s) s

/-- FMSU (R265). -/
def execKFmsu (c : Fin 8) (fd fs ft : Fin 16) (s : State) : Host.Outcome State Fault Refusal :=
  onState (fun s => kFp c 2 [rF fd, rF fs, rF ft] (fun k => k.fpMac fd fs ft true) s) s

/-- FITOF (R268). -/
def execKFitof (c : Fin 8) (rd rs rt : Fin 16) (s : State) : Host.Outcome State Fault Refusal :=
  onState (fun s => kFcvt c rt [rF rd, rs] (fun k => k.fpFromInt rd rs 0) s) s

/-- FFTOI (R268). -/
def execKFftoi (c : Fin 8) (rd rs rt : Fin 16) (s : State) : Host.Outcome State Fault Refusal :=
  onState (fun s => kFcvt c rt [rd, rF rs] (fun k => k.fpToInt rd rs 0) s) s

/-- FRTOF (R268). -/
def execKFrtof (c : Fin 8) (rd rs rt : Fin 16) (s : State) : Host.Outcome State Fault Refusal :=
  onState (fun s => kFcvt c rt [rF rd, rs] (fun k => k.fpFromInt rd rs (-31)) s) s

/-- FFTOR (R268). -/
def execKFftor (c : Fin 8) (rd rs rt : Fin 16) (s : State) : Host.Outcome State Fault Refusal :=
  onState (fun s => kFcvt c rt [rd, rF rs] (fun k => k.fpToInt rd rs 31) s) s

/-- MOVGF (R265). -/
def execKMovgf (c : Fin 8) (rd rs rt : Fin 16) (s : State) : Host.Outcome State Fault Refusal :=
  onState (fun s => kFcvt c rt [rF rd, rs] (fun k => (k.setFr rd ((k.gr rs).setWidth 32)).retire 2) s) s

/-- MOVFG (R265). -/
def execKMovfg (c : Fin 8) (rd rs rt : Fin 16) (s : State) : Host.Outcome State Fault Refusal :=
  onState (fun s => kFcvt c rt [rd, rF rs] (fun k => (k.setGr rd ((k.fr rs).setWidth 36)).retire 2) s) s

end Sys2Proof.Machine
end

