-- ==== Sys2Proof/Machine/KamulLoad.lean ====
section
/-!
DEFINITION. Commands of Kamul loads and stores (chapters 11 and 12): one meaning per command.
-/
namespace Sys2Proof.Machine

/-- LDW (R271). -/
def execKLdw (c : Fin 8) (o : MemOp) (par : Parity) (s : State) : Host.Outcome State Fault Refusal :=
  onState (fun s => match o with
    | .short rd rs fn => kLoadWord c 1 rd rs (BitVec.ofNat 36 fn) par s
    | .long rd rs imm => kLoadWord c 2 rd rs (imm.signExtend 36) par s) s

/-- LDWSP (R264). -/
def execKLdwsp (c : Fin 8) (rd : Fin 16) (imm : BitVec 8) (s : State) : Host.Outcome State Fault Refusal :=
  onState (fun s => kLoadWord c 1 rd 14 (imm.setWidth 36) .good s) s

/-- LDH (R265). -/
def execKLdh (c : Fin 8) (rd rs : Fin 16) (imm : BitVec 21) (s : State) : Host.Outcome State Fault Refusal :=
  onState (fun s => kLoadHalf c rd rs (imm.signExtend 36) (fun h => h.setWidth 36) s) s

/-- LDHS (R265). -/
def execKLdhs (c : Fin 8) (rd rs : Fin 16) (imm : BitVec 21) (s : State) : Host.Outcome State Fault Refusal :=
  onState (fun s => kLoadHalf c rd rs (imm.signExtend 36) (fun h => h.signExtend 36) s) s

/-- LDHF (R265). -/
def execKLdhf (c : Fin 8) (rd rs : Fin 16) (imm : BitVec 21) (s : State) : Host.Outcome State Fault Refusal :=
  onState (fun s => kLoadHalf c rd rs (imm.signExtend 36) (fun h => h.signExtend 36 <<< 14) s) s

/-- LDD (R265). -/
def execKLdd (c : Fin 8) (rd rs : Fin 16) (imm : BitVec 21) (s : State) : Host.Outcome State Fault Refusal :=
  onState (fun s => kLoadDouble c rd rs (imm.signExtend 36) s) s

/-- FLD (R265). -/
def execKFld (c : Fin 8) (rd rs : Fin 16) (imm : BitVec 21) (s : State) : Host.Outcome State Fault Refusal :=
  onState (fun s => kLoadFp c rd rs (imm.signExtend 36) s) s

/-- STW (R254). -/
def execKStw (c : Fin 8) (o : MemOp) (s : State) : Host.Outcome State Fault Refusal :=
  onState (fun s => match o with
    | .short rd rs fn => kStoreWord c 1 rd rs (BitVec.ofNat 36 fn) s
    | .long rd rs imm => kStoreWord c 2 rd rs (imm.signExtend 36) s) s

/-- STWSP (R264). -/
def execKStwsp (c : Fin 8) (rd : Fin 16) (imm : BitVec 8) (s : State) : Host.Outcome State Fault Refusal :=
  onState (fun s => kStoreWord c 1 rd 14 (imm.setWidth 36) s) s

/-- STH (R265). -/
def execKSth (c : Fin 8) (rd rs : Fin 16) (imm : BitVec 21) (s : State) : Host.Outcome State Fault Refusal :=
  onState (fun s => kStoreHalf c rd rs (imm.signExtend 36) (fun _ v => (v.extractLsb' 0 18, {})) s) s

/-- STHF (R265). -/
def execKSthf (c : Fin 8) (rd rs : Fin 16) (imm : BitVec 21) (s : State) : Host.Outcome State Fault Refusal :=
  onState (fun s => kStoreHalf c rd rs (imm.signExtend 36) narrowFrac s) s

/-- STD (R265). -/
def execKStd (c : Fin 8) (rd rs : Fin 16) (imm : BitVec 21) (s : State) : Host.Outcome State Fault Refusal :=
  onState (fun s => kStoreDouble c rd rs (imm.signExtend 36) s) s

/-- FST (R265). -/
def execKFst (c : Fin 8) (rd rs : Fin 16) (imm : BitVec 21) (s : State) : Host.Outcome State Fault Refusal :=
  onState (fun s => kStoreFp c rd rs (imm.signExtend 36) s) s

/-- PUSH (R271). -/
def execKPush (c : Fin 8) (rd rs : Fin 16) (s : State) : Host.Outcome State Fault Refusal :=
  onState (fun s => kPushVal c rs rd false (fun k => k.gr rd) s) s

/-- POP (R271). -/
def execKPop (c : Fin 8) (rd rs : Fin 16) (s : State) : Host.Outcome State Fault Refusal :=
  onState (fun s => kPopVal c rs rd false (fun k w => k.setGr rd w) s) s

/-- PUSHF (R271). -/
def execKPushf (c : Fin 8) (rd rs : Fin 16) (s : State) : Host.Outcome State Fault Refusal :=
  onState (fun s => kPushVal c rs (rF rd) true (fun k => (k.fr rd).setWidth 36) s) s

/-- POPF (R271). -/
def execKPopf (c : Fin 8) (rd rs : Fin 16) (s : State) : Host.Outcome State Fault Refusal :=
  onState (fun s => kPopVal c rs (rF rd) true (fun k w => k.setFr rd (w.setWidth 32)) s) s

end Sys2Proof.Machine
end

