-- ==== Sys2Proof/Machine/Dispatch.lean ====
section
/-!
DEFINITION. One arm per command.
-/
namespace Sys2Proof.Machine

def exec (i : Instr) (s : State) : Host.Outcome State Fault Refusal :=
  match i with
  | .registerWrite ini page off val => Sys2Proof.Machine.execRegisterWrite ini page off val s
  | .readClearCounter ini page off => Sys2Proof.Machine.execReadClearCounter ini page off s
  | .quoinValueWrite ini page off val => Sys2Proof.Machine.execQuoinValueWrite ini page off val s
  | .quoinComplementWrite ini page off val => Sys2Proof.Machine.execQuoinComplementWrite ini page off val s
  | .quoinTimeout ini page => Sys2Proof.Machine.execQuoinTimeout ini page s
  | .blockEnable ini page en => Sys2Proof.Machine.execBlockEnable ini page en s
  | .blockReset ini page => Sys2Proof.Machine.execBlockReset ini page s
  | .blockResetRelease page => Sys2Proof.Machine.execBlockResetRelease page s
  | .folioGroupWrite ini page val => Sys2Proof.Machine.execFolioGroupWrite ini page val s
  | .sysStrobe ini mask => Sys2Proof.Machine.execSysStrobe ini mask s
  | .strobesrcWrite ini g val => Sys2Proof.Machine.execStrobesrcWrite ini g val s
  | .groupApply g => Sys2Proof.Machine.execGroupApply g s
  | .voteScrub => Sys2Proof.Machine.execVoteScrub s
  | .meridCtlWrite ini val => Sys2Proof.Machine.execMeridCtlWrite ini val s
  | .refLoss => Sys2Proof.Machine.execRefLoss s
  | .lockLoss => Sys2Proof.Machine.execLockLoss s
  | .lockAcquire => Sys2Proof.Machine.execLockAcquire s
  | .peerTimingLoss => Sys2Proof.Machine.execPeerTimingLoss s
  | .tickhRead ini => Sys2Proof.Machine.execTickhRead ini s
  | .alarmWrite ini n val => Sys2Proof.Machine.execAlarmWrite ini n val s
  | .alarmFire n => Sys2Proof.Machine.execAlarmFire n s
  | .meridStep ini val => Sys2Proof.Machine.execMeridStep ini val s
  | .discServoUpdate offsetNs rate => Sys2Proof.Machine.execDiscServoUpdate offsetNs rate s
  | .lineRecal forme line => Sys2Proof.Machine.execLineRecal forme line s
  | .caldone => Sys2Proof.Machine.execCaldone s
  | .paceSamplingStart => Sys2Proof.Machine.execPaceSamplingStart s
  | .paceSample mons => Sys2Proof.Machine.execPaceSample mons s
  | .paceDroop mon val => Sys2Proof.Machine.execPaceDroop mon val s
  | .avsTransaction answer => Sys2Proof.Machine.execAvsTransaction answer s
  | .paceTargetWrite ini val => Sys2Proof.Machine.execPaceTargetWrite ini val s
  | .paceVboundWrite ini upper val => Sys2Proof.Machine.execPaceVboundWrite ini upper val s
  | .paceModeWrite ini val => Sys2Proof.Machine.execPaceModeWrite ini val s
  | .cbaWindow events => Sys2Proof.Machine.execCbaWindow events s
  | .cbaCeilingWrite ini val => Sys2Proof.Machine.execCbaCeilingWrite ini val s
  | .surveyTrigger u slot => Sys2Proof.Machine.execSurveyTrigger u slot s
  | .survSwtrig ini u val => Sys2Proof.Machine.execSurvSwtrig ini u val s
  | .surveyCommit u => Sys2Proof.Machine.execSurveyCommit u s
  | .samplingInstant u => Sys2Proof.Machine.execSamplingInstant u s
  | .surveyResult u outs => Sys2Proof.Machine.execSurveyResult u outs s
  | .survResRead ini u slot => Sys2Proof.Machine.execSurvResRead ini u slot s
  | .survCalreq ini u val => Sys2Proof.Machine.execSurvCalreq ini u val s
  | .calDone u => Sys2Proof.Machine.execCalDone u s
  | .vddaLow low => Sys2Proof.Machine.execVddaLow low s
  | .survReady u => Sys2Proof.Machine.execSurvReady u s
  | .sdfClockLoss n => Sys2Proof.Machine.execSdfClockLoss n s
  | .sdfTrigger n => Sys2Proof.Machine.execSdfTrigger n s
  | .sdfSwtrig ini n val => Sys2Proof.Machine.execSdfSwtrig ini n val s
  | .sdfResult n edges => Sys2Proof.Machine.execSdfResult n edges s
  | .sdfResRead ini n => Sys2Proof.Machine.execSdfResRead ini n s
  | .contourCrossing k vp vn => Sys2Proof.Machine.execContourCrossing k vp vn s
  | .blankingEnd k => Sys2Proof.Machine.execBlankingEnd k s
  | .slopeDacLoad k => Sys2Proof.Machine.execSlopeDacLoad k s
  | .contourReady g => Sys2Proof.Machine.execContourReady g s
  | .fastDetectorChange n edges => Sys2Proof.Machine.execFastDetectorChange n edges s
  | .tripinChange p level => Sys2Proof.Machine.execTripinChange p level s
  | .tripinFilterQualify p => Sys2Proof.Machine.execTripinFilterQualify p s
  | .tripLatch src => Sys2Proof.Machine.execTripLatch src s
  | .tripClearA ini formes => Sys2Proof.Machine.execTripClearA ini formes s
  | .tripClearB ini formes => Sys2Proof.Machine.execTripClearB ini formes s
  | .tripClearC ini formes => Sys2Proof.Machine.execTripClearC ini formes s
  | .tripClearD ini formes => Sys2Proof.Machine.execTripClearD ini formes s
  | .swtrip ini act => Sys2Proof.Machine.execSwtrip ini act s
  | .routeWordWrite ini src val => Sys2Proof.Machine.execRouteWordWrite ini src val s
  | .formeRunStart ini f => Sys2Proof.Machine.execFormeRunStart ini f s
  | .formeRunStop ini f => Sys2Proof.Machine.execFormeRunStop ini f s
  | .formeCounterStart f => Sys2Proof.Machine.execFormeCounterStart f s
  | .formeBoundary f => Sys2Proof.Machine.execFormeBoundary f s
  | .formeCounterStop f => Sys2Proof.Machine.execFormeCounterStop f s
  | .formeMidPeriod f => Sys2Proof.Machine.execFormeMidPeriod f s
  | .carrierEvent f peak => Sys2Proof.Machine.execCarrierEvent f peak s
  | .refEdge f n => Sys2Proof.Machine.execRefEdge f n s
  | .pairEdgeEvent f n => Sys2Proof.Machine.execPairEdgeEvent f n s
  | .edgeShadowWrite ini f k val => Sys2Proof.Machine.execEdgeShadowWrite ini f k val s
  | .lateLoadDecision f n => Sys2Proof.Machine.execLateLoadDecision f n s
  | .gutterTurnOn f n => Sys2Proof.Machine.execGutterTurnOn f n s
  | .interlockRelease f n => Sys2Proof.Machine.execInterlockRelease f n s
  | .minPulseEnd f n => Sys2Proof.Machine.execMinPulseEnd f n s
  | .latchArrival e n => Sys2Proof.Machine.execLatchArrival e n s
  | .travLatWrite ini e n val => Sys2Proof.Machine.execTravLatWrite ini e n val s
  | .travSwtrig ini e => Sys2Proof.Machine.execTravSwtrig ini e s
  | .travUpdate e => Sys2Proof.Machine.execTravUpdate e s
  | .updateWriteback e => Sys2Proof.Machine.execUpdateWriteback e s
  | .setpointArrival e => Sys2Proof.Machine.execSetpointArrival e s
  | .forcedStateChange e => Sys2Proof.Machine.execForcedStateChange e s
  | .starve e => Sys2Proof.Machine.execStarve e s
  | .overlayZeroFill e => Sys2Proof.Machine.execOverlayZeroFill e s
  | .feTrip e => Sys2Proof.Machine.execFeTrip e s
  | .safeAction e => Sys2Proof.Machine.execSafeAction e s
  | .feclr ini e => Sys2Proof.Machine.execFeclr ini e s
  | .bearingEdge u a b => Sys2Proof.Machine.execBearingEdge u a b s
  | .bearingIndex u level => Sys2Proof.Machine.execBearingIndex u level s
  | .brngPosset ini u val => Sys2Proof.Machine.execBrngPosset ini u val s
  | .bearingSample u => Sys2Proof.Machine.execBearingSample u s
  | .ssiFrameEnd u => Sys2Proof.Machine.execSsiFrameEnd u s
  | .periodEdge u level => Sys2Proof.Machine.execPeriodEdge u level s
  | .perLost u => Sys2Proof.Machine.execPerLost u s
  | .coreRelease ini c => Sys2Proof.Machine.execCoreRelease ini c s
  | .coreHold ini c => Sys2Proof.Machine.execCoreHold ini c s
  | .lineFill c second => Sys2Proof.Machine.execLineFill c second s
  | .storeIssue c => Sys2Proof.Machine.execStoreIssue c s
  | .storeAck c idx par => Sys2Proof.Machine.execStoreAck c idx par s
  | .exceptionEntry c => Sys2Proof.Machine.execExceptionEntry c s
  | .interruptEntry c => Sys2Proof.Machine.execInterruptEntry c s
  | .kNop c arg => Sys2Proof.Machine.execKNop c arg s
  | .kDrain c arg => Sys2Proof.Machine.execKDrain c arg s
  | .kFlushi c arg => Sys2Proof.Machine.execKFlushi c arg s
  | .kSync c arg => Sys2Proof.Machine.execKSync c arg s
  | .kYield c arg => Sys2Proof.Machine.execKYield c arg s
  | .kWaitev c arg => Sys2Proof.Machine.execKWaitev c arg s
  | .kRetx c arg => Sys2Proof.Machine.execKRetx c arg s
  | .kRet c arg => Sys2Proof.Machine.execKRet c arg s
  | .kTrap c n => Sys2Proof.Machine.execKTrap c n s
  | .kRetq c arg stop => Sys2Proof.Machine.execKRetq c arg stop s
  | .kAdd c o => Sys2Proof.Machine.execKAdd c o s
  | .kSub c o => Sys2Proof.Machine.execKSub c o s
  | .kAdc c o => Sys2Proof.Machine.execKAdc c o s
  | .kSbc c o => Sys2Proof.Machine.execKSbc c o s
  | .kAnd c o => Sys2Proof.Machine.execKAnd c o s
  | .kOr c o => Sys2Proof.Machine.execKOr c o s
  | .kXor c o => Sys2Proof.Machine.execKXor c o s
  | .kAndn c o => Sys2Proof.Machine.execKAndn c o s
  | .kShl c o => Sys2Proof.Machine.execKShl c o s
  | .kShr c o => Sys2Proof.Machine.execKShr c o s
  | .kSar c o => Sys2Proof.Machine.execKSar c o s
  | .kMov c o => Sys2Proof.Machine.execKMov c o s
  | .kNeg c o => Sys2Proof.Machine.execKNeg c o s
  | .kNot c o => Sys2Proof.Machine.execKNot c o s
  | .kCmp c o => Sys2Proof.Machine.execKCmp c o s
  | .kTst c o => Sys2Proof.Machine.execKTst c o s
  | .kMin c rd rs rt => Sys2Proof.Machine.execKMin c rd rs rt s
  | .kMax c rd rs rt => Sys2Proof.Machine.execKMax c rd rs rt s
  | .kMinu c rd rs rt => Sys2Proof.Machine.execKMinu c rd rs rt s
  | .kMaxu c rd rs rt => Sys2Proof.Machine.execKMaxu c rd rs rt s
  | .kClz c rd rs rt => Sys2Proof.Machine.execKClz c rd rs rt s
  | .kPopc c rd rs rt => Sys2Proof.Machine.execKPopc c rd rs rt s
  | .kAddi c o => Sys2Proof.Machine.execKAddi c o s
  | .kAndi c rd rs imm => Sys2Proof.Machine.execKAndi c rd rs imm s
  | .kOri c rd rs imm => Sys2Proof.Machine.execKOri c rd rs imm s
  | .kXori c rd rs imm => Sys2Proof.Machine.execKXori c rd rs imm s
  | .kMovi c rd imm => Sys2Proof.Machine.execKMovi c rd imm s
  | .kCmpi c o => Sys2Proof.Machine.execKCmpi c o s
  | .kLdi c rd imm => Sys2Proof.Machine.execKLdi c rd imm s
  | .kLdhi c rd imm => Sys2Proof.Machine.execKLdhi c rd imm s
  | .kShiShl c rd cnt => Sys2Proof.Machine.execKShiShl c rd cnt s
  | .kShiShr c rd cnt => Sys2Proof.Machine.execKShiShr c rd cnt s
  | .kShiSar c rd cnt => Sys2Proof.Machine.execKShiSar c rd cnt s
  | .kShiRor c rd cnt => Sys2Proof.Machine.execKShiRor c rd cnt s
  | .kMul c rd rs rt => Sys2Proof.Machine.execKMul c rd rs rt s
  | .kMulh c rd rs rt => Sys2Proof.Machine.execKMulh c rd rs rt s
  | .kMulu c rd rs rt => Sys2Proof.Machine.execKMulu c rd rs rt s
  | .kMulhu c rd rs rt => Sys2Proof.Machine.execKMulhu c rd rs rt s
  | .kDiv c rd rs rt => Sys2Proof.Machine.execKDiv c rd rs rt s
  | .kDivu c rd rs rt => Sys2Proof.Machine.execKDivu c rd rs rt s
  | .kRem c rd rs rt => Sys2Proof.Machine.execKRem c rd rs rt s
  | .kRemu c rd rs rt => Sys2Proof.Machine.execKRemu c rd rs rt s
  | .kAccMul c o => Sys2Proof.Machine.execKAccMul c o s
  | .kMac c o => Sys2Proof.Machine.execKMac c o s
  | .kMsu c o => Sys2Proof.Machine.execKMsu c o s
  | .kAccMulu c o => Sys2Proof.Machine.execKAccMulu c o s
  | .kMacu c o => Sys2Proof.Machine.execKMacu c o s
  | .kExtf c rd acc => Sys2Proof.Machine.execKExtf c rd acc s
  | .kExti c rd acc => Sys2Proof.Machine.execKExti c rd acc s
  | .kClra c rd acc => Sys2Proof.Machine.execKClra c rd acc s
  | .kMovfaH c rd acc => Sys2Proof.Machine.execKMovfaH c rd acc s
  | .kMovfaL c rd acc => Sys2Proof.Machine.execKMovfaL c rd acc s
  | .kMovtaH c rd acc => Sys2Proof.Machine.execKMovtaH c rd acc s
  | .kMovtaL c rd acc => Sys2Proof.Machine.execKMovtaL c rd acc s
  | .kFrmul c o => Sys2Proof.Machine.execKFrmul c o s
  | .kFradd c o => Sys2Proof.Machine.execKFradd c o s
  | .kFrsub c o => Sys2Proof.Machine.execKFrsub c o s
  | .kFrneg c o => Sys2Proof.Machine.execKFrneg c o s
  | .kFrabs c o => Sys2Proof.Machine.execKFrabs c o s
  | .kRshr c o => Sys2Proof.Machine.execKRshr c o s
  | .kFrsat c o => Sys2Proof.Machine.execKFrsat c o s
  | .kFadd c o => Sys2Proof.Machine.execKFadd c o s
  | .kFsub c o => Sys2Proof.Machine.execKFsub c o s
  | .kFmul c o => Sys2Proof.Machine.execKFmul c o s
  | .kFdiv c o => Sys2Proof.Machine.execKFdiv c o s
  | .kFsqrt c o => Sys2Proof.Machine.execKFsqrt c o s
  | .kFmin c o => Sys2Proof.Machine.execKFmin c o s
  | .kFmax c o => Sys2Proof.Machine.execKFmax c o s
  | .kFcmp c o => Sys2Proof.Machine.execKFcmp c o s
  | .kFmov c o => Sys2Proof.Machine.execKFmov c o s
  | .kFneg c o => Sys2Proof.Machine.execKFneg c o s
  | .kFabs c o => Sys2Proof.Machine.execKFabs c o s
  | .kFmac c fd fs ft => Sys2Proof.Machine.execKFmac c fd fs ft s
  | .kFmsu c fd fs ft => Sys2Proof.Machine.execKFmsu c fd fs ft s
  | .kFitof c rd rs rt => Sys2Proof.Machine.execKFitof c rd rs rt s
  | .kFftoi c rd rs rt => Sys2Proof.Machine.execKFftoi c rd rs rt s
  | .kFrtof c rd rs rt => Sys2Proof.Machine.execKFrtof c rd rs rt s
  | .kFftor c rd rs rt => Sys2Proof.Machine.execKFftor c rd rs rt s
  | .kMovgf c rd rs rt => Sys2Proof.Machine.execKMovgf c rd rs rt s
  | .kMovfg c rd rs rt => Sys2Proof.Machine.execKMovfg c rd rs rt s
  | .kLdw c o par => Sys2Proof.Machine.execKLdw c o par s
  | .kLdwsp c rd imm => Sys2Proof.Machine.execKLdwsp c rd imm s
  | .kLdh c rd rs imm => Sys2Proof.Machine.execKLdh c rd rs imm s
  | .kLdhs c rd rs imm => Sys2Proof.Machine.execKLdhs c rd rs imm s
  | .kLdhf c rd rs imm => Sys2Proof.Machine.execKLdhf c rd rs imm s
  | .kLdd c rd rs imm => Sys2Proof.Machine.execKLdd c rd rs imm s
  | .kFld c rd rs imm => Sys2Proof.Machine.execKFld c rd rs imm s
  | .kStw c o => Sys2Proof.Machine.execKStw c o s
  | .kStwsp c rd imm => Sys2Proof.Machine.execKStwsp c rd imm s
  | .kSth c rd rs imm => Sys2Proof.Machine.execKSth c rd rs imm s
  | .kSthf c rd rs imm => Sys2Proof.Machine.execKSthf c rd rs imm s
  | .kStd c rd rs imm => Sys2Proof.Machine.execKStd c rd rs imm s
  | .kFst c rd rs imm => Sys2Proof.Machine.execKFst c rd rs imm s
  | .kPush c rd rs => Sys2Proof.Machine.execKPush c rd rs s
  | .kPop c rd rs => Sys2Proof.Machine.execKPop c rd rs s
  | .kPushf c rd rs => Sys2Proof.Machine.execKPushf c rd rs s
  | .kPopf c rd rs => Sys2Proof.Machine.execKPopf c rd rs s
  | .kBr c cond d => Sys2Proof.Machine.execKBr c cond d s
  | .kJmp c t => Sys2Proof.Machine.execKJmp c t s
  | .kCall c t => Sys2Proof.Machine.execKCall c t s
  | .kCallm c mask disp stop => Sys2Proof.Machine.execKCallm c mask disp stop s
  | .kCallmr c mask rs stop => Sys2Proof.Machine.execKCallmr c mask rs stop s
  | .kCallq c k rs stop => Sys2Proof.Machine.execKCallq c k rs stop s
  | .kRetm c mask disp stop => Sys2Proof.Machine.execKRetm c mask disp stop s
  | .kBlkmov c rd rs rt stop => Sys2Proof.Machine.execKBlkmov c rd rs rt stop s
  | .kVmac c acc rd rs rt stop => Sys2Proof.Machine.execKVmac c acc rd rs rt stop s
  | .kQput c rd rs => Sys2Proof.Machine.execKQput c rd rs s
  | .kQtake c rd rs => Sys2Proof.Machine.execKQtake c rd rs s
  | .kMovcFrom c rd cn => Sys2Proof.Machine.execKMovcFrom c rd cn s
  | .kMovcTo c rd cn => Sys2Proof.Machine.execKMovcTo c rd cn s
  | .taskActivation c slot => Sys2Proof.Machine.execTaskActivation c slot s
  | .tscSwact ini c mask => Sys2Proof.Machine.execTscSwact ini c mask s
  | .slotTimerExpiry c slot => Sys2Proof.Machine.execSlotTimerExpiry c slot s
  | .tscTmrWrite ini c slot val => Sys2Proof.Machine.execTscTmrWrite ini c slot val s
  | .slotEnable ini c slot val => Sys2Proof.Machine.execSlotEnable ini c slot val s
  | .taskSwitch c => Sys2Proof.Machine.execTaskSwitch c s
  | .wdExpire c => Sys2Proof.Machine.execWdExpire c s
  | .wdkick ini c key => Sys2Proof.Machine.execWdkick ini c key s
  | .eventSensed src => Sys2Proof.Machine.execEventSensed src s
  | .glitchFilterSettle src => Sys2Proof.Machine.execGlitchFilterSettle src s
  | .eventDelivery src => Sys2Proof.Machine.execEventDelivery src s
  | .evcSrcAccess ini q write => Sys2Proof.Machine.execEvcSrcAccess ini q write s
  | .evcGateWrite ini gate => Sys2Proof.Machine.execEvcGateWrite ini gate s
  | .evcSwset ini src => Sys2Proof.Machine.execEvcSwset ini src s
  | .evcPendDiscard ini q w mask => Sys2Proof.Machine.execEvcPendDiscard ini q w mask s
  | .wakeEdge pin k level => Sys2Proof.Machine.execWakeEdge pin k level s
  | .parkWake mons => Sys2Proof.Machine.execParkWake mons s
  | .tagGrant => Sys2Proof.Machine.execTagGrant s
  | .fabTimeout id took => Sys2Proof.Machine.execFabTimeout id took s
  | .fabLate id => Sys2Proof.Machine.execFabLate id s
  | .zombieRelease id => Sys2Proof.Machine.execZombieRelease id s
  | .memoryInitDone region => Sys2Proof.Machine.execMemoryInitDone region s
  | .retireMirror ini bank => Sys2Proof.Machine.execRetireMirror ini bank s
  | .retireNone ini bank => Sys2Proof.Machine.execRetireNone ini bank s
  | .retireSubst ini bank => Sys2Proof.Machine.execRetireSubst ini bank s
  | .fabBankoffWrite ini val => Sys2Proof.Machine.execFabBankoffWrite ini val s
  | .mempClrblk ini val => Sys2Proof.Machine.execMempClrblk ini val s
  | .mempTailWrite ini val => Sys2Proof.Machine.execMempTailWrite ini val s
  | .queueEnable ini q => Sys2Proof.Machine.execQueueEnable ini q s
  | .queueDisable ini q => Sys2Proof.Machine.execQueueDisable ini q s
  | .queueFlush ini q => Sys2Proof.Machine.execQueueFlush ini q s
  | .queueClrstat ini q => Sys2Proof.Machine.execQueueClrstat ini q s
  | .queuePut p => Sys2Proof.Machine.execQueuePut p s
  | .putCommit q => Sys2Proof.Machine.execPutCommit q s
  | .queueTake t => Sys2Proof.Machine.execQueueTake t s
  | .parkedTakeComplete q => Sys2Proof.Machine.execParkedTakeComplete q s
  | .blockPutServed q => Sys2Proof.Machine.execBlockPutServed q s
  | .descWr ini q k val => Sys2Proof.Machine.execDescWr ini q k val s
  | .pressStart ini ch => Sys2Proof.Machine.execPressStart ini ch s
  | .slipLoad ch => Sys2Proof.Machine.execSlipLoad ch s
  | .pressSwtrig ini ch => Sys2Proof.Machine.execPressSwtrig ini ch s
  | .pressTrigger ch => Sys2Proof.Machine.execPressTrigger ch s
  | .pressStop ini ch => Sys2Proof.Machine.execPressStop ini ch s
  | .pressTransfer ch => Sys2Proof.Machine.execPressTransfer ch s
  | .slipComplete ch => Sys2Proof.Machine.execSlipComplete ch s
  | .pressHalt => Sys2Proof.Machine.execPressHalt s
  | .hclr ini => Sys2Proof.Machine.execHclr ini s
  | .laneLockLoss lane => Sys2Proof.Machine.execLaneLockLoss lane s
  | .linkUp => Sys2Proof.Machine.execLinkUp s
  | .frameSend => Sys2Proof.Machine.execFrameSend s
  | .badFrame aseq => Sys2Proof.Machine.execBadFrame aseq s
  | .ackFrame aseq => Sys2Proof.Machine.execAckFrame aseq s
  | .nakFrame aseq => Sys2Proof.Machine.execNakFrame aseq s
  | .replayTimeout => Sys2Proof.Machine.execReplayTimeout s
  | .heartFrame seq aseq w0 w1 => Sys2Proof.Machine.execHeartFrame seq aseq w0 w1 s
  | .folioFrame seq aseq ws => Sys2Proof.Machine.execFolioFrame seq aseq ws s
  | .engineFrame seq aseq e ws => Sys2Proof.Machine.execEngineFrame seq aseq e ws s
  | .formeFrame seq aseq f ws => Sys2Proof.Machine.execFormeFrame seq aseq f ws s
  | .overlayFrame seq aseq e k0 ws => Sys2Proof.Machine.execOverlayFrame seq aseq e k0 ws s
  | .memFrame seq aseq ofs ws => Sys2Proof.Machine.execMemFrame seq aseq ofs ws s
  | .endFrame seq aseq cyc => Sys2Proof.Machine.execEndFrame seq aseq cyc s
  | .timeFrame aseq w0 w1 => Sys2Proof.Machine.execTimeFrame aseq w0 w1 s
  | .timeFrameSend => Sys2Proof.Machine.execTimeFrameSend s
  | .roleSolo ini => Sys2Proof.Machine.execRoleSolo ini s
  | .roleActive ini => Sys2Proof.Machine.execRoleActive ini s
  | .roleStandby ini => Sys2Proof.Machine.execRoleStandby ini s
  | .heartbeatTimeout => Sys2Proof.Machine.execHeartbeatTimeout s
  | .ownInChange level => Sys2Proof.Machine.execOwnInChange level s
  | .takeoverDecision => Sys2Proof.Machine.execTakeoverDecision s
  | .takeoverComplete => Sys2Proof.Machine.execTakeoverComplete s
  | .split => Sys2Proof.Machine.execSplit s
  | .divergeClear ini => Sys2Proof.Machine.execDivergeClear ini s
  | .flProgramWord c ph stuck => Sys2Proof.Machine.execFlProgramWord c ph stuck s
  | .flEraseSector c ph out => Sys2Proof.Machine.execFlEraseSector c ph out s
  | .flSealBlock c ph => Sys2Proof.Machine.execFlSealBlock c ph s
  | .flVerify c => Sys2Proof.Machine.execFlVerify c s
  | .flStatus c => Sys2Proof.Machine.execFlStatus c s
  | .flJournalScan c => Sys2Proof.Machine.execFlJournalScan c s
  | .otpProgramField c ph => Sys2Proof.Machine.execOtpProgramField c ph s
  | .flRtMargin => Sys2Proof.Machine.execFlRtMargin s
  | .cmdDeny ini off val => Sys2Proof.Machine.execCmdDeny ini off val s
  | .optionLoad ok ce => Sys2Proof.Machine.execOptionLoad ok ce s
  | .bootStart => Sys2Proof.Machine.execBootStart s
  | .bootCandidate => Sys2Proof.Machine.execBootCandidate s
  | .bootgo val => Sys2Proof.Machine.execBootgo val s
  | .debugChallenge ini => Sys2Proof.Machine.execDebugChallenge ini s
  | .debugSubmit ini => Sys2Proof.Machine.execDebugSubmit ini s
  | .helloFrame => Sys2Proof.Machine.execHelloFrame s
  | .cmdFrame => Sys2Proof.Machine.execCmdFrame s
  | .closeFrame => Sys2Proof.Machine.execCloseFrame s
  | .rngRead ini => Sys2Proof.Machine.execRngRead ini s
  | .rngFail => Sys2Proof.Machine.execRngFail s
  | .powerOnRelease => Sys2Proof.Machine.execPowerOnRelease s
  | .brownOut supply => Sys2Proof.Machine.execBrownOut supply s
  | .nrstIn low => Sys2Proof.Machine.execNrstIn low s
  | .warmReset => Sys2Proof.Machine.execWarmReset s
  | .warmResetRelease => Sys2Proof.Machine.execWarmResetRelease s
  | .systemWatchdogExpiry => Sys2Proof.Machine.execSystemWatchdogExpiry s
  | .swdWarn => Sys2Proof.Machine.execSwdWarn s
  | .swkick ini key => Sys2Proof.Machine.execSwkick ini key s
  | .swrst ini => Sys2Proof.Machine.execSwrst ini s
  | .holdrel ini banks => Sys2Proof.Machine.execHoldrel ini banks s
  | .modeConfig ini => Sys2Proof.Machine.execModeConfig ini s
  | .modeRun ini => Sys2Proof.Machine.execModeRun ini s
  | .modeStandby ini => Sys2Proof.Machine.execModeStandby ini s
  | .modeRecovery ini => Sys2Proof.Machine.execModeRecovery ini s
  | .modePark ini => Sys2Proof.Machine.execModePark ini s
  | .pincWrite ini pad w val => Sys2Proof.Machine.execPincWrite ini pad w val s
  | .gpioSet ini b val => Sys2Proof.Machine.execGpioSet ini b val s
  | .gpioClr ini b val => Sys2Proof.Machine.execGpioClr ini b val s
  | .gpioEdge p level => Sys2Proof.Machine.execGpioEdge p level s
  | .pcieLinkChange up x2 gen => Sys2Proof.Machine.execPcieLinkChange up x2 gen s
  | .bar0HighWrite val => Sys2Proof.Machine.execBar0HighWrite val s
  | .bar0LowWrite slot val => Sys2Proof.Machine.execBar0LowWrite slot val s
  | .bar0LowRead slot => Sys2Proof.Machine.execBar0LowRead slot s
  | .bar2Write j val => Sys2Proof.Machine.execBar2Write j val s
  | .bar4Write j val be => Sys2Proof.Machine.execBar4Write j val be s
  | .hostRead t => Sys2Proof.Machine.execHostRead t s
  | .cmdlenWrite n => Sys2Proof.Machine.execCmdlenWrite n s
  | .rsplenWrite n => Sys2Proof.Machine.execRsplenWrite n s
  | .msixMessage v => Sys2Proof.Machine.execMsixMessage v s
  | .ethTransmit m cls => Sys2Proof.Machine.execEthTransmit m cls s
  | .ethReceive m octets fcsErr => Sys2Proof.Machine.execEthReceive m octets fcsErr s
  | .gclEntry m => Sys2Proof.Machine.execGclEntry m s
  | .mdioGo ini m val => Sys2Proof.Machine.execMdioGo ini m val s
  | .mdioDone m data => Sys2Proof.Machine.execMdioDone m data s
  | .canTransmit n ok => Sys2Proof.Machine.execCanTransmit n ok s
  | .canReceive n ok w0 w1 data => Sys2Proof.Machine.execCanReceive n ok w0 w1 data s
  | .canRecov ini n => Sys2Proof.Machine.execCanRecov ini n s
  | .serialTransmit k err => Sys2Proof.Machine.execSerialTransmit k err s
  | .serialReceive k octets flags => Sys2Proof.Machine.execSerialReceive k octets flags s
  | .avsStatWrite ini val => Sys2Proof.Machine.execAvsStatWrite ini val s
  | .bypass => Sys2Proof.Machine.execBypass s
  | .idcode => Sys2Proof.Machine.execIdcode s
  | .samplePreload cells board => Sys2Proof.Machine.execSamplePreload cells board s
  | .extest cells board => Sys2Proof.Machine.execExtest cells board s
  | .clamp => Sys2Proof.Machine.execClamp s
  | .highz => Sys2Proof.Machine.execHighz s
  | .haltreq ini c => Sys2Proof.Machine.execHaltreq ini c s
  | .step ini c => Sys2Proof.Machine.execStep ini c s
  | .resume ini c => Sys2Proof.Machine.execResume ini c s
  | .breakpointHit c => Sys2Proof.Machine.execBreakpointHit c s
  | .referenceReturn => Sys2Proof.Machine.execReferenceReturn s
  | .sdfClockReturn n => Sys2Proof.Machine.execSdfClockReturn n s
  | .prbsCheckerSync lane errors => Sys2Proof.Machine.execPrbsCheckerSync lane errors s
  | .ethLinkState m sync done speed => Sys2Proof.Machine.execEthLinkState m sync done speed s
  | .busOffRecoveryDone n => Sys2Proof.Machine.execBusOffRecoveryDone n s

end Sys2Proof.Machine
end

