-- ==== Sys2Proof/Machine/KamulDecode.lean ====
section
/-!
DEFINITION. The Kamul instruction that halves spell (R261-R265): formats, opcode maps and the illegal encodings. The cases
that depend on operand registers (R263: pairs, accumulators, register fields that must be 0, ARG) are judged by the
instructions' own meanings.
-/
namespace Sys2Proof.Machine

/-- What a half or two spell: an instruction, or an illegal one of `len` halves with its sub-cause (R263, R310). -/
inductive Decoded where
  | instr (i : Instr)
  | illegal (len sub : Nat)
deriving DecidableEq, Repr

/-- A register field with its lowest bit `lo`. -/
def regField (w : Word) (lo : Nat) : Fin 16 := Fin.ofNat 16 (fld w (lo + 3) lo)

/-- Among the codes of a map; a code without an entry is unassigned (SUB 0x01). -/
def byCode (len : Nat) (l : List Instr) (code : Nat) : Decoded := match l[code]? with
  | some i => .instr i
  | none => .illegal len 1

/-- A field marked zero (SUB 0x02), judged after the codes (log entry 136). -/
def zeroField (len z : Nat) : Decoded → Decoded
  | .instr i => if z = 0 then .instr i else .illegal len 2
  | x => x

/-- System instructions by SUB (R264, OPS 0x00). -/
def systemMap (c : Fin 8) (arg : BitVec 8) : List Instr :=
  [.kNop c arg, .kDrain c arg, .kFlushi c arg, .kSync c arg, .kYield c arg, .kWaitev c arg, .kRetx c arg, .kRet c arg,
   .kTrap c arg, .kRetq c arg none]

/-- ALU functions 0x0-0xF (R266). -/
def aluMap (c : Fin 8) (o : Alu2) : List Instr :=
  [.kAdd c o, .kSub c o, .kAdc c o, .kSbc c o, .kAnd c o, .kOr c o, .kXor c o, .kAndn c o, .kShl c o, .kShr c o, .kSar c o,
   .kMov c o, .kNeg c o, .kNot c o, .kCmp c o, .kTst c o]

/-- ALU3 functions from 0x10 on (R266). -/
def alu3Map (c : Fin 8) (rd rs rt : Fin 16) : List Instr :=
  [.kMin c rd rs rt, .kMax c rd rs rt, .kMinu c rd rs rt, .kMaxu c rd rs rt, .kClz c rd rs rt, .kPopc c rd rs rt]

/-- Fraction functions (R267). -/
def fracMap (c : Fin 8) (o : Alu2) : List Instr :=
  [.kFrmul c o, .kFradd c o, .kFrsub c o, .kFrneg c o, .kFrabs c o, .kRshr c o, .kFrsat c o]

/-- FPU functions (R268). -/
def fpuMap (c : Fin 8) (o : Alu2) : List Instr :=
  [.kFadd c o, .kFsub c o, .kFmul c o, .kFdiv c o, .kFsqrt c o, .kFmin c o, .kFmax c o, .kFcmp c o, .kFmov c o, .kFneg c o,
   .kFabs c o]

/-- Multiply-accumulate functions (R269). -/
def macMap (c : Fin 8) (o : MacOp) : List Instr :=
  [.kAccMul c o, .kMac c o, .kMsu c o, .kAccMulu c o, .kMacu c o]

/-- Accumulator functions (R269). -/
def accMap (c : Fin 8) (rd acc : Fin 16) : List Instr :=
  [.kExtf c rd acc, .kExti c rd acc, .kClra c rd acc, .kMovfaH c rd acc, .kMovfaL c rd acc, .kMovtaH c rd acc, .kMovtaL c rd acc]

/-- A short instruction: the half in I[17:0] (R262, R264). -/
def decodeShort (c : Fin 8) (h : Half) : Decoded :=
  let w : Word := h.setWidth 36
  let rd := regField w 8
  let rs := regField w 4
  let fn := fld w 3 0
  let imm : BitVec 8 := h.setWidth 8
  let cnt : Fin 64 := Fin.ofNat 64 (fld w 5 0)
  match fld w 16 12 with
  | 0x00 => byCode 1 (systemMap c imm) (fld w 11 8)
  | 0x01 => byCode 1 (aluMap c (.short rd rs)) fn
  | 0x02 => .instr (.kAddi c (.short rd imm))
  | 0x03 => .instr (.kMovi c rd imm)
  | 0x04 => .instr (.kCmpi c (.short rd imm))
  | 0x05 => byCode 1 [.kShiShl c rd cnt, .kShiShr c rd cnt, .kShiSar c rd cnt, .kShiRor c rd cnt] (fld w 7 6)
  | 0x06 => byCode 1 (fracMap c (.short rd rs)) fn
  | 0x07 => byCode 1 (macMap c (.short (Fin.ofNat 2 (fld w 3 3)) rd rs)) (fld w 2 0)
  | 0x08 => .instr (.kLdw c (.short rd rs (Fin.ofNat 16 fn)) .good)
  | 0x09 => .instr (.kStw c (.short rd rs (Fin.ofNat 16 fn)))
  | 0x0A => .instr (.kLdwsp c rd imm)
  | 0x0B => .instr (.kStwsp c rd imm)
  | 0x0C => byCode 1 [.kPush c rd rs, .kPop c rd rs, .kPushf c rd rs, .kPopf c rd rs] fn
  | 0x0D => .instr (.kBr c rd (.short imm))
  | 0x0E => byCode 1 (fpuMap c (.short rd rs)) fn
  | 0x0F => byCode 1 [.kQput c rd rs, .kQtake c rd rs] fn
  | 0x10 => zeroField 1 fn (.instr (.kCallq c rd rs none))
  | 0x11 => byCode 1 [.kJmp c (.reg rd rs), .kCall c (.reg rd rs)] fn
  | 0x12 => zeroField 1 (fld w 6 6) (byCode 1 [.kMovcFrom c rd cnt, .kMovcTo c rd cnt] (fld w 7 7))
  | 0x13 => byCode 1 (accMap c rd rs) fn
  | _ => .illegal 1 1

/-- A long instruction: its halves in I[35:0] (R262, R265). -/
def decodeLong (c : Fin 8) (w : Word) : Decoded :=
  let rd := regField w 25
  let rs := regField w 21
  let rt := regField w 17
  let fn := fld w 16 12
  let z := fld w 11 0
  let imm : BitVec 21 := w.setWidth 21
  let imm25 : BitVec 25 := w.setWidth 25
  let mask : BitVec 16 := (w >>> 13).setWidth 16
  match fld w 34 29 with
  | 0x00 => zeroField 2 z (byCode 2 (aluMap c (.long rd rs rt) ++ alu3Map c rd rs rt) fn)
  | 0x01 => .instr (.kAddi c (.long rd rs imm))
  | 0x02 => .instr (.kAndi c rd rs imm)
  | 0x03 => .instr (.kOri c rd rs imm)
  | 0x04 => .instr (.kXori c rd rs imm)
  | 0x05 => .instr (.kCmpi c (.long rd rs imm))
  | 0x06 => .instr (.kLdi c rd imm25)
  | 0x07 => .instr (.kLdhi c rd imm25)
  | 0x08 => zeroField 2 z (byCode 2 [.kMul c rd rs rt, .kMulh c rd rs rt, .kMulu c rd rs rt, .kMulhu c rd rs rt,
      .kDiv c rd rs rt, .kDivu c rd rs rt, .kRem c rd rs rt, .kRemu c rd rs rt] fn)
  | 0x09 => zeroField 2 z (byCode 2 (macMap c (.long (Fin.ofNat 2 fn) rd rs rt)) (fn / 2))
  | 0x0A => zeroField 2 z (byCode 2 (fracMap c (.long rd rs rt)) fn)
  | 0x10 => zeroField 2 z (byCode 2 (fpuMap c (.long rd rs rt)) fn)
  | 0x11 => zeroField 2 z (byCode 2 [.kFmac c rd rs rt, .kFmsu c rd rs rt] fn)
  | 0x12 => zeroField 2 z (byCode 2 [.kFitof c rd rs rt, .kFftoi c rd rs rt, .kFrtof c rd rs rt, .kFftor c rd rs rt,
      .kMovgf c rd rs rt, .kMovfg c rd rs rt] fn)
  | 0x18 => .instr (.kLdw c (.long rd rs imm) .good)
  | 0x19 => .instr (.kLdh c rd rs imm)
  | 0x1A => .instr (.kLdhs c rd rs imm)
  | 0x1B => .instr (.kLdhf c rd rs imm)
  | 0x1C => .instr (.kLdd c rd rs imm)
  | 0x1D => .instr (.kFld c rd rs imm)
  | 0x1E => .instr (.kStw c (.long rd rs imm))
  | 0x1F => .instr (.kSth c rd rs imm)
  | 0x20 => .instr (.kSthf c rd rs imm)
  | 0x21 => .instr (.kStd c rd rs imm)
  | 0x22 => .instr (.kFst c rd rs imm)
  | 0x28 => .instr (.kBr c rd (.long imm25))
  | 0x29 => .instr (.kJmp c (.disp (w.setWidth 29)))
  | 0x2A => .instr (.kCall c (.disp (w.setWidth 29)))
  | 0x2B => .instr (.kCallm c mask (w.setWidth 13) none)
  | 0x2C => zeroField 2 (fld w 8 0) (.instr (.kCallmr c mask (regField w 9) none))
  | 0x2D => .instr (.kRetm c mask (w.setWidth 13) none)
  | 0x2E => zeroField 2 (z + fn) (.instr (.kBlkmov c rd rs rt none))
  | 0x2F => zeroField 2 (z + fn / 2) (.instr (.kVmac c (Fin.ofNat 2 fn) rd rs rt none))
  | _ => .illegal 2 1

/-- Bit 17 of its first half makes an instruction long (R261). -/
def isLong (h : Half) : Bool := h.getLsbD 17

end Sys2Proof.Machine
end

