-- ==== Sys2Proof/Machine/CoreRun.lean ====
section
/-!
DEFINITION. What the self-timed engines do by themselves. A Kamul core at a boundary takes what is due in the order of
R306, or executes the instruction at its IP (R261); in the boot ROM region, whose words the spec does not give, the boot
and service commands stand for it (log entry 137). Galley, Press and the Traverse engines go on with what they have begun
(log entry 138).
-/
namespace Sys2Proof.Machine

/-- A command with its operands, as what it does. -/
abbrev Act := State → Host.Outcome State Fault Refusal

/-- The command would do something in this state. -/
def acts (s : State) (c : Act) : Bool := match c s with
  | .next t => decide (t ≠ s)
  | _ => false

/-- The instances of a command that a guard admits. -/
def each (n : Nat) (p : Fin n → Bool) (c : Fin n → Act) : List Act := ((List.finRange n).filter p).map c

/-- An act where it does something, else nothing. -/
def tryAct (s : State) (c : Act) : State := match c s with
  | .next t => t
  | _ => s

/-- The half at half address `h`, as the instruction port delivers it: a word held ahead, instruction TCM, or the line of the fetch
buffer (R237, R239, R280); half 0 of a word is its upper half (R3). -/
def portHalf (c h : Nat) (s : State) : Half :=
  let a := h / 2
  let w : Word := match regionOf (some c) a with
    | .itcm _ => (match tabFind (coreOfDev s.dev c).pre a with
      | some w => w
      | none => (match (memLoad (.core (Fin.ofNat 8 c)) true a s).2 with
        | .ok w => w
        | _ => 0))
    | _ => (match (coreOfDev s.dev c).fbuf.find? fun l => decide (l.addr = a / 4 * 4) with
      | some l => l.words.getD (a % 4) 0
      | none => 0)
  if h % 2 = 0 then (w >>> 18).setWidth 18 else w.setWidth 18

/-- The core executes the boot ROM (R237). -/
def inRom (c : Nat) (d : Dev) : Bool :=
  let k := coreOfDev d c
  k.sup && decide (regionOf (some c) (k.ip / 2) = .rom)

/-- An instruction as decoded: an illegal one raises vector 5 (R263). -/
def runDecoded (c : Fin 8) (i : Decoded) (s : State) : Host.Outcome State Fault Refusal := match i with
  | .instr i => exec i s
  | .illegal len sub => onState (kPure c len [] fun k => k.illegal sub) s

/-- The instruction at IP: its missing line is filled, its fetch fault taken, or it executes. -/
def execAtIp (c : Fin 8) (s : State) : Host.Outcome State Fault Refusal :=
  let ip := (coreOfDev s.dev c).ip
  if inRom c s.dev then .next s
  else match (fetchHalf c ip s).2 with
  | .miss => execLineFill c false s
  | .fault _ _ => onState (kPure c 1 [] id) s
  | .ok =>
    let h := portHalf c ip s
    if !isLong h then runDecoded c (decodeShort c h) s
    else match (fetchHalf c (ipAdd ip 1) s).2 with
    | .miss => execLineFill c true s
    | .fault _ _ => onState (kPure c 2 [] id) s
    | .ok => runDecoded c (decodeLong c (h ++ portHalf c (ipAdd ip 1) s)) s

/-- What a core may do next, in the order of R306: exceptions, debug, an interrupt, a task switch, the instruction. -/
def coreActs (c : Fin 8) : List Act :=
  [execExceptionEntry c, execBreakpointHit c, execInterruptEntry c, execTaskSwitch c, execAtIp c]

/-- One act of a core that is released. -/
def coreAct (s : State) (c : Fin 8) : State :=
  if coreRuns s.dev c then
    match (coreActs c).find? (acts s) with
    | some a => tryAct s a
    | none => s
  else s

/-- Every core does one act, in ascending number (log entry 137). -/
def runCores (s : State) : State := (List.finRange 8).foldl coreAct s

/-- A direct producer puts, and a taker takes, where it has something to do. -/
def putAct (d : Dev) (p : Producer) : List Act := if d.offers.any fun o => decide (o.producer = producerKey p) then [execQueuePut p] else []
def takeAct (d : Dev) (t : Taker) : List Act := if (takerWants d (takerKey t)).isSome then [execQueueTake t] else []

/-- Puts and takes of one moment in the rank order of R374: Survey, Traverse, interface controllers. -/
def rankedActs (d : Dev) : List Act :=
  (List.finRange 24).flatMap (fun u => putAct d (.survey u)) ++ (List.finRange 16).flatMap (fun n => putAct d (.sdf n)) ++
  (List.finRange 64).flatMap (fun e => putAct d (.trav e) ++ takeAct d (.trav e)) ++
  (List.finRange 2).flatMap (fun m => putAct d (.eth m) ++ (List.finRange 8).flatMap fun c => takeAct d (.eth m c)) ++
  (List.finRange 8).flatMap (fun n => putAct d (.canf n) ++ takeAct d (.canf n)) ++
  (List.finRange 8).flatMap (fun n => putAct d (.uart n) ++ takeAct d (.uart n)) ++
  (List.finRange 8).flatMap (fun n => putAct d (.spi n) ++ takeAct d (.spi n)) ++
  (List.finRange 2).flatMap (fun n => putAct d (.i2c n) ++ takeAct d (.i2c n))

/-- A channel's next request: its slip, or a move, with which the slip may complete. -/
def pressAct (ch : Fin 128) (s : State) : Host.Outcome State Fault Refusal :=
  if chState s.dev ch = 1 then execSlipLoad ch s
  else if chState s.dev ch = 3 then .next (tryAct (tryAct s (execPressTransfer ch)) (execSlipComplete ch))
  else .next s

/-- The channels of a half in the order in which their requests are served (R385): by PRI, highest first, and within a priority
round robin after the one served last. -/
def pressOrder (d : Dev) (h : Nat) : List (Fin 128) :=
  let last := tabGet 63 d.galley.turn h
  let round : List (Fin 128) := (upTo 64).map fun i => Fin.ofNat 128 (64 * h + (last + 1 + i) % 64)
  let busy := round.filter fun (ch : Fin 128) => chState d ch == 1 || chState d ch == 3
  [3, 2, 1, 0].flatMap fun p => busy.filter fun ch => gf d (PRESS_CHCFG.PRI (ch / 16) (ch % 16)) == p

/-- Each half serves at most one request (R385). -/
def pressHalf (h : Nat) (s : State) : Host.Outcome State Fault Refusal :=
  match (pressOrder s.dev h).find? fun ch => acts s (pressAct ch) with
  | some ch =>
    let s1 := tryAct s (pressAct ch)
    .next (onD s1 fun d => withGalley d fun g => { g with turn := tabSet 63 g.turn h (ch.val % 64) })
  | none => .next s

/-- What Galley, Press and the Traverse engines have before them: puts to commit, waiting and parked operations, puts and takes,
Press, updates that end and begin. -/
def engineActs (s : State) : List Act :=
  let d := s.dev
  d.galley.posted.map (fun p => execPutCommit (Fin.ofNat 32768 p.queue)) ++
  d.galley.waiters.map (fun w => execBlockPutServed (Fin.ofNat 32768 w.queue)) ++
  d.galley.parked.map (fun p => execParkedTakeComplete (Fin.ofNat 32768 p.2)) ++
  rankedActs d ++ (List.finRange 128).flatMap (fun ch => takeAct d (.press ch)) ++ [pressHalf 0, pressHalf 1] ++
  each 64 (fun e => (travOf d e).upd.isSome) execUpdateWriteback ++ each 64 (travReady d ·) execTravUpdate

/-- Every engine goes one act on (log entry 138). -/
def runEngines (s : State) : State := (engineActs s).foldl tryAct s

end Sys2Proof.Machine
end

