-- ==== Sys2Proof/Machine/Idle.lean ====
section
/-!
DEFINITION. What the block does while no command waits: the commands whose moment the spec fixes by the block's own state
and clock fall due and act, in the order of R143 and R14 within a tick; with none due, the cores and engines go on, and then
one tick passes (log entries 6, 137, 138).
-/
namespace Sys2Proof.Machine

/-- A command on a condition. -/
def whenDue (b : Bool) (c : Act) : List Act := if b then [c] else []

/-- Forme and pair instances. -/
def eachPair (p : Fin 16 → Fin 4 → Bool) (c : Fin 16 → Fin 4 → Act) : List Act :=
  (List.finRange 16).flatMap fun f => each 4 (p f) (c f)

/-- The reset, clock and watchdog events that are due (R22, R28, R459, R460, R463, R468, R471). -/
def resetDue (d : Dev) : List Act :=
  whenDue (d.rstc.req ≠ []) execWarmReset ++ whenDue (nrstDue d) (execNrstIn true) ++ whenDue (releaseDue' d) execWarmResetRelease ++
  whenDue (!votesAgree d) execVoteScrub ++ whenDue (swdExpiryDue d) execSystemWatchdogExpiry ++ whenDue (swdWarnDue d) execSwdWarn ++
  whenDue (lockDue d) execLockAcquire ++ whenDue (calDue d) execCaldone ++ [execPaceSamplingStart] ++
  (d.folio.brst.map fun e => execBlockResetRelease e.1) ++
  (d.folio.quoin.map fun q => execQuoinTimeout q.ini q.page)

/-- What the alarms, groups, starts, boundaries and mid-periods that are due bring about in this tick (R143). -/
def formeAhead (s : State) : State :=
  let s1 := forUpTo 16 (fun n s => alarmFire n s) s
  forUpTo 16 (fun f s => formeMidStep f (formeBoundaryStep f (counterStartStep f s))) (onD (applyDue s1) offersOfTick)

/-- A pin edge that blanks comparator `k` is to come in this tick: a rise of this tick will be masked (R108, R121). -/
def edgeSoon (d : Dev) (k : Nat) : Bool :=
  let f := gf d (CONT_CFG.FORME (k / 16) (k % 16))
  let n := gf d (CONT_CFG.PAIR (k / 16) (k % 16))
  let w := rd d (CONT_BLANK.at (k / 16) (k % 16))
  let p := pairOf d f n
  let refTo := fun (r : Bool) => !p.held && (match nextEdge d f n with
    | some e => e.1 == r
    | none => false)
  let on := fun (b : Bool) => (turnOnDue d f n b).isSome || (releaseDue d f n b).isSome ||
    (refTo (!b) && !(p.out b).on && (pmode d f n != 0 || decide (gEff d f n (!b) < 32)))
  let off := fun (b : Bool) => (turnOffDue d f n b).isSome || (refTo b && (p.out b).on)
  fld w 7 0 != 0 && ((bit w 8 && on false) || (bit w 9 && off false) || (bit w 10 && on true) || (bit w 11 && off true))

/-- Trip sources that are to latch, and the inputs that qualify (R113, R117). -/
def tripDue (s : State) : List Act :=
  let d := s.dev
  each 32 (tripinDue d ·) execTripinFilterQualify ++
  each 179 (fun k => tripLatchDue d k && !(decide (k.val < 64) && (edgeSoon d k || edgeSoon (formeAhead s).dev k))) execTripLatch

/-- Registration, then starts, boundaries, mid-periods, carrier points and late loads (R55, R143). -/
def formeDue (d : Dev) : List Act :=
  each 16 (alarmDue d ·) execAlarmFire ++ each 16 (fun g => (groupDue d g).isSome) execGroupApply ++
  each 16 (startDue d ·) execFormeCounterStart ++ each 16 (boundaryDue d ·) execFormeBoundary ++
  each 16 (stopDue d ·) execFormeCounterStop ++ each 16 (midDue d ·) execFormeMidPeriod ++
  each 16 (carrierDue d · false) (fun f => execCarrierEvent f false) ++ each 16 (carrierDue d · true) (fun f => execCarrierEvent f true) ++
  eachPair (lateDue d · ·) execLateLoadDecision

/-- Edge, turn-off, turn-on and release of a pair within this tick, each with its time in 1/32 tick. -/
def pairMoves (d : Dev) (f : Fin 16) (n : Fin 4) : List (Nat × Act) :=
  let base := 32 * ((formeOf d f).nextB - formeD (formeOf d f))
  let add := fun (t : Option (Bool × Nat)) (c : Act) => match t with
    | some x => [(x.2, c)]
    | none => []
  (match nextEdge d f n with
   | some e => [(base + e.2, execRefEdge f n)]
   | none => []) ++
  add (firstOut (turnOffDue d f n false) (turnOffDue d f n true)) (execMinPulseEnd f n) ++
  add (firstOut (turnOnDue d f n false) (turnOnDue d f n true)) (execGutterTurnOn f n) ++
  add (firstOut (releaseDue d f n false) (releaseDue d f n true)) (execInterlockRelease f n)

/-- A move put in its place among moves in the order of their times, and all of them so. -/
def putInTime (x : Nat × Act) : List (Nat × Act) → List (Nat × Act)
  | [] => [x]
  | y :: l => if x.1 ≤ y.1 then x :: y :: l else y :: putInTime x l
def inTime (l : List (Nat × Act)) : List (Nat × Act) := l.foldr putInTime []

/-- The moves of a pair in the order of their times (step 5 of R143). -/
def pairDue (d : Dev) : List Act :=
  ((List.finRange 16).flatMap fun f => (List.finRange 4).flatMap fun n =>
    (inTime (pairMoves d f n)).map (·.2)) ++
  each 64 (fun k => tripLatchDue d k) (fun k => execTripLatch (k.castLE (by decide))) ++ eachPair (pairEdgeDue d · ·) execPairEdgeEvent

/-- Contour, Survey and sigma-delta (R80-R83, R94, R106-R111). -/
def sampleDueList (d : Dev) : List Act :=
  each 64 (fun k => contSettleDue d k) (fun k => execContourCrossing k (pinVolts d k).1 (pinVolts d k).2) ++
  each 64 (blankingDue d ·) execBlankingEnd ++ each 64 (slopeLoadDue d ·) execSlopeDacLoad ++ each 4 (contourReadyDue d ·) execContourReady ++
  each 16 (fun n => sdfLossDue d n) execSdfClockLoss ++ whenDue (!d.trigRaw.isEmpty) (execSurveyTrigger 0 0) ++
  (List.finRange 24).flatMap (fun u : Fin 24 => each 16 (fun s => d.trigDue.any fun e => decide (e.1 = 16 * u.val + s.val ∧ e.2 ≤ d.now)) (execSurveyTrigger u)) ++
  each 16 (fun n => d.trigDue.any fun e => decide (e.1 = 0x1000 + n.val ∧ e.2 ≤ d.now)) execSdfTrigger ++
  each 24 (fun u => !(survOf d u).convs.isEmpty) execSamplingInstant ++ each 24 (fun u => !(survOf d u).reqs.isEmpty) execSurveyCommit ++
  each 24 (fun _ => true) execSurvReady ++
  each 16 (fun u => (setA d u || setB d u) && brngMode d u != 4) (fun u => execBearingEdge u (brngOf d u).pinA.raw (brngOf d u).pinB.raw) ++
  each 16 (fun u => (setA d u || setB d u) && brngMode d u == 4) (fun u => execPeriodEdge u (brngOf d u).pinA.raw) ++
  each 16 (fun u => setZ d u) (fun u => execBearingIndex u (brngOf d u).pinZ.raw) ++ each 16 (fun u => (ssiOver d u).isSome) execSsiFrameEnd ++
  each 16 (fun u => (sampleDue d u).isSome) execBearingSample ++ each 16 (perLostDue d ·) execPerLost

/-- Engines between their updates (R182-R191, R202, R213-R217). -/
def travDue (d : Dev) : List Act :=
  each 64 (safeDue d ·) execSafeAction ++ each 64 (forcedDue d ·) execForcedStateChange ++ each 64 (feTripDue d ·) execFeTrip ++
  each 64 (starveDue d ·) execStarve ++ each 64 (zeroFillDue d ·) execOverlayZeroFill ++
  (List.finRange 64).flatMap (fun e : Fin 64 => each 4 (fun n => d.arrivals.any fun a => decide (a.eng = e ∧ a.lat = n ∧ a.tick ≤ d.now)) (execLatchArrival e)) ++
  each 64 (fun e => (tabFind d.galley.setp e).isSome) execSetpointArrival

/-- Inputs that settle, sources that have a word, and pending ones: settling, sensing, delivery (R324-R328). -/
def eventDue (d : Dev) : List Act :=
  (List.finRange 8).flatMap (fun k : Fin 8 => (wakeSeen d k).toList.map fun l => execWakeEdge false (k.castLE (by decide)) l) ++
  (((d.evc.raw ++ d.evc.filt).map (·.1)).map fun s => execGlitchFilterSettle (Fin.ofNat 2048 s)) ++ each 2048 (fun k => srcWord d k != 0) execEventSensed ++
  each 2048 (eventDeliverable d ·) execEventDelivery

/-- The oldest issued store of a core may be answered; one to GALLEY_QCMD, whose command ranks last in its moment (R374), once
the engines and cores have acted. -/
def ackDue (d : Dev) (c : Nat) : Bool := match (coreOfDev d c).issued with
  | [] => false
  | e :: _ => d.ran || e.addr != 0xF000000 + GALLEY_QCMD.at

/-- Timers, the twin, the fabric, flash and host interfaces. -/
def restDue (s : State) : List Act :=
  let d := s.dev
  (List.finRange 8).flatMap (fun c : Fin 8 => each 32 (fun k => (tabFind (coreOfDev d c).timers k).isSome) (execSlotTimerExpiry c)) ++
  each 8 (fun c => gb d (TSC_WDOG.EN c)) execWdExpire ++
  each 8 (fun c => !(coreOfDev d c).wbuf.isEmpty) execStoreIssue ++ each 8 (fun c => ackDue d c) (fun c => execStoreAck c 0 .good) ++
  whenDue (!d.galley.cmds.isEmpty && mode d != mPark) (onState runCmds) ++
  whenDue (replayDue d) execReplayTimeout ++ whenDue (heartbeatDue d) execHeartbeatTimeout ++
  whenDue (takeoverMet d).isSome execTakeoverDecision ++
  whenDue (takeoverCompleteDue d) execTakeoverComplete ++ whenDue (splitDue d) execSplit ++
  whenDue (timeSendDue d) execTimeFrameSend ++ whenDue (marginDue d) execFlRtMargin ++
  ((d.fab.tags.filter fun t => decide (t.2.issued + tagLimit d + 16 ≤ d.now)).map fun t => execFabTimeout t.1 false) ++
  (d.fab.tags.map fun t => execZombieRelease t.1) ++ whenDue (!d.fab.waiting.isEmpty) execTagGrant ++
  each 128 (fun p => gpioSeen d p) (fun p => execGpioEdge p (pinLevel d (gpPin p) == some true)) ++ each 2 (gclDue · s) execGclEntry ++ whenDue d.pressErr.isSome execPressHalt

/-- The commands that may be due now, in the order in which they act within a tick. -/
def dueCommands (s : State) : List Act :=
  resetDue s.dev ++ tripDue s ++ formeDue s.dev ++ pairDue s.dev ++ sampleDueList s.dev ++ travDue s.dev ++ eventDue s.dev ++ restDue s

/-- The system watchdog counts low-frequency oscillator cycles, 1 MHz nominal, one for 1,000 ticks (R468; log entry 7). -/
def watchdogTick (d : Dev) : Dev :=
  if swdRuns d && decide ((d.now + 1) % 1000 = 0) then withRstc d fun r => { r with swdCount := r.swdCount + 1 } else d

/-- One tick passes: the tick counter counts from power-on release (R24, chapter 02). -/
def tick (d : Dev) : Dev :=
  let d1 := gpioTick (watchdogTick { reachAll d with ran := false })
  let d2 := evcOpen (ownTick { evcClose d1 with now := d1.now + 1 })
  condDue <| landDue <| forUpTo 16 (fun u d => ssiTick d u) (if d.rstc.phase = .asserted ∧ d.rstc.cold = true then d2 else withMerid d2 fun m => { m with counter := m.counter + 1 })

/-- The engines and then the cores act (R374), once in a tick; what they bring about in it falls due before the tick passes. -/
def runTick (s : State) : State := onD (runCores (runEngines s)) fun d => { d with ran := true }

/-- The block with no command waiting: the first due command that does something acts; with none, the cores and engines act,
and once they have and nothing more is due one tick passes. -/
def idle (s : State) : Host.Outcome State Fault Refusal :=
  match (dueCommands s).find? (acts s) with
  | some c => c s
  | none => .next (if s.dev.ran then onD s tick else runTick s)

end Sys2Proof.Machine
end

