-- ==== Sys2Proof/Safety.lean ====
section
/-!
DEFINITION. The terms the statements use: sound states, what a core shows after an instruction, the register writes and
reads that commands are, and a command that completes.
-/
namespace Sys2Proof.Machine

/-! ### Sound states -/

/-- The memories are in their canonical form: addresses strictly rising, no entry that equals what an unlisted address
reads as. -/
def MemSt.wf (m : MemSt) : Bool := tabWf memDefault m.words && tabWf (fun _ => flawZero) m.flaws

/-- The machine between events: no warm reset waits to assert, PARK is not being entered, no put waits for space, the copies
of every triplicated field, shadow and latch agree. -/
structure Calm (s : State) : Prop where
  noReset : s.dev.rstc.req = []
  settled : s.dev.rstc.parkEntry = false
  noWait : s.dev.galley.waiters = []
  upright : s.dev.folio.copies = []
  agree : votesAgree s.dev = true

/-- The command answers a next state, with the queue as it was, of which `post` holds. -/
def Completes (i : Instr) (s : State) (post : State → Prop) : Prop :=
  ∃ t, exec i s = .next t ∧ t.pending = s.pending ∧ post t

/-! ### Cores -/

/-- Core `c` can execute at this boundary, the halves of an instruction of `len` halves are there, and no result is owed
by an arithmetic exception to come (R261, R281, R306). -/
def Executable (c len : Nat) (s : State) : Prop :=
  coreReady s.dev c = true ∧ (fetchOnce c len s).2 = true ∧ ∀ x ∈ (coreOfDev s.dev c).excs, x.owes = []

/-- A core's registers after an instruction that completes: each named as it stands in R241. The memories and the other
cores are as they were. -/
structure Shows (c : Nat) (s t : State) (g : Nat → Word) (acc : Nat → Acc) (f : Nat → F32) (fpsr psw : Word) (ip : Nat) : Prop where
  gr : ∀ r, (coreOfDev t.dev c).gr r = g r
  acc : ∀ n, n < 2 → (coreOfDev t.dev c).acc n = acc n
  fr : ∀ r, (coreOfDev t.dev c).fr r = f r
  fpsr : (coreOfDev t.dev c).fpsr = fpsr
  psw : (coreOfDev t.dev c).psw = psw
  ip : (coreOfDev t.dev c).ip = ip
  mem : t.mem = s.mem
  others : ∀ c', c' ≠ c → coreOfDev t.dev c' = coreOfDev s.dev c'

/-- PSW of an instruction that completes: the flags it names, RESUME cleared (R266, R277). -/
def pswAfter (k : CoreSt) (fl : FlagW) : Word := setBitW (fl.apply k.psw) pswResume false

/-- IP after an instruction of `len` halves (R261). -/
def ipAfter (k : CoreSt) (len : Nat) : Nat := (k.ip + len) % 2 ^ 29

/-- Register `rd` takes `v`, the others stay. -/
def put {α : Type} (g : Nat → α) (rd : Nat) (v : α) (r : Nat) : α := if r = rd then v else g r

/-- The instruction writes general register `rd` and flags, and nothing else of the core but IP. -/
def SetsReg (c : Nat) (s : State) (len rd : Nat) (v : Word) (fl : FlagW) (t : State) : Prop :=
  let k := coreOfDev s.dev c
  Shows c s t (put k.gr rd v) k.acc k.fr k.fpsr (pswAfter k fl) (ipAfter k len)

/-- The instruction writes flags alone. -/
def SetsFlags (c : Nat) (s : State) (len : Nat) (fl : FlagW) (t : State) : Prop :=
  let k := coreOfDev s.dev c
  Shows c s t k.gr k.acc k.fr k.fpsr (pswAfter k fl) (ipAfter k len)

/-- The instruction writes accumulator `n` and flags. -/
def SetsAcc (c : Nat) (s : State) (len n : Nat) (v : Acc) (fl : FlagW) (t : State) : Prop :=
  let k := coreOfDev s.dev c
  Shows c s t k.gr (put k.acc n v) k.fr k.fpsr (pswAfter k fl) (ipAfter k len)

/-- The instruction writes FP register `fd` and adds the FP flags `flg` to FPSR (R243). -/
def SetsFp (c : Nat) (s : State) (len fd : Nat) (r : FRes) (t : State) : Prop :=
  let k := coreOfDev s.dev c
  Shows c s t k.gr k.acc (put k.fr fd r.val) (fpsrAdd k.fpsr r.flg).1 (pswAfter k {}) (ipAfter k len)

/-- The instruction only goes on to `ip`. -/
def GoesTo (c : Nat) (s : State) (ip : Nat) (t : State) : Prop :=
  let k := coreOfDev s.dev c
  Shows c s t k.gr k.acc k.fr k.fpsr (pswAfter k {}) ip

/-! ### Commands on the block's registers and records -/

/-- The parts of the device beside its registers. -/
inductive Part where
  | now | folio | merid | pace | cba | rstc | evc | brng | host | eth | can | ser | jtag | core | fab | memp | flash
  | latch | guard | surv | sdf | trigDue | trigRaw | landings | ain | offers | arrivals | vdda | comp | contFrom | fd | trip | forme | trav
  | galley | press | pressErr | twin | sec | free
deriving DecidableEq, Repr

/-- A part is the same in two devices. Events may be driven: the pulses of the event controller and the MSI-X vectors
that await their message are left out. -/
def sameOn (p : Part) (d e : Dev) : Prop := match p with
  | .now => d.now = e.now
  | .folio => d.folio = e.folio
  | .merid => d.merid = e.merid
  | .pace => d.pace = e.pace
  | .cba => d.cba = e.cba
  | .rstc => d.rstc = e.rstc
  | .evc => { d.evc with pulses := [] } = { e.evc with pulses := [] }
  | .brng => d.brng = e.brng
  | .host => { d.host with msixDue := [] } = { e.host with msixDue := [] }
  | .eth => d.eth = e.eth
  | .can => d.can = e.can
  | .ser => d.ser = e.ser
  | .jtag => d.jtag = e.jtag
  | .core => d.core = e.core
  | .fab => d.fab = e.fab
  | .memp => d.memp = e.memp
  | .flash => d.flash = e.flash
  | .latch => d.latch = e.latch
  | .guard => d.guard = e.guard
  | .surv => d.surv = e.surv
  | .sdf => d.sdf = e.sdf
  | .trigDue => d.trigDue = e.trigDue
  | .trigRaw => d.trigRaw = e.trigRaw
  | .landings => d.landings = e.landings
  | .ain => d.ain = e.ain
  | .offers => d.offers = e.offers
  | .arrivals => d.arrivals = e.arrivals
  | .vdda => d.vddaLow = e.vddaLow
  | .comp => d.comp = e.comp
  | .contFrom => d.contFrom = e.contFrom
  | .fd => d.fd = e.fd
  | .trip => d.trip = e.trip
  | .forme => d.forme = e.forme
  | .trav => d.trav = e.trav
  | .galley => d.galley = e.galley
  | .press => d.press = e.press
  | .pressErr => d.pressErr = e.pressErr
  | .twin => d.twin = e.twin
  | .sec => d.sec = e.sec
  | .free => d.freeCount = e.freeCount

/-- From `d` to `e` only the named parts and the registers of the named addresses change; EVAL, in the security folio,
follows its conditions by itself (R455). -/
def Only (parts : List Part) (keys : List Nat) (d e : Dev) : Prop :=
  (∀ p, p ∉ parts → sameOn p e d) ∧ ∀ k, k ∉ keys → k / 256 ≠ 0x11 → rd e k = rd d k

/-- The command answers a next state, the memories as they were; of the device only the named parts and registers
change, and `post` holds of it. -/
def Does (i : Instr) (s : State) (parts : List Part) (keys : List Nat) (post : Dev → Prop) : Prop :=
  Completes i s fun t => t.mem = s.mem ∧ Only parts keys s.dev t.dev ∧ post t.dev

/-- The folio page of a write by `ini` can take it: its requests arrive and HOSTAUTH does not bar the host (R344, R361, R482, R486),
no pair of the initiator is half written on
the page, the page has room for one, it does not wait for LOCK after a block reset, no Galley command waits, and START does
not reserve the block for the boot ROM (R60, R61, R94, R367, R471). -/
structure Heard (ini : Initiator) (page : Nat) (s : State) : Prop where
  served : iniServed s.dev ini = true
  notBarred : hostBarred s.dev ini = false
  noPair : ∀ q ∈ s.dev.folio.quoin, ¬ (q.page = page ∧ q.ini = ini)
  room : (s.dev.folio.quoin.filter fun q => decide (q.page = page)).length < 4
  live : gb s.dev (FOLIO_STAT.BRST_PEND page) = false
  idle : s.dev.galley.cmds = []
  unlocked : (match blockOf page with | some (b, _) => startLocked s.dev ini b | none => false) = false

/-- A folio write by `ini` is heard, debug being unlocked where it is the initiator (R451). -/
structure Open (ini : Initiator) (page : Nat) (s : State) : Prop extends Heard ini page s where
  initiator : debugShut s.dev ini = false

/-- What a write leaves in a register (R8): RW bits from the write, W1C bits cleared by ones, RO bits as they were, the
rest zero. -/
abbrev Lands (r : RegDef) (old v new : Word) : Prop :=
  ∀ k ∈ upTo 36, bit new k = if bit (r.mask .rw) k then bit v k
    else if bit (r.mask .w1c) k then bit old k && !bit v k else bit (r.mask .ro) k && bit old k

/-- Blocks whose registers from offset 0x10 on only hold what is written: nothing else acts at the write. -/
def plainBlocks : List Blk := [.pinc, .cba, .core, .pcie, .uart, .spi, .i2c]

/-- No shadow of UPD = GROUP waits for its place in the tick (R141, R143). -/
abbrev NoGroupOffers (d : Dev) : Prop := ∀ f ∈ upTo 16, ∀ n ∈ upTo 4, (pairOf d f n).groupOffer = false

/-- No registration group is set off by hardware or waits to apply (R55, R59). -/
abbrev QuietGroups (d : Dev) : Prop :=
  d.folio.fires = [] ∧ NoGroupOffers d ∧ ∀ g ∈ upTo 16, fld (strobeSrc d g) 11 9 = 0

/-- A bit of a block's event register has risen, and the others are as they were. -/
def Raised (d e : Dev) (page bt : Nat) : Prop :=
  rd e (FOLIO_EVT.at page) = setBitW (rd d (FOLIO_EVT.at page)) bt true

/-! ### Memory and queues -/

/-- The four words of a queue's descriptor as they are stored (R365). -/
def descOf (s : State) (q : Nat) : QDesc :=
  ⟨storedWord s.mem (descAddr q 0), storedWord s.mem (descAddr q 1), storedWord s.mem (descAddr q 2), storedWord s.mem (descAddr q 3)⟩

/-- Galley serves queue `q` with descriptor `x`: Galley RAM is initialised, no stored word is flawed, no bank is retired
or off, the descriptor is enabled, of correct parity and not faulted, its ring lies in one initialised bank, a tag is to be had
(R343, R366-R370). -/
structure Serving (s : State) (q : Nat) (x : QDesc) : Prop where
  desc : descOf s q = x
  ram : initWait s.dev .galley = false
  clean : s.mem.flaws = []
  banks : gf s.dev FAB_RETIRE.MODE = 0
  online : gf s.dev FAB_BANKOFF.OFF = 0
  en : x.en = true
  parity : x.parOk = true
  good : x.faulted = false
  size : 2 ≤ fld x.cfg 31 27 ∧ fld x.cfg 31 27 ≤ 16
  ring : x.base % x.size = 0
  bank : initWait s.dev (regionOf none (x.slot 0)) = false
  awake : mode s.dev ≠ mPark
  tag : canTag s.dev 17 = true
  turn : s.dev.fab.waiting = []

/-- An SRAM word that serves loads and stores as it stands: its bank is initialised, on and not retired (R338, R352, R360). -/
structure SramWord (s : State) (a : Nat) : Prop where
  low : 0x4000000 ≤ a
  high : a < 0x4100000
  ready : initWait s.dev (regionOf none a) = false
  banks : gf s.dev FAB_RETIRE.MODE = 0
  online : gf s.dev FAB_BANKOFF.OFF = 0

/-- Memory changes at the named words alone. -/
def MemOnly (s t : State) (as : List Nat) : Prop := ∀ a, a ∉ as → storedWord t.mem a = storedWord s.mem a

/-! ### Instructions of a core -/

/-- The core that an instruction command is for; none: another command. -/
def instrCore : Instr → Option (Fin 8)
  | .kNop c _ => some c
  | .kDrain c _ => some c
  | .kFlushi c _ => some c
  | .kSync c _ => some c
  | .kYield c _ => some c
  | .kWaitev c _ => some c
  | .kRetx c _ => some c
  | .kRet c _ => some c
  | .kTrap c _ => some c
  | .kRetq c _ _ => some c
  | .kAdd c _ => some c
  | .kSub c _ => some c
  | .kAdc c _ => some c
  | .kSbc c _ => some c
  | .kAnd c _ => some c
  | .kOr c _ => some c
  | .kXor c _ => some c
  | .kAndn c _ => some c
  | .kShl c _ => some c
  | .kShr c _ => some c
  | .kSar c _ => some c
  | .kMov c _ => some c
  | .kNeg c _ => some c
  | .kNot c _ => some c
  | .kCmp c _ => some c
  | .kTst c _ => some c
  | .kMin c _ _ _ => some c
  | .kMax c _ _ _ => some c
  | .kMinu c _ _ _ => some c
  | .kMaxu c _ _ _ => some c
  | .kClz c _ _ _ => some c
  | .kPopc c _ _ _ => some c
  | .kAddi c _ => some c
  | .kAndi c _ _ _ => some c
  | .kOri c _ _ _ => some c
  | .kXori c _ _ _ => some c
  | .kMovi c _ _ => some c
  | .kCmpi c _ => some c
  | .kLdi c _ _ => some c
  | .kLdhi c _ _ => some c
  | .kShiShl c _ _ => some c
  | .kShiShr c _ _ => some c
  | .kShiSar c _ _ => some c
  | .kShiRor c _ _ => some c
  | .kMul c _ _ _ => some c
  | .kMulh c _ _ _ => some c
  | .kMulu c _ _ _ => some c
  | .kMulhu c _ _ _ => some c
  | .kDiv c _ _ _ => some c
  | .kDivu c _ _ _ => some c
  | .kRem c _ _ _ => some c
  | .kRemu c _ _ _ => some c
  | .kAccMul c _ => some c
  | .kMac c _ => some c
  | .kMsu c _ => some c
  | .kAccMulu c _ => some c
  | .kMacu c _ => some c
  | .kExtf c _ _ => some c
  | .kExti c _ _ => some c
  | .kClra c _ _ => some c
  | .kMovfaH c _ _ => some c
  | .kMovfaL c _ _ => some c
  | .kMovtaH c _ _ => some c
  | .kMovtaL c _ _ => some c
  | .kFrmul c _ => some c
  | .kFradd c _ => some c
  | .kFrsub c _ => some c
  | .kFrneg c _ => some c
  | .kFrabs c _ => some c
  | .kRshr c _ => some c
  | .kFrsat c _ => some c
  | .kFadd c _ => some c
  | .kFsub c _ => some c
  | .kFmul c _ => some c
  | .kFdiv c _ => some c
  | .kFsqrt c _ => some c
  | .kFmin c _ => some c
  | .kFmax c _ => some c
  | .kFcmp c _ => some c
  | .kFmov c _ => some c
  | .kFneg c _ => some c
  | .kFabs c _ => some c
  | .kFmac c _ _ _ => some c
  | .kFmsu c _ _ _ => some c
  | .kFitof c _ _ _ => some c
  | .kFftoi c _ _ _ => some c
  | .kFrtof c _ _ _ => some c
  | .kFftor c _ _ _ => some c
  | .kMovgf c _ _ _ => some c
  | .kMovfg c _ _ _ => some c
  | .kLdw c _ _ => some c
  | .kLdwsp c _ _ => some c
  | .kLdh c _ _ _ => some c
  | .kLdhs c _ _ _ => some c
  | .kLdhf c _ _ _ => some c
  | .kLdd c _ _ _ => some c
  | .kFld c _ _ _ => some c
  | .kStw c _ => some c
  | .kStwsp c _ _ => some c
  | .kSth c _ _ _ => some c
  | .kSthf c _ _ _ => some c
  | .kStd c _ _ _ => some c
  | .kFst c _ _ _ => some c
  | .kPush c _ _ => some c
  | .kPop c _ _ => some c
  | .kPushf c _ _ => some c
  | .kPopf c _ _ => some c
  | .kBr c _ _ => some c
  | .kJmp c _ => some c
  | .kCall c _ => some c
  | .kCallm c _ _ _ => some c
  | .kCallmr c _ _ _ => some c
  | .kCallq c _ _ _ => some c
  | .kRetm c _ _ _ => some c
  | .kBlkmov c _ _ _ _ => some c
  | .kVmac c _ _ _ _ _ => some c
  | .kQput c _ _ => some c
  | .kQtake c _ _ => some c
  | .kMovcFrom c _ _ => some c
  | .kMovcTo c _ _ => some c
  | _ => none

/-! ### Loads and stores of a core, ROM routines -/

/-- The region is a RAM. -/
def inRam (r : Region) : Bool := match r with
  | .itcm _ | .dtcm _ | .sram _ | .galley | .overlay => true
  | _ => false

/-- The region can be loaded from: a RAM, the boot ROM in supervisor mode, a flash bank that is not busy (R237, R250, R419). -/
def loadable (d : Dev) (sup : Bool) (r : Region) : Bool := inRam r || (decide (r = .rom) && sup) ||
  (match r with | .flash b => !flashBusy d b | _ => false)

/-- A load by core `c` of word `a` answers `w`, the stored word: its region is initialised and on line, no stored word is
flawed, no store of the core is pending, a tag is to be had (R255, R342, R352, R360). -/
structure Loads (c a : Nat) (w : Word) (s : State) : Prop where
  region : loadable s.dev (coreOfDev s.dev c).sup (regionOf (some c) a) = true
  ready : initWait s.dev (regionOf (some c) a) = false
  online : bankOff s.dev (regionOf (some c) a) = false
  clean : s.mem.flaws = []
  stores : pendingStores (coreOfDev s.dev c) = []
  tag : canTag s.dev (2 * c + 1) = true
  turn : s.dev.fab.waiting = []
  value : storedWord s.mem (physOf s.dev (regionOf (some c) a) a) = w

/-- A core has called a ROM routine (R422, R423): it stands at the entry point, its LP is on the stack, 24 words of stack
are left, LP holds a half address to return to, and no SRAM bank is mirrored or substituted. -/
structure RomCalled (c entry : Nat) (lp : Word) (s : State) : Prop where
  exec : Executable c 1 s
  here : (coreOfDev s.dev c).ip = entry
  frame : Loads c ((coreOfDev s.dev c).gr 14).toNat lp s
  plain : gf s.dev FAB_RETIRE.MODE = 0
  room : stackLimit (coreOfDev s.dev c) ≤ ((coreOfDev s.dev c).gr 14).toNat - (24 : Int)
  back : ((coreOfDev s.dev c).gr 15).toNat < 2 ^ 29

/-- The words below the frame that the routine may use (R422). -/
def romStack (s : State) (c : Nat) : List Nat :=
  (upTo 24).map fun i =>
    let a := (((coreOfDev s.dev c).gr 14).toNat + 2 ^ 36 - 1 - i) % 2 ^ 36
    physOf s.dev (regionOf (some c) a) a

/-- The routine has returned with RETM 0x8000: status in G1, what R422 preserves preserved. -/
structure RomReturned (c status : Nat) (lp : Word) (s t : State) : Prop where
  g1 : (coreOfDev t.dev c).gr 1 = BitVec.ofNat 36 status
  kept : ∀ r, 7 ≤ r → r ≤ 13 → (coreOfDev t.dev c).gr r = (coreOfDev s.dev c).gr r
  sp : (coreOfDev t.dev c).gr 14 = (coreOfDev s.dev c).gr 14 + 1
  link : (coreOfDev t.dev c).gr 15 = lp
  ip : (coreOfDev t.dev c).ip = ((coreOfDev s.dev c).gr 15).toNat
  acc : ∀ n, (coreOfDev t.dev c).acc n = (coreOfDev s.dev c).acc n
  fr : ∀ r, (coreOfDev t.dev c).fr r = (coreOfDev s.dev c).fr r
  fpsr : (coreOfDev t.dev c).fpsr = (coreOfDev s.dev c).fpsr
  psw : ∀ b, 4 ≤ b → bit (coreOfDev t.dev c).psw b = bit (setBitW (coreOfDev s.dev c).psw pswResume false) b
  others : ∀ x, x ≠ c → coreOfDev t.dev x = coreOfDev s.dev x

/-! ### Masked calls, returns and blocks of a core (R272, R273, R276) -/

/-- Base of a masked call's frame: SP less the registers saved, or SP as it stands when the call resumes (R272). -/
def frameBase (k : CoreSt) (m : Word) : Word :=
  if k.resume || k.prog.isSome then k.gr 14 else k.gr 14 - BitVec.ofNat 36 (maskRegs m).length

/-- The stores of a masked call: the named registers rising from the frame's base (R272), without those a call that
waited has done. -/
def savedBy (k : CoreSt) (m : Word) : List StoreEntry :=
  ((maskRegs m).zipIdx.drop (k.prog.getD 0)).map fun x =>
    storeEntry k (((frameBase k m).toNat + x.2) % 2 ^ 36) allBits (k.gr x.1) none false false

/-- A masked call can run to its end: the frame is above the stack limit, no folio is stored to in user mode, and the
posted write buffer takes the frame, because it has the room or because it drains into the core's own TCM. -/
structure CanSave (c : Nat) (m : Word) (s : State) : Prop where
  limit : (coreOfDev s.dev c).resume = true ∨ (coreOfDev s.dev c).prog ≠ none ∨
    stackLimit (coreOfDev s.dev c) ≤ ((coreOfDev s.dev c).gr 14).toNat - ((maskRegs m).length : Int)
  plain : (coreOfDev s.dev c).sup = true ∨
    ∀ e ∈ savedBy (coreOfDev s.dev c) m, regionOf (some c) e.addr ≠ .folio
  buffer : (coreOfDev s.dev c).wbuf.length + (maskRegs m).length ≤ 4 ∨
    ∀ e ∈ (coreOfDev s.dev c).wbuf ++ savedBy (coreOfDev s.dev c) m, direct c e.addr = true

/-- A masked call of `len` halves has gone to `target`: SP at the frame, the stores posted, LP in G15. -/
def Called (c len : Nat) (m : Word) (target : Nat) (s t : State) : Prop :=
  let k := coreOfDev s.dev c
  Shows c s t (put (put k.gr 14 (frameBase k m)) 15 (BitVec.ofNat 36 (ipAfter k len))) k.acc k.fr k.fpsr (pswAfter k {}) target ∧
  pendingStores (coreOfDev t.dev c) = pendingStores k ++ savedBy k m

/-- A masked call stopped before its first store: IP stays, RESUME is set (R272). -/
def CallStopped (c : Nat) (m : Word) (s t : State) : Prop :=
  let k := coreOfDev s.dev c
  Shows c s t (put k.gr 14 (frameBase k m)) k.acc k.fr k.fpsr (setBitW k.psw pswResume true) k.ip ∧
  pendingStores (coreOfDev t.dev c) = pendingStores k

/-- The words of a masked return's frame are there to load (R273). -/
def CanRestore (c : Nat) (m : Word) (w : Nat → Word) (s : State) : Prop :=
  (∀ x ∈ (maskRegs m).zipIdx, Loads c ((((coreOfDev s.dev c).gr 14).toNat + x.2) % 2 ^ 36) (w x.1) s) ∧
  ((coreOfDev s.dev c).gr 15).toNat < 2 ^ 29

/-- The registers that a masked return has still to load: those of a return that waited are done, G15 comes last (R273). -/
def restoredBy (k : CoreSt) (m : Word) : List Nat :=
  ((maskRegs m).filter fun r => decide (r ≠ 15)).drop (k.prog.getD 0) ++ (if 15 ∈ maskRegs m then [15] else [])

/-- A masked return has gone to LP: the named registers loaded, SP past the frame (R273). -/
def Restored (c : Nat) (m : Word) (w : Nat → Word) (s t : State) : Prop :=
  let k := coreOfDev s.dev c
  Shows c s t (fun r => if r = 14 then k.gr 14 + BitVec.ofNat 36 (maskRegs m).length else if r ∈ restoredBy k m then w r else k.gr r)
    k.acc k.fr k.fpsr (pswAfter k {}) (k.gr 15).toNat

/-- The sum of the first `n` products. -/
def dot (x y : Nat → Word) : Nat → Int
  | 0 => 0
  | n + 1 => dot x y n + (x n).toInt * (y n).toInt

/-! ### Fractions and accumulators (R246, R247, R248) -/

/-- `y` is x / 2^n rounded under PSW.RND (R246): TRUNC, HALFUP, HALFEVEN, TOZERO. -/
def Rounds (rnd : Nat) (x : Int) (n : Nat) (y : Int) : Prop :=
  (rnd = 0 → y * 2 ^ n ≤ x ∧ x < (y + 1) * 2 ^ n) ∧
  (rnd = 1 → (2 * y - 1) * 2 ^ n ≤ 2 * x ∧ 2 * x < (2 * y + 1) * 2 ^ n) ∧
  (rnd = 2 → (2 * y - 1) * 2 ^ n ≤ 2 * x ∧ 2 * x ≤ (2 * y + 1) * 2 ^ n ∧
    (2 * x = (2 * y - 1) * 2 ^ n ∨ 2 * x = (2 * y + 1) * 2 ^ n → y % 2 = 0)) ∧
  (rnd = 3 → y.natAbs * 2 ^ n ≤ x.natAbs ∧ x.natAbs < (y.natAbs + 1) * 2 ^ n ∧ 0 ≤ x * y)

/-! ### binary32 as IEEE 754-2019 states it (R243, R244) -/

/-- Magnitude bits `m` in units of 2^-149; the place of infinity counts as 2^128. -/
def units32 (m : Nat) : Nat := if m < 2 ^ 23 then m else (2 ^ 23 + m % 2 ^ 23) * 2 ^ (m / 2 ^ 23 - 1)

/-- A value that is no NaN, in units of 2^-149. -/
def f32Units (a : F32) : Int := (if f32Sign a then -1 else 1) * (units32 (a.toNat % 2 ^ 31) : Int)

/-- RM rounds a magnitude of this sign away from zero (R243: 0b10 toward +∞, 0b11 toward −∞). -/
def awayFromZero (rm : Nat) (neg : Bool) : Bool := (rm == 2 && !neg) || (rm == 3 && neg)

/-- How quarters of a unit stand to the exact magnitude p/q units. -/
def quotientOrd (p q : Nat) : Nat → Ordering := fun h => compare (h * q) (4 * p)

/-- How quarters of a unit stand to the exact magnitude √n units. -/
def rootOrd (n : Nat) : Nat → Ordering := fun h => compare (h * h) (16 * n)

/-- Of the binary32 magnitudes, infinity standing for 2^128, `m` is the one that RM takes for the exact magnitude `v`:
the nearest, of two equally near the even one; the next toward zero, which is finite; or the next away from it. -/
def Rounded32 (rm : Nat) (neg : Bool) (v : Nat → Ordering) (m : Nat) : Prop :=
  m ≤ 0x7F800000 ∧
  if rm = 0 then
    (m = 0 ∨ v (2 * (units32 (m - 1) + units32 m)) = .lt ∨ v (2 * (units32 (m - 1) + units32 m)) = .eq ∧ m % 2 = 0) ∧
    (m = 0x7F800000 ∨ v (2 * (units32 m + units32 (m + 1))) = .gt ∨
      v (2 * (units32 m + units32 (m + 1))) = .eq ∧ m % 2 = 0)
  else if awayFromZero rm neg = true then
    (m = 0 ∨ v (4 * units32 (m - 1)) = .lt) ∧ (m = 0x7F800000 ∨ v (4 * units32 m) ≠ .lt)
  else m < 0x7F800000 ∧ v (4 * units32 m) ≠ .gt ∧ (m = 0x7F7FFFFF ∨ v (4 * units32 (m + 1)) = .gt)

/-- The exact magnitude `v`, rounded to 24 bits with no bound on the exponent, lies below 2^-126: by RM, and to nearest
where results are flushed (R176, log entry 80). -/
def Tiny32 (fm : FMode) (neg : Bool) (v : Nat → Ordering) : Prop :=
  if fm.ftz = true ∨ fm.rm = 0 then v (2 ^ 25 - 1) = .gt
  else if awayFromZero fm.rm neg = true then v (2 ^ 25 - 2) ≠ .lt
  else v (2 ^ 25) = .gt

/-- `r` is the result and the flags of an operation whose exact value is not 0, with magnitude `v` and sign `neg`: rounded
once by RM, with OF, UF and NX; with FTZ = 1 a tiny result is a zero with its sign and one that rounds to 2^-126 is that
value (R176, R243, R244, log entry 80). -/
def Ieee32 (fm : FMode) (neg : Bool) (v : Nat → Ordering) (r : FRes) : Prop :=
  let m := r.val.toNat % 2 ^ 31
  f32Sign r.val = neg ∧ r.nv = false ∧ r.dz = false ∧
  if fm.ftz = true ∧ v (2 ^ 25) = .gt then
    r.of = false ∧ r.nx = true ∧
    (Tiny32 fm neg v → m = 0 ∧ r.uf = true) ∧ (¬Tiny32 fm neg v → m = 2 ^ 23 ∧ r.uf = false)
  else
    Rounded32 fm.rm neg v m ∧
    (r.of = true ↔ m = 0x7F800000 ∨ v (2 ^ 279) ≠ .gt) ∧
    (r.nx = true ↔ r.of = true ∨ v (4 * units32 m) ≠ .eq) ∧
    (r.uf = true ↔ r.nx = true ∧ Tiny32 fm neg v)

/-- The integer `y` that RM takes for the exact value x / 2^n (R268). -/
def RoundsTo (rm : Nat) (x : Int) (n : Nat) (y : Int) : Prop :=
  (rm = 0 → (2 * y - 1) * 2 ^ n ≤ 2 * x ∧ 2 * x ≤ (2 * y + 1) * 2 ^ n ∧
    (2 * x = (2 * y - 1) * 2 ^ n ∨ 2 * x = (2 * y + 1) * 2 ^ n → y % 2 = 0)) ∧
  (rm = 1 → y.natAbs * 2 ^ n ≤ x.natAbs ∧ x.natAbs < (y.natAbs + 1) * 2 ^ n ∧ 0 ≤ x * y) ∧
  (rm = 2 → (y - 1) * 2 ^ n < x ∧ x ≤ y * 2 ^ n) ∧
  (rm = 3 → y * 2 ^ n ≤ x ∧ x < (y + 1) * 2 ^ n)

/-- A NaN operand propagates with its quiet bit set, and NV tells a signalling one (R244; which of two: log entry 11). -/
def NanOf (x y : F32) (r : FRes) : Prop :=
  ((f32Nan x = true ∧ r.val = f32Quiet x) ∨ (f32Nan y = true ∧ r.val = f32Quiet y)) ∧
  r = { val := r.val, nv := f32Snan x || f32Snan y }

/-- The bounds of the range of PSW.SAT in units of u (R247): UNIT, else the 36-bit range. -/
def satLow (sat : Nat) : Int := if sat = 1 then -(2 ^ 31) else -(2 ^ 35)
def satHigh (sat : Nat) : Int := if sat = 1 then 2 ^ 31 - 1 else 2 ^ 35 - 1

/-- A rounded result `r` gives the word `w` and the flags `f` under PSW.SAT (R247, R267): in range it stands and V clears;
outside it wraps and sets V (OFF), or takes the nearer bound and sets V and SS. -/
structure Ranged (sat : Nat) (r : Int) (w : Word) (f : FlagW) : Prop where
  inside : satLow sat ≤ r → r ≤ satHigh sat → w = BitVec.ofInt 36 r ∧ f.v = some false ∧ f.ss = false
  wraps : sat = 0 → r < satLow sat ∨ satHigh sat < r → w = BitVec.ofInt 36 r ∧ f.v = some true ∧ f.ss = false
  below : sat ≠ 0 → r < satLow sat → w = BitVec.ofInt 36 (satLow sat) ∧ f.v = some true ∧ f.ss = true
  above : sat ≠ 0 → satHigh sat < r → w = BitVec.ofInt 36 (satHigh sat) ∧ f.v = some true ∧ f.ss = true
  n : f.n = some (bit w 35)
  z : f.z = some (decide (w = 0))
  c : f.c = none

/-- Flags of an accumulation (R248): a sum that leaves the 80-bit range sets V and SS. -/
def accFlags (x : Int) : FlagW := if -(2 ^ 79) ≤ x ∧ x < 2 ^ 79 then {} else { v := some true, ss := true }

/-! ### Operand forms (R262, R264, R265) -/

/-- Destination, first and second operand of a two-operand form: RD := RD op RS, or RD := RS op RT. -/
def dest2 : Alu2 → Nat
  | .short rd _ => rd
  | .long rd _ _ => rd
def opA (k : CoreSt) : Alu2 → Word
  | .short rd _ => k.gr rd
  | .long _ rs _ => k.gr rs
def opB (k : CoreSt) : Alu2 → Word
  | .short _ rs => k.gr rs
  | .long _ _ rt => k.gr rt
/-- The one operand of MOV, NEG, NOT and the one-operand FP functions is RS or FS. -/
def opOne : Alu2 → Nat
  | .short _ rs => rs
  | .long _ rs _ => rs
/-- The long form's RT field, which must be 0 for one operand. -/
def rtZero : Alu2 → Prop
  | .short _ _ => True
  | .long _ _ rt => rt = 0
/-- The long form's RD field, which must be 0 for CMP and TST. -/
def rdZero : Alu2 → Prop
  | .short _ _ => True
  | .long rd _ _ => rd = 0
/-- FP operands of a two-operand form. -/
def fpA (k : CoreSt) : Alu2 → F32
  | .short fd _ => k.fr fd
  | .long _ fs _ => k.fr fs
def fpB (k : CoreSt) : Alu2 → F32
  | .short _ fs => k.fr fs
  | .long _ _ ft => k.fr ft
/-- Destination, register and immediate operand of ADDI and CMPI. -/
def destI : ImmOp → Nat
  | .short rd _ => rd
  | .long rd _ _ => rd
def regI (k : CoreSt) : ImmOp → Word
  | .short rd _ => k.gr rd
  | .long _ rs _ => k.gr rs
def immI : ImmOp → Word
  | .short _ imm => imm.signExtend 36
  | .long _ _ imm => imm.signExtend 36
def rdZeroI : ImmOp → Prop
  | .short _ _ => True
  | .long rd _ _ => rd = 0
/-- Accumulator and operands of a multiply-accumulate form. -/
def accM : MacOp → Fin 2
  | .short a _ _ => a
  | .long a _ _ _ => a
def macA (k : CoreSt) : MacOp → Word
  | .short _ rd _ => k.gr rd
  | .long _ _ rs _ => k.gr rs
def macB (k : CoreSt) : MacOp → Word
  | .short _ _ rs => k.gr rs
  | .long _ _ _ rt => k.gr rt
def rdZeroM : MacOp → Prop
  | .short _ _ _ => True
  | .long _ rd _ _ => rd = 0

/-! ### Flags as R241 and R266 state them, by exact arithmetic -/

/-- N and Z of a result, the other flags as they were. -/
def nz (r : Word) : FlagW := { n := some (decide (r.toInt < 0)), z := some (decide (r = 0)) }

/-- A signed number fits 36 bits. -/
def fits (x : Int) : Bool := decide (-(2 ^ 35) ≤ x ∧ x < 2 ^ 35)

/-- Flags of a + b + carry: C is the carry out, V an exact signed sum that does not fit. -/
def sumFlags (a b : Word) (ci : Bool) : FlagW :=
  { nz (a + b + BitVec.ofNat 36 ci.toNat) with
    c := some (decide (2 ^ 36 ≤ a.toNat + b.toNat + ci.toNat))
    v := some (!fits (a.toInt + b.toInt + ci.toNat)) }

/-- Flags of a − b − borrow: C is no borrow, V an exact signed difference that does not fit. -/
def diffFlags (a b : Word) (borrow : Bool) : FlagW :=
  { nz (a - b - BitVec.ofNat 36 borrow.toNat) with
    c := some (decide (b.toNat + borrow.toNat ≤ a.toNat))
    v := some (!fits (a.toInt - b.toInt - borrow.toNat)) }

end Sys2Proof.Machine
end

