-- ==== Sys2Proof/Certificates/Slice0/Obligations.lean ====
section
/-!
DEFINITION. The statements for the provers. Those that quote a rule of the spec name it; `Calm` is the machine between
events, `Completes` that the command answers a next state of which something holds.
-/
section
open Sys2Proof Sys2Proof.Machine

/-! ### The whole machine -/

/-- The command at the front of the queue is carried out on the machine with the rest of the queue. -/
def Obligations.StepRunsFront : Prop :=
  ∀ (i : Instr) (s : State), step { s with pending := i :: s.pending } = exec i s

/-- Every step answers a next state, and takes at most the front command from the queue: no command of the table is refused and none ends a run. -/
def Obligations.EveryStepAnswers : Prop :=
  ∀ s : State, ∃ t, step s = .next t ∧ t.pending = s.pending.tail

/-- What reset leaves: no command waits and the memories are canonical with nothing listed (so that the invariant of MemoryStaysCanonical holds); where the spec gives values, the core registers (R241), NEVER in the Forme compares (R137), and register reset values of the field tables. -/
def Obligations.ResetValues : Prop :=
  (MemSt.wf State.reset.mem = true ∧ State.reset.mem.words = [] ∧ State.reset.mem.flaws = [] ∧ State.reset.pending = []) ∧
  let d := State.reset.dev
  (∀ c ∈ upTo 8,
    let k := coreOfDev d c
    (∀ r ∈ upTo 16, k.gr r = if r = 14 then 0x117FC0 else 0) ∧ k.acc 0 = 0 ∧ k.acc 1 = 0 ∧ (∀ r ∈ upTo 16, k.fr r = 0) ∧
    k.tsbp = 0x117FC0 ∧ k.slim = 0x110020 ∧ k.ip = (if c = 0 then 0 else 0x200000) ∧ k.psw = 0x800000000 ∧ k.fpsr = 0 ∧ k.maskset = []) ∧
  (∀ f ∈ upTo 16, ∀ n ∈ upTo 4, rd d (FORME_CMPA.at f n) = 0x1FFFFFFF ∧ rd d (FORME_CMPB.at f n) = 0x1FFFFFFF) ∧
  gf d SYS_MODE.MODE = 0 ∧ gf d SYS_STAT.WHY = 7 ∧ gb d (FOLIO_CTL.EN 0x10) = true ∧ gb d (FOLIO_CTL.EN 0x13) = false

/-- The memories keep their canonical form at every step, so that equal memories are equal data. -/
def Obligations.MemoryStaysCanonical : Prop :=
  ∀ s t : State, MemSt.wf s.mem = true → step s = .next t → MemSt.wf t.mem = true

/-- R242, R249: no instruction of a core that runs in user mode brings the core into supervisor mode by itself; TRAP and exceptions do so by their entry, which is a command of its own, and YIELD and WAITEV can bring another slot. -/
def Obligations.UserStaysUser : Prop :=
  ∀ (c : Fin 8) (s : State), Calm s →
    let k := coreOfDev s.dev c
    (∀ (i : Instr), k.sup = false → instrCore i = some c → (∀ a, i ≠ .kYield c a) → (∀ a, i ≠ .kWaitev c a) → 
      Completes i s fun t => (coreOfDev t.dev c).sup = false)

/-- R14, R241: an instruction of one core leaves every other core as it is: registers, task state, buffers and recorded exceptions. -/
def Obligations.CoresApart : Prop :=
  ∀ (c : Fin 8) (s : State), Calm s →
    (∀ (i : Instr) (e : Nat), instrCore i = some c → e ≠ c.val → 
      Completes i s fun t => coreOfDev t.dev e = coreOfDev s.dev e)

/-! ### Kamul instructions on a core's own registers (chapter 12) -/

/-- R266: ADD, ADC, ADDI write the sum, SUB, SBC, NEG the difference, with NZCV; CMP and CMPI set the flags of the
difference alone. Every other register, the memories and the other cores stay. -/
def Obligations.IntegerSums : Prop :=
  ∀ (c : Fin 8) (s : State), Calm s →
    let k := coreOfDev s.dev c
    (∀ o, Executable c (Alu2.len o) s →
      Completes (.kAdd c o) s (SetsReg c s (Alu2.len o) (dest2 o) (opA k o + opB k o) (sumFlags (opA k o) (opB k o) false)) ∧
      Completes (.kAdc c o) s (SetsReg c s (Alu2.len o) (dest2 o) (opA k o + opB k o + BitVec.ofNat 36 k.cIn.toNat)
        (sumFlags (opA k o) (opB k o) k.cIn)) ∧
      Completes (.kSub c o) s (SetsReg c s (Alu2.len o) (dest2 o) (opA k o - opB k o) (diffFlags (opA k o) (opB k o) false)) ∧
      Completes (.kSbc c o) s (SetsReg c s (Alu2.len o) (dest2 o) (opA k o - opB k o - BitVec.ofNat 36 (!k.cIn).toNat)
        (diffFlags (opA k o) (opB k o) (!k.cIn))) ∧
      (rtZero o → Completes (.kNeg c o) s (SetsReg c s (Alu2.len o) (dest2 o) (-(k.gr (opOne o))) (diffFlags 0 (k.gr (opOne o)) false))) ∧
      (rdZero o → Completes (.kCmp c o) s (SetsFlags c s (Alu2.len o) (diffFlags (opA k o) (opB k o) false)))) ∧
    (∀ o, Executable c (ImmOp.len o) s →
      Completes (.kAddi c o) s (SetsReg c s (ImmOp.len o) (destI o) (regI k o + immI o) (sumFlags (regI k o) (immI o) false)) ∧
      (rdZeroI o → Completes (.kCmpi c o) s (SetsFlags c s (ImmOp.len o) (diffFlags (regI k o) (immI o) false))))

/-- R266: the logical functions and MOV, NOT set N and Z alone, TST the flags alone; the immediate forms extend by sign. -/
def Obligations.LogicAndMoves : Prop :=
  ∀ (c : Fin 8) (s : State), Calm s →
    let k := coreOfDev s.dev c
    (∀ o, Executable c (Alu2.len o) s →
      let sets := fun (v : Word) => SetsReg c s (Alu2.len o) (dest2 o) v (nz v)
      Completes (.kAnd c o) s (sets (opA k o &&& opB k o)) ∧ Completes (.kOr c o) s (sets (opA k o ||| opB k o)) ∧
      Completes (.kXor c o) s (sets (opA k o ^^^ opB k o)) ∧ Completes (.kAndn c o) s (sets (opA k o &&& ~~~(opB k o))) ∧
      (rtZero o → Completes (.kMov c o) s (sets (k.gr (opOne o)))) ∧
      (rtZero o → Completes (.kNot c o) s (sets (~~~(k.gr (opOne o))))) ∧
      (rdZero o → Completes (.kTst c o) s (SetsFlags c s (Alu2.len o) (nz (opA k o &&& opB k o))))) ∧
    (Executable c 2 s → ∀ (rd rs : Fin 16) (imm : BitVec 21),
      let sets := fun (v : Word) => SetsReg c s 2 rd v (nz v)
      Completes (.kAndi c rd rs imm) s (sets (k.gr rs &&& imm.signExtend 36)) ∧
      Completes (.kOri c rd rs imm) s (sets (k.gr rs ||| imm.signExtend 36)) ∧
      Completes (.kXori c rd rs imm) s (sets (k.gr rs ^^^ imm.signExtend 36)))

/-- R264, R265, R266: MOVI, LDI, LDHI write a value and no flag; MIN, MAX choose by signed, MINU, MAXU by unsigned
comparison and set N and Z; CLZ and POPC set Z alone. -/
def Obligations.ImmediatesAndChoices : Prop :=
  ∀ (c : Fin 8) (s : State), Calm s →
    let k := coreOfDev s.dev c
    (Executable c 1 s → ∀ (rd : Fin 16) (imm : BitVec 8),
      Completes (.kMovi c rd imm) s (SetsReg c s 1 rd (BitVec.ofInt 36 imm.toInt) {})) ∧
    (Executable c 2 s → ∀ (rd : Fin 16) (imm : BitVec 25),
      Completes (.kLdi c rd imm) s (SetsReg c s 2 rd (BitVec.ofInt 36 imm.toInt) {}) ∧
      Completes (.kLdhi c rd imm) s (SetsReg c s 2 rd (BitVec.ofNat 36 (imm.toNat * 2 ^ 11)) {})) ∧
    (Executable c 2 s → ∀ (rd rs rt : Fin 16),
      let a := k.gr rs
      let b := k.gr rt
      let sets := fun (v : Word) => SetsReg c s 2 rd v (nz v)
      Completes (.kMin c rd rs rt) s (sets (if a.toInt ≤ b.toInt then a else b)) ∧
      Completes (.kMax c rd rs rt) s (sets (if a.toInt ≤ b.toInt then b else a)) ∧
      Completes (.kMinu c rd rs rt) s (sets (if a.toNat ≤ b.toNat then a else b)) ∧
      Completes (.kMaxu c rd rs rt) s (sets (if a.toNat ≤ b.toNat then b else a)) ∧
      (∃ n, n ≤ 36 ∧ a.toNat < 2 ^ (36 - n) ∧ (n < 36 → 2 ^ (35 - n) ≤ a.toNat) ∧
        Completes (.kClz c rd rs rt) s (SetsReg c s 2 rd (BitVec.ofNat 36 n) { z := some (decide (n = 0)) })) ∧
      Completes (.kPopc c rd rs rt) s (SetsReg c s 2 rd (BitVec.ofNat 36 ((List.range 36).countP fun i => a.getLsbD i))
        { z := some (decide (a = 0)) }))

/-- R266, R264: a shift by n writes the operand times or divided by 2^n, and C takes the last bit shifted out; a count of 0
leaves C; 36 to 63 gives 0, or copies of the sign. ROR's C is the model's reading (log entry 20). -/
def Obligations.Shifts : Prop :=
  ∀ (c : Fin 8) (s : State), Calm s →
    let k := coreOfDev s.dev c
    let shl := fun (a : Word) (n : Nat) (post : Word → FlagW → Prop) =>
      post (BitVec.ofNat 36 (a.toNat * 2 ^ n)) { nz (BitVec.ofNat 36 (a.toNat * 2 ^ n)) with
        c := if n = 0 then none else some (decide (a.toNat * 2 ^ n / 2 ^ 36 % 2 = 1)) }
    let shr := fun (a : Word) (n : Nat) (post : Word → FlagW → Prop) =>
      post (BitVec.ofNat 36 (a.toNat / 2 ^ n)) { nz (BitVec.ofNat 36 (a.toNat / 2 ^ n)) with
        c := if n = 0 then none else some (decide (a.toNat / 2 ^ (n - 1) % 2 = 1)) }
    let sar := fun (a : Word) (n : Nat) (post : Word → FlagW → Prop) =>
      post (BitVec.ofInt 36 (a.toInt / 2 ^ n)) { nz (BitVec.ofInt 36 (a.toInt / 2 ^ n)) with
        c := if n = 0 then none else some (decide (a.toInt / 2 ^ (n - 1) % 2 = 1)) }
    let ror := fun (a : Word) (n : Nat) (post : Word → FlagW → Prop) =>
      let r := BitVec.ofNat 36 (a.toNat / 2 ^ n + a.toNat * 2 ^ (36 - n))
      post r { nz r with c := if n = 0 then none else some (decide (a.toNat / 2 ^ (n - 1) % 2 = 1)) }
    (∀ o, Executable c (Alu2.len o) s →
      let n := (opB k o).toNat % 64
      shl (opA k o) n (fun v fl => Completes (.kShl c o) s (SetsReg c s (Alu2.len o) (dest2 o) v fl)) ∧
      shr (opA k o) n (fun v fl => Completes (.kShr c o) s (SetsReg c s (Alu2.len o) (dest2 o) v fl)) ∧
      sar (opA k o) n (fun v fl => Completes (.kSar c o) s (SetsReg c s (Alu2.len o) (dest2 o) v fl))) ∧
    (Executable c 1 s → ∀ (rd : Fin 16) (cnt : Fin 64), cnt.val ≤ 35 →
      shl (k.gr rd) cnt (fun v fl => Completes (.kShiShl c rd cnt) s (SetsReg c s 1 rd v fl)) ∧
      shr (k.gr rd) cnt (fun v fl => Completes (.kShiShr c rd cnt) s (SetsReg c s 1 rd v fl)) ∧
      sar (k.gr rd) cnt (fun v fl => Completes (.kShiSar c rd cnt) s (SetsReg c s 1 rd v fl)) ∧
      ror (k.gr rd) cnt (fun v fl => Completes (.kShiRor c rd cnt) s (SetsReg c s 1 rd v fl)))

/-- R265, R266: products and quotients. MUL, MULU keep the low 36 bits, set N and Z, and V when the product does not fit;
MULH, MULHU give bits [71:36] and leave the flags; DIV and REM truncate toward zero and set N and Z (DIVU, REMU leave the
flags: the rule names none for them). -/
def Obligations.ProductsAndQuotients : Prop :=
  ∀ (c : Fin 8) (s : State), Calm s → Executable c 2 s → ∀ (rd rs rt : Fin 16),
    let k := coreOfDev s.dev c
    let a := k.gr rs
    let b := k.gr rt
    let sets := SetsReg c s 2 rd
    let p := BitVec.ofInt 36 (a.toInt * b.toInt)
    Completes (.kMul c rd rs rt) s (sets p { nz p with v := some (!fits (a.toInt * b.toInt)) }) ∧
    Completes (.kMulu c rd rs rt) s (sets p { nz p with v := some (decide (2 ^ 36 ≤ a.toNat * b.toNat)) }) ∧
    Completes (.kMulh c rd rs rt) s (sets (BitVec.ofInt 36 (a.toInt * b.toInt / 2 ^ 36)) {}) ∧
    Completes (.kMulhu c rd rs rt) s (sets (BitVec.ofNat 36 (a.toNat * b.toNat / 2 ^ 36)) {}) ∧
    (b ≠ 0 →
      (¬ (a.toInt = -(2 ^ 35) ∧ b.toInt = -1) →
        let q := BitVec.ofInt 36 (a.toInt.tdiv b.toInt)
        let r := BitVec.ofInt 36 (a.toInt.tmod b.toInt)
        Completes (.kDiv c rd rs rt) s (sets q (nz q)) ∧ Completes (.kRem c rd rs rt) s (sets r (nz r))) ∧
      Completes (.kDivu c rd rs rt) s (sets (BitVec.ofNat 36 (a.toNat / b.toNat)) {}) ∧
      Completes (.kRemu c rd rs rt) s (sets (BitVec.ofNat 36 (a.toNat % b.toNat)) {}))

/-- R248, R269: the product of two words is exact; it replaces the accumulator, or is added or subtracted in 80 bits, where a sum outside the range wraps and sets V and SS. EXTF discards 31 bits under RND and saturates under SAT, EXTI saturates to the integer range; both write V and SS. The halves of an accumulator move through an even register pair. Model’s readings (log entry 25): N, Z and C are left by all of these, and EXTI has the 36-bit range under UNIT and GUARD alike. -/
def Obligations.Accumulators : Prop :=
  ∀ (c : Fin 8) (s : State), Calm s →
    let d := s.dev
    let k := coreOfDev d c
    (∀ (o : MacOp), Executable c (MacOp.len o) s → rdZeroM o → 
      Completes (.kMac c o) s (SetsAcc c s (MacOp.len o) (accM o) (BitVec.ofInt 80 ((k.acc (accM o)).toInt + (macA k o).toInt * (macB k o).toInt)) (accFlags ((k.acc (accM o)).toInt + (macA k o).toInt * (macB k o).toInt)))) ∧
    (∀ (o : MacOp), Executable c (MacOp.len o) s → rdZeroM o → 
      Completes (.kMsu c o) s (SetsAcc c s (MacOp.len o) (accM o) (BitVec.ofInt 80 ((k.acc (accM o)).toInt - (macA k o).toInt * (macB k o).toInt)) (accFlags ((k.acc (accM o)).toInt - (macA k o).toInt * (macB k o).toInt)))) ∧
    (∀ (o : MacOp), Executable c (MacOp.len o) s → rdZeroM o → 
      Completes (.kMacu c o) s (SetsAcc c s (MacOp.len o) (accM o) (BitVec.ofInt 80 ((k.acc (accM o)).toInt + ((macA k o).toNat : Int) * (macB k o).toNat)) (accFlags ((k.acc (accM o)).toInt + ((macA k o).toNat : Int) * (macB k o).toNat)))) ∧
    (∀ (o : MacOp), Executable c (MacOp.len o) s → rdZeroM o → 
      Completes (.kAccMul c o) s (SetsAcc c s (MacOp.len o) (accM o) (BitVec.ofInt 80 ((macA k o).toInt * (macB k o).toInt)) ({}))) ∧
    (∀ (o : MacOp), Executable c (MacOp.len o) s → rdZeroM o → 
      Completes (.kAccMulu c o) s (SetsAcc c s (MacOp.len o) (accM o) (BitVec.ofInt 80 (((macA k o).toNat : Int) * (macB k o).toNat)) ({}))) ∧
    (∀ (a : Fin 16), Executable c 1 s → a < 2 → 
      Completes (.kClra c 0 a) s (SetsAcc c s 1 a 0 {})) ∧
    (∀ (rd a : Fin 16) (r : Int) (w : Word) (f : FlagW), Executable c 1 s → a < 2 → Rounds k.rnd (k.acc a).toInt 31 r → Ranged k.sat r w f → 
      Completes (.kExtf c rd a) s (SetsReg c s 1 rd w { v := f.v, ss := f.ss })) ∧
    (∀ (rd a : Fin 16) (w : Word) (f : FlagW), Executable c 1 s → a < 2 → Ranged (if k.sat = 0 then 0 else 2) (k.acc a).toInt w f → 
      Completes (.kExti c rd a) s (SetsReg c s 1 rd w { v := f.v, ss := f.ss })) ∧
    (∀ (rd a : Fin 16), Executable c 1 s → a < 2 → rd.val % 2 = 0 → 
      Completes (.kMovfaH c rd a) s fun t => Shows c s t (put (put k.gr rd (((k.acc a).extractLsb' 76 4).signExtend 36)) (rd.val + 1) ((k.acc a).extractLsb' 40 36)) k.acc k.fr k.fpsr (pswAfter k {}) (ipAfter k 1)) ∧
    (∀ (rd a : Fin 16), Executable c 1 s → a < 2 → rd.val % 2 = 0 → 
      Completes (.kMovfaL c rd a) s fun t => Shows c s t (put (put k.gr rd (((k.acc a).extractLsb' 36 4).setWidth 36)) (rd.val + 1) ((k.acc a).extractLsb' 0 36)) k.acc k.fr k.fpsr (pswAfter k {}) (ipAfter k 1)) ∧
    (∀ (rd a : Fin 16), Executable c 1 s → a < 2 → rd.val % 2 = 0 → 
      Completes (.kMovtaH c rd a) s (SetsAcc c s 1 a (BitVec.ofNat 80 (((k.gr rd).toNat % 16 * 2 ^ 36 + (k.gr (rd.val + 1)).toNat) * 2 ^ 40 + (k.acc a).toNat % 2 ^ 40)) {})) ∧
    (∀ (rd a : Fin 16), Executable c 1 s → a < 2 → rd.val % 2 = 0 → 
      Completes (.kMovtaL c rd a) s (SetsAcc c s 1 a (BitVec.ofNat 80 ((k.acc a).toNat / 2 ^ 40 * 2 ^ 40 + (k.gr rd).toNat % 16 * 2 ^ 36 + (k.gr (rd.val + 1)).toNat)) {}))

/-- R246, R247, R267: fraction functions form the exact value in units of u, round under RND, then bring it into range under SAT; N and Z follow the result, V and SS as R247 states, C stays. SAT = 3, which PSW never holds, acts as GUARD. -/
def Obligations.Fractions : Prop :=
  ∀ (c : Fin 8) (s : State), Calm s →
    let d := s.dev
    let k := coreOfDev d c
    (∀ (o : Alu2) (y : Int) (w : Word) (f : FlagW), Executable c (Alu2.len o) s → Rounds k.rnd ((opA k o).toInt * (opB k o).toInt) 31 y → Ranged k.sat y w f → 
      Completes (.kFrmul c o) s (SetsReg c s (Alu2.len o) (dest2 o) w f)) ∧
    (∀ (o : Alu2) (w : Word) (f : FlagW), Executable c (Alu2.len o) s → Ranged k.sat ((opA k o).toInt + (opB k o).toInt) w f → 
      Completes (.kFradd c o) s (SetsReg c s (Alu2.len o) (dest2 o) w f)) ∧
    (∀ (o : Alu2) (w : Word) (f : FlagW), Executable c (Alu2.len o) s → Ranged k.sat ((opA k o).toInt - (opB k o).toInt) w f → 
      Completes (.kFrsub c o) s (SetsReg c s (Alu2.len o) (dest2 o) w f)) ∧
    (∀ (o : Alu2) (w : Word) (f : FlagW), Executable c (Alu2.len o) s → Ranged k.sat (-(opB k o).toInt) w f → 
      Completes (.kFrneg c o) s (SetsReg c s (Alu2.len o) (dest2 o) w f)) ∧
    (∀ (o : Alu2) (w : Word) (f : FlagW), Executable c (Alu2.len o) s → Ranged k.sat (((opB k o).toInt.natAbs : Int)) w f → 
      Completes (.kFrabs c o) s (SetsReg c s (Alu2.len o) (dest2 o) w f)) ∧
    (∀ (o : Alu2) (y : Int) (w : Word) (f : FlagW), Executable c (Alu2.len o) s → Rounds k.rnd ((opA k o).toInt) ((opB k o).toNat % 64) y → Ranged k.sat y w f → 
      Completes (.kRshr c o) s (SetsReg c s (Alu2.len o) (dest2 o) w f)) ∧
    (∀ (o : Alu2) (w : Word) (f : FlagW), Executable c (Alu2.len o) s → Ranged k.sat ((opB k o).toInt) w f → 
      Completes (.kFrsat c o) s (SetsReg c s (Alu2.len o) (dest2 o) w f))

/-- R243, R244, R265, R268: with the FP registers in place the FP instructions complete and write the value of fAdd, fSub, fMul, fDiv, fSqrt, fMin, fMax, fFma, fOfInt or fToWord (which Binary32 holds against IEEE 754) on the operands of their form, and add its flags to FPSR; FCMP sets NZCV by the relation; FMOV, FNEG, FABS, MOVGF, MOVFG copy or change bits. Model’s readings: moves look at no value and set no flag, conversions to an integer set no NX (log entry 26); FMSU leaves the sign of a NaN FS, FCMP raises NV for a signalling NaN only and takes any FD field (log entry 200). -/
def Obligations.FloatingPoint : Prop :=
  ∀ (c : Fin 8) (s : State), Calm s →
    let d := s.dev
    let k := coreOfDev d c
    (∀ (o : Alu2), Executable c (Alu2.len o) s → bit k.psw pswFpa = true → 
      Completes (.kFadd c o) s (SetsFp c s (Alu2.len o) (dest2 o) (fAdd (fpMode k.fpsr) (fpA k o) (fpB k o)))) ∧
    (∀ (o : Alu2), Executable c (Alu2.len o) s → bit k.psw pswFpa = true → 
      Completes (.kFsub c o) s (SetsFp c s (Alu2.len o) (dest2 o) (fSub (fpMode k.fpsr) (fpA k o) (fpB k o)))) ∧
    (∀ (o : Alu2), Executable c (Alu2.len o) s → bit k.psw pswFpa = true → 
      Completes (.kFmul c o) s (SetsFp c s (Alu2.len o) (dest2 o) (fMul (fpMode k.fpsr) (fpA k o) (fpB k o)))) ∧
    (∀ (o : Alu2), Executable c (Alu2.len o) s → bit k.psw pswFpa = true → 
      Completes (.kFdiv c o) s (SetsFp c s (Alu2.len o) (dest2 o) (fDiv (fpMode k.fpsr) (fpA k o) (fpB k o)))) ∧
    (∀ (o : Alu2), Executable c (Alu2.len o) s → bit k.psw pswFpa = true → 
      Completes (.kFmin c o) s (SetsFp c s (Alu2.len o) (dest2 o) (fMin (fpMode k.fpsr) (fpA k o) (fpB k o)))) ∧
    (∀ (o : Alu2), Executable c (Alu2.len o) s → bit k.psw pswFpa = true → 
      Completes (.kFmax c o) s (SetsFp c s (Alu2.len o) (dest2 o) (fMax (fpMode k.fpsr) (fpA k o) (fpB k o)))) ∧
    (∀ (o : Alu2), Executable c (Alu2.len o) s → bit k.psw pswFpa = true → rtZero o → 
      Completes (.kFsqrt c o) s (SetsFp c s (Alu2.len o) (dest2 o) (fSqrt (fpMode k.fpsr) (k.fr (opOne o))))) ∧
    (∀ (o : Alu2), Executable c (Alu2.len o) s → bit k.psw pswFpa = true → rtZero o → 
      Completes (.kFmov c o) s (SetsFp c s (Alu2.len o) (dest2 o) ({ val := k.fr (opOne o) }))) ∧
    (∀ (o : Alu2), Executable c (Alu2.len o) s → bit k.psw pswFpa = true → rtZero o → 
      Completes (.kFneg c o) s (SetsFp c s (Alu2.len o) (dest2 o) ({ val := k.fr (opOne o) ^^^ 0x80000000 }))) ∧
    (∀ (o : Alu2), Executable c (Alu2.len o) s → bit k.psw pswFpa = true → rtZero o → 
      Completes (.kFabs c o) s (SetsFp c s (Alu2.len o) (dest2 o) ({ val := k.fr (opOne o) &&& 0x7FFFFFFF }))) ∧
    (∀ (rd rs rt : Fin 16), Executable c 2 s → bit k.psw pswFpa = true → 
      Completes (.kFmac c rd rs rt) s (SetsFp c s 2 rd (fFma (fpMode k.fpsr) (k.fr rd) (k.fr rs) (k.fr rt)))) ∧
    (∀ (rd rs rt : Fin 16), Executable c 2 s → bit k.psw pswFpa = true → f32Nan (k.fr rs) = true → 
      Completes (.kFmsu c rd rs rt) s (SetsFp c s 2 rd (fFma (fpMode k.fpsr) (k.fr rd) (k.fr rs) (k.fr rt)))) ∧
    (∀ (rd rs rt : Fin 16), Executable c 2 s → bit k.psw pswFpa = true → f32Nan (k.fr rs) = false → 
      Completes (.kFmsu c rd rs rt) s (SetsFp c s 2 rd (fFma (fpMode k.fpsr) (k.fr rd) (k.fr rs ^^^ 0x80000000) (k.fr rt)))) ∧
    (∀ (rd rs : Fin 16), Executable c 2 s → bit k.psw pswFpa = true → 
      Completes (.kFitof c rd rs 0) s (SetsFp c s 2 rd (fOfInt (fpMode k.fpsr) (k.gr rs).toInt 0))) ∧
    (∀ (rd rs : Fin 16), Executable c 2 s → bit k.psw pswFpa = true → 
      Completes (.kFrtof c rd rs 0) s (SetsFp c s 2 rd (fOfInt (fpMode k.fpsr) (k.gr rs).toInt (-31)))) ∧
    (∀ (rd rs : Fin 16), Executable c 2 s → bit k.psw pswFpa = true → 
      Completes (.kFftoi c rd rs 0) s fun t => Shows c s t (put k.gr rd (fToWord (fpMode k.fpsr) (k.fr rs) 0).1) k.acc k.fr (fpsrAdd k.fpsr (if (fToWord (fpMode k.fpsr) (k.fr rs) 0).2 then 16 else 0)).1 (pswAfter k {}) (ipAfter k 2)) ∧
    (∀ (rd rs : Fin 16), Executable c 2 s → bit k.psw pswFpa = true → 
      Completes (.kFftor c rd rs 0) s fun t => Shows c s t (put k.gr rd (fToWord (fpMode k.fpsr) (k.fr rs) 31).1) k.acc k.fr (fpsrAdd k.fpsr (if (fToWord (fpMode k.fpsr) (k.fr rs) 31).2 then 16 else 0)).1 (pswAfter k {}) (ipAfter k 2)) ∧
    (∀ (rd rs : Fin 16), Executable c 2 s → bit k.psw pswFpa = true → 
      Completes (.kMovgf c rd rs 0) s (SetsFp c s 2 rd { val := (k.gr rs).setWidth 32 })) ∧
    (∀ (rd rs : Fin 16), Executable c 2 s → bit k.psw pswFpa = true → 
      Completes (.kMovfg c rd rs 0) s (SetsReg c s 2 rd ((k.fr rs).setWidth 36) {})) ∧
    (∀ (o : Alu2) (x y : F32), Executable c (Alu2.len o) s → bit k.psw pswFpa = true → x = f32In (fpMode k.fpsr) (fpA k o) → y = f32In (fpMode k.fpsr) (fpB k o) → f32Nan x = false → f32Nan y = false → f32Eq x y = true → 
      Completes (.kFcmp c o) s fun t => Shows c s t k.gr k.acc k.fr (fpsrAdd k.fpsr (if f32Snan x ∨ f32Snan y then 16 else 0)).1 (pswAfter k { n := some false, z := some true, c := some true, v := some false }) (ipAfter k (Alu2.len o))) ∧
    (∀ (o : Alu2) (x y : F32), Executable c (Alu2.len o) s → bit k.psw pswFpa = true → x = f32In (fpMode k.fpsr) (fpA k o) → y = f32In (fpMode k.fpsr) (fpB k o) → f32Nan x = false → f32Nan y = false → f32Eq x y = false → f32Lt x y = true → 
      Completes (.kFcmp c o) s fun t => Shows c s t k.gr k.acc k.fr (fpsrAdd k.fpsr (if f32Snan x ∨ f32Snan y then 16 else 0)).1 (pswAfter k { n := some true, z := some false, c := some false, v := some false }) (ipAfter k (Alu2.len o))) ∧
    (∀ (o : Alu2) (x y : F32), Executable c (Alu2.len o) s → bit k.psw pswFpa = true → x = f32In (fpMode k.fpsr) (fpA k o) → y = f32In (fpMode k.fpsr) (fpB k o) → f32Nan x = false → f32Nan y = false → f32Eq x y = false → f32Lt x y = false → 
      Completes (.kFcmp c o) s fun t => Shows c s t k.gr k.acc k.fr (fpsrAdd k.fpsr (if f32Snan x ∨ f32Snan y then 16 else 0)).1 (pswAfter k { n := some false, z := some false, c := some true, v := some false }) (ipAfter k (Alu2.len o))) ∧
    (∀ (o : Alu2) (x y : F32), Executable c (Alu2.len o) s → bit k.psw pswFpa = true → x = f32In (fpMode k.fpsr) (fpA k o) → y = f32In (fpMode k.fpsr) (fpB k o) → f32Nan x = true ∨ f32Nan y = true → 
      Completes (.kFcmp c o) s fun t => Shows c s t k.gr k.acc k.fr (fpsrAdd k.fpsr (if f32Snan x ∨ f32Snan y then 16 else 0)).1 (pswAfter k { n := some false, z := some false, c := some false, v := some true }) (ipAfter k (Alu2.len o)))

/-- R243, R244, R268: the value and the flags of the FP functions are those of IEEE 754-2019: the exact sum, difference,
product, quotient, root or fused sum rounded once by RM; zeros, infinities and NaNs as the standard has them. Where R244 is
silent the clauses follow the model's reading: which of two NaNs (log 11), tininess and FTZ (log 80), FMIN and FMAX as the
standard's minimum and maximum, a fused 0 × ∞ (log 200), no NX of a conversion to an integer (log 26). -/
def Obligations.Binary32 : Prop :=
  ∀ (fm : FMode) (a b c : F32), fm.rm < 4 →
    let x := f32In fm a
    let y := f32In fm b
    let z := f32In fm c
    let ux := f32Units x
    let uy := f32Units y
    let uz := f32Units z
    let opposite := f32Sign x != f32Sign y
    let p := ux * uy + uz * 2 ^ 149
    (f32Finite x = true → f32Finite y = true →
      (ux + uy ≠ 0 → Ieee32 fm (decide (ux + uy < 0)) (quotientOrd (ux + uy).natAbs 1) (fAdd fm a b)) ∧
      (ux + uy = 0 → fAdd fm a b = { val := f32ZeroOf (if opposite then fm.rm == 3 else f32Sign x) }) ∧
      (ux - uy ≠ 0 → Ieee32 fm (decide (ux - uy < 0)) (quotientOrd (ux - uy).natAbs 1) (fSub fm a b)) ∧
      (ux - uy = 0 → fSub fm a b = { val := f32ZeroOf (if opposite then f32Sign x else fm.rm == 3) }) ∧
      (ux * uy ≠ 0 → Ieee32 fm opposite (quotientOrd (ux * uy).natAbs (2 ^ 149)) (fMul fm a b)) ∧
      (ux * uy = 0 → fMul fm a b = { val := f32ZeroOf opposite }) ∧
      (ux ≠ 0 → uy ≠ 0 → Ieee32 fm opposite (quotientOrd (ux.natAbs * 2 ^ 149) uy.natAbs) (fDiv fm a b)) ∧
      (ux = 0 → uy ≠ 0 → fDiv fm a b = { val := f32ZeroOf opposite }) ∧
      (ux ≠ 0 → uy = 0 → fDiv fm a b = { val := f32Infinity opposite, dz := true }) ∧
      (ux = 0 → uy = 0 → fDiv fm a b = f32Invalid)) ∧
    (f32Finite x = true →
      (0 < ux → Ieee32 fm false (rootOrd (ux.natAbs * 2 ^ 149)) (fSqrt fm a)) ∧
      (ux = 0 → fSqrt fm a = { val := x }) ∧ (ux < 0 → fSqrt fm a = f32Invalid)) ∧
    (f32Finite x = true → f32Finite y = true → f32Finite z = true →
      (p ≠ 0 → Ieee32 fm (decide (p < 0)) (quotientOrd p.natAbs (2 ^ 149)) (fFma fm c a b)) ∧
      (p = 0 → fFma fm c a b =
        { val := f32ZeroOf (if ux * uy = 0 ∧ opposite = f32Sign z then f32Sign z else fm.rm == 3) })) ∧
    (f32Inf x = true → f32Nan y = false →
      fAdd fm a b = (if f32Inf y && opposite then f32Invalid else { val := x }) ∧
      fSub fm a b = (if f32Inf y && !opposite then f32Invalid else { val := x }) ∧
      fMul fm a b = (if f32Zero y then f32Invalid else { val := f32Infinity opposite }) ∧
      fDiv fm a b = (if f32Inf y then f32Invalid else { val := f32Infinity opposite }) ∧
      fSqrt fm a = (if f32Sign x then f32Invalid else { val := x })) ∧
    (f32Finite x = true → f32Inf y = true →
      fAdd fm a b = { val := y } ∧ fSub fm a b = { val := f32Infinity (!f32Sign y) } ∧
      fMul fm a b = (if f32Zero x then f32Invalid else { val := f32Infinity opposite }) ∧
      fDiv fm a b = { val := f32ZeroOf opposite }) ∧
    (f32Nan x = true ∨ f32Nan y = true →
      NanOf x y (fAdd fm a b) ∧ NanOf x y (fSub fm a b) ∧ NanOf x y (fMul fm a b) ∧ NanOf x y (fDiv fm a b) ∧
      NanOf x y (fMin fm a b) ∧ NanOf x y (fMax fm a b)) ∧
    (f32Nan x = true → NanOf x x (fSqrt fm a) ∧ fToWord fm a 0 = (0, true) ∧ fToWord fm a 31 = (0, true)) ∧
    (f32Nan x = false → f32Nan y = false → f32Nan z = true → (f32Inf x && f32Zero y || f32Zero x && f32Inf y) = false →
      NanOf z z (fFma fm c a b)) ∧
    (f32Nan x = false → f32Nan y = false → (f32Inf x && f32Zero y || f32Zero x && f32Inf y) = true →
      (f32Nan z = false → fFma fm c a b = f32Invalid) ∧ (f32Nan z = true → (fFma fm c a b).val = f32Quiet z)) ∧
    (f32Nan x = false → f32Nan y = false → f32Nan z = false →
      (f32Inf x || f32Inf y) = true → (f32Zero x || f32Zero y) = false →
      fFma fm c a b = (if f32Inf z && f32Sign z != opposite then f32Invalid else { val := f32Infinity opposite })) ∧
    (f32Finite x = true → f32Finite y = true → f32Inf z = true → fFma fm c a b = { val := z }) ∧
    (f32Nan x = false → f32Nan y = false →
      (fMin fm a b = { val := x } ∨ fMin fm a b = { val := y }) ∧ (fMax fm a b = { val := x } ∨ fMax fm a b = { val := y }) ∧
      f32Units (fMin fm a b).val = min ux uy ∧ f32Units (fMax fm a b).val = max ux uy ∧
      (ux = 0 → uy = 0 → f32Sign (fMin fm a b).val = (f32Sign x || f32Sign y) ∧
        f32Sign (fMax fm a b).val = (f32Sign x && f32Sign y))) ∧
    (∀ (w : Word) (k : Nat), k ≤ 31 → w ≠ 0 →
      Ieee32 fm (decide (w.toInt < 0)) (quotientOrd (w.toInt.natAbs * 2 ^ (149 - k)) 1) (fOfInt fm w.toInt (-k))) ∧
    (∀ k : Nat, fOfInt fm 0 (-k) = { val := 0 }) ∧
    (∀ (k : Nat) (n : Int), k ≤ 31 → f32Finite x = true → RoundsTo fm.rm (ux * 2 ^ k) 149 n →
      fToWord fm a k = (BitVec.ofInt 36 (max (-(2 ^ 35)) (min (2 ^ 35 - 1) n)), decide (n < -(2 ^ 35) ∨ 2 ^ 35 ≤ n))) ∧
    (∀ k : Nat, f32Inf x = true →
      fToWord fm a k = (BitVec.ofInt 36 (if f32Sign x then -(2 ^ 35) else 2 ^ 35 - 1), true))

/-- R270, R279, R303: branches under the sixteen conditions, jumps, calls and returns go to the address the rules give, CALL links in G15; NOP, DRAIN, SYNC, FLUSHI, YIELD and WAITEV act as R279 and R290 say; TRAP raises vector 13; RETX restores the saved PC and PSW. A register target above 29 bits is a fetch fault (log entry in NOTES). -/
def Obligations.ControlFlow : Prop :=
  ∀ (c : Fin 8) (s : State), Calm s →
    let d := s.dev
    let k := coreOfDev d c
    (∀ (cc : Fin 16) (o : Disp), Executable c (dispLen o) s → 
      Completes (.kBr c cc o) s (GoesTo c s (if ([k.psw.getLsbD 2, !k.psw.getLsbD 2, k.psw.getLsbD 1, !k.psw.getLsbD 1, k.psw.getLsbD 3, !k.psw.getLsbD 3, k.psw.getLsbD 0, !k.psw.getLsbD 0, k.psw.getLsbD 1 && !k.psw.getLsbD 2, !k.psw.getLsbD 1 || k.psw.getLsbD 2, k.psw.getLsbD 3 == k.psw.getLsbD 0, k.psw.getLsbD 3 != k.psw.getLsbD 0, !k.psw.getLsbD 2 && k.psw.getLsbD 3 == k.psw.getLsbD 0, k.psw.getLsbD 2 || k.psw.getLsbD 3 != k.psw.getLsbD 0, true, k.psw.getLsbD 4].getD cc false) then (((k.ip : Int) + dispVal o) % 2 ^ 29).toNat else ipAfter k (dispLen o)))) ∧
    (∀ (o : BitVec 29), Executable c 2 s → 
      Completes (.kJmp c (.disp o)) s (GoesTo c s (((k.ip : Int) + o.toInt) % 2 ^ 29).toNat)) ∧
    (∀ (o : BitVec 29), Executable c 2 s → 
      Completes (.kCall c (.disp o)) s (fun t => Shows c s t (put k.gr 15 (BitVec.ofNat 36 (ipAfter k 2))) k.acc k.fr k.fpsr (pswAfter k {}) ((((k.ip : Int) + o.toInt) % 2 ^ 29).toNat))) ∧
    (∀ (rs : Fin 16), Executable c 1 s → (k.gr rs).toNat < 2 ^ 29 → 
      Completes (.kJmp c (.reg 0 rs)) s (GoesTo c s (k.gr rs).toNat)) ∧
    (∀ (rs : Fin 16), Executable c 1 s → (k.gr rs).toNat < 2 ^ 29 → rs.val ≠ 15 → 
      Completes (.kCall c (.reg 0 rs)) s (fun t => Shows c s t (put k.gr 15 (BitVec.ofNat 36 (ipAfter k 1))) k.acc k.fr k.fpsr (pswAfter k {}) ((k.gr rs).toNat))) ∧
    (∀ (rs : Fin 16), Executable c 1 s → 2 ^ 29 ≤ (k.gr rs).toNat → k.stepping = false → 
      Completes (.kJmp c (.reg 0 rs)) s fun t => (∀ r, (coreOfDev t.dev c).gr r = k.gr r) ∧ (coreOfDev t.dev c).excs.map (fun e => (e.vec, e.sub)) = k.excs.map (fun e => (e.vec, e.sub)) ++ [(6, 1)] ∧ t.mem = s.mem) ∧
    (Executable c 1 s → (k.gr 15).toNat < 2 ^ 29 → 
      Completes (.kRet c 0) s (GoesTo c s (k.gr 15).toNat)) ∧
    (Executable c 1 s → 
      Completes (.kNop c 0) s (GoesTo c s (ipAfter k 1))) ∧
    (∀ (n : BitVec 8), Executable c 1 s → k.stepping = false → 
      Completes (.kTrap c n) s fun t => GoesTo c s (ipAfter k 1) t ∧ (coreOfDev t.dev c).excs.map (fun e => (e.vec, e.trapn, e.ip)) = k.excs.map (fun e => (e.vec, e.trapn, e.ip)) ++ [(13, n.toNat, some (ipAfter k 1))]) ∧
    (Executable c 1 s → pendingStores k = [] → 
      Completes (.kDrain c 0) s (GoesTo c s (ipAfter k 1))) ∧
    (Executable c 1 s → pendingStores k = [] → arithPending k = false → 
      Completes (.kSync c 0) s (GoesTo c s (ipAfter k 1))) ∧
    (Executable c 1 s → pendingStores k ≠ [] → 
      Completes (.kDrain c 0) s fun t => (coreOfDev t.dev c).ip = k.ip ∧ (coreOfDev t.dev c).excs = k.excs ∧ t.mem = s.mem) ∧
    (Executable c 1 s → pendingStores k = [] → 
      Completes (.kFlushi c 0) s fun t => GoesTo c s (ipAfter k 1) t ∧ (coreOfDev t.dev c).fbuf = []) ∧
    (Executable c 1 s → k.depth = 0 → k.ready = [] → slotEn d c k.run = true → 
      Completes (.kYield c 0) s fun t => GoesTo c s (ipAfter k 1) t ∧ (coreOfDev t.dev c).run = k.run ∧ (coreOfDev t.dev c).ready = k.ready) ∧
    (Executable c 1 s → k.depth = 0 → k.run ∈ k.pend → 
      Completes (.kWaitev c 0) s fun t => GoesTo c s (ipAfter k 1) t ∧ (coreOfDev t.dev c).pend = k.pend.erase k.run ∧ (coreOfDev t.dev c).waiting = k.waiting) ∧
    (Executable c 1 s → k.depth = 0 → k.run ∉ k.pend → k.ready = [] → 
      Completes (.kWaitev c 0) s fun t => (coreOfDev t.dev c).waiting = true ∧ (coreOfDev t.dev c).run = k.run ∧ (coreOfDev t.dev c).ip = ipAfter k 1 ∧ t.mem = s.mem) ∧
    (Executable c 1 s → 1 ≤ k.depth → k.stepping = false → 
      Completes (.kYield c 0) s fun t => (coreOfDev t.dev c).excs.map (fun e => (e.vec, e.sub)) = k.excs.map (fun e => (e.vec, e.sub)) ++ [(5, 6)] ∧ (coreOfDev t.dev c).ip = k.ip ∧ t.mem = s.mem) ∧
    (Executable c 1 s → k.sup = true → 1 ≤ k.depth → compatOf d = true → (bit (tabGet 0 k.savePsw (k.depth - 1)) pswMode = true → (tabGet (false, 0) k.latch (k.depth - 1)).1 = true) → 
      Completes (.kRetx c 0) s fun t => (coreOfDev t.dev c).depth = k.depth - 1 ∧ (coreOfDev t.dev c).ip = fld (tabGet 0 k.saveIp (k.depth - 1)) 28 0 ∧ (coreOfDev t.dev c).rp = (tabGet (false, 0) k.latch (k.depth - 1)).2 ∧ (∀ r, (coreOfDev t.dev c).gr r = k.gr r) ∧ t.mem = s.mem ∧ (coreOfDev t.dev c).sup = bit (tabGet 0 k.savePsw (k.depth - 1)) pswMode ∧ (coreOfDev t.dev c).fpOwn = k.fpOwn) ∧
    (Executable c 1 s → k.sup = true → k.depth = 0 → k.stepping = false → 
      Completes (.kRetx c 0) s fun t => (coreOfDev t.dev c).excs.map (fun e => (e.vec, e.sub)) = k.excs.map (fun e => (e.vec, e.sub)) ++ [(5, 5)] ∧ (coreOfDev t.dev c).ip = k.ip ∧ t.mem = s.mem) ∧
    (Executable c 1 s → k.sup = false → k.stepping = false → 
      Completes (.kRetx c 0) s fun t => (coreOfDev t.dev c).excs.map (fun e => (e.vec, e.sub)) = k.excs.map (fun e => (e.vec, e.sub)) ++ [(1, 1)] ∧ (coreOfDev t.dev c).ip = k.ip ∧ t.mem = s.mem)

/-- R241 to R243, R296, R311: MOVC reads and writes the control registers of its mode; the others raise vector 1 or an illegal instruction. A supervisor write of PSW takes MODE, PRECISE, RESUME, SAT, RND, SS and the flags (log entry in NOTES: R249 names no MOVC). -/
def Obligations.ControlRegisters : Prop :=
  ∀ (c : Fin 8) (s : State), Calm s →
    let d := s.dev
    let k := coreOfDev d c
    (∀ (rd : Fin 16) (cn : Fin 64), Executable c 1 s → cn.val < 4 → 
      Completes (.kMovcFrom c rd cn) s (SetsReg c s 1 rd ([viewPsw d k.psw, BitVec.ofNat 36 k.ip, k.tsbp, k.slim].getD cn 0) {})) ∧
    (∀ (rd : Fin 16), Executable c 1 s → bit k.psw pswFpa = true → 
      Completes (.kMovcFrom c rd 4) s (SetsReg c s 1 rd k.fpsr {})) ∧
    (∀ (rd : Fin 16) (cn : Fin 64), Executable c 1 s → k.sup = true → 5 ≤ cn.val → cn.val < 16 → 
      Completes (.kMovcFrom c rd cn) s (SetsReg c s 1 rd (if cn = 5 then k.cause else if cn = 6 then k.arithSrc else if cn = 7 then k.faddr else if cn < 12 then tabGet 0 k.saveIp (cn.val - 8) else tabGet 0 k.savePsw (cn.val - 12)) {})) ∧
    (∀ (rd : Fin 16) (cn : Fin 64), Executable c 1 s → 16 ≤ cn.val → cn.val < 32 → 
      Completes (.kMovcFrom c rd cn) s (SetsReg c s 1 rd (tabGet 0 k.maskset (cn.val - 16)) {})) ∧
    (∀ (rd : Fin 16) (cn : Fin 64), Executable c 1 s → 32 ≤ cn.val → k.stepping = false → 
      Completes (.kMovcFrom c rd cn) s fun t => (coreOfDev t.dev c).excs.map (fun e => (e.vec, e.sub)) = k.excs.map (fun e => (e.vec, e.sub)) ++ [(5, 4)] ∧ (coreOfDev t.dev c).ip = k.ip ∧ (∀ r, (coreOfDev t.dev c).gr r = k.gr r)) ∧
    (∀ (rd : Fin 16) (cn : Fin 64), Executable c 1 s → k.sup = false → 5 ≤ cn.val → cn.val < 16 → k.stepping = false → 
      Completes (.kMovcFrom c rd cn) s fun t => (coreOfDev t.dev c).excs.map (fun e => (e.vec, e.sub)) = k.excs.map (fun e => (e.vec, e.sub)) ++ [(1, 1)] ∧ (coreOfDev t.dev c).ip = k.ip ∧ (∀ r, (coreOfDev t.dev c).gr r = k.gr r)) ∧
    (∀ (rd : Fin 16), Executable c 1 s → k.sup = true → arithPending k = false → 
      Completes (.kMovcTo c rd 0) s fun t => fld (coreOfDev t.dev c).psw 4 0 = fld (k.gr rd) 4 0 ∧ fld (coreOfDev t.dev c).psw 25 24 = fld (k.gr rd) 25 24 ∧ fld (coreOfDev t.dev c).psw 27 26 = min (fld (k.gr rd) 27 26) 2 ∧ fld (coreOfDev t.dev c).psw 35 34 = fld (k.gr rd) 35 34 ∧ bit (coreOfDev t.dev c).psw pswFpa = bit k.psw pswFpa ∧ (∀ r, (coreOfDev t.dev c).gr r = k.gr r) ∧ (coreOfDev t.dev c).ip = ipAfter k 1 ∧ t.mem = s.mem) ∧
    (∀ (rd : Fin 16), Executable c 1 s → k.sup = false → arithPending k = false → 
      Completes (.kMovcTo c rd 0) s fun t => fld (coreOfDev t.dev c).psw 4 0 = fld (k.gr rd) 4 0 ∧ fld (coreOfDev t.dev c).psw 25 24 = fld (k.gr rd) 25 24 ∧ fld (coreOfDev t.dev c).psw 27 26 = min (fld (k.gr rd) 27 26) 2 ∧ (coreOfDev t.dev c).sup = false ∧ bit (coreOfDev t.dev c).psw pswPrecise = bit k.psw pswPrecise ∧ (∀ r, (coreOfDev t.dev c).gr r = k.gr r) ∧ (coreOfDev t.dev c).ip = ipAfter k 1 ∧ t.mem = s.mem) ∧
    (∀ (rd : Fin 16), Executable c 1 s → k.sup = true → 0x110000 ≤ (k.gr rd).toNat → (k.gr rd).toNat < 0x118000 → (k.gr rd).toNat % 64 = 0 → 
      Completes (.kMovcTo c rd 2) s fun t => (coreOfDev t.dev c).tsbp = k.gr rd ∧ (∀ r, (coreOfDev t.dev c).gr r = k.gr r) ∧ (coreOfDev t.dev c).ip = ipAfter k 1 ∧ t.mem = s.mem) ∧
    (∀ (rd : Fin 16), Executable c 1 s → k.sup = true → 
      Completes (.kMovcTo c rd 3) s fun t => (coreOfDev t.dev c).slim = k.gr rd ∧ (∀ r, (coreOfDev t.dev c).gr r = k.gr r) ∧ (coreOfDev t.dev c).ip = ipAfter k 1 ∧ t.mem = s.mem) ∧
    (∀ (rd : Fin 16), Executable c 1 s → bit k.psw pswFpa = true → arithPending k = false → 
      Completes (.kMovcTo c rd 4) s fun t => (coreOfDev t.dev c).fpsr = k.gr rd &&& 0x1F1F7 ∧ (∀ r, (coreOfDev t.dev c).gr r = k.gr r) ∧ (coreOfDev t.dev c).ip = ipAfter k 1 ∧ t.mem = s.mem) ∧
    (∀ (rd : Fin 16) (cn : Fin 64), Executable c 1 s → k.sup = true → 8 ≤ cn.val → cn.val < 12 → 
      Completes (.kMovcTo c rd cn) s fun t => tabGet 0 (coreOfDev t.dev c).saveIp (cn.val - 8) = k.gr rd &&& maskOf 28 0 ∧ (∀ r, (coreOfDev t.dev c).gr r = k.gr r) ∧ (coreOfDev t.dev c).ip = ipAfter k 1 ∧ t.mem = s.mem) ∧
    (∀ (rd : Fin 16) (cn : Fin 64), Executable c 1 s → k.sup = true → 12 ≤ cn.val → cn.val < 16 → 
      Completes (.kMovcTo c rd cn) s fun t => tabGet 0 (coreOfDev t.dev c).savePsw (cn.val - 12) = k.gr rd ∧ (∀ r, (coreOfDev t.dev c).gr r = k.gr r) ∧ (coreOfDev t.dev c).ip = ipAfter k 1 ∧ t.mem = s.mem) ∧
    (∀ (rd : Fin 16) (cn : Fin 64), Executable c 1 s → k.sup = true → 16 ≤ cn.val → cn.val < 32 → 
      Completes (.kMovcTo c rd cn) s fun t => tabGet 0 (coreOfDev t.dev c).maskset (cn.val - 16) = k.gr rd &&& maskOf 15 0 ∧ (∀ r, (coreOfDev t.dev c).gr r = k.gr r) ∧ (coreOfDev t.dev c).ip = ipAfter k 1 ∧ t.mem = s.mem) ∧
    (∀ (rd : Fin 16) (cn : Fin 64), Executable c 1 s → k.sup = false → cn.val = 2 ∨ cn.val = 3 ∨ (5 ≤ cn.val ∧ cn.val < 32) → k.stepping = false → 
      Completes (.kMovcTo c rd cn) s fun t => (coreOfDev t.dev c).excs.map (fun e => (e.vec, e.sub)) = k.excs.map (fun e => (e.vec, e.sub)) ++ [(1, 2)] ∧ (coreOfDev t.dev c).ip = k.ip ∧ (coreOfDev t.dev c).tsbp = k.tsbp ∧ (coreOfDev t.dev c).slim = k.slim ∧ (coreOfDev t.dev c).maskset = k.maskset ∧ (coreOfDev t.dev c).saveIp = k.saveIp ∧ (coreOfDev t.dev c).savePsw = k.savePsw) ∧
    (∀ (rd : Fin 16) (cn : Fin 64), Executable c 1 s → cn.val = 1 ∨ 32 ≤ cn.val → k.stepping = false → 
      Completes (.kMovcTo c rd cn) s fun t => (coreOfDev t.dev c).excs.map (fun e => (e.vec, e.sub)) = k.excs.map (fun e => (e.vec, e.sub)) ++ [(5, 4)] ∧ (coreOfDev t.dev c).ip = k.ip ∧ t.mem = s.mem)

/-- R245, R251 to R253, R255, R264, R265, R271: a load whose word is there writes its register (a half zero-extended, sign-extended or as a fraction, a double its even pair), POP also raises SP; a split double across regions, an odd pair, an address above 2^28 and the boot ROM or Colophon space in user mode raise their vector and leave the registers. -/
def Obligations.MemoryLoads : Prop :=
  ∀ (c : Fin 8) (s : State), Calm s →
    let d := s.dev
    let k := coreOfDev d c
    (∀ (rd rs fn : Fin 16) (w : Word), Executable c 1 s → Loads c (((k.gr rs).toNat + fn.val) % 2 ^ 36) w s → 
      Completes (.kLdw c (.short rd rs fn) .good) s (SetsReg c s 1 rd (w) {})) ∧
    (∀ (rd rs : Fin 16) (imm : BitVec 21) (w : Word), Executable c 2 s → Loads c ((k.gr rs + imm.signExtend 36).toNat) w s → 
      Completes (.kLdw c (.long rd rs imm) .good) s (SetsReg c s 2 rd (w) {})) ∧
    (∀ (rd : Fin 16) (imm : BitVec 8) (w : Word), Executable c 1 s → Loads c (((k.gr 14).toNat + imm.toNat) % 2 ^ 36) w s → 
      Completes (.kLdwsp c rd imm) s (SetsReg c s 1 rd (w) {})) ∧
    (∀ (rd rs : Fin 16) (imm : BitVec 21) (w : Word) (h : Half), Executable c 2 s → Loads c ((k.gr rs + imm.signExtend 36).toNat / 2) w s → h = (if (k.gr rs + imm.signExtend 36).toNat % 2 = 0 then w.extractLsb' 18 18 else w.extractLsb' 0 18) → 
      Completes (.kLdh c rd rs imm) s (SetsReg c s 2 rd (h.setWidth 36) {})) ∧
    (∀ (rd rs : Fin 16) (imm : BitVec 21) (w : Word) (h : Half), Executable c 2 s → Loads c ((k.gr rs + imm.signExtend 36).toNat / 2) w s → h = (if (k.gr rs + imm.signExtend 36).toNat % 2 = 0 then w.extractLsb' 18 18 else w.extractLsb' 0 18) → 
      Completes (.kLdhs c rd rs imm) s (SetsReg c s 2 rd (h.signExtend 36) {})) ∧
    (∀ (rd rs : Fin 16) (imm : BitVec 21) (w : Word) (h : Half), Executable c 2 s → Loads c ((k.gr rs + imm.signExtend 36).toNat / 2) w s → h = (if (k.gr rs + imm.signExtend 36).toNat % 2 = 0 then w.extractLsb' 18 18 else w.extractLsb' 0 18) → 
      Completes (.kLdhf c rd rs imm) s (SetsReg c s 2 rd (BitVec.ofInt 36 (h.toInt * 2 ^ 14)) {})) ∧
    (∀ (rd rs : Fin 16) (imm : BitVec 21) (w v : Word), Executable c 2 s → Loads c (k.gr rs + imm.signExtend 36).toNat w s → Loads c ((k.gr rs + imm.signExtend 36).toNat + 1) v s → rd.val % 2 = 0 → (k.gr rs + imm.signExtend 36).toNat % 2 = 0 → 
      Completes (.kLdd c rd rs imm) s fun t => Shows c s t (put (put k.gr rd w) (rd.val + 1) v) k.acc k.fr k.fpsr (pswAfter k {}) (ipAfter k 2)) ∧
    (∀ (rd rs : Fin 16) (imm : BitVec 21) (w v : Word), Executable c 2 s → Loads c (k.gr rs + imm.signExtend 36).toNat w s → Loads c ((k.gr rs + imm.signExtend 36).toNat + 1) v s → rd.val % 2 = 0 → (k.gr rs + imm.signExtend 36).toNat % 2 = 1 → splitBad c (k.gr rs + imm.signExtend 36).toNat = none → 
      Completes (.kLdd c rd rs imm) s fun t => Shows c s t (put (put k.gr rd w) (rd.val + 1) v) k.acc k.fr k.fpsr (pswAfter k {}) (ipAfter k 2) ∧ gf t.dev (CORE_STALL.SPLIT c) = min (gf d (CORE_STALL.SPLIT c) + 1) (2 ^ 18 - 1)) ∧
    (∀ (rd rs : Fin 16) (imm : BitVec 21) (b : Nat), Executable c 2 s → rd.val % 2 = 0 → (k.gr rs + imm.signExtend 36).toNat % 2 = 1 → splitBad c (k.gr rs + imm.signExtend 36).toNat = some b → k.stepping = false → 
      Completes (.kLdd c rd rs imm) s fun t => (coreOfDev t.dev c).excs.map (fun e => (e.vec, e.sub)) = k.excs.map (fun e => (e.vec, e.sub)) ++ [(10, b)] ∧ (coreOfDev t.dev c).ip = k.ip ∧ (∀ r, (coreOfDev t.dev c).gr r = k.gr r) ∧ t.mem = s.mem) ∧
    (∀ (rd rs : Fin 16) (imm : BitVec 21), Executable c 2 s → rd.val % 2 = 1 → k.stepping = false → 
      Completes (.kLdd c rd rs imm) s fun t => (coreOfDev t.dev c).excs.map (fun e => (e.vec, e.sub)) = k.excs.map (fun e => (e.vec, e.sub)) ++ [(5, 3)] ∧ (coreOfDev t.dev c).ip = k.ip ∧ (∀ r, (coreOfDev t.dev c).gr r = k.gr r) ∧ t.mem = s.mem) ∧
    (∀ (rd rs : Fin 16) (imm : BitVec 21) (w : Word), Executable c 2 s → Loads c ((k.gr rs + imm.signExtend 36).toNat) w s → bit k.psw pswFpa = true → 
      Completes (.kFld c rd rs imm) s (SetsFp c s 2 rd { val := w.setWidth 32 })) ∧
    (∀ (rd : Fin 16) (w : Word), Executable c 1 s → Loads c ((k.gr 14).toNat) w s → 
      Completes (.kPop c rd 0) s fun t => Shows c s t (put (put k.gr rd w) 14 (put k.gr rd w 14 + 1)) k.acc k.fr k.fpsr (pswAfter k {}) (ipAfter k 1)) ∧
    (∀ (rd : Fin 16) (w : Word), Executable c 1 s → Loads c ((k.gr 14).toNat) w s → bit k.psw pswFpa = true → 
      Completes (.kPopf c rd 0) s fun t => Shows c s t (put k.gr 14 (k.gr 14 + 1)) k.acc (put k.fr rd (w.setWidth 32)) k.fpsr (pswAfter k {}) (ipAfter k 1)) ∧
    (∀ (rd rs : Fin 16) (imm : BitVec 21), Executable c 2 s → 2 ^ 28 ≤ (k.gr rs + imm.signExtend 36).toNat → k.stepping = false → 
      Completes (.kLdw c (.long rd rs imm) .good) s fun t => (coreOfDev t.dev c).excs.map (fun e => (e.vec, e.sub)) = k.excs.map (fun e => (e.vec, e.sub)) ++ [(7, 5)] ∧ (coreOfDev t.dev c).excs.getLast?.map (·.faddr) = some (some (k.gr rs + imm.signExtend 36)) ∧ (coreOfDev t.dev c).ip = k.ip ∧ (∀ r, (coreOfDev t.dev c).gr r = k.gr r) ∧ t.mem = s.mem) ∧
    (∀ (rd rs : Fin 16) (imm : BitVec 21), Executable c 2 s → (k.gr rs + imm.signExtend 36).toNat < 2 ^ 28 → k.sup = false → regionOf (some c.val) (k.gr rs + imm.signExtend 36).toNat = .colophon ∨ regionOf (some c.val) (k.gr rs + imm.signExtend 36).toNat = .rom → k.stepping = false → 
      Completes (.kLdw c (.long rd rs imm) .good) s fun t => (coreOfDev t.dev c).excs.map (fun e => (e.vec, e.sub)) = k.excs.map (fun e => (e.vec, e.sub)) ++ [(7, 1)] ∧ (coreOfDev t.dev c).ip = k.ip ∧ (∀ r, (coreOfDev t.dev c).gr r = k.gr r) ∧ t.mem = s.mem)

/-- R245 to R247, R250, R252 to R254, R271, R313: a store posts one buffer entry (a split double two, the lower address first), STHF rounds and saturates its half, PUSH lowers SP first; below the stack limit, into a folio in user mode or across regions the vector is raised and nothing is stored. The address posted is the instruction’s own. -/
def Obligations.MemoryStores : Prop :=
  ∀ (c : Fin 8) (s : State), Calm s →
    let d := s.dev
    let k := coreOfDev d c
    (∀ (rd rs fn : Fin 16), Executable c 1 s → k.wbuf.length < 4 → k.sup = true ∨ regionOf (some c.val) (((k.gr rs).toNat + fn.val) % 2 ^ 36) ≠ .folio → 
      Completes (.kStw c (.short rd rs fn)) s fun t => Shows c s t k.gr k.acc k.fr k.fpsr (pswAfter k {}) (ipAfter k 1) ∧ (coreOfDev t.dev c).wbuf = k.wbuf ++ [storeEntry k (((k.gr rs).toNat + fn.val) % 2 ^ 36) (allBits) (k.gr rd) none false false] ∧ (coreOfDev t.dev c).issued = k.issued) ∧
    (∀ (rd rs : Fin 16) (imm : BitVec 21), Executable c 2 s → k.wbuf.length < 4 → k.sup = true ∨ regionOf (some c.val) ((k.gr rs + imm.signExtend 36).toNat) ≠ .folio → 
      Completes (.kStw c (.long rd rs imm)) s fun t => Shows c s t k.gr k.acc k.fr k.fpsr (pswAfter k {}) (ipAfter k 2) ∧ (coreOfDev t.dev c).wbuf = k.wbuf ++ [storeEntry k ((k.gr rs + imm.signExtend 36).toNat) (allBits) (k.gr rd) none false false] ∧ (coreOfDev t.dev c).issued = k.issued) ∧
    (∀ (rd : Fin 16) (imm : BitVec 8), Executable c 1 s → k.wbuf.length < 4 → k.sup = true ∨ regionOf (some c.val) (((k.gr 14).toNat + imm.toNat) % 2 ^ 36) ≠ .folio → 
      Completes (.kStwsp c rd imm) s fun t => Shows c s t k.gr k.acc k.fr k.fpsr (pswAfter k {}) (ipAfter k 1) ∧ (coreOfDev t.dev c).wbuf = k.wbuf ++ [storeEntry k (((k.gr 14).toNat + imm.toNat) % 2 ^ 36) (allBits) (k.gr rd) none false false] ∧ (coreOfDev t.dev c).issued = k.issued) ∧
    (∀ (rd rs : Fin 16) (imm : BitVec 21), Executable c 2 s → k.wbuf.length < 4 → k.sup = true ∨ regionOf (some c.val) ((k.gr rs + imm.signExtend 36).toNat / 2) ≠ .folio → (k.gr rs + imm.signExtend 36).toNat % 2 = 0 → 
      Completes (.kSth c rd rs imm) s fun t => Shows c s t k.gr k.acc k.fr k.fpsr (pswAfter k {}) (ipAfter k 2) ∧ (coreOfDev t.dev c).wbuf = k.wbuf ++ [storeEntry k ((k.gr rs + imm.signExtend 36).toNat / 2) (0xFFFFC0000) (((k.gr rd).extractLsb' 0 18).setWidth 36 <<< 18) none false false] ∧ (coreOfDev t.dev c).issued = k.issued) ∧
    (∀ (rd rs : Fin 16) (imm : BitVec 21), Executable c 2 s → k.wbuf.length < 4 → k.sup = true ∨ regionOf (some c.val) ((k.gr rs + imm.signExtend 36).toNat / 2) ≠ .folio → (k.gr rs + imm.signExtend 36).toNat % 2 = 1 → 
      Completes (.kSth c rd rs imm) s fun t => Shows c s t k.gr k.acc k.fr k.fpsr (pswAfter k {}) (ipAfter k 2) ∧ (coreOfDev t.dev c).wbuf = k.wbuf ++ [storeEntry k ((k.gr rs + imm.signExtend 36).toNat / 2) (0x3FFFF) (((k.gr rd).extractLsb' 0 18).setWidth 36) none false false] ∧ (coreOfDev t.dev c).issued = k.issued) ∧
    (∀ (rd rs : Fin 16) (imm : BitVec 21) (y : Int) (h : Half) (o : Bool), Executable c 2 s → k.wbuf.length < 4 → k.sup = true ∨ regionOf (some c.val) ((k.gr rs + imm.signExtend 36).toNat / 2) ≠ .folio → Rounds k.rnd (k.gr rd).toInt 14 y → h = BitVec.ofInt 18 (max (-(2 ^ 17)) (min (2 ^ 17 - 1) y)) → o = decide (y < -(2 ^ 17) ∨ 2 ^ 17 ≤ y) → 
      Completes (.kSthf c rd rs imm) s fun t => Shows c s t k.gr k.acc k.fr k.fpsr (pswAfter k { v := some o, ss := o }) (ipAfter k 2) ∧ (coreOfDev t.dev c).wbuf = k.wbuf ++ [storeEntry k ((k.gr rs + imm.signExtend 36).toNat / 2) (if (k.gr rs + imm.signExtend 36).toNat % 2 = 0 then 0xFFFFC0000 else 0x3FFFF) (if (k.gr rs + imm.signExtend 36).toNat % 2 = 0 then h.setWidth 36 <<< 18 else h.setWidth 36) none false false]) ∧
    (∀ (rd rs : Fin 16) (imm : BitVec 21), Executable c 2 s → k.wbuf.length < 4 → k.sup = true ∨ regionOf (some c.val) ((k.gr rs + imm.signExtend 36).toNat) ≠ .folio → rd.val % 2 = 0 → (k.gr rs + imm.signExtend 36).toNat % 2 = 0 → 
      Completes (.kStd c rd rs imm) s fun t => Shows c s t k.gr k.acc k.fr k.fpsr (pswAfter k {}) (ipAfter k 2) ∧ (coreOfDev t.dev c).wbuf = k.wbuf ++ [storeEntry k ((k.gr rs + imm.signExtend 36).toNat) (allBits) (k.gr rd) (some (k.gr (rd.val + 1))) false false] ∧ (coreOfDev t.dev c).issued = k.issued) ∧
    (∀ (rd rs : Fin 16) (imm : BitVec 21), Executable c 2 s → k.wbuf.length < 3 → rd.val % 2 = 0 → (k.gr rs + imm.signExtend 36).toNat % 2 = 1 → splitBad c (k.gr rs + imm.signExtend 36).toNat = none → 
      Completes (.kStd c rd rs imm) s fun t => Shows c s t k.gr k.acc k.fr k.fpsr (pswAfter k {}) (ipAfter k 2) ∧ (coreOfDev t.dev c).wbuf = k.wbuf ++ [storeEntry k (k.gr rs + imm.signExtend 36).toNat allBits (k.gr rd) none true false, storeEntry k ((k.gr rs + imm.signExtend 36).toNat + 1) allBits (k.gr (rd.val + 1)) none false true]) ∧
    (∀ (rd rs : Fin 16) (imm : BitVec 21) (b : Nat), Executable c 2 s → rd.val % 2 = 0 → (k.gr rs + imm.signExtend 36).toNat % 2 = 1 → splitBad c (k.gr rs + imm.signExtend 36).toNat = some b → k.stepping = false → 
      Completes (.kStd c rd rs imm) s fun t => (coreOfDev t.dev c).excs.map (fun e => (e.vec, e.sub)) = k.excs.map (fun e => (e.vec, e.sub)) ++ [(10, b)] ∧ (coreOfDev t.dev c).ip = k.ip ∧ (coreOfDev t.dev c).wbuf = k.wbuf ∧ (∀ r, (coreOfDev t.dev c).gr r = k.gr r) ∧ t.mem = s.mem) ∧
    (∀ (rd rs : Fin 16) (imm : BitVec 21), Executable c 2 s → k.wbuf.length < 4 → k.sup = true ∨ regionOf (some c.val) ((k.gr rs + imm.signExtend 36).toNat) ≠ .folio → bit k.psw pswFpa = true → 
      Completes (.kFst c rd rs imm) s fun t => Shows c s t k.gr k.acc k.fr k.fpsr (pswAfter k {}) (ipAfter k 2) ∧ (coreOfDev t.dev c).wbuf = k.wbuf ++ [storeEntry k ((k.gr rs + imm.signExtend 36).toNat) (allBits) ((k.fr rd).setWidth 36) none false false] ∧ (coreOfDev t.dev c).issued = k.issued) ∧
    (∀ (rd : Fin 16), Executable c 1 s → k.wbuf.length < 4 → k.sup = true ∨ regionOf (some c.val) ((k.gr 14 - 1).toNat) ≠ .folio → stackLimit k ≤ ((k.gr 14).toNat : Int) - 1 → 
      Completes (.kPush c rd 0) s fun t => Shows c s t (put k.gr 14 (k.gr 14 - 1)) k.acc k.fr k.fpsr (pswAfter k {}) (ipAfter k 1) ∧ (coreOfDev t.dev c).wbuf = k.wbuf ++ [storeEntry k ((k.gr 14 - 1).toNat) (allBits) (put k.gr 14 (k.gr 14 - 1) rd) none false false] ∧ (coreOfDev t.dev c).issued = k.issued) ∧
    (∀ (rd : Fin 16), Executable c 1 s → k.wbuf.length < 4 → k.sup = true ∨ regionOf (some c.val) ((k.gr 14 - 1).toNat) ≠ .folio → stackLimit k ≤ ((k.gr 14).toNat : Int) - 1 → bit k.psw pswFpa = true → 
      Completes (.kPushf c rd 0) s fun t => Shows c s t (put k.gr 14 (k.gr 14 - 1)) k.acc k.fr k.fpsr (pswAfter k {}) (ipAfter k 1) ∧ (coreOfDev t.dev c).wbuf = k.wbuf ++ [storeEntry k ((k.gr 14 - 1).toNat) (allBits) ((k.fr rd).setWidth 36) none false false] ∧ (coreOfDev t.dev c).issued = k.issued) ∧
    (∀ (rd : Fin 16), Executable c 1 s → ((k.gr 14).toNat : Int) - 1 < stackLimit k → k.stepping = false → 
      Completes (.kPush c rd 0) s fun t => (coreOfDev t.dev c).excs.map (fun e => (e.vec, e.sub)) = k.excs.map (fun e => (e.vec, e.sub)) ++ [(2, 1)] ∧ (coreOfDev t.dev c).ip = k.ip ∧ (coreOfDev t.dev c).wbuf = k.wbuf ∧ (∀ r, (coreOfDev t.dev c).gr r = k.gr r) ∧ t.mem = s.mem) ∧
    (∀ (rd rs : Fin 16) (imm : BitVec 21), Executable c 2 s → k.sup = false → (k.gr rs + imm.signExtend 36).toNat < 2 ^ 28 → regionOf (some c.val) (k.gr rs + imm.signExtend 36).toNat = .folio → k.stepping = false → 
      Completes (.kStw c (.long rd rs imm)) s fun t => (coreOfDev t.dev c).excs.map (fun e => (e.vec, e.sub)) = k.excs.map (fun e => (e.vec, e.sub)) ++ [(1, 3)] ∧ (coreOfDev t.dev c).ip = k.ip ∧ (coreOfDev t.dev c).wbuf = k.wbuf ∧ (∀ r, (coreOfDev t.dev c).gr r = k.gr r) ∧ t.mem = s.mem)

/-- R272, R273, R277, R313, R496: a masked call posts the named registers from the frame’s base on and transfers with LP in G15, a masked return loads them back and goes to the LP it found; an event before the first store leaves IP, sets RESUME and keeps the frame; one STEP of a call makes the frame alone; below the stack limit vector 2 is raised with nothing done. R275 to R277, R496: BLKMOV moves its elements in ascending order, each one load and one posted store with RS, RD and RT counted; an event after an element leaves IP and sets RESUME; one STEP is one element; VMAC adds the exact sum of its products; a count of 0 does nothing. -/
def Obligations.MaskedAndBlock : Prop :=
  ∀ (c : Fin 8) (s : State), Calm s →
    let d := s.dev
    let k := coreOfDev d c
    (∀ (mask : BitVec 16) (o : BitVec 13), Executable c 2 s → CanSave c (mask.setWidth 36) s → k.stepping = false → 
      Completes (.kCallm c mask o none) s (Called c 2 (mask.setWidth 36) (((k.ip : Int) + o.toInt) % 2 ^ 29).toNat s)) ∧
    (∀ (mask : BitVec 16) (rs : Fin 16), Executable c 2 s → CanSave c (mask.setWidth 36) s → k.stepping = false → rs.val ≠ 14 → rs.val ≠ 15 → (k.gr rs).toNat < 2 ^ 29 → 
      Completes (.kCallmr c mask rs none) s (Called c 2 (mask.setWidth 36) (k.gr rs).toNat s)) ∧
    (∀ (q rs : Fin 16), Executable c 1 s → CanSave c (tabGet 0 k.maskset q) s → k.stepping = false → rs.val ≠ 14 → rs.val ≠ 15 → (k.gr rs).toNat < 2 ^ 29 → 
      Completes (.kCallq c q rs none) s (Called c 1 (tabGet 0 k.maskset q) (k.gr rs).toNat s)) ∧
    (∀ (mask : BitVec 16) (o : BitVec 13), Executable c 2 s → CanSave c (mask.setWidth 36) s → k.stepping = false → 
      Completes (.kCallm c mask o (some 0)) s (CallStopped c (mask.setWidth 36) s)) ∧
    (∀ (mask : BitVec 16) (o : BitVec 13) (stop : Option Nat), Executable c 2 s → CanSave c (mask.setWidth 36) s → k.resume = false → k.prog = none → k.stepping = true → 
      Completes (.kCallm c mask o stop) s fun t => Shows c s t (put k.gr 14 (frameBase k (mask.setWidth 36))) k.acc k.fr k.fpsr k.psw k.ip ∧ pendingStores (coreOfDev t.dev c) = pendingStores k ∧ (coreOfDev t.dev c).prog = some 0) ∧
    (∀ (mask : BitVec 16) (o : BitVec 13) (stop : Option Nat), Executable c 2 s → k.resume = false → k.prog = none → ((k.gr 14).toNat : Int) - (maskRegs (mask.setWidth 36)).length < stackLimit k → k.stepping = false → 
      Completes (.kCallm c mask o stop) s fun t => (coreOfDev t.dev c).excs.map (fun e => (e.vec, e.sub)) = k.excs.map (fun e => (e.vec, e.sub)) ++ [(2, 2)] ∧ (coreOfDev t.dev c).ip = k.ip ∧ (∀ r, (coreOfDev t.dev c).gr r = k.gr r) ∧ (coreOfDev t.dev c).wbuf = k.wbuf ∧ t.mem = s.mem) ∧
    (∀ (mask : BitVec 16) (w : Nat → Word), Executable c 2 s → CanRestore c (mask.setWidth 36) w s → k.stepping = false → 
      Completes (.kRetm c mask 0 none) s (Restored c (mask.setWidth 36) w s)) ∧
    (∀ (q : BitVec 4) (w : Nat → Word), Executable c 1 s → CanRestore c (tabGet 0 k.maskset q.toNat) w s → k.stepping = false → 
      Completes (.kRetq c (q.setWidth 8) none) s (Restored c (tabGet 0 k.maskset q.toNat) w s)) ∧
    (∀ (mask : BitVec 16) (disp : BitVec 13) (stop : Option Nat), Executable c 2 s → disp ≠ 0 → k.stepping = false → 
      Completes (.kRetm c mask disp stop) s fun t => (coreOfDev t.dev c).excs.map (fun e => (e.vec, e.sub)) = k.excs.map (fun e => (e.vec, e.sub)) ++ [(5, 2)] ∧ (coreOfDev t.dev c).ip = k.ip ∧ (∀ r, (coreOfDev t.dev c).gr r = k.gr r) ∧ t.mem = s.mem) ∧
    (∀ (rd rs rt : Fin 16) (w : Word), Executable c 2 s → Loads c (k.gr rs).toNat w s → 1 < (k.gr rt).toNat → k.stepping = false → k.sup = true ∨ regionOf (some c.val) ((k.gr rd).toNat) ≠ .folio → rd ≠ rs → rs ≠ rt → rd ≠ rt → 
      Completes (.kBlkmov c rd rs rt (some 1)) s fun t => Shows c s t (put (put (put k.gr rs (k.gr rs + 1)) rd (k.gr rd + 1)) rt (k.gr rt - 1)) k.acc k.fr k.fpsr (setBitW k.psw pswResume true) k.ip ∧ (coreOfDev t.dev c).wbuf = k.wbuf ++ [storeEntry k (k.gr rd).toNat allBits w none false false]) ∧
    (∀ (rd rs rt : Fin 16) (w : Word) (stop : Option Nat), Executable c 2 s → Loads c (k.gr rs).toNat w s → 1 < (k.gr rt).toNat → k.stepping = true → k.sup = true ∨ regionOf (some c.val) ((k.gr rd).toNat) ≠ .folio → rd ≠ rs → rs ≠ rt → rd ≠ rt → 
      Completes (.kBlkmov c rd rs rt stop) s fun t => Shows c s t (put (put (put k.gr rs (k.gr rs + 1)) rd (k.gr rd + 1)) rt (k.gr rt - 1)) k.acc k.fr k.fpsr k.psw k.ip ∧ (coreOfDev t.dev c).prog = some 0 ∧ (coreOfDev t.dev c).wbuf = k.wbuf ++ [storeEntry k (k.gr rd).toNat allBits w none false false]) ∧
    (∀ (rd rs rt : Fin 16) (w : Word), Executable c 2 s → Loads c (k.gr rs).toNat w s → k.gr rt = 1 → k.stepping = false → k.sup = true ∨ regionOf (some c.val) ((k.gr rd).toNat) ≠ .folio → rd ≠ rs → rs ≠ rt → rd ≠ rt → 
      Completes (.kBlkmov c rd rs rt none) s fun t => Shows c s t (put (put (put k.gr rs (k.gr rs + 1)) rd (k.gr rd + 1)) rt 0) k.acc k.fr k.fpsr (pswAfter k {}) (ipAfter k 2) ∧ (coreOfDev t.dev c).wbuf = k.wbuf ++ [storeEntry k (k.gr rd).toNat allBits w none false false]) ∧
    (∀ (rd rs rt : Fin 16) (stop : Option Nat), Executable c 2 s → k.gr rt = 0 → 
      Completes (.kBlkmov c rd rs rt stop) s (GoesTo c s (ipAfter k 2))) ∧
    (∀ (a : Fin 2) (rd rs rt : Fin 16) (x y : Nat → Word), Executable c 2 s → k.stepping = false → (∀ i ∈ upTo (k.gr rd).toNat, Loads c (k.gr rs + BitVec.ofNat 36 i).toNat (x i) s) → (∀ i ∈ upTo (k.gr rd).toNat, Loads c (k.gr rt + BitVec.ofNat 36 i).toNat (y i) s) → (∀ i ∈ upTo (k.gr rd).toNat, -(2 ^ 79) ≤ (k.acc a).toInt + dot x y (i + 1)) → (∀ i ∈ upTo (k.gr rd).toNat, (k.acc a).toInt + dot x y (i + 1) < 2 ^ 79) → rd ≠ rs → rs ≠ rt → rd ≠ rt → 
      Completes (.kVmac c a rd rs rt none) s fun t => Shows c s t (put (put (put k.gr rs (k.gr rs + k.gr rd)) rt (k.gr rt + k.gr rd)) rd 0) (put k.acc a (BitVec.ofInt 80 ((k.acc a).toInt + dot x y (k.gr rd).toNat))) k.fr k.fpsr (pswAfter k {}) (ipAfter k 2))

/-- R278, R366, R369, R370: QPUT drains, then stores its word behind TAIL with Z = 0, or sets Z when the word is refused; QTAKE gives the word at HEAD with Z = 0, or sets Z on an empty queue; a number of no queue raises vector 7. A QPUT that must drain first stays where it is. -/
def Obligations.QueueInstructions : Prop :=
  ∀ (c : Fin 8) (s : State), Calm s →
    let d := s.dev
    let k := coreOfDev d c
    (∀ (rd rs : Fin 16) (x : QDesc), Executable c 1 s → pendingStores k = [] → (k.gr rs).toNat < 2 ^ 15 → Serving s (k.gr rs).toNat x → d.galley.posted = [] → d.galley.parked = [] → d.galley.cmds = [] → x.fill < x.size → 
      Completes (.kQput c rd rs) s fun t => (∀ r, (coreOfDev t.dev c).gr r = k.gr r) ∧ (coreOfDev t.dev c).psw = pswAfter k { z := some false } ∧ (coreOfDev t.dev c).ip = ipAfter k 1 ∧ (coreOfDev t.dev c).acc 0 = k.acc 0 ∧ (coreOfDev t.dev c).acc 1 = k.acc 1 ∧ (coreOfDev t.dev c).fpsr = k.fpsr ∧ MemOnly s t (x.slot x.tail :: (upTo 4).map (descAddr (k.gr rs).toNat)) ∧ storedWord t.mem (x.slot x.tail) = k.gr rd ∧ descOf t (k.gr rs).toNat = (x.setTail (x.tail + 1)).fixPar) ∧
    (∀ (rd rs : Fin 16) (x : QDesc), Executable c 1 s → pendingStores k = [] → (k.gr rs).toNat < 2 ^ 15 → Serving s (k.gr rs).toNat x → d.galley.posted = [] → d.galley.parked = [] → d.galley.cmds = [] → x.fill = x.size → x.pol = 0 → 
      Completes (.kQput c rd rs) s fun t => (∀ r, (coreOfDev t.dev c).gr r = k.gr r) ∧ (coreOfDev t.dev c).psw = pswAfter k { z := some true } ∧ (coreOfDev t.dev c).ip = ipAfter k 1 ∧ (coreOfDev t.dev c).acc 0 = k.acc 0 ∧ (coreOfDev t.dev c).acc 1 = k.acc 1 ∧ (coreOfDev t.dev c).fpsr = k.fpsr ∧ MemOnly s t ((upTo 4).map (descAddr (k.gr rs).toNat)) ∧ descOf t (k.gr rs).toNat = (x.dropped 1).fixPar) ∧
    (∀ (rd rs : Fin 16), Executable c 1 s → pendingStores k ≠ [] → 
      Completes (.kQput c rd rs) s fun t => (coreOfDev t.dev c).ip = k.ip ∧ (∀ r, (coreOfDev t.dev c).gr r = k.gr r) ∧ (coreOfDev t.dev c).excs = k.excs ∧ t.mem = s.mem) ∧
    (∀ (rd rs : Fin 16) (x : QDesc), Executable c 1 s → (k.gr rs).toNat < 2 ^ 15 → Serving s (k.gr rs).toNat x → d.galley.posted = [] → d.galley.parked = [] → d.galley.cmds = [] → x.fill ≠ 0 → 
      Completes (.kQtake c rd rs) s fun t => (∀ r, (coreOfDev t.dev c).gr r = put k.gr rd (storedWord s.mem (x.slot x.head)) r) ∧ (coreOfDev t.dev c).psw = pswAfter k { z := some false } ∧ (coreOfDev t.dev c).ip = ipAfter k 1 ∧ (coreOfDev t.dev c).acc 0 = k.acc 0 ∧ (coreOfDev t.dev c).acc 1 = k.acc 1 ∧ (coreOfDev t.dev c).fpsr = k.fpsr ∧ MemOnly s t ((upTo 4).map (descAddr (k.gr rs).toNat)) ∧ descOf t (k.gr rs).toNat = (x.setHead (x.head + 1)).fixPar) ∧
    (∀ (rd rs : Fin 16) (x : QDesc), Executable c 1 s → (k.gr rs).toNat < 2 ^ 15 → Serving s (k.gr rs).toNat x → d.galley.posted = [] → d.galley.parked = [] → d.galley.cmds = [] → x.fill = 0 → 
      Completes (.kQtake c rd rs) s fun t => (∀ r, (coreOfDev t.dev c).gr r = k.gr r) ∧ (coreOfDev t.dev c).psw = pswAfter k { z := some true } ∧ (coreOfDev t.dev c).ip = ipAfter k 1 ∧ (coreOfDev t.dev c).acc 0 = k.acc 0 ∧ (coreOfDev t.dev c).acc 1 = k.acc 1 ∧ (coreOfDev t.dev c).fpsr = k.fpsr ∧ t.mem = s.mem) ∧
    (∀ (rd rs : Fin 16), Executable c 1 s → pendingStores k = [] → 2 ^ 15 ≤ (k.gr rs).toNat → k.stepping = false → 
      Completes (.kQput c rd rs) s fun t => (coreOfDev t.dev c).excs.map (fun e => (e.vec, e.sub)) = k.excs.map (fun e => (e.vec, e.sub)) ++ [(7, 6)] ∧ (coreOfDev t.dev c).ip = k.ip ∧ (∀ r, (coreOfDev t.dev c).gr r = k.gr r) ∧ t.mem = s.mem) ∧
    (∀ (rd rs : Fin 16), Executable c 1 s → 2 ^ 15 ≤ (k.gr rs).toNat → k.stepping = false → 
      Completes (.kQtake c rd rs) s fun t => (coreOfDev t.dev c).excs.map (fun e => (e.vec, e.sub)) = k.excs.map (fun e => (e.vec, e.sub)) ++ [(7, 6)] ∧ (coreOfDev t.dev c).ip = k.ip ∧ (∀ r, (coreOfDev t.dev c).gr r = k.gr r) ∧ t.mem = s.mem)

/-- R263, R266, R310, R312: a zero divisor and an overflowing signed division raise vector 3 after the instruction with its address in ARITH_SRC and RD as it was; a field that must be zero, an accumulator above 1 or an odd pair raises vector 5 with nothing done. -/
def Obligations.TrapsAndIllegalForms : Prop :=
  ∀ (c : Fin 8) (s : State), Calm s →
    let d := s.dev
    let k := coreOfDev d c
    (∀ (rd rs rt : Fin 16), Executable c 2 s → k.gr rt = 0 → k.stepping = false → 
      Completes (.kDiv c rd rs rt) s fun t => (coreOfDev t.dev c).excs.map (fun e => (e.vec, e.sub)) = k.excs.map (fun e => (e.vec, e.sub)) ++ [(3, 1)] ∧ (coreOfDev t.dev c).ip = ipAfter k 2 ∧ (∀ r, (coreOfDev t.dev c).gr r = k.gr r) ∧ (coreOfDev t.dev c).excs.getLast?.map (·.arith) = some (some k.ip) ∧ t.mem = s.mem) ∧
    (∀ (rd rs rt : Fin 16), Executable c 2 s → k.gr rt = 0 → k.stepping = false → 
      Completes (.kDivu c rd rs rt) s fun t => (coreOfDev t.dev c).excs.map (fun e => (e.vec, e.sub)) = k.excs.map (fun e => (e.vec, e.sub)) ++ [(3, 1)] ∧ (coreOfDev t.dev c).ip = ipAfter k 2 ∧ (∀ r, (coreOfDev t.dev c).gr r = k.gr r) ∧ (coreOfDev t.dev c).excs.getLast?.map (·.arith) = some (some k.ip) ∧ t.mem = s.mem) ∧
    (∀ (rd rs rt : Fin 16), Executable c 2 s → k.gr rt = 0 → k.stepping = false → 
      Completes (.kRem c rd rs rt) s fun t => (coreOfDev t.dev c).excs.map (fun e => (e.vec, e.sub)) = k.excs.map (fun e => (e.vec, e.sub)) ++ [(3, 1)] ∧ (coreOfDev t.dev c).ip = ipAfter k 2 ∧ (∀ r, (coreOfDev t.dev c).gr r = k.gr r) ∧ (coreOfDev t.dev c).excs.getLast?.map (·.arith) = some (some k.ip) ∧ t.mem = s.mem) ∧
    (∀ (rd rs rt : Fin 16), Executable c 2 s → k.gr rt = 0 → k.stepping = false → 
      Completes (.kRemu c rd rs rt) s fun t => (coreOfDev t.dev c).excs.map (fun e => (e.vec, e.sub)) = k.excs.map (fun e => (e.vec, e.sub)) ++ [(3, 1)] ∧ (coreOfDev t.dev c).ip = ipAfter k 2 ∧ (∀ r, (coreOfDev t.dev c).gr r = k.gr r) ∧ (coreOfDev t.dev c).excs.getLast?.map (·.arith) = some (some k.ip) ∧ t.mem = s.mem) ∧
    (∀ (rd rs rt : Fin 16), Executable c 2 s → (k.gr rs).toInt = -(2 ^ 35) → (k.gr rt).toInt = -1 → k.stepping = false → 
      Completes (.kDiv c rd rs rt) s fun t => (coreOfDev t.dev c).excs.map (fun e => (e.vec, e.sub)) = k.excs.map (fun e => (e.vec, e.sub)) ++ [(3, 2)] ∧ (coreOfDev t.dev c).ip = ipAfter k 2 ∧ (∀ r, (coreOfDev t.dev c).gr r = k.gr r) ∧ (coreOfDev t.dev c).excs.getLast?.map (·.arith) = some (some k.ip) ∧ t.mem = s.mem) ∧
    (∀ (rd rs rt : Fin 16), Executable c 2 s → (k.gr rs).toInt = -(2 ^ 35) → (k.gr rt).toInt = -1 → k.stepping = false → 
      Completes (.kRem c rd rs rt) s fun t => (coreOfDev t.dev c).excs.map (fun e => (e.vec, e.sub)) = k.excs.map (fun e => (e.vec, e.sub)) ++ [(3, 2)] ∧ (coreOfDev t.dev c).ip = ipAfter k 2 ∧ (∀ r, (coreOfDev t.dev c).gr r = k.gr r) ∧ (coreOfDev t.dev c).excs.getLast?.map (·.arith) = some (some k.ip) ∧ t.mem = s.mem) ∧
    (∀ (arg : BitVec 8), Executable c 1 s → arg ≠ 0 → k.stepping = false → 
      Completes (.kNop c arg) s fun t => (coreOfDev t.dev c).excs.map (fun e => (e.vec, e.sub)) = k.excs.map (fun e => (e.vec, e.sub)) ++ [(5, 2)] ∧ (coreOfDev t.dev c).ip = k.ip ∧ (∀ r, (coreOfDev t.dev c).gr r = k.gr r) ∧ t.mem = s.mem) ∧
    (∀ (arg : BitVec 8), Executable c 1 s → arg ≠ 0 → k.stepping = false → 
      Completes (.kRetx c arg) s fun t => (coreOfDev t.dev c).excs.map (fun e => (e.vec, e.sub)) = k.excs.map (fun e => (e.vec, e.sub)) ++ [(5, 2)] ∧ (coreOfDev t.dev c).ip = k.ip ∧ (∀ r, (coreOfDev t.dev c).gr r = k.gr r) ∧ t.mem = s.mem) ∧
    (∀ (rd rs : Fin 16), Executable c 1 s → rs ≠ 0 → k.stepping = false → 
      Completes (.kPush c rd rs) s fun t => (coreOfDev t.dev c).excs.map (fun e => (e.vec, e.sub)) = k.excs.map (fun e => (e.vec, e.sub)) ++ [(5, 2)] ∧ (coreOfDev t.dev c).ip = k.ip ∧ (∀ r, (coreOfDev t.dev c).gr r = k.gr r) ∧ t.mem = s.mem) ∧
    (∀ (rd a : Fin 16), Executable c 1 s → rd ≠ 0 → k.stepping = false → 
      Completes (.kClra c rd a) s fun t => (coreOfDev t.dev c).excs.map (fun e => (e.vec, e.sub)) = k.excs.map (fun e => (e.vec, e.sub)) ++ [(5, 2)] ∧ (coreOfDev t.dev c).ip = k.ip ∧ (∀ r, (coreOfDev t.dev c).gr r = k.gr r) ∧ t.mem = s.mem) ∧
    (∀ (rd a : Fin 16), Executable c 1 s → 2 ≤ a.val → k.stepping = false → 
      Completes (.kExtf c rd a) s fun t => (coreOfDev t.dev c).excs.map (fun e => (e.vec, e.sub)) = k.excs.map (fun e => (e.vec, e.sub)) ++ [(5, 3)] ∧ (coreOfDev t.dev c).ip = k.ip ∧ (∀ r, (coreOfDev t.dev c).gr r = k.gr r) ∧ t.mem = s.mem) ∧
    (∀ (rd a : Fin 16), Executable c 1 s → rd.val % 2 = 1 → k.stepping = false → 
      Completes (.kMovfaH c rd a) s fun t => (coreOfDev t.dev c).excs.map (fun e => (e.vec, e.sub)) = k.excs.map (fun e => (e.vec, e.sub)) ++ [(5, 3)] ∧ (coreOfDev t.dev c).ip = k.ip ∧ (∀ r, (coreOfDev t.dev c).gr r = k.gr r) ∧ t.mem = s.mem) ∧
    (∀ (a : Fin 2) (rd rs rt : Fin 16), Executable c 2 s → rd ≠ 0 → k.stepping = false → 
      Completes (.kMac c (.long a rd rs rt)) s fun t => (coreOfDev t.dev c).excs.map (fun e => (e.vec, e.sub)) = k.excs.map (fun e => (e.vec, e.sub)) ++ [(5, 2)] ∧ (coreOfDev t.dev c).ip = k.ip ∧ (∀ r, (coreOfDev t.dev c).gr r = k.gr r) ∧ t.mem = s.mem) ∧
    (∀ (rd rs rt : Fin 16), Executable c 2 s → rd ≠ 0 → k.stepping = false → 
      Completes (.kCmp c (.long rd rs rt)) s fun t => (coreOfDev t.dev c).excs.map (fun e => (e.vec, e.sub)) = k.excs.map (fun e => (e.vec, e.sub)) ++ [(5, 2)] ∧ (coreOfDev t.dev c).ip = k.ip ∧ (∀ r, (coreOfDev t.dev c).gr r = k.gr r) ∧ t.mem = s.mem) ∧
    (∀ (rd rs rt : Fin 16), Executable c 2 s → rt ≠ 0 → k.stepping = false → 
      Completes (.kNeg c (.long rd rs rt)) s fun t => (coreOfDev t.dev c).excs.map (fun e => (e.vec, e.sub)) = k.excs.map (fun e => (e.vec, e.sub)) ++ [(5, 2)] ∧ (coreOfDev t.dev c).ip = k.ip ∧ (∀ r, (coreOfDev t.dev c).gr r = k.gr r) ∧ t.mem = s.mem)

/-! ### The blocks, in the order of the chapters -/

/-- R22, R23, R28, R30: the lock rises after 100 µs, falls into holdover, and calibration follows it; the other registers of every folio, the memories and the other blocks stay. R24, R25, R27, R29: the counter and its captures, alarms judged when written, a one-shot alarm disarmed and a periodic one reloaded when it fires, the 802.1AS servo within its clamp. In the clauses on ALARM_FIRE nothing else is set off by the alarm (no group, no Forme) and it was not late. -/
def Obligations.TimeBase : Prop :=
  ∀ s : State, Calm s →
    let d := s.dev
    (gb d MERID_STAT.REF_OK = true → gb d MERID_STAT.LOCK = false → d.merid.goodFrom + 100000 ≤ d.now → 
      Does .lockAcquire s [.merid, .folio] [MERID_STAT.at, FOLIO_EVT.at 3] fun e =>
        gb e MERID_STAT.LOCK = true ∧ gb e MERID_STAT.HOLDOVER = false ∧ e.merid.calFrom = d.now ∧ e.merid.linesDone = [] ∧
        e.merid.counter = d.merid.counter ∧ e.folio.brst = d.folio.brst.map (fun b => (b.1, some (d.now + 64))) ∧ Raised d e 3 1) ∧
    (gb d MERID_STAT.REF_OK = false → 
      Does .referenceReturn s [.merid] [MERID_STAT.at] fun e =>
        gb e MERID_STAT.REF_OK = true ∧ gb e MERID_STAT.LOCK = gb d MERID_STAT.LOCK ∧ e.merid.goodFrom = d.now ∧ e.merid.counter = d.merid.counter) ∧
    (∀ (f : Fin 16) (n : Fin 8), gb d MERID_STAT.LOCK = true → mode d ≠ mPark → 
      Does (.lineRecal f n) s [.merid] [] fun e =>
        8 * f.val + n.val ∈ e.merid.linesDone ∧ (∀ k ∈ d.merid.linesDone, k ∈ e.merid.linesDone) ∧ e.merid.counter = d.merid.counter) ∧
    (gb d MERID_STAT.LOCK = true → gb d MERID_STAT.CAL_OK = false → mode d ≠ mPark → d.merid.calFrom + 50000 ≤ d.now → (∀ k ∈ upTo 128, k ∈ d.merid.linesDone) → 
      Does .caldone s [] [MERID_STAT.at, FOLIO_EVT.at 3] fun e => gb e MERID_STAT.CAL_OK = true ∧ gb e MERID_STAT.LOCK = true ∧ Raised d e 3 3) ∧
    (d.merid.peerFollow = true → 
      Does .peerTimingLoss s [.merid] [MERID_STAT.at, FOLIO_EVT.at 3] fun e =>
        e.merid.peerFollow = false ∧ e.merid.counter = d.merid.counter ∧ gb e MERID_STAT.SLAVE_OK = false ∧
        gf e MERID_STAT.REFACT = (refOf (rd d MERID_CTL.at) false).1 ∧ (gb d MERID_STAT.SLAVE_OK = true → Raised d e 3 4)) ∧
    (gb d MERID_STAT.LOCK = true → mode d ≠ mRun → 
      Completes .lockLoss s fun t => t.mem = s.mem ∧ gb t.dev MERID_STAT.LOCK = false ∧ gb t.dev MERID_STAT.HOLDOVER = true ∧
        gb t.dev MERID_STAT.CAL_OK = false ∧ mode t.dev = mode d ∧ t.dev.merid.goodFrom = d.now ∧ t.dev.merid.counter = d.merid.counter ∧ Raised d t.dev 3 0) ∧
    (gb d MERID_STAT.LOCK = true → mode d = mRun → d.rstc.modeFrom = none → 
      Completes .lockLoss s fun t => t.mem = s.mem ∧ gb t.dev MERID_STAT.LOCK = false ∧ gb t.dev MERID_STAT.HOLDOVER = true ∧
        gb t.dev MERID_STAT.CAL_OK = false ∧ mode t.dev = mRecovery ∧ gf t.dev SYS_STAT.WHY = 2 ∧ t.dev.merid.counter = d.merid.counter) ∧
    (gb d MERID_STAT.LOCK = false → 
      Does .lockLoss s [.merid] [] fun e => e.merid.goodFrom = d.now ∧ e.merid.counter = d.merid.counter) ∧
    (gb d MERID_STAT.REF_OK = true → mode d = mRun → d.rstc.modeFrom = none → 
      Completes .refLoss s fun t => gb t.dev MERID_STAT.REF_OK = false ∧ gb t.dev MERID_STAT.LOCK = false ∧ (gb d MERID_STAT.LOCK = true → mode t.dev = mRecovery)) ∧
    (gb d MERID_STAT.REF_OK = true → mode d ≠ mRun → 
      Completes .refLoss s fun t => t.mem = s.mem ∧ gb t.dev MERID_STAT.REF_OK = false ∧ gb t.dev MERID_STAT.LOCK = false ∧ mode t.dev = mode d ∧
        bit (rd t.dev (FOLIO_EVT.at 3)) 2 = true ∧ (gb d MERID_STAT.LOCK = true → gb t.dev MERID_STAT.HOLDOVER = true ∧ bit (rd t.dev (FOLIO_EVT.at 3)) 0 = true)) ∧
    (∀ (ini : Initiator), iniServed d ini = true → debugShut d ini = false → 
      Does (.tickhRead ini) s [] [MERID_TICKL.at] fun e => gf e MERID_TICKL.TICK_LO = d.merid.counter.toNat % 2 ^ 32) ∧
    (∀ (ini : Initiator) (v : Word), Open ini 3 s → mode d = mConfig → 
      Does (.meridStep ini v) s [.merid] [MERID_STEP.at] fun e => e.merid.counter = d.merid.counter + BitVec.ofInt 64 v.toInt) ∧
    (∀ (ini : Initiator) (n : Fin 16) (v : Word), Open ini 3 s → 
      Does (.alarmWrite ini n v) s [.merid] [MERID_ALM.at n] fun e => rd e (MERID_ALM.at n) = v ∧ e.merid.counter = d.merid.counter ∧
        (gbit d MERID_ALMEN.EN n = true → bit (shortTs d - v) 35 = false → tabFind e.merid.late n = some (d.now + 1)) ∧
        (bit (shortTs d - v) 35 = true → tabFind e.merid.late n = none)) ∧
    (∀ (n : Fin 16), gbit d MERID_ALMEN.EN n = true → bit (shortTs d - rd d (MERID_ALM.at n)) 35 = false → tabFind d.merid.late n = none → d.folio.fires = [] → NoGroupOffers d → (∀ g ∈ upTo 16, fld (strobeSrc d g) 11 9 ≠ 3) → (∀ f ∈ upTo 16, boundaryDue d f = false ∧ midDue d f = false) → (∀ f ∈ upTo 16, gf d (FORME_SYNC.SSRC f) ≠ 2) → 
      Does (.alarmFire n) s [.merid, .trigRaw] ([MERID_ALM.at n, MERID_ALMEN.at] ++ (upTo 16).map fun u => FOLIO_EVT.at (0xC0 + u)) fun e =>
        (rd d (MERID_ALMP.at n) = 0 → gbit e MERID_ALMEN.EN n = false ∧ rd e (MERID_ALM.at n) = rd d (MERID_ALM.at n)) ∧
        (rd d (MERID_ALMP.at n) ≠ 0 → gbit e MERID_ALMEN.EN n = true ∧
          rd e (MERID_ALM.at n) = rd d (MERID_ALM.at n) + BitVec.ofNat 36 (max 16 (rd d (MERID_ALMP.at n)).toNat))) ∧
    (∀ (ini : Initiator) (v : Word), Open ini 3 s → mode d = mStart ∨ mode d = mConfig → 10 ≤ fld v 23 18 → fld v 23 18 ≤ 50 → fld v 9 8 ≠ 3 → gb d PACE_STAT.REG = false → 
      Does (.meridCtlWrite ini v) s [.merid, .twin] [MERID_CTL.at, MERID_STAT.at, FOLIO_EVT.at 3, FOLIO_EVT.at 0x13] fun e =>
        gf e MERID_CTL.REFSEL = fld v 11 10 ∧ gf e MERID_CTL.REFMHZ = fld v 23 18 ∧ gf e MERID_CTL.DISC = fld v 9 8 ∧
        (refOf v d.merid.peerFollow = refOf (rd d MERID_CTL.at) d.merid.peerFollow → gb e MERID_STAT.LOCK = gb d MERID_STAT.LOCK) ∧
        (refOf v d.merid.peerFollow ≠ refOf (rd d MERID_CTL.at) d.merid.peerFollow → gb e MERID_STAT.LOCK = false ∧
          gf e MERID_STAT.REFACT = (refOf v d.merid.peerFollow).1)) ∧
    (∀ (ofs rate : Int), gf d MERID_CTL.DISC ≠ 0 → gf d MERID_CTL.REFSEL < 2 → 
      Does (.discServoUpdate ofs rate) s [.merid] [MERID_RATE.at, MERID_STAT.at, FOLIO_EVT.at 3] fun e =>
        gf e MERID_RATE.RATE = (max (-100000) (min 100000 rate) % 2 ^ 24).toNat ∧ e.merid.counter = d.merid.counter ∧
        (1000 < ofs.natAbs → gb e MERID_STAT.DISC_OK = false ∧ (gb d MERID_STAT.DISC_OK = true → Raised d e 3 5)) ∧
        (ofs.natAbs ≤ 1000 → 15 ≤ d.merid.discGood → gb e MERID_STAT.DISC_OK = true))

/-- R33, R34, R36, R37, R38: sampling starts, a sample below sample 17 only measures, a droop is SHORT and DROOP at once, three failed AVSBus transactions in a row raise PACE_AVS_ERR, an accepted target clears HELD and waits for the next sample, the bounds and MODE are written under R39 and R38. R40, R41, R44: a window's allowance, its shares by weight, and a ceiling that takes effect at the next window. -/
def Obligations.PaceAndBudget : Prop :=
  ∀ s : State, Calm s →
    let d := s.dev
    (d.pace.sampling = false → d.rstc.phase = .started → mode d ≠ mPark → gb d MERID_STAT.LOCK = true ∨ d.rstc.booted = true → 
      Does .paceSamplingStart s [.pace] [] fun e => e.pace.sampling = true ∧ e.pace.samples = 0 ∧ e.pace.nextSample = d.now ∧ e.pace.target = d.pace.target) ∧
    (∀ (ms : List Nat), d.pace.sampling = true → d.pace.nextSample ≤ d.now → d.pace.samples < 16 → d.pace.lowV = 0 → ms.length = 16 → (∀ m ∈ ms, m < 4096) → 
      Completes (.paceSample ms) s fun t => t.mem = s.mem ∧ t.dev.pace.samples = d.pace.samples + 1 ∧ t.dev.pace.nextSample = d.pace.nextSample + 10000 ∧
        (∀ n ∈ upTo 16, gf t.dev (PACE_MON.VAL n) = ms.getD n 0) ∧ gf t.dev PACE_SLOW.VAL = (ms.take 16).foldl max 0 ∧
        t.dev.pace.target = gf d PACE_TARGET.TARGET ∧ gf t.dev PACE_VCMD.VCMD = gf d PACE_VCMD.VCMD ∧ gb t.dev PACE_STAT.DROOP = false) ∧
    (∀ (m : Fin 16) (v : Nat), d.pace.sampling = true → 17 ≤ d.pace.samples → d.pace.target + max 1 (gf d PACE_CTL.DROOP) < v → gb d PACE_CTL.MODE = true → gb d PACE_STAT.SHORT = true → 
      Completes (.paceDroop m v) s fun t => t.mem = s.mem ∧ gb t.dev PACE_STAT.DROOP = true ∧ gb t.dev PACE_STAT.SHORT = true ∧ gb t.dev PACE_STAT.HELD = gb d PACE_STAT.HELD ∧
        bit (rd t.dev (FOLIO_EVT.at 4)) 2 = true ∧ t.dev.pace.goodRun = 0 ∧ gf t.dev PACE_VCMD.VCMD = gf d PACE_VCMD.VCMD) ∧
    (∀ (m : Fin 16) (v : Nat), d.pace.sampling = true → 17 ≤ d.pace.samples → d.pace.target + max 1 (gf d PACE_CTL.DROOP) < v → gb d PACE_CTL.MODE = false → gb d PACE_STAT.SHORT = false → d.pace.raised ≤ 20 → gf d PACE_VCMD.VCMD + 20 ≤ gf d PACE_VMAX.VMAX → 
      Completes (.paceDroop m v) s fun t => t.mem = s.mem ∧ gb t.dev PACE_STAT.DROOP = true ∧ gb t.dev PACE_STAT.SHORT = true ∧ gb t.dev PACE_STAT.HELD = false ∧
        live t.dev 178 = true ∧ bit (rd t.dev (FOLIO_EVT.at 4)) 0 = true ∧ bit (rd t.dev (FOLIO_EVT.at 4)) 2 = true ∧ t.dev.pace.goodRun = 0 ∧
        gf t.dev PACE_VCMD.VCMD = gf d PACE_VCMD.VCMD + if leaves500 d (gf d CBA_CEILING.CEIL) (gf d PACE_VCMD.VCMD + 20) || !gb d CBA_CTL.CONFLICT_POL then 20 else 0) ∧
    (∀ (st : BitVec 16) (v : BitVec 10) (i : BitVec 16), 
      Does (.avsTransaction (some (st, v, i))) s [.pace] [AVS_STAT.at, PACE_TELEM.at, PACE_STAT.at] fun e =>
        gf e AVS_STAT.LAST = st.toNat ∧ gf e PACE_TELEM.VMEAS = v.toNat ∧ gf e PACE_TELEM.IMEAS = i.toNat ∧ gb e PACE_STAT.AVS_FAIL = false ∧ e.pace.avsFails = 0) ∧
    (Does (.avsTransaction none) s [.pace] [AVS_STAT.at, FOLIO_EVT.at 0x122, PACE_STAT.at, FOLIO_EVT.at 4] fun e =>
        gf e AVS_STAT.FAILS = min (2 ^ (AVS_STAT.FAILS.hi + 1 - AVS_STAT.FAILS.lo) - 1) (gf d AVS_STAT.FAILS + 1) ∧ Raised d e 0x122 0 ∧
        e.pace.avsFails = min 3 (d.pace.avsFails + 1) ∧
        (d.pace.avsFails < 2 → gb e PACE_STAT.AVS_FAIL = gb d PACE_STAT.AVS_FAIL) ∧
        (2 ≤ d.pace.avsFails → gb d PACE_STAT.AVS_FAIL = false → gb e PACE_STAT.AVS_FAIL = true ∧ Raised d e 4 3)) ∧
    (∀ (ini : Initiator) (v : Word), Open ini 4 s → 32 ≤ fld v 6 0 → fld v 6 0 ≤ 80 → 
      Does (.paceTargetWrite ini v) s [.pace] [PACE_TARGET.at, PACE_STAT.at] fun e =>
        gf e PACE_TARGET.TARGET = fld v 6 0 ∧ gb e PACE_STAT.HELD = false ∧ e.pace.target = d.pace.target ∧ e.pace.heldArmed = true) ∧
    (∀ (ini : Initiator) (up : Bool) (v : Word), Open ini 4 s → fld v 9 0 % 5 = 0 → (if up then fld v 9 0 ≤ 950 ∧ gf d PACE_VMIN.VMIN ≤ fld v 9 0 else 700 ≤ fld v 9 0 ∧ fld v 9 0 ≤ gf d PACE_VMAX.VMAX) → 
      Does (.paceVboundWrite ini up v) s [] [PACE_VMIN.at, PACE_VMAX.at] fun e =>
        if up then gf e PACE_VMAX.VMAX = fld v 9 0 ∧ gf e PACE_VMIN.VMIN = gf d PACE_VMIN.VMIN
        else gf e PACE_VMIN.VMIN = fld v 9 0 ∧ gf e PACE_VMAX.VMAX = gf d PACE_VMAX.VMAX) ∧
    (∀ (ini : Initiator) (v : Word), Open ini 4 s → mode d = mConfig → 
      Does (.paceModeWrite ini v) s [.pace] [PACE_CTL.at, PACE_STAT.at, PACE_VCMD.at, CBA_STAT.at, FOLIO_EVT.at 5] fun e => gb e PACE_CTL.MODE = bit v 8 ∧ gb e PACE_STAT.FIXED = bit v 8 ∧
        (let goal := max (gf d PACE_VMIN.VMIN) (min (gf d PACE_VMAX.VMAX) (gf d PACE_VFIX.VFIX))
         let v0 := gf d PACE_VCMD.VCMD
         let v1 := v0 + min (goal - v0) (min (40 - d.pace.raised) (gf d PACE_VMAX.VMAX - v0))
         (bit v 8 = false → gf e PACE_VCMD.VCMD = v0) ∧ (bit v 8 = true → goal ≤ v0 → gf e PACE_VCMD.VCMD = goal) ∧
         (bit v 8 = true → v0 < goal → leaves500 d (gf d CBA_CEILING.CEIL) v1 = true → gf e PACE_VCMD.VCMD = v1))) ∧
    (∀ (ev : List (Nat × Nat)), 
      Does (.cbaWindow ev) s [.cba, .free] [CBA_RESV.at, CBA_EST.at, CBA_STAT.at] fun e =>
        gf e CBA_RESV.RESV = min 65535 ((reservedOn d).foldl (fun a k => a + Config.reservedCurrent k (gf d PACE_VCMD.VCMD)) 0) ∧
        e.cba.window = (if mode d = mPark then 0 else d.cba.window + 1) ∧ e.cba.ceiling = gf d CBA_CEILING.CEIL ∧
        e.cba.allow = (if d.cba.window < 16 ∨ mode d = mPark then 0
          else
            let room := 10 * gf d CBA_CEILING.CEIL - gf e CBA_RESV.RESV - gf d CBA_LEAK.LEAK
            min (if gb d CBA_STAT.CONFLICT && !gb d CBA_CTL.CONFLICT_POL then max 500 room else room) (d.cba.used + 4 * max 1 (gf d CBA_SLEW.SLEW))) ∧
        (let req := (upTo 14).filter fun n => decide (0 < eventsOf ev n + tabGet 0 d.cba.held n)
         let sum := req.foldl (fun a n => a + gf d (CBA_WEIGHT.W n)) 0
         ∀ n ∈ req, 0 < sum → tabGet 0 e.cba.shares n = e.cba.allow * gf d (CBA_WEIGHT.W n) / sum)) ∧
    (∀ (ini : Initiator) (v : Word), Open ini 5 s → 200 ≤ fld v 9 0 → fld v 9 0 ≤ 1000 → 
      Does (.cbaCeilingWrite ini v) s [] [CBA_CEILING.at, FOLIO_EVT.at 5] fun e => e.cba.ceiling = d.cba.ceiling ∧
        if leaves500 d (fld v 9 0) (gf d PACE_VCMD.VCMD) then gf e CBA_CEILING.CEIL = fld v 9 0 ∧ rd e (FOLIO_EVT.at 5) = rd d (FOLIO_EVT.at 5)
        else rd e CBA_CEILING.at = rd d CBA_CEILING.at ∧ Raised d e 5 1)

/-- R8, R53, R54, R95: a write to a register that only holds what is written leaves its RW bits; a write to a staged register of a group lands in the shadow; a refused one leaves the register and its error record; a read of a counter that clears on read leaves zero. R60, R62, R63: a value write waits for its complement, a matching complement applies it as one write, a complement that does not match or a wait of 4,096 tk discards it with its cause. -/
def Obligations.RegisterWrites : Prop :=
  ∀ s : State, Calm s →
    let d := s.dev
    (∀ (ini : Initiator) (page off : Nat) (v : Word) (b : Blk) (i : Nat) (r : RegDef) (j : Nat), Open ini page s → blockOf page = some (b, i) → b ∈ plainBlocks → 16 ≤ off → off < 128 → regAt page off = some (r, j) → r.guarded = false → r.staged = false → verdict ini b i off (rd d (page * 256 + off)) (v &&& (r.mask .rw ||| r.mask .wo ||| r.mask .w1c)) s = .ok → 
      Does (.registerWrite ini page off v) s [.twin] [page * 256 + off] fun e => Lands r (rd d (page * 256 + off)) v (rd e (page * 256 + off))) ∧
    (∀ (ini : Initiator) (page off : Nat) (v : Word) (b : Blk) (i : Nat) (r : RegDef) (j : Nat), Open ini page s → blockOf page = some (b, i) → b ≠ .flashc → 8 ≤ off → off < 128 → regAt page off = some (r, j) → r.guarded = false → r.staged = true → (groupOf d (page * 256 + off)).isSome = true → verdict ini b i off ((shadowVal d (page * 256 + off)).getD (rd d (page * 256 + off))) (v &&& (r.mask .rw ||| r.mask .wo ||| r.mask .w1c)) s = .ok → 
      Does (.registerWrite ini page off v) s [.folio, .twin] [FOLIO_STAT.at page] fun e =>
        (shadowVal e (page * 256 + off)).isSome = true ∧
          Lands r ((shadowVal d (page * 256 + off)).getD (rd d (page * 256 + off))) v ((shadowVal e (page * 256 + off)).getD 0) ∧ gb e (FOLIO_STAT.STAGED page) = true ∧ e.folio.quoin = d.folio.quoin ∧ e.folio.fires = d.folio.fires) ∧
    (∀ (ini : Initiator) (page off : Nat) (v : Word) (b : Blk) (i : Nat) (r : RegDef) (j : Nat), Open ini page s → blockOf page = some (b, i) → b ≠ .flashc → b ≠ .dbg → 8 ≤ off → off < 128 → regAt page off = some (r, j) → r.guarded = false → verdict ini b i off (if r.staged then (shadowVal d (page * 256 + off)).getD (rd d (page * 256 + off)) else rd d (page * 256 + off)) (v &&& (r.mask .rw ||| r.mask .wo ||| r.mask .w1c)) s = .lock → 
      Does (.registerWrite ini page off v) s [] [FOLIO_STAT.at page, FOLIO_EVT.at page, SYS_FOLIOERR.at] fun e =>
        gb e (FOLIO_STAT.MODE_LOCK page) = true ∧ bit (rd e (FOLIO_EVT.at page)) 35 = true ∧ fld (rd e SYS_FOLIOERR.at) 35 27 = page) ∧
    (∀ (ini : Initiator) (page off : Nat) (b : Blk) (i : Nat), iniServed d ini = true → debugShut d ini = false → blockOf page = some (b, i) → 8 ≤ off → off < 128 → readClears b off = true → (regAt page off).isSome = true → gb d (FOLIO_GROUP.SHV page) = false → 
      Does (.readClearCounter ini page off) s [] [page * 256 + off] fun e => rd e (page * 256 + off) = 0) ∧
    (∀ (ini : Initiator) (page off : Nat) (v : Word) (b : Blk) (i : Nat), Open ini page s → blockOf page = some (b, i) → b ≠ .flashc → b ≠ .dbg → (guardedAt page (off % 128)).isSome = true → 
      Does (.quoinValueWrite ini page off v) s [.folio] [] fun e => e.folio.quoin = d.folio.quoin ++ [⟨page, off % 128, ini, v, d.now⟩] ∧ e.folio.shadows = d.folio.shadows) ∧
    (∀ (ini : Initiator) (page off : Nat) (v : Word) (b : Blk) (i : Nat) (r : RegDef) (t : Nat), iniServed d ini = true → hostBarred d ini = false → debugShut d ini = false → gb d (FOLIO_STAT.BRST_PEND page) = false → d.galley.cmds = [] → blockOf page = some (b, i) → b ∈ plainBlocks → 16 ≤ off → off < 128 → guardedAt page off = some r → r.staged = false → quoinOf d page ini = some ⟨page, off, ini, v, t⟩ → d.now < t + 4096 → verdict ini b i off (rd d (page * 256 + off)) (v &&& (r.mask .rw ||| r.mask .wo ||| r.mask .w1c)) s = .ok → 
      Does (.quoinComplementWrite ini page off (~~~v)) s [.folio, .twin] [page * 256 + off] fun e =>
        Lands r (rd d (page * 256 + off)) v (rd e (page * 256 + off)) ∧ quoinOf e page ini = none ∧ e.folio.shadows = d.folio.shadows) ∧
    (∀ (ini : Initiator) (page off : Nat) (v w : Word) (b : Blk) (i : Nat) (t : Nat), iniServed d ini = true → hostBarred d ini = false → debugShut d ini = false → gb d (FOLIO_STAT.BRST_PEND page) = false → d.galley.cmds = [] → blockOf page = some (b, i) → b ≠ .flashc → b ≠ .dbg → off < 128 → (guardedAt page off).isSome = true → quoinOf d page ini = some ⟨page, off, ini, v, t⟩ → d.now < t + 4096 → w ≠ ~~~v → 
      Does (.quoinComplementWrite ini page off w) s [.folio] [FOLIO_STAT.at page, FOLIO_EVT.at page, SYS_FOLIOERR.at] fun e =>
        gb e (FOLIO_STAT.QUOIN_ERR page) = true ∧ gf e (FOLIO_STAT.QCAUSE page) = 1 ∧ gf e (FOLIO_STAT.QOFF page) = off ∧ quoinOf e page ini = none ∧
        bit (rd e (FOLIO_EVT.at page)) 32 = true) ∧
    (∀ (ini : Initiator) (page : Nat) (q : QuoinPend), quoinOf d page ini = some q → q.tick + 4096 ≤ d.now → 
      Does (.quoinTimeout ini page) s [.folio] [FOLIO_STAT.at page, FOLIO_EVT.at page, SYS_FOLIOERR.at] fun e =>
        gb e (FOLIO_STAT.QUOIN_ERR page) = true ∧ gf e (FOLIO_STAT.QCAUSE page) = 4 ∧ gf e (FOLIO_STAT.QOFF page) = q.off % 256 ∧ quoinOf e page ini = none ∧
        bit (rd e (FOLIO_EVT.at page)) 32 = true)

/-- R50, R54, R55, R59, R73, R471: FOLIO_CTL.EN, block reset and its release, FOLIO_GROUP, a strobe that fires at S + 4, a strobe source that counts from the next tick, and an applied group. -/
def Obligations.HeadersAndGroups : Prop :=
  ∀ s : State, Calm s →
    let d := s.dev
    (∀ (ini : Initiator) (page : Nat) (en : Bool) (b : Blk) (i : Nat), Open ini page s → blockOf page = some (b, i) → b ∈ [.eth, .canf, .uart, .spi, .i2c, .avs, .gpio, .tsc] → 
      Does (.blockEnable ini page en) s [.twin] [FOLIO_CTL.at page] fun e => gb e (FOLIO_CTL.EN page) = en) ∧
    (∀ (ini : Initiator) (u : Fin 24), Open ini (0x60 + u) s → gb d (FOLIO_CTL.EN (0x60 + u)) = false → 
      Completes (.blockEnable ini (0x60 + u.val) true) s fun t => t.mem = s.mem ∧ gb t.dev (FOLIO_CTL.EN (0x60 + u)) = true ∧ (survOf t.dev u).readyFrom = d.now ∧ (survOf t.dev u).seq = []) ∧
    (∀ (ini : Initiator) (page : Nat) (b : Blk) (i : Nat), Open ini page s → blockOf page = some (b, i) → b ∈ [.eth, .canf, .uart, .spi, .i2c] → 
      Does (.blockReset ini page) s [.folio, .galley, .eth, .can, .ser] ((upTo 128).map (page * 256 + ·)) fun e =>
        (∀ off ∈ upTo 128, 5 ≤ off → rd e (page * 256 + off) = regReset (page * 256 + off)) ∧ gb e (FOLIO_CTL.EN page) = false ∧
        gb e (FOLIO_STAT.BRST_PEND page) = !gb d MERID_STAT.LOCK ∧ (∀ q ∈ e.folio.quoin, q.page ≠ page) ∧ e.folio.fires = d.folio.fires) ∧
    (∀ (page t : Nat), tabFind d.folio.brst page = some (some t) → t ≤ d.now → page / 16 ≠ 1 → 
      Does (.blockResetRelease page) s [.folio] [FOLIO_STAT.at page] fun e => gb e (FOLIO_STAT.BRST_PEND page) = false ∧ tabFind e.folio.brst page = none ∧ e.folio.shadows = d.folio.shadows) ∧
    (∀ (ini : Initiator) (page : Nat) (v : Word) (b : Blk) (i : Nat), Open ini page s → blockOf page = some (b, i) → fld v 4 0 ≠ 31 ∨ gf d (FOLIO_GROUP.GRP page) = 31 → 
      Does (.folioGroupWrite ini page v) s [.twin] [FOLIO_GROUP.at page] fun e =>
        gf e (FOLIO_GROUP.GRP page) = (if fld v 4 0 < 16 ∨ fld v 4 0 = 31 then fld v 4 0 else gf d (FOLIO_GROUP.GRP page)) ∧
        gf e (FOLIO_GROUP.CGRP page) = (if b.crit then fld v 11 8 else gf d (FOLIO_GROUP.CGRP page)) ∧ gb e (FOLIO_GROUP.SHV page) = bit v 7) ∧
    (∀ (ini : Initiator) (m : BitVec 16), Open ini 0 s → 
      Does (.sysStrobe ini m) s [.folio] [SYS_STROBE.at] fun e => e.folio.shadows = d.folio.shadows ∧
        (∀ x ∈ e.folio.fires, x ∈ d.folio.fires ∨ (x.1 < 16 ∧ m.getLsbD x.1 = true ∧ x.2 = d.now + 4)) ∧
        (∀ x ∈ d.folio.fires, x ∈ e.folio.fires) ∧ ∀ g ∈ upTo 16, m.getLsbD g = true → (g, d.now + 4) ∈ e.folio.fires) ∧
    (∀ (ini : Initiator) (g : Fin 16) (v : Word), Open ini 0 s → fld v 11 9 ≤ 4 → (1 ≤ fld v 11 9 → fld v 11 9 ≤ 3 → fld v 5 0 ≤ 15) → 
      Does (.strobesrcWrite ini g v) s [.folio] [SYS_STROBESRC.at g] fun e =>
        fld (rd e (SYS_STROBESRC.at g)) 11 9 = fld v 11 9 ∧ fld (rd e (SYS_STROBESRC.at g)) 5 0 = fld v 5 0 ∧ fld (rd e (SYS_STROBESRC.at g)) 19 12 = fld v 19 12 ∧
        tabGet 0 e.folio.divCnt g = 0 ∧ strobeSrc e g = strobeSrc d g ∧ (∀ h ∈ upTo 16, h ≠ g.val → tabGet 0 e.folio.divCnt h = tabGet 0 d.folio.divCnt h) ∧
        strobeSrc { e with now := e.now + 1 } g = rd e (SYS_STROBESRC.at g)) ∧
    (∀ (g : Fin 16) (u : Fin 24) (k : Fin 16) (w : Word) (a n : Nat), d.folio.fires = [(g.val, a)] → a ≤ d.now → d.folio.shadows = [(SURV_GAIN.at u k, ⟨[(n, ⟨w, w, w⟩)]⟩)] → n + 2 ≤ a → gf d (FOLIO_GROUP.CGRP (0x60 + u)) = g → (∀ f ∈ upTo 16, gf d (FORME_SYNC.SSRC f) ≠ 1) → 
      Completes (.groupApply g) s fun t => t.mem = s.mem ∧ rd t.dev (SURV_GAIN.at u k) = w ∧ t.dev.folio.shadows = [] ∧ t.dev.folio.fires = [] ∧
        gb t.dev (FOLIO_STAT.STAGED (0x60 + u)) = false)

/-- R80, R81, R82, R78: a trigger makes a request or is lost, software triggers the slots whose TSRC names it, the unit commits on time or late or skips, the sampling instant stamps the conversion. R84, R86, R87, R89, R92, R93, R94: a completed conversion gives its result word and goes to its latch, a read clears NEW and captures the timestamp, calibration, supply and readiness follow their rules. -/
def Obligations.SurveyUnits : Prop :=
  ∀ s : State, Calm s →
    let d := s.dev
    (∀ (u : Fin 24) (k : Fin 16) (t : Nat), d.trigRaw = [] → (d.trigDue.find? (fun x => decide (x.1 = 16 * u.val + k.val)) = some (16 * u.val + k.val, t)) → gbit d (SURV_SHEETEN.EN u) k = true → gb d (SURV_STAT.RDY u) = true → gb d (SURV_STAT.CALBUSY u) = false → slotBusy (survOf d u) k t = false → gf d (SURV_TRIG.TSRC u k) ≠ 7 → 
      Does (.surveyTrigger u k) s [.surv, .trigDue] [] fun e => e.trigDue = d.trigDue.erase (16 * u.val + k.val, t) ∧
        (survOf e u).convs = (survOf d u).convs ∧ (survOf e u).reqs = (survOf d u).reqs ++
          [{ slot := k, req := t + max (gf d (SURV_TRIG.DLY u k)) (max 16 (gf d (SURV_CFG.ACQ u k))), late := false, cfg := rd d (SURV_CFG.at u k)
             dst := rd d (SURV_DEST.at u k), gain := (rd d (SURV_GAIN.at u k)).setWidth 32, ofs := (rd d (SURV_OFS.at u k)).setWidth 32 }]) ∧
    (∀ (u : Fin 24) (k : Fin 16) (t : Nat), d.trigRaw = [] → (d.trigDue.find? (fun x => decide (x.1 = 16 * u.val + k.val)) = some (16 * u.val + k.val, t)) → gbit d (SURV_SHEETEN.EN u) k = true → gb d (SURV_STAT.RDY u) = true → gb d (SURV_STAT.CALBUSY u) = false → slotBusy (survOf d u) k t = true → 
      Does (.surveyTrigger u k) s [.trigDue] [SURV_CNT.at u, FOLIO_EVT.at (0x60 + u)] fun e => e.trigDue = d.trigDue.erase (16 * u.val + k.val, t) ∧
        gf e (SURV_CNT.LOST u) = min 4095 (gf d (SURV_CNT.LOST u) + 1) ∧ Raised d e (0x60 + u) 6) ∧
    (∀ (ini : Initiator) (u : Fin 24) (v : Word), Open ini (0x60 + u) s → 
      Does (.survSwtrig ini u v) s [.trigRaw, .twin] [SURV_SWTRIG.at u] fun e => e.trigRaw = d.trigRaw ++ [⟨swSurvCode, u, fld v 15 0, d.now⟩]) ∧
    (∀ (u : Fin 24) (k : Fin 16) (m t : Nat), d.trigRaw = [⟨swSurvCode, u.val, m, t⟩] → d.trigDue = [] → bit (BitVec.ofNat 36 m) k = true → gf d (SURV_TRIG.TSRC u k) = 6 → gbit d (SURV_SHEETEN.EN u) k = true → gb d (SURV_STAT.RDY u) = true → gb d (SURV_STAT.CALBUSY u) = false → slotBusy (survOf d u) k t = false → 
      Does (.surveyTrigger u k) s [.surv, .trigRaw, .trigDue] [] fun e => e.trigRaw = [] ∧ (survOf e u).convs = (survOf d u).convs ∧
        (survOf e u).reqs = (survOf d u).reqs ++ [mkReq d u k t]) ∧
    (∀ (u : Fin 24) (r : SurvReq), (survOf d u).reqs = [r] → r.late = false → d.now + acqOf r.cfg = r.req → unitOpen (survOf d u) d.now = true → freeAt (survOf d u) r ≤ r.req → (∀ v ∈ (survOf d u).convs, v.taken = nOf v.r.cfg ∨ d.now < v.ts + v.taken * deltaOf v.r.cfg) → 
      Does (.surveyCommit u) s [.surv] [] fun e => (survOf e u).reqs = [] ∧ (survOf e u).convs = (survOf d u).convs ++ [⟨r, r.req, 0, 0, false, false⟩] ∧
        (survOf e u).last = some (r.req + (nOf r.cfg - 1) * deltaOf r.cfg, tcycOf r.cfg)) ∧
    (∀ (u : Fin 24) (r : SurvReq), (survOf d u).reqs = [r] → r.late = false → r.req < d.now + acqOf r.cfg → unitOpen (survOf d u) d.now = true → freeAt (survOf d u) r ≤ d.now + acqOf r.cfg → (∀ v ∈ (survOf d u).convs, v.taken = nOf v.r.cfg ∨ d.now < v.ts + v.taken * deltaOf v.r.cfg) → 
      Does (.surveyCommit u) s [.surv] [SURV_CNT.at u, FOLIO_EVT.at (0x60 + u)] fun e => (survOf e u).reqs = [] ∧
        (if bit r.cfg 23 then (survOf e u).convs = (survOf d u).convs ∧ gf e (SURV_CNT.SKIP u) = min 4095 (gf d (SURV_CNT.SKIP u) + 1) ∧ Raised d e (0x60 + u) 5
         else (survOf e u).convs = (survOf d u).convs ++ [⟨{ r with late := true }, d.now + acqOf r.cfg, 0, 0, false, false⟩] ∧
           gf e (SURV_CNT.LATE u) = min 4095 (gf d (SURV_CNT.LATE u) + 1) ∧ Raised d e (0x60 + u) 4)) ∧
    (∀ (u : Fin 24) (v : SurvConv), (survOf d u).convs = [v] → v.taken < nOf v.r.cfg → v.ts + v.taken * deltaOf v.r.cfg ≤ d.now → gf d (SURV_TRIG.TSRC u ((v.r.slot + 1) % 16)) ≠ 7 → 
      Does (.samplingInstant u) s [.surv] [] fun e => (survOf e u).reqs = (survOf d u).reqs ∧
        (survOf e u).convs = [{ v with taken := v.taken + 1, stamp := if v.taken = 0 then shortTs d else v.stamp, lowA := v.lowA || gb d (SURV_STAT.LOWA u) }]) ∧
    (∀ (u : Fin 24) (outs : List Nat) (v : SurvConv) (rest : List SurvConv), (survOf d u).convs = v :: rest → v.r.slot < 16 → v.taken = nOf v.r.cfg → v.lastInstant + tconvOf v.r.cfg + 2 ≤ d.now → d.now < v.lastInstant + tconvOf v.r.cfg + 12 → d.landings = [] → v.quiet = false → outs.length = nOf v.r.cfg → (∀ x ∈ outs, x < if bit v.r.cfg 24 then 4096 else 65536) → 
      Does (.surveyResult u outs) s [.surv, .arrivals, .landings] [SURV_RES.at u v.r.slot, FOLIO_EVT.at (0x60 + u)] fun e =>
        (survOf e u).convs = rest ∧ bit (rd e (SURV_RES.at u v.r.slot)) 35 = true ∧
        fld (rd e (SURV_RES.at u v.r.slot)) 24 0 = ((outs.take (nOf v.r.cfg)).foldl (fun a x => a + if bit v.r.cfg 24 then 16 * x else x) 0 * 64 / nOf v.r.cfg) % 2 ^ 25 ∧
        fld (rd e (SURV_RES.at u v.r.slot)) 31 25 = tabGet 0 (survOf d u).seq v.r.slot % 128 ∧
        bit (rd e (SURV_RES.at u v.r.slot)) 34 = v.r.late ∧ bit (rd e (SURV_RES.at u v.r.slot)) 32 = v.lowA ∧
        tabGet 0 (survOf e u).seq v.r.slot = (tabGet 0 (survOf d u).seq v.r.slot + 1) % 128 ∧
        tabGet 0 (survOf e u).stamps v.r.slot = v.stamp + BitVec.ofNat 36 ((nOf v.r.cfg - 1) * deltaOf v.r.cfg / 2) ∧
        (if bit v.r.dst 35 then (e.arrivals.map fun a => (a.eng, a.lat, a.tick)) =
           (d.arrivals.map fun a => (a.eng, a.lat, a.tick)) ++ [(fld v.r.dst 31 26, fld v.r.dst 25 24, v.lastInstant + tconvOf v.r.cfg + 12)] else e.arrivals = d.arrivals) ∧
        e.landings.map (fun l => (l.tick, l.unit)) = if bit v.r.dst 34 then [(v.lastInstant + tconvOf v.r.cfg + 12, u.val)] else []) ∧
    (∀ (u : Fin 24) (outs : List Nat) (v : SurvConv) (rest : List SurvConv), (survOf d u).convs = v :: rest → v.taken = nOf v.r.cfg → v.lastInstant + tconvOf v.r.cfg ≤ d.now → d.now < v.lastInstant + tconvOf v.r.cfg + 2 → (∀ l ∈ d.landings, d.now < l.tick) → v.quiet = false → 
      Does (.surveyResult u outs) s [.surv, .arrivals, .landings] [FOLIO_EVT.at (0x60 + u)] fun e =>
        (survOf e u).convs = rest ∧ (v.lastInstant + tconvOf v.r.cfg + 2, u.val) ∈ e.landings.map (fun l => (l.tick, l.unit)) ∧
        (bit v.r.dst 34 = true → (v.lastInstant + tconvOf v.r.cfg + 12, u.val) ∈ e.landings.map (fun l => (l.tick, l.unit))) ∧ (∀ l ∈ d.landings, l ∈ e.landings)) ∧
    (∀ (ini : Initiator) (u : Fin 24) (k : Fin 16), iniServed d ini = true → debugShut d ini = false → 
      Does (.survResRead ini u k) s [] [SURV_RES.at u k, SURV_RESTS.at u] fun e => rd e (SURV_RES.at u k) = setBitW (rd d (SURV_RES.at u k)) 35 false ∧
        rd e (SURV_RESTS.at u) = tabGet 0 (survOf d u).stamps k) ∧
    (∀ (ini : Initiator) (u : Fin 24) (v : Word), Open ini (0x60 + u) s → mode d = mConfig ∨ mode d = mStandby ∨ mode d = mRecovery → 
      Does (.survCalreq ini u v) s [.twin] [SURV_CALREQ.at u, SURV_STAT.at u] fun e => gb e (SURV_STAT.CALBUSY u) = (bit v 0 || gb d (SURV_STAT.CALBUSY u)) ∧
        gb e (SURV_STAT.CAL_OK u) = gb d (SURV_STAT.CAL_OK u)) ∧
    (∀ (u : Fin 24), gb d (SURV_STAT.CALBUSY u) = true → 
      Does (.calDone u) s [] [SURV_STAT.at u, FOLIO_EVT.at (0x60 + u)] fun e => gb e (SURV_STAT.CALBUSY u) = false ∧ gb e (SURV_STAT.CAL_OK u) = true ∧ Raised d e (0x60 + u) 10) ∧
    (∀ (low : Bool), 
      Does (.vddaLow low) s [.vdda] ((upTo 24).flatMap (fun u => [SURV_STAT.at u, FOLIO_EVT.at (0x60 + u)]) ++ (upTo 4).flatMap fun g => [CONT_STAT.at g, FOLIO_EVT.at (0x7C + g)]) fun e =>
        e.vddaLow = low ∧ (∀ u ∈ upTo 24, gb e (SURV_STAT.LOWA u) = (low && !gb d (SURV_CTL.VREF u)) ∧
          (low = true → gb d (SURV_CTL.VREF u) = false → gb d (SURV_STAT.LOWA u) = false → Raised d e (0x60 + u) 9)) ∧
        ∀ g ∈ upTo 4, gb e (CONT_STAT.LOWA g) = (low && !gb d (CONT_GCTL.VREF g))) ∧
    (∀ (u : Fin 24), gb d (FOLIO_CTL.EN (0x60 + u)) = true → mode d ≠ mStart → mode d ≠ mPark → gb d (SURV_STAT.RDY u) = false → (survOf d u).readyFrom + 20000 ≤ d.now → 
      Does (.survReady u) s [] [SURV_STAT.at u, FOLIO_EVT.at (0x60 + u)] fun e => gb e (SURV_STAT.RDY u) = true ∧ Raised d e (0x60 + u) 12)

/-- R97, R99, R100, R102: loss of the modulator clock stops a channel and clears its filter, its return starts the first-use fill, a trigger resets the decimation counter at T + DLY, a window gives a result word. -/
def Obligations.SigmaDelta : Prop :=
  ∀ s : State, Calm s →
    let d := s.dev
    (∀ (n : Fin 16), gb d (FOLIO_CTL.EN (0x78 + n / 4)) = true → (gb d (SDF_CTL.EN (n / 4) (n % 4)) || gb d (SDF_FDCTL.EN (n / 4) (n % 4))) = true → mode d ≠ mStart → mode d ≠ mPark → gb d (SDF_CTL.CKOUT (n / 4) (n % 4)) = false → sdfLoss d n = false → (sdfOf d n).edgeAt + 400 ≤ d.now → 
      Does (.sdfClockLoss n) s [.sdf, .fd, .trip] [SDF_STAT.at (n / 4), FOLIO_EVT.at (0x78 + n / 4), SDF_FDSTAT.at (n / 4), TRIPNET_LIVE.at 2] fun e =>
        sdfLoss e n = true ∧ (sdfOf e n).bits = [] ∧ (sdfOf e n).sync = [] ∧ Raised d e (0x78 + n / 4) (4 * (n % 4) + 1)) ∧
    (∀ (n : Fin 16), sdfLoss d n = true → 
      Does (.sdfClockReturn n) s [.sdf, .fd, .trip] [SDF_STAT.at (n / 4), SDF_FDSTAT.at (n / 4), TRIPNET_LIVE.at 2] fun e =>
        sdfLoss e n = false ∧ (sdfOf e n).bits = [] ∧ (sdfOf e n).afterLoss = true) ∧
    (∀ (n : Fin 16) (t : Nat), gb d (FOLIO_CTL.EN (0x78 + n / 4)) = true → gb d (SDF_CTL.EN (n / 4) (n % 4)) = true → mode d ≠ mStart → mode d ≠ mPark → (sdfOf d n).readyFrom + 20000 ≤ d.now → d.trigRaw = [] → gb d (SDF_CTL.SYNC (n / 4) (n % 4)) = true → (d.trigDue.find? (fun x => decide (x.1 = 0x1000 + n.val)) = some (0x1000 + n.val, t)) → 
      Does (.sdfTrigger n) s [.sdf, .trigDue] [] fun e => (sdfOf e n).sync = (sdfOf d n).sync ++ [(t + gf d (SDF_TRIG.DLY (n / 4) (n % 4)), sdfCfgOf d n)] ∧ (sdfOf e n).bits = (sdfOf d n).bits) ∧
    (∀ (n : Fin 16) (t : Nat), gb d (FOLIO_CTL.EN (0x78 + n / 4)) = true → gb d (SDF_CTL.EN (n / 4) (n % 4)) = true → mode d ≠ mStart → mode d ≠ mPark → (sdfOf d n).readyFrom + 20000 ≤ d.now → d.trigRaw = [⟨swSdfCode, n.val, 0, t⟩] → d.trigDue = [] → gf d (SDF_TRIG.TSRC (n / 4) (n % 4)) = 6 → gb d (SDF_CTL.SYNC (n / 4) (n % 4)) = true → 
      Does (.sdfTrigger n) s [.sdf, .trigRaw, .trigDue] [] fun e => e.trigRaw = [] ∧ e.trigDue = [] ∧
        (sdfOf e n).sync = (sdfOf d n).sync ++ [(t + gf d (SDF_TRIG.DLY (n / 4) (n % 4)), sdfCfgOf d n)] ∧ (sdfOf e n).bits = (sdfOf d n).bits) ∧
    (∀ (ini : Initiator) (n : Fin 16) (v : Word), Open ini (0x78 + n / 4) s → 
      Does (.sdfSwtrig ini n v) s [.trigRaw, .twin] [SDF_SWTRIG.at (n / 4) (n % 4)] fun e => e.trigRaw = if bit v 0 then d.trigRaw ++ [⟨swSdfCode, n, 0, d.now⟩] else d.trigRaw) ∧
    (∀ (n : Fin 16) (age : Nat) (level : Bool), gb d (FOLIO_CTL.EN (0x78 + n / 4)) = true → gb d (SDF_CTL.EN (n / 4) (n % 4)) = true → mode d ≠ mStart → mode d ≠ mPark → (sdfOf d n).readyFrom + 20000 ≤ d.now → sdfLoss d n = false → gb d (SDF_CTL.SYNC (n / 4) (n % 4)) = false → (sdfOf d n).sync = [] → sdEdgeAt d n (d.now - age) = true → d.landings = [] → 9 ≤ age → age < 16 → age ≤ d.now → gf d (SDF_CTL.OSRM1 (n / 4) (n % 4)) ≤ (sdfOf d n).count → gf d (SDF_CTL.ORD (n / 4) (n % 4)) * (gf d (SDF_CTL.OSRM1 (n / 4) (n % 4)) + 1) ≤ (sdfOf d n).bits.length + 1 → 
      Does (.sdfResult n [⟨age, gb d (SDF_CTL.CKEDGE (n / 4) (n % 4)), level⟩]) s [.sdf, .arrivals, .landings] [SDF_RES.at (n / 4) (n % 4), FOLIO_EVT.at (0x78 + n / 4)] fun e =>
        let r := sincOut (gf d (SDF_CTL.ORD (n / 4) (n % 4))) (gf d (SDF_CTL.OSRM1 (n / 4) (n % 4)) + 1) (level :: (sdfOf d n).bits.map (·.1))
        let full := (gf d (SDF_CTL.OSRM1 (n / 4) (n % 4)) + 1) ^ gf d (SDF_CTL.ORD (n / 4) (n % 4))
        bit (rd e (SDF_RES.at (n / 4) (n % 4))) 35 = true ∧ bit (rd e (FOLIO_EVT.at (0x78 + n / 4))) (4 * (n % 4)) = true ∧
        fld (rd e (SDF_RES.at (n / 4) (n % 4))) 24 0 = r % 2 ^ 25 ∧ (bit (rd e (SDF_RES.at (n / 4) (n % 4))) 33 = true ↔ r = 0 ∨ r = full) ∧
        bit (rd e (SDF_RES.at (n / 4) (n % 4))) 34 = (sdfOf d n).afterLoss ∧
        fld (rd e (SDF_RES.at (n / 4) (n % 4))) 31 25 = (sdfOf d n).seq % 128 ∧ (sdfOf e n).seq = ((sdfOf d n).seq + 1) % 128 ∧ (sdfOf e n).count = 0 ∧
        (if bit (rd d (SDF_DEST.at (n / 4) (n % 4))) 35 then
          (e.arrivals.map fun a => a.tick) = (d.arrivals.map fun a => a.tick) ++ [d.now - age + (if gb d (SDF_CTL.CKOUT (n / 4) (n % 4)) then 4 else 7) + 12]
         else e.arrivals = d.arrivals)) ∧
    (∀ (n : Fin 16) (age : Nat) (level : Bool), gb d (FOLIO_CTL.EN (0x78 + n / 4)) = true → gb d (SDF_CTL.EN (n / 4) (n % 4)) = true → mode d ≠ mStart → mode d ≠ mPark → (sdfOf d n).readyFrom + 20000 ≤ d.now → sdfLoss d n = false → gb d (SDF_CTL.SYNC (n / 4) (n % 4)) = false → (sdfOf d n).sync = [] → sdEdgeAt d n (d.now - age) = true → (∀ l ∈ d.landings, d.now < l.tick) → (sdfOf d n).count < gf d (SDF_CTL.OSRM1 (n / 4) (n % 4)) → 
      Does (.sdfResult n [⟨age, gb d (SDF_CTL.CKEDGE (n / 4) (n % 4)), level⟩]) s [.sdf] [] fun e =>
        (sdfOf e n).count = (sdfOf d n).count + 1 ∧ (sdfOf e n).bits = ((level, d.now - age) :: (sdfOf d n).bits).take 769 ∧ (sdfOf e n).seq = (sdfOf d n).seq) ∧
    (∀ (ini : Initiator) (n : Fin 16), iniServed d ini = true → debugShut d ini = false → 
      Does (.sdfResRead ini n) s [] [SDF_RES.at (n / 4) (n % 4), SDF_RESTS.at (n / 4) (n % 4)] fun e =>
        rd e (SDF_RES.at (n / 4) (n % 4)) = setBitW (rd d (SDF_RES.at (n / 4) (n % 4))) 35 false ∧ rd e (SDF_RESTS.at (n / 4) (n % 4)) = (sdfOf d n).stamp)

/-- R106, R107, R108, R109, R111, R112: HI and LO follow the compared quantity with hysteresis, blanking masks the trip source until its end, a ramp loads its DAC, a group becomes ready after 10 µs, a fast detector follows its counts. -/
def Obligations.Comparators : Prop :=
  ∀ s : State, Calm s →
    let d := s.dev
    (∀ (k : Fin 64) (vp vn : Nat), (compOf d k).hLoads = [] → (compOf d k).lLoads = [] → (compOf d k).meas = none → 
      Does (.contourCrossing k vp vn) s [.comp, .evc, .trip, .ain] [CONT_LEVEL.at (k / 16), TRIPNET_LIVE.at (k / 32)] fun e =>
        let p := 36 * (k / 16) + gf d (CONT_CFG.PSEL (k / 16) (k % 16))
        let m := gf d (CONT_CFG.NSEL (k / 16) (k % 16))
        let vm := if m = 0x3F then 0 else vn
        let v := if m ≠ 0x3F ∧ 36 * (k / 16) + m = p then vn else vp
        let q : Int := ((v : Int) - vm) * 4096 + if m = 0x3F then 0 else 2048 * (vrefOf d (k / 16) : Int)
        tabGet 0 e.ain p = v ∧ (m ≠ 0x3F → tabGet 0 e.ain (36 * (k / 16) + m) = vn) ∧
        contHi e k = (compOn d k && (decide (q > ((compOf d k).hUse : Int) * (vrefOf d (k / 16) : Int)) || (contHi d k && decide (q ≥ (((compOf d k).hUse : Int) - gf d (CONT_CFG.HYS (k / 16) (k % 16))) * (vrefOf d (k / 16) : Int))))) ∧
        contLo e k = (compOn d k && (decide (q < ((compOf d k).lUse : Int) * (vrefOf d (k / 16) : Int)) || (contLo d k && decide (q ≤ (((compOf d k).lUse : Int) + gf d (CONT_CFG.HYS (k / 16) (k % 16))) * (vrefOf d (k / 16) : Int))))) ∧
        live e k = (compOn d k && !gb d (CONT_CFG.MODE (k / 16) (k % 16)) && !contBlanked d k && tripSel (gf d (CONT_CFG.TRIPSEL (k / 16) (k % 16))) (contHi e k) (contLo e k)) ∧
        (live d k = false → live e k = true → (k.val, d.now) ∈ e.trip.due)) ∧
    (∀ (k : Fin 64), contBlanked d k = true → (compOf d k).blankTo ≤ d.now → 
      Does (.blankingEnd k) s [.evc, .trip] [CONT_STAT.at (k / 16), TRIPNET_LIVE.at (k / 32)] fun e => contBlanked e k = false ∧
        live e k = (compOn d k && !gb d (CONT_CFG.MODE (k / 16) (k % 16)) && tripSel (gf d (CONT_CFG.TRIPSEL (k / 16) (k % 16))) (contHi d k) (contLo d k))) ∧
    (∀ (k : Fin 64) (t0 slope r : Nat), (compOf d k).ramp = some (t0, slope, r) → (d.now - t0) % 4 = 0 → (compOf d k).loadAt ≠ some d.now → (compOf d k).hLoads = [] → (compOf d k).lLoads = [] → (compOf d k).meas = none → 
      Does (.slopeDacLoad k) s [.comp, .evc, .trip, .free] [CONT_LEVEL.at (k / 16), TRIPNET_LIVE.at (k / 32)] fun e => (compOf e k).loadAt = some d.now ∧
        (compOf e k).hLoads = [(d.now + 30, gf d (CONT_THR.THRH (k / 16) (k % 16)) - slope * (d.now - t0) / 65536)] ∧ (compOf e k).ramp = some (t0, slope, r)) ∧
    (∀ (g : Fin 4), gb d (FOLIO_CTL.EN (0x7C + g)) = true → mode d ≠ mStart → mode d ≠ mPark → gb d (CONT_STAT.RDY g) = false → tabGet 0 d.contFrom g + 10000 ≤ d.now → 
      Completes (.contourReady g) s fun t => t.mem = s.mem ∧ t.dev.core = d.core ∧ gb t.dev (CONT_STAT.RDY g) = true ∧ bit (rd t.dev (FOLIO_EVT.at (0x7C + g))) 2 = true ∧ t.dev.contFrom = d.contFrom) ∧
    (∀ (n : Fin 16) (edges : List SdEdge), sdfLoss d n = false → (∀ x ∈ edges, sdEdgeAt d n (d.now - x.age) = true) → gb d (SDF_FDCTL.EN (n / 4) (n % 4)) = true → gb d (FOLIO_CTL.EN (0x78 + n / 4)) = true → mode d ≠ mStart → mode d ≠ mPark → gf d (SDF_FDCTL.FM (n / 4) (n % 4)) ≤ 32 → (gf d (SDF_FDCTL.PERS (n / 4) (n % 4)) < (edges.filter fun x => x.falling == gb d (SDF_CTL.CKEDGE (n / 4) (n % 4))).length) → (gf d (SDF_FDCTL.FM (n / 4) (n % 4)) + gf d (SDF_FDCTL.PERS (n / 4) (n % 4)) ≤ (edges.filter fun x => x.falling == gb d (SDF_CTL.CKEDGE (n / 4) (n % 4))).length + (fdOf d n).bits.length) → 
      Does (.fastDetectorChange n edges) s [.fd, .sdf, .trip] [SDF_FDSTAT.at (n / 4), TRIPNET_LIVE.at 2] fun e =>
        let bits := ((edges.filter fun x => x.falling == gb d (SDF_CTL.CKEDGE (n / 4) (n % 4))).map fun x => x.level).reverse ++ (fdOf d n).bits
        let ones := fun (i : Nat) => ((bits.drop i).take (gf d (SDF_FDCTL.FM (n / 4) (n % 4)))).countP id
        let last := upTo (gf d (SDF_FDCTL.PERS (n / 4) (n % 4)) + 1)
        let hi := gf d (SDF_FDTHR.FDHI (n / 4) (n % 4))
        let lo := gf d (SDF_FDTHR.FDLO (n / 4) (n % 4))
        ((∀ i ∈ last, hi ≤ ones i) → gbit e (SDF_FDSTAT.HI (n / 4)) (n % 4) = true) ∧
        ((∀ i ∈ last, ones i < hi) → gbit e (SDF_FDSTAT.HI (n / 4)) (n % 4) = false) ∧
        ((∀ i ∈ last, ones i ≤ lo) → gbit e (SDF_FDSTAT.LO (n / 4)) (n % 4) = true) ∧
        ((∀ i ∈ last, lo < ones i) → gbit e (SDF_FDSTAT.LO (n / 4)) (n % 4) = false) ∧
        live e (64 + n) = tripSel (gf d (SDF_FDCTL.TRIPSEL (n / 4) (n % 4))) (gbit e (SDF_FDSTAT.HI (n / 4)) (n % 4)) (gbit e (SDF_FDSTAT.LO (n / 4)) (n % 4)))

/-- R113, R117, R119, R121, R126: a trip input drives its source through its filter, a due source latches its classes on the Formes its routes name and cuts their outputs, a clear clears what has no active source, a software trip arrives 4 tk later, a route word acts from the next tick. -/
def Obligations.TripNetwork : Prop :=
  ∀ s : State, Calm s →
    let d := s.dev
    (∀ (p : Fin 32) (lv : Bool), tabGet false d.trip.pins p ≠ lv → 
      Does (.tripinChange p lv) s [.trip] [TRIPNET_LIVE.at ((80 + p) / 32)] fun e => tabGet false e.trip.pins p = lv ∧ (∀ x ∈ upTo 32, x ≠ p.val → tabGet false e.trip.pins x = tabGet false d.trip.pins x) ∧
        (lv = gbit d TRIPNET_INPOL.POL p → live e (80 + p) = false) ∧
        (lv ≠ gbit d TRIPNET_INPOL.POL p → tabGet 0 e.trip.pinFrom p = d.now ∧ (inFilt d p = 0 → live e (80 + p) = true) ∧ (inFilt d p ≠ 0 → live e (80 + p) = live d (80 + p)))) ∧
    (∀ (p : Fin 32), tabGet false d.trip.pins p ≠ gbit d TRIPNET_INPOL.POL p → live d (80 + p) = false → tabGet 0 d.trip.pinFrom p + inFilt d p ≤ d.now → 
      Does (.tripinFilterQualify p) s [.trip] [TRIPNET_LIVE.at ((80 + p) / 32)] fun e => live e (80 + p) = true ∧ e.trip.due = d.trip.due ++ [(80 + p.val, d.now)]) ∧
    (∀ (x : Fin 179), (d.trip.due.any (fun u => decide (u.1 = x.val ∧ u.2 ≤ d.now)) = true) → x.val ≠ 176 → mode d ≠ mPark → d.rstc.phase = .started → 
      Completes (.tripLatch x) s fun t => t.mem = s.mem ∧ t.dev.core = d.core ∧ t.dev.merid = d.merid ∧ ∀ f ∈ upTo 16,
        gb t.dev (TRIPNET_FSTAT.A f) = (gb d (TRIPNET_FSTAT.A f) || routed (routeOf d x) f 0) ∧
        gb t.dev (TRIPNET_FSTAT.BACT f) = (gb d (TRIPNET_FSTAT.BACT f) || routed (routeOf d x) f 1) ∧
        gb t.dev (TRIPNET_FSTAT.BSEEN f) = (gb d (TRIPNET_FSTAT.BSEEN f) || routed (routeOf d x) f 1) ∧
        gb t.dev (TRIPNET_FSTAT.C f) = (gb d (TRIPNET_FSTAT.C f) || routed (routeOf d x) f 2) ∧
        gb t.dev (TRIPNET_FSTAT.D f) = (gb d (TRIPNET_FSTAT.D f) || routed (routeOf d x) f 3) ∧
        ((routed (routeOf d x) f 0 || routed (routeOf d x) f 1) = true → ∀ n ∈ upTo 4,
          (pairOf t.dev f n).trip = true ∧ (pairOf t.dev f n).oa.on = false ∧ (pairOf t.dev f n).ob.on = false)) ∧
    (∀ (u : Nat), d.trip.swDue = [(u, true)] → u ≤ d.now → live d 176 = false → mode d ≠ mPark → d.rstc.phase = .started → 
      Completes (.tripLatch 176) s fun t => t.mem = s.mem ∧ t.dev.core = d.core ∧ t.dev.merid = d.merid ∧ live t.dev 176 = true ∧ t.dev.trip.swDue = [] ∧ ∀ f ∈ upTo 16,
        gb t.dev (TRIPNET_FSTAT.A f) = (gb d (TRIPNET_FSTAT.A f) || routed (routeOf d 176) f 0) ∧
        gb t.dev (TRIPNET_FSTAT.BACT f) = (gb d (TRIPNET_FSTAT.BACT f) || routed (routeOf d 176) f 1) ∧
        gb t.dev (TRIPNET_FSTAT.BSEEN f) = (gb d (TRIPNET_FSTAT.BSEEN f) || routed (routeOf d 176) f 1) ∧
        gb t.dev (TRIPNET_FSTAT.C f) = (gb d (TRIPNET_FSTAT.C f) || routed (routeOf d 176) f 2) ∧
        gb t.dev (TRIPNET_FSTAT.D f) = (gb d (TRIPNET_FSTAT.D f) || routed (routeOf d 176) f 3) ∧
        ((routed (routeOf d 176) f 0 || routed (routeOf d 176) f 1) = true → ∀ n ∈ upTo 4,
          (pairOf t.dev f n).trip = true ∧ (pairOf t.dev f n).oa.on = false ∧ (pairOf t.dev f n).ob.on = false)) ∧
    (∀ (ini : Initiator) (fs : BitVec 16), Open ini 0x51 s → 
      Does (.tripClearA ini fs) s [.evc, .trav, .trip] ([TRIPNET_CLR.at, FOLIO_EVT.at 0x51] ++ (upTo 16).map fun f => TRIPNET_FSTAT.at f) fun e => { e.trip with clears := d.trip.clears } = d.trip ∧ ∀ f ∈ upTo 16,
        gb e (TRIPNET_FSTAT.A f) = (gb d (TRIPNET_FSTAT.A f) && !(fs.getLsbD f && !classLive d f 0)) ∧ gb e (TRIPNET_FSTAT.C f) = gb d (TRIPNET_FSTAT.C f) ∧
        (fs.getLsbD f = true → gb e (TRIPNET_FSTAT.TRIP_LIVE f) = classLive d f 0) ∧ (fs.getLsbD f = true → classLive d f 0 = true → Raised d e 0x51 0)) ∧
    (∀ (ini : Initiator) (fs : BitVec 16), Open ini 0x51 s → 
      Does (.tripClearB ini fs) s [.evc, .trav, .trip] ([TRIPNET_CLR.at] ++ (upTo 16).map fun f => TRIPNET_FSTAT.at f) fun e => { e.trip with clears := d.trip.clears } = d.trip ∧ ∀ f ∈ upTo 16,
        (fs.getLsbD f = true → gb e (TRIPNET_FSTAT.BSEEN f) = false ∧ gf e (TRIPNET_FSTAT.BCNT f) = 0) ∧ gb e (TRIPNET_FSTAT.BACT f) = gb d (TRIPNET_FSTAT.BACT f) ∧
        gb e (TRIPNET_FSTAT.A f) = gb d (TRIPNET_FSTAT.A f)) ∧
    (∀ (ini : Initiator) (fs : BitVec 16), Open ini 0x51 s → 
      Does (.tripClearC ini fs) s [.evc, .trav, .trip] ([TRIPNET_CLR.at, FOLIO_EVT.at 0x51] ++ (upTo 16).map fun f => TRIPNET_FSTAT.at f) fun e => { e.trip with clears := d.trip.clears } = d.trip ∧ ∀ f ∈ upTo 16,
        gb e (TRIPNET_FSTAT.C f) = (gb d (TRIPNET_FSTAT.C f) && !(fs.getLsbD f && !classLive d f 2)) ∧ gb e (TRIPNET_FSTAT.A f) = gb d (TRIPNET_FSTAT.A f) ∧
        (fs.getLsbD f = true → gb e (TRIPNET_FSTAT.C_LIVE f) = classLive d f 2) ∧ (fs.getLsbD f = true → classLive d f 2 = true → Raised d e 0x51 0)) ∧
    (∀ (ini : Initiator) (fs : BitVec 16), Open ini 0x51 s → 
      Does (.tripClearD ini fs) s [.evc, .trav, .trip] ([TRIPNET_CLR.at] ++ (upTo 16).map fun f => TRIPNET_FSTAT.at f) fun e => { e.trip with clears := d.trip.clears } = d.trip ∧ ∀ f ∈ upTo 16,
        gb e (TRIPNET_FSTAT.D f) = (gb d (TRIPNET_FSTAT.D f) && !fs.getLsbD f) ∧ gb e (TRIPNET_FSTAT.A f) = gb d (TRIPNET_FSTAT.A f)) ∧
    (∀ (ini : Initiator) (act : Bool), Open ini 0x51 s → 
      Does (.swtrip ini act) s [.trip] [TRIPNET_SWTRIP.at] fun e => e.trip.swDue = d.trip.swDue ++ [(d.now + 4, act)] ∧ e.trip.due = d.trip.due) ∧
    (∀ (ini : Initiator) (x : Fin 179) (v : Word), Open ini (routeKey x / 256) s → 
      Does (.routeWordWrite ini x v) s [.trip] [routeKey x] fun e => rd e (routeKey x) = v ∧ routeOf e x = routeOf d x ∧ routeOf { e with now := e.now + 1 } x = v ∧
        e.trip.due = d.trip.due ++ (if live d x then [(x.val, d.now + 1)] else []))

/-- R133, R134, R135, R143, R147, R518: a counter is armed, starts at its tick with its period values and shadows, ends a period and begins the next, stops at a boundary, tells its mid-period and carrier points. Registration groups are quiet where a boundary would fire them. -/
def Obligations.FormeCounters : Prop :=
  ∀ s : State, Calm s →
    let d := s.dev
    (∀ (ini : Initiator) (f : Fin 16), Open ini (0x40 + f) s → mode d ≠ mStart → mode d ≠ mPark → 
      Does (.formeRunStart ini f) s [.forme, .twin] [FORME_RUN.at f, FORME_STAT.at f] fun e => gb e (FORME_RUN.RUN f) = true ∧
        cst e f = (match cst d f with | 0 => 1 | 3 => 2 | c => c) ∧
        (cst d f = 0 → (formeOf e f).startAt = if gf d (FORME_SYNC.SSRC f) = 0 then some (d.now + 4) else none)) ∧
    (∀ (ini : Initiator) (f : Fin 16), Open ini (0x40 + f) s → 
      Does (.formeRunStop ini f) s [.forme, .twin] [FORME_RUN.at f, FORME_STAT.at f] fun e => gb e (FORME_RUN.RUN f) = false ∧
        cst e f = (match cst d f with | 1 => 0 | 2 => 3 | c => c) ∧ (cst d f = 1 → (formeOf e f).startAt = none ∧ gb e (FORME_STAT.CALWAIT f) = false)) ∧
    (∀ (f : Fin 16) (a : Nat), cst d f = 1 → (formeOf d f).startAt = some a → a ≤ d.now → gb d MERID_STAT.CAL_OK = true → 100 ≤ regP d f → QuietGroups d → 
      Completes (.formeCounterStart f) s fun t => t.mem = s.mem ∧ t.dev.core = d.core ∧ cst t.dev f = 2 ∧ gb t.dev (FORME_STAT.CALWAIT f) = false ∧ (formeOf t.dev f).startAt = none ∧
        (formeOf t.dev f).p = regP d f ∧ (formeOf t.dev f).k = gf d (FORME_MODE.PRE f) + 1 ∧ (formeOf t.dev f).cm = gf d (FORME_MODE.CMODE f) ∧
        (formeOf t.dev f).nextB = d.now + regP d f * (gf d (FORME_MODE.PRE f) + 1) - gf d (FORME_SYNC.PHASE f) % regP d f * (gf d (FORME_MODE.PRE f) + 1) ∧
        rd t.dev (FORME_PCNT.at f) = (if gf d (FORME_SYNC.PHASE f) % regP d f = 0 then 1 else 0) ∧
        (∀ n ∈ upTo 4, rd t.dev (FORME_CMPA.at f n) = (pairOf d f n).shA ∧ rd t.dev (FORME_CMPB.at f n) = (pairOf d f n).shB ∧ gbit t.dev (FORME_STAT.PEND f) n = false)) ∧
    (∀ (f : Fin 16) (a : Nat), cst d f = 1 → (formeOf d f).startAt = some a → a ≤ d.now → gb d MERID_STAT.CAL_OK = false → gb d (FORME_STAT.CALWAIT f) = false → QuietGroups d → 
      Does (.formeCounterStart f) s [.forme, .merid] [FORME_STAT.at f, FOLIO_EVT.at (0x40 + f)] fun e => cst e f = 1 ∧ gb e (FORME_STAT.CALWAIT f) = true ∧ Raised d e (0x40 + f) 11) ∧
    (∀ (f : Fin 16), cst d f = 2 → (formeOf d f).nextB ≤ d.now → QuietGroups d → 
      Completes (.formeBoundary f) s fun t => t.mem = s.mem ∧ t.dev.core = d.core ∧ cst t.dev f = 2 ∧ (formeOf t.dev f).p = regP d f ∧ (formeOf t.dev f).k = gf d (FORME_MODE.PRE f) + 1 ∧
        (formeOf t.dev f).cm = gf d (FORME_MODE.CMODE f) ∧ (formeOf t.dev f).nextB = d.now + regP d f * (gf d (FORME_MODE.PRE f) + 1) ∧
        rd t.dev (FORME_PCNT.at f) = rd d (FORME_PCNT.at f) + 1 ∧ rd t.dev (FORME_BTS.at f) = shortTs d ∧ bit (rd t.dev (FOLIO_EVT.at (0x40 + f))) 0 = true ∧
        (∀ n ∈ upTo 4, gbit t.dev (FORME_STAT.PEND f) n = false ∧ (gbit d (FORME_STAT.PEND f) n = true →
          rd t.dev (FORME_CMPA.at f n) = (pairOf d f n).shA ∧ rd t.dev (FORME_CMPB.at f n) = (pairOf d f n).shB ∧ rd t.dev (FORME_HT.at f n) = (pairOf d f n).shHt))) ∧
    (∀ (f : Fin 16), cst d f = 3 → (formeOf d f).nextB ≤ d.now → 
      Completes (.formeCounterStop f) s fun t => t.mem = s.mem ∧ t.dev.core = d.core ∧ cst t.dev f = 0 ∧ bit (rd t.dev (FOLIO_EVT.at (0x40 + f))) 12 = true ∧
        (∀ n ∈ upTo 4, (pairOf t.dev f n).oa.on = false ∧ (pairOf t.dev f n).ob.on = false ∧ (pairOf t.dev f n).ref = false ∧ (pairOf t.dev f n).first = true)) ∧
    (∀ (f : Fin 16), 2 ≤ cst d f → (formeOf d f).midDone = false → (formeOf d f).p / 2 * (formeOf d f).k ≤ formePos (formeOf d f) d.now → QuietGroups d → 
      Completes (.formeMidPeriod f) s fun t => t.mem = s.mem ∧ t.dev.core = d.core ∧ (formeOf t.dev f).midDone = true ∧ bit (rd t.dev (FOLIO_EVT.at (0x40 + f))) 1 = true ∧
        cst t.dev f = cst d f ∧ (formeOf t.dev f).nextB = (formeOf d f).nextB) ∧
    (∀ (f : Fin 16) (pk : Bool), carrierDue d f pk = true → 
      Completes (.carrierEvent f pk) s fun t => t.mem = s.mem ∧ t.dev.core = d.core ∧ bit (rd t.dev (FOLIO_EVT.at (0x40 + f))) (if pk then 3 else 2) = true ∧
        carrierDue t.dev f pk = false ∧ (formeOf t.dev f).nextB = (formeOf d f).nextB ∧ t.dev.trigDue = d.trigDue ∧
        t.dev.trigRaw = d.trigRaw ++ [⟨if pk then 2 else 1, f, 0, d.now⟩])

/-- R139, R141, R142, R148, R153, R154, R159, R163: an edge moves REF and schedules the other output after its gutter, edge registers have shadows, a late load is accepted or deferred, pending turn-ons, releases and minimum pulses end as their rules say. Times inside a tick are in 1/32 tick. -/
def Obligations.FormeEdges : Prop :=
  ∀ s : State, Calm s →
    let d := s.dev
    (∀ (f : Fin 16) (n : Fin 4) (r : Bool) (u : Nat), nextEdge d f n = some (r, u) → 
      Completes (.refEdge f n) s fun t => t.mem = s.mem ∧ t.dev.core = d.core ∧ (pairOf t.dev f n).ref = r ∧ (if r then (pairOf t.dev f n).firedA = true else (pairOf t.dev f n).firedB = true) ∧
        (formeOf t.dev f).nextB = (formeOf d f).nextB) ∧
    (∀ (f : Fin 16) (n : Fin 4) (r : Bool) (u : Nat), nextEdge d f n = some (r, u) → (pairOf d f n).ref ≠ r → (pairOf d f n).held = false → (pairOf d f n).resumedAt ≠ some d.now → tripOff d f = false → gf d (FORME_PCFG.PMODE f n) = 0 → gf d (FORME_MINP.MIN f) = 0 → ((pairOf d f n).out (!r)).on = false → 
      Completes (.refEdge f n) s fun t => t.mem = s.mem ∧ ((pairOf t.dev f n).out r).on = false ∧ ((pairOf t.dev f n).out (!r)).turnOn = some (32 * d.now + u % 32 + gEff d f n r, false)) ∧
    (∀ (f : Fin 16) (n : Fin 4), ((pairOf d f n).edgeDue.any (fun u => decide (u ≤ d.now)) = true) → 
      Completes (.pairEdgeEvent f n) s fun t => t.mem = s.mem ∧ t.dev.core = d.core ∧ bit (rd t.dev (FOLIO_EVT.at (0x40 + f))) (4 + n) = true ∧
        (pairOf t.dev f n).edgeDue = (pairOf d f n).edgeDue.filter (fun u => decide (d.now < u)) ∧ t.dev.trigDue = d.trigDue ∧ t.dev.trigRaw = d.trigRaw ++ [⟨3, f, n, d.now⟩]) ∧
    (∀ (ini : Initiator) (f : Fin 16) (k : Fin 12) (v : Word), Open ini (0x40 + f) s → 
      Does (.edgeShadowWrite ini f k v) s [.forme, .twin] [] fun e =>
        let p := pairOf d f (k % 4)
        let q := pairOf e f (k % 4)
        let lands := fun (rank : Nat) => !decide (p.landAt = d.now ∧ 0 < rank)
        q.shA = (if k.val < 4 && lands p.rankA then v &&& maskOf 28 0 else p.shA) ∧
        q.shB = (if decide (4 ≤ k.val ∧ k.val < 8) && lands p.rankB then v &&& maskOf 28 0 else p.shB) ∧
        fld q.shHt 7 0 = (if decide (8 ≤ k.val) && lands p.rankHA then fld v 7 0 else fld p.shHt 7 0) ∧
        fld q.shHt 15 8 = (if decide (8 ≤ k.val) && lands p.rankHB then fld v 15 8 else fld p.shHt 15 8) ∧
        (if 2 ≤ cst d f ∧ gf d (FORME_MODE.UPD f) = 3
          then q.lates = (p.lates.filter fun o => decide (o.u ≠ d.now)) ++ [⟨d.now, q.shA, q.shB, q.shHt⟩] else q.unoffered = true ∧ q.lates = p.lates)) ∧
    (∀ (f : Fin 16) (n : Fin 4) (u : Nat) (h : Word) (rest : List LateOffer), 2 ≤ cst d f → (pairOf d f n).lates = ⟨u, 0x1FFFFFFF, 0x1FFFFFFF, h⟩ :: rest → u + 4 ≤ d.now → 
      Does (.lateLoadDecision f n) s [.forme] [FORME_STAT.at f, FORME_LLCNT.at f, FORME_CMPA.at f n, FORME_CMPB.at f n, FORME_HT.at f n] fun e =>
        (pairOf e f n).lates = rest ∧ gbit e (FORME_STAT.PEND f) n = false ∧ rd e (FORME_HT.at f n) = h ∧
        gf e (FORME_LLCNT.ACC f) = min (2 ^ (FORME_LLCNT.ACC f).hi.succ - 1) (gf d (FORME_LLCNT.ACC f) + 1) ∧ gf e (FORME_LLCNT.DEF f) = gf d (FORME_LLCNT.DEF f)) ∧
    (∀ (f : Fin 16) (n : Fin 4) (u x : Nat) (a b h : Word) (rest : List LateOffer), 2 ≤ cst d f → (pairOf d f n).lates = ⟨u, a, b, h⟩ :: rest → u + 4 ≤ d.now → (pairOf d f n).firedA = false → edgeTime (formeOf d f) a true (pairOf d f n).carryA = some x → 32 * (formeOf d f).nextB + x < 32 * (u + max 8 (gf d (FORME_LATEG.GUARD f))) + 32 * formeD (formeOf d f) → rd d (FORME_CMPA.at f n) = 0x1FFFFFFF → 
      Does (.lateLoadDecision f n) s [.forme] [FORME_STAT.at f, FORME_LLCNT.at f, FOLIO_EVT.at (0x40 + f)] fun e =>
        (pairOf e f n).lates = rest ∧ gbit e (FORME_STAT.PEND f) n = true ∧ gf e (FORME_LLCNT.ACC f) = gf d (FORME_LLCNT.ACC f) ∧ Raised d e (0x40 + f) 8) ∧
    (∀ (f : Fin 16) (n : Fin 4) (b : Bool) (u : Nat), firstOut (turnOnDue d f n false) (turnOnDue d f n true) = some (b, u) → gf d (FORME_MINP.MIN f) = 0 → ilkOn d f n = false → 
      Completes (.gutterTurnOn f n) s fun t => t.mem = s.mem ∧ t.dev.core = d.core ∧ ((pairOf t.dev f n).out b).turnOn = none ∧
        (if tripOff d f then ((pairOf t.dev f n).out b).on = ((pairOf d f n).out b).on else ((pairOf t.dev f n).out b).on = true ∧ (((pairOf d f n).out b).on = false → ((pairOf t.dev f n).out b).onAt = u))) ∧
    (∀ (f : Fin 16) (n : Fin 4) (b : Bool) (u : Nat), firstOut (releaseDue d f n false) (releaseDue d f n true) = some (b, u) → 
      Completes (.interlockRelease f n) s fun t => t.mem = s.mem ∧ t.dev.core = d.core ∧ ((pairOf t.dev f n).out b).turnOn = none ∧
        (if tripOff d f then ((pairOf t.dev f n).out b).on = ((pairOf d f n).out b).on else ((pairOf t.dev f n).out b).on = true)) ∧
    (∀ (f : Fin 16) (n : Fin 4) (b : Bool) (u : Nat), firstOut (turnOffDue d f n false) (turnOffDue d f n true) = some (b, u) → ((pairOf d f n).out b).onAt + 32 * gf d (FORME_MINP.MIN f) ≤ u → 
      Completes (.minPulseEnd f n) s fun t => t.mem = s.mem ∧ t.dev.core = d.core ∧ ((pairOf t.dev f n).out b).on = false ∧ ((pairOf t.dev f n).out b).turnOff = none ∧
        (∀ g, ((pairOf d f n).out b).after = some g → (pairOf d f n).held = false → ((pairOf t.dev f n).out (!b)).turnOn = some (u + g, false)))

/-- R225 to R232: an accepted edge counts, a level not yet held for FILT + 1 ticks is only noted, an illegal transition is a loss, the index edge captures and re-references the position, POSSET sets it, a sample forms SPOS, an SSI frame gives a position or an error, a period is measured between qualifying edges and lost after PTO. That A leading B counts up is log entry 30, that a lost period is measured anew is log entry 31. -/
def Obligations.Bearing : Prop :=
  ∀ s : State, Calm s →
    let d := s.dev
    (∀ (u : Fin 16) (a b : Bool) (n : Int), brngOn d u = true → brngMode d u ≤ 2 → a = lvlA d u ∨ ((brngOf d u).pinA.take a d.now).since + gf d (BRNG_CFG.FILT u) ≤ d.now → b = lvlB d u ∨ ((brngOf d u).pinB.take b d.now).since + gf d (BRNG_CFG.FILT u) ≤ d.now → (brngOf d u).setAt ≠ some d.now → (brngOf d u).idxAt ≠ some d.now → countOf (brngMode d u) (lvlA d u) (lvlB d u) a b = some n → 
      Does (.bearingEdge u a b) s [.brng] [BRNG_STAT.at u, BRNG_POS.at u, BRNG_ANGLE.at u, BRNG_AORG.at u, BRNG_ZCAP.at u, BRNG_VEL.at u, BRNG_ERRCNT.at u, FOLIO_EVT.at (0xC0 + u)] fun e =>
        let k := if gb d (BRNG_CFG.SWAP u) then -n else n
        lvlA e u = a ∧ lvlB e u = b ∧ brngPos e u = brngPos d u + wordOfInt k ∧
        (k ≠ 0 → gb e (BRNG_STAT.DIR u) = decide (k < 0) ∧ (brngOf e u).edge = some (edgeStamp d u, brngPos e u)) ∧
        (k ≠ 0 → gf e (BRNG_ANGLE.ANGLE u) = angleOf (brngPos e u) (rd d (BRNG_AORG.at u)) (gf d (BRNG_CPR.CPR u)) (gf d (BRNG_AOFS.AOFS u)))) ∧
    (∀ (u : Fin 16) (a b : Bool), a = lvlA d u ∨ d.now < ((brngOf d u).pinA.take a d.now).since + gf d (BRNG_CFG.FILT u) → b = lvlB d u ∨ d.now < ((brngOf d u).pinB.take b d.now).since + gf d (BRNG_CFG.FILT u) → 
      Does (.bearingEdge u a b) s [.brng] [] fun e => (brngOf e u).pinA = ⟨a, if (brngOf d u).pinA.raw = a then (brngOf d u).pinA.since else d.now⟩ ∧
        (brngOf e u).pinB = ⟨b, if (brngOf d u).pinB.raw = b then (brngOf d u).pinB.since else d.now⟩ ∧ (brngOf e u).edge = (brngOf d u).edge) ∧
    (∀ (u : Fin 16) (a b : Bool), brngOn d u = true → brngMode d u = 0 → lvlA d u ≠ a → lvlB d u ≠ b → a = lvlA d u ∨ ((brngOf d u).pinA.take a d.now).since + gf d (BRNG_CFG.FILT u) ≤ d.now → b = lvlB d u ∨ ((brngOf d u).pinB.take b d.now).since + gf d (BRNG_CFG.FILT u) ≤ d.now → 
      Does (.bearingEdge u a b) s [.brng, .evc, .landings] [BRNG_STAT.at u, BRNG_POS.at u, BRNG_ANGLE.at u, BRNG_AORG.at u, BRNG_ZCAP.at u, BRNG_VEL.at u, BRNG_ERRCNT.at u, FOLIO_EVT.at (0xC0 + u)] fun e => gb e (BRNG_STAT.POS_VALID u) = false ∧ gb e (BRNG_STAT.VEL_VALID u) = false ∧
        rd e (BRNG_VEL.at u) = 0 ∧ brngPos e u = brngPos d u ∧ bit (rd e (FOLIO_EVT.at (0xC0 + u))) 2 = true ∧ bit (rd e (FOLIO_EVT.at (0xC0 + u))) 4 = true ∧
        gf e (BRNG_ERRCNT.QERR u) = min (2 ^ (BRNG_ERRCNT.QERR u).hi.succ / 2 ^ (BRNG_ERRCNT.QERR u).lo - 1) (gf d (BRNG_ERRCNT.QERR u) + 1)) ∧
    (∀ (u : Fin 16), brngOn d u = true → lvlZ d u = false → gf d (BRNG_CFG.ZMODE u) ≠ 0 → ((brngOf d u).pinZ.take true d.now).since + gf d (BRNG_CFG.FILT u) ≤ d.now → 
      Does (.bearingIndex u true) s [.brng, .evc] [BRNG_STAT.at u, BRNG_POS.at u, BRNG_ANGLE.at u, BRNG_AORG.at u, BRNG_ZCAP.at u, BRNG_ZTS.at u, FOLIO_EVT.at (0xC0 + u)] fun e =>
        rd e (BRNG_ZCAP.at u) = brngPos d u ∧ rd e (BRNG_ZTS.at u) = edgeStamp d u ∧ bit (rd e (FOLIO_EVT.at (0xC0 + u))) 1 = true ∧ lvlZ e u = true ∧
        brngPos e u = (if gf d (BRNG_CFG.ZMODE u) = 3 then 0 else brngPos d u) ∧
        rd e (BRNG_AORG.at u) = (match gf d (BRNG_CFG.ZMODE u) with | 2 => brngPos d u | 3 => 0 | _ => rd d (BRNG_AORG.at u)) ∧
        (2 ≤ gf d (BRNG_CFG.ZMODE u) → brngCounts d u = true → gb e (BRNG_STAT.POS_VALID u) = true)) ∧
    (∀ (ini : Initiator) (u : Fin 16) (v : Word), Open ini (0xC0 + u) s → 
      Does (.brngPosset ini u v) s [.brng] [BRNG_STAT.at u, BRNG_POS.at u, BRNG_ANGLE.at u, BRNG_POSSET.at u] fun e => brngPos e u = v ∧
        gf e (BRNG_ANGLE.ANGLE u) = angleOf v (rd d (BRNG_AORG.at u)) (gf d (BRNG_CPR.CPR u)) (gf d (BRNG_AOFS.AOFS u)) ∧
        gb e (BRNG_STAT.POS_VALID u) = (gb d (BRNG_STAT.POS_VALID u) || brngCounts d u)) ∧
    (∀ (u : Fin 16) (x : Nat), d.trigRaw = [] → sampleDue d u = some x → brngMode d u ≠ 3 → 
      Does (.bearingSample u) s [.brng, .trigDue, .arrivals, .landings] [BRNG_STAT.at u, BRNG_STS.at u] fun e => rd e (BRNG_STS.at u) = shortTs d - BitVec.ofNat 36 (d.now - x) ∧
        e.landings = d.landings ++ [⟨d.now + 2, 40 + u, .sample (brngPos d u) ((velWord (brngOf e u).vNum (brngOf e u).vDen ((rd d (BRNG_VSCALE.at u)).setWidth 32)).setWidth 36)⟩] ∧
        gb e (BRNG_STAT.POS_VALID u) = gb d (BRNG_STAT.POS_VALID u) ∧ e.arrivals.take d.arrivals.length = d.arrivals) ∧
    (∀ (u : Fin 16) (x : Nat), d.trigRaw = [] → sampleDue d u = some x → brngMode d u = 3 → gb d (BRNG_STAT.SSIBUSY u) = false → 
      Does (.bearingSample u) s [.brng, .trigDue] [BRNG_STAT.at u, BRNG_STS.at u] fun e => gb e (BRNG_STAT.SSIBUSY u) = true ∧
        (brngOf e u).frame = some ⟨x, shortTs d - BitVec.ofNat 36 (d.now - x), lvlB d u, 0, d.now, [], 0, 0, none, none⟩ ∧
        rd e (BRNG_STS.at u) = shortTs d - BitVec.ofNat 36 (d.now - x)) ∧
    (∀ (u : Fin 16) (x : SsiFrame) (h : Nat), brngLive d u = true → brngMode d u = 3 → (brngOf d u).frame = some x → x.startHigh = true → x.low = some true → x.checkAt = some h → lvlB d u = true → h < d.now → d.now ≤ h + gf d (BRNG_SSI.TMONO u) * 128 → 
      Does (.ssiFrameEnd u) s [.brng, .arrivals, .landings] [BRNG_STAT.at u, BRNG_STS.at u, BRNG_POS.at u, BRNG_ANGLE.at u] fun e =>
        let n := gf d (BRNG_SSI.NBITS u)
        brngPos e u = BitVec.ofNat 36 (if gb d (BRNG_SSI.GRAY u) then grayDecode n (x.bits % 2 ^ n) % 2 ^ n else x.bits % 2 ^ n) ∧
        gb e (BRNG_STAT.POS_VALID u) = true ∧ gb e (BRNG_STAT.SSIBUSY u) = false ∧ (brngOf e u).frame = none ∧
        rd e (BRNG_STS.at u) = (if gb d (BRNG_SSI.LISTEN u) then x.stamp else rd d (BRNG_STS.at u)) ∧
        e.landings = d.landings ++ [⟨d.now + 2, 40 + u, .sample (brngPos e u) ((velWord (brngOf e u).vNum (brngOf e u).vDen ((rd d (BRNG_VSCALE.at u)).setWidth 32)).setWidth 36)⟩]) ∧
    (∀ (u : Fin 16), brngLive d u = true → brngMode d u = 3 → ssiOver d u = some false → 
      Completes (.ssiFrameEnd u) s fun t => t.mem = s.mem ∧ t.dev.core = d.core ∧ brngPos t.dev u = brngPos d u ∧ (brngOf t.dev u).frame = none ∧
        gb t.dev (BRNG_STAT.POS_VALID u) = false ∧ gb t.dev (BRNG_STAT.SSIBUSY u) = false ∧ bit (rd t.dev (FOLIO_EVT.at (0xC0 + u))) 3 = true) ∧
    (∀ (u : Fin 16) (level : Bool) (t0 : Word) (k : Nat), brngLive d u = true → brngMode d u = 4 → lvlA d u ≠ level → ((brngOf d u).pinA.take level d.now).since + gf d (BRNG_CFG.FILT u) ≤ d.now → bit (rd d (BRNG_PCFG.at u)) (if level then 16 else 17) = true → (brngOf d u).per = some (t0, k) → 
      Does (.periodEdge u level) s [.brng] [BRNG_STAT.at u, BRNG_ETS.at u, BRNG_PER.at u] fun e => rd e (BRNG_ETS.at u) = edgeStamp d u ∧ rd e (BRNG_PER.at u) = edgeStamp d u - t0 ∧
        gb e (BRNG_STAT.PER_VALID u) = true ∧ gb e (BRNG_STAT.VEL_VALID u) = true ∧ (brngOf e u).vNum = 1 ∧ (brngOf e u).vDen = (edgeStamp d u - t0).toNat ∧ lvlA e u = level) ∧
    (∀ (u : Fin 16), perLostDue d u = true → 
      Does (.perLost u) s [.brng, .evc] [BRNG_STAT.at u, FOLIO_EVT.at (0xC0 + u)] fun e => gb e (BRNG_STAT.PER_VALID u) = false ∧ gb e (BRNG_STAT.VEL_VALID u) = false ∧
        (brngOf e u).per = none ∧ Raised d e (0xC0 + u) 5)

/-- R177, R178, R179, R182, R217: a delivery or a write arrives at an input latch, makes it fresh and counts an overrun, a software trigger makes the trigger input fresh, a set-point word is prefetched, FECLR clears the following-error watch. -/
def Obligations.EngineInputs : Prop :=
  ∀ s : State, Calm s →
    let d := s.dev
    (∀ (e : Fin 64) (n : Fin 4) (a : Arrival), d.arrivals = [a] → a.eng = e.val → a.lat = n.val → a.tick ≤ d.now → 
      Does (.latchArrival e n) s [.arrivals, .trav, .evc] [TRAV_LAT.at e n, TRAV_LATTS.at e n, TRAV_CNT.at e, TRAV_STAT.at e, FOLIO_EVT.at (0x80 + e)] fun x =>
        rd x (TRAV_LAT.at e n) = a.val.setWidth 36 ∧ rd x (TRAV_LATTS.at e n) = a.stamp ∧ gbit x (TRAV_STAT.FRESH e) n = true ∧ x.arrivals = [] ∧
        (gbit d (TRAV_STAT.FRESH e) n = true → bit (rd x (FOLIO_EVT.at (0x80 + e))) 2 = true) ∧ (gbit d (TRAV_STAT.FRESH e) n = false → rd x (TRAV_CNT.at e) = rd d (TRAV_CNT.at e)) ∧
        (reqMet x e = true → (travOf x e).metAt ≠ none) ∧ (reqMet x e = false → (travOf x e).metAt = none)) ∧
    (∀ (ini : Initiator) (e : Fin 64) (n : Fin 4) (v : Word), Open ini (0x80 + e) s → f32Ok (v.setWidth 32) = true → 
      Does (.travLatWrite ini e n v) s [.trav, .evc, .twin] [TRAV_LAT.at e n, TRAV_LATTS.at e n, TRAV_CNT.at e, TRAV_STAT.at e, FOLIO_EVT.at (0x80 + e)] fun x =>
        rd x (TRAV_LAT.at e n) = v &&& maskOf 31 0 ∧ rd x (TRAV_LATTS.at e n) = shortTs d ∧ gbit x (TRAV_STAT.FRESH e) n = true ∧
        (gbit d (TRAV_STAT.FRESH e) n = true → bit (rd x (FOLIO_EVT.at (0x80 + e))) 2 = true)) ∧
    (∀ (ini : Initiator) (e : Fin 64), Open ini (0x80 + e) s → 
      Does (.travSwtrig ini e) s [.trav, .twin] [TRAV_STAT.at e, TRAV_SWTRIG.at e] fun x => gbit x (TRAV_STAT.FRESH e) 4 = true ∧ (∀ n ∈ upTo 4, gbit x (TRAV_STAT.FRESH e) n = gbit d (TRAV_STAT.FRESH e) n)) ∧
    (∀ (e : Fin 64) (w : Word), d.galley.setp = [(e.val, w)] → 
      Does (.setpointArrival e) s [.galley, .trav, .evc] [FOLIO_EVT.at (0x80 + e)] fun x => tabFind x.galley.setp e = none ∧
        (if f32Finite (w.setWidth 32) then (travOf x e).pre = some (w.setWidth 32) ∧ rd x (FOLIO_EVT.at (0x80 + e)) = rd d (FOLIO_EVT.at (0x80 + e)) else (travOf x e).pre = (travOf d e).pre ∧ Raised d x (0x80 + e) 11)) ∧
    (∀ (ini : Initiator) (e : Fin 64), Open ini (0x80 + e) s → 
      Does (.feclr ini e) s [.trav, .trip, .twin] [TRAV_FECLR.at e, TRAV_FECNT.at e, TRAV_FESTAT.at e, TRIPNET_LIVE.at ((112 + e) / 32)] fun x => gf x (TRAV_FECNT.CNT e) = 0 ∧
        gb x (TRAV_FESTAT.FET e) = false ∧ gb x (TRAV_FESTAT.COND e) = false ∧ gb x (TRAV_FESTAT.SAFE e) = false ∧ live x (112 + e) = false ∧ (travOf x e).feAt = d.now)

/-- R184, R185, R190, R197, R198, R209, R214, R215: a PI update in CLOSED computes the law, an update with an operand that is not finite is abandoned, the write-back completes it; states forced by an alert or by a safe action apply between updates; starvation, following error and the zero-fill of the Overlay. -/
def Obligations.EngineUpdates : Prop :=
  ∀ s : State, Calm s →
    let d := s.dev
    (∀ (e : Fin 64) (er ist w : F32), travReady d e = true → travState d e = 1 → (travOf d e).stateReq = none → gb d (TRAV_STAT.FIRST e) = false → gb d (TRAV_CFG.DEN e) = false → gf d (TRAV_CFG.FFEN e) = 0 → gb d (TRAV_CFG.NORM e) = false → gb d (TRAV_CFG.AW e) = false → ovst d e = 0 → gf d (TRAV_SPCFG.SRC e) = 0 → f32Lt 0 (coefOf d (TRAV_RATE.at e)) = false → xSub (some (stF d e sUprev)) (some (coefOf d (TRAV_RATE.at e))) ≠ none → xAdd (some (stF d e sUprev)) (some (coefOf d (TRAV_RATE.at e))) ≠ none → gb d (TRAV_OUTCFG.EDGE e) = false → gb d (TRAV_OUTCFG.CASC e) = false → gb d (TRAV_OUTCFG.QEN e) = false → (travOf d e).prevAct = false → xSub (xIn (coefOf d (TRAV_SP.at e))) (xIn (latVal d e (gf d (TRAV_INCFG.YSEL e)))) = some er → ((xAdd (some (stF d e sI)) (xMul (some (coefOf d (TRAV_KI.at e))) (some er))).map (fun x => f32Clamp x (coefOf d (TRAV_IMIN.at e)) (coefOf d (TRAV_IMAX.at e))) = some ist) → xAdd (xAdd (xAdd (xAdd (xAdd (xMul (some (coefOf d (TRAV_KP.at e))) (some er)) (some ist)) (some 0)) (some 0)) (some 0)) (some (coefOf d (TRAV_BIAS.at e))) = some w → 
      Does (.travUpdate e) s [.trav, .galley, .evc] ([TRAV_STAT.at e, TRAV_CNT.at e, FOLIO_EVT.at (0x80 + e)] ++ (upTo 16).map fun k => TRAV_STW.at e k) fun x =>
        stF x e sI = ist ∧ stF x e sUprev = f32Clamp w (coefOf d (TRAV_OMIN.at e)) (coefOf d (TRAV_OMAX.at e)) ∧ stF x e sR = coefOf d (TRAV_SP.at e) ∧
        stw x e sTs = rd d (TRAV_LATTS.at e (gf d (TRAV_INCFG.YSEL e))) ∧ gb x (TRAV_STAT.SATHI e) = f32Lt (coefOf d (TRAV_OMAX.at e)) w ∧ gb x (TRAV_STAT.SATLO e) = f32Lt w (coefOf d (TRAV_OMIN.at e)) ∧
        gf x (TRAV_STAT.FRESH e) = 0 ∧ travState x e = 1 ∧ (travOf x e).lastStart = some d.now ∧
        (travOf x e).upd = some ⟨er, f32Clamp w (coefOf d (TRAV_OMIN.at e)) (coefOf d (TRAV_OMAX.at e)), false, gf d (TRAV_OVSTAT.IDX e), true, false⟩) ∧
    (∀ (e : Fin 64), travReady d e = true → (travOf d e).stateReq = none → ovst d e = 0 → gf d (TRAV_SPCFG.SRC e) = 0 → f32Finite (latVal d e (gf d (TRAV_INCFG.YSEL e))) = false → 
      Does (.travUpdate e) s [.trav, .galley, .evc] [TRAV_STAT.at e, TRAV_CNT.at e, FOLIO_EVT.at (0x80 + e)] fun x => (travOf x e).upd = some ⟨0, 0, false, 0, false, true⟩ ∧
        bit (rd x (FOLIO_EVT.at (0x80 + e))) 3 = true ∧ gf x (TRAV_STAT.FRESH e) = 0 ∧ (travOf x e).lastStart = some d.now) ∧
    (∀ (e : Fin 64) (u : Upd), (travOf d e).upd = some u → u.abandoned = false → u.learn = false → d.twin.engPend = [] → d.folio.defer = [] → 
      Completes (.updateWriteback e) s fun t => t.mem = s.mem ∧ t.dev.core = d.core ∧ (travOf t.dev e).upd = none ∧ rd t.dev (TRAV_LASTU.at e) = u.uo.setWidth 36 ∧
        rd t.dev (TRAV_UCNT.at e) = rd d (TRAV_UCNT.at e) + 1 ∧ bit (rd t.dev (FOLIO_EVT.at (0x80 + e))) 0 = true ∧ gb t.dev (TRAV_OVSTAT.LEARN e) = false ∧ travState t.dev e = travState d e ∧
        (u.closed = true → gb d (TRAV_FECFG.EN e) = true → gb t.dev (TRAV_FESTAT.COND e) = f32Lt (coefOf d (TRAV_FELIMIT.at e)) (fAbsBits u.err) ∨
          (travOf t.dev e).condAt.any (fun c => decide (d.now < c.1 ∧ c.1 < d.now + 15 ∧ c.2 = f32Lt (coefOf d (TRAV_FELIMIT.at e)) (fAbsBits u.err))) = true)) ∧
    (∀ (e : Fin 64) (u : Upd), (travOf d e).upd = some u → u.abandoned = true → d.twin.engPend = [] → d.folio.defer = [] → 
      Does (.updateWriteback e) s [.trav, .twin] [] fun x => (travOf x e).upd = none) ∧
    (∀ (e : Fin 64), forcedDue d e = true → 
      Completes (.forcedStateChange e) s fun t => t.mem = s.mem ∧ t.dev.core = d.core ∧ (travOf t.dev e).fAlert = false ∧ (travOf t.dev e).fRecov = false ∧ (travOf t.dev e).fDis = false ∧
        travState t.dev e = (if (travOf d e).fDis = true then 0 else if (travOf d e).fRecov = true then 2 else
          match gf d (TRAV_CFG.ALRT e), travState d e with | 1, 1 => 2 | 2, _ => 0 | _, x => x) ∧
        (travState t.dev e ≠ travState d e → bit (rd t.dev (FOLIO_EVT.at (0x80 + e))) 4 = true)) ∧
    (∀ (e : Fin 64), starveDue d e = true → 
      Does (.starve e) s [.evc] [TRAV_STAT.at e, FOLIO_EVT.at (0x80 + e)] fun x => gb x (TRAV_STAT.STARVED e) = true ∧ Raised d x (0x80 + e) 15 ∧ travState x e = 1) ∧
    (∀ (e : Fin 64), (travOf d e).zeroFill = true → initWait d .overlay = false → 
      Completes (.overlayZeroFill e) s fun t => (travOf t.dev e).zeroFill = false ∧ (∀ k ∈ upTo 1024, k ≤ gf d (TRAV_OVCFG.NM1 e) → storedWord t.mem (0x6000000 + e * 0x400 + k) = 0) ∧ (∀ a, ¬ (0x6000000 + e * 0x400 ≤ a ∧ a < 0x6000000 + e * 0x400 + 0x400) → tabGet 0 t.mem.words a = tabGet 0 s.mem.words a)) ∧
    (∀ (e : Fin 64), feTripDue d e = true → 
      Does (.feTrip e) s [.trav, .trip, .evc] [TRAV_FECNT.at e, TRAV_FESTAT.at e, TRIPNET_LIVE.at ((112 + e) / 32), FOLIO_EVT.at (0x80 + e)] fun x => gb x (TRAV_FESTAT.FET e) = true ∧
        Raised d x (0x80 + e) 6 ∧ live x (112 + e) = gb d (TRAV_FECFG.TRIP e) ∧ gf x (TRAV_FECNT.CNT e) = gf d (TRAV_FETIME.TIME e) ∧ (travOf x e).fSafe = ((travOf d e).fSafe || gb d (TRAV_FECFG.SAFE e))) ∧
    (∀ (e : Fin 64), safeDue d e = true → 
      Completes (.safeAction e) s fun t => t.mem = s.mem ∧ t.dev.core = d.core ∧ travState t.dev e = 0 ∧ gb t.dev (TRAV_FESTAT.SAFE e) = true ∧ (travOf t.dev e).fSafe = false ∧
        stF t.dev e sUhold = coefOf d (TRAV_SAFEOUT.at e))

/-- R323 to R328, R332, R337: a sensed edge, level or pulse makes a source pending, a further event is lost, an edge on a source in service waits for the end of the tick, the filter passes a settled level, a pending source is delivered under its route, a source word is written and read with its index, the gate acts from the next tick, software sets (pending from the next tick) and discards, an event of the same tick prevailing. R334, R335, R474: in PARK an enabled wake pin or source that shows its edge is latched with a timestamp and asks for wake, and wake takes SYS_MODE to CONFIG with reason 6, or to RECOVERY after a vote failure in PARK. The sample that PACE takes at wake is the command’s list of monitor readings. -/
def Obligations.EventSources : Prop :=
  ∀ s : State, Calm s →
    let d := s.dev
    (∀ (k : Fin 2048), mode d ≠ mPark → tabFind d.evc.pulses k = none → filtered d k = true → tabGet false d.evc.prev k = false → senseOf (srcWord d k) = 1 ∨ senseOf (srcWord d k) = 3 ∨ senseOf (srcWord d k) = 5 → kindOf (srcWord d k) ≠ 0 → evcPend d k = false → evcInsv d k = false → 
      Does (.eventSensed k) s [.evc] [EVC_PEND.at (k / 256) (k % 256 / 32)] fun e => evcPend e k = true ∧ tabGet false e.evc.prev k = true ∧ e.evc.fresh = k.val :: d.evc.fresh) ∧
    (∀ (k : Fin 2048), mode d ≠ mPark → tabFind d.evc.pulses k = none → filtered d k = true → tabGet false d.evc.prev k = false → senseOf (srcWord d k) = 3 ∨ senseOf (srcWord d k) = 5 → kindOf (srcWord d k) ≠ 0 → evcPend d k = true → 
      Does (.eventSensed k) s [.evc] [EVC_LOST.at (k / 256) (k % 256 / 32), EVC_STAT.at, FOLIO_EVT.at (6 + k / 256)] fun e => evcPend e k = evcPend d k ∧ evcLost e k = true ∧ gf e EVC_STAT.LASTLOST = k.val ∧
        (evcLost d k = false → Raised d e (6 + k / 256) 0)) ∧
    (∀ (k : Fin 2048), mode d ≠ mPark → tabFind d.evc.pulses k = none → filtered d k = true → tabGet false d.evc.prev k = false → senseOf (srcWord d k) = 3 ∨ senseOf (srcWord d k) = 5 → kindOf (srcWord d k) ≠ 0 → evcPend d k = false → evcInsv d k = true → 
      Does (.eventSensed k) s [.evc] [] fun e => e.evc.late = (if k.val ∈ d.evc.late then d.evc.late else d.evc.late ++ [k.val]) ∧ tabGet false e.evc.prev k = true) ∧
    (∀ (k : Fin 2048), mode d ≠ mPark → tabFind d.evc.pulses k = some d.now → k.val ∉ d.evc.sensed → filtOn d k = false ∨ filtLen d = 1 → senseOf (srcWord d k) = 3 ∨ senseOf (srcWord d k) = 5 ∨ senseOf (srcWord d k) = 1 → kindOf (srcWord d k) ≠ 0 → evcPend d k = false → evcInsv d k = false → 
      Does (.eventSensed k) s [.evc] [EVC_PEND.at (k / 256) (k % 256 / 32)] fun e => evcPend e k = true ∧ k.val ∈ e.evc.sensed ∧ e.evc.prev = d.evc.prev) ∧
    (∀ (k : Fin 2048), filtOn d k = true → mode d ≠ mPark → max (tabGet 0 d.evc.rawSince k) d.evc.filtFrom + filtLen d ≤ d.now + 1 → 
      Does (.glitchFilterSettle k) s [.evc] [] fun e => tabGet false e.evc.filt k = tabGet false d.evc.raw k ∧ e.evc.raw = d.evc.raw) ∧
    (∀ (k : Fin 2048), eventDeliverable d k = true → kindOf (srcWord d k) = 1 → fld (srcWord d k) 5 0 < 48 → 
      Does (.eventDelivery k) s [.evc] [EVC_PEND.at (k / 256) (k % 256 / 32)] fun e => e.evc.lines = (48 * fld (srcWord d k) 14 12 + fld (srcWord d k) 5 0) :: d.evc.lines ∧ lineUp e (fld (srcWord d k) 14 12) (fld (srcWord d k) 5 0) = true) ∧
    (∀ (k : Fin 2048), eventDeliverable d k = true → kindOf (srcWord d k) = 2 → slotEn d (fld (srcWord d k) 14 12) (fld (srcWord d k) 4 0) = true → fld (srcWord d k) 4 0 ≠ (coreOfDev d (fld (srcWord d k) 14 12)).run → fld (srcWord d k) 4 0 ∉ (coreOfDev d (fld (srcWord d k) 14 12)).ready → 
      Does (.eventDelivery k) s [.core] [EVC_PEND.at (k / 256) (k % 256 / 32)] fun e => let c := fld (srcWord d k) 14 12; let x := fld (srcWord d k) 4 0
        evcPend e k = false ∧ (coreOfDev e c).ready = (coreOfDev d c).ready ++ [x] ∧ (coreOfDev e c).fresh = (coreOfDev d c).fresh ++ [x] ∧ (coreOfDev e c).ctx = (coreOfDev d c).ctx) ∧
    (∀ (k : Fin 2048), eventDeliverable d k = true → kindOf (srcWord d k) = 4 → 
      Does (.eventDelivery k) s [.trav] [EVC_PEND.at (k / 256) (k % 256 / 32), TRAV_STAT.at (fld (srcWord d k) 5 0)] fun e => evcPend e k = false ∧ gbit e (TRAV_STAT.FRESH (fld (srcWord d k) 5 0)) 4 = true) ∧
    (∀ (ini : Initiator) (q : Fin 8) (w : Word), Open ini (6 + q) s → badSrcWord w = false → 
      Does (.evcSrcAccess ini q (some w)) s [.evc] [EVC_IDX.at q, EVC_PEND.at q (gf d (EVC_IDX.INDEX q) / 32)] fun e => let k := 256 * q.val + gf d (EVC_IDX.INDEX q)
        tabGet 0 e.evc.words k = cleanSrcWord w ∧ srcWord e k = srcWord d k ∧ evcPend e k = false ∧ evcLost e k = evcLost d k ∧ evcInsv e k = evcInsv d k ∧
        gf e (EVC_IDX.INDEX q) = (if gb d (EVC_IDX.AINC q) then (gf d (EVC_IDX.INDEX q) + 1) % 256 else gf d (EVC_IDX.INDEX q))) ∧
    (∀ (ini : Initiator) (q : Fin 8), iniServed d ini = true → debugShut d ini = false → 
      Does (.evcSrcAccess ini q none) s [] [EVC_IDX.at q] fun e =>
        gf e (EVC_IDX.INDEX q) = (if gb d (EVC_IDX.AINC q) then (gf d (EVC_IDX.INDEX q) + 1) % 256 else gf d (EVC_IDX.INDEX q))) ∧
    (∀ (ini : Initiator) (g : Bool), Open ini 0x06 s → 
      Does (.evcGateWrite ini g) s [.evc] [EVC_GATE.at] fun e => gb e EVC_GATE.GATE = g ∧ (d.evc.gateTick ≠ d.now → gateShut e = gb d EVC_GATE.GATE) ∧ gateShut { e with now := e.now + 1 } = g) ∧
    (∀ (ini : Initiator) (k : Fin 2048), Open ini 0x06 s → 
      Does (.evcSwset ini k) s [.evc] [EVC_SWSET.at] fun e => e.evc.swDue = d.evc.swDue ++ [k.val] ∧
        (evcInsv d k = false → kindOf (srcWord { d with now := d.now + 1 } k) ≠ 0 → evcPend (evcOpen { e with now := e.now + 1 }) k = true)) ∧
    (∀ (ini : Initiator) (q w : Fin 8) (m : BitVec 32), Open ini (6 + q) s → 
      Does (.evcPendDiscard ini q w m) s [.evc] [EVC_PEND.at q w] fun e => ∀ x ∈ upTo 32, gbit e (EVC_PEND.PEND q w) x = (gbit d (EVC_PEND.PEND q w) x && (!m.getLsbD x || decide (256 * q.val + 32 * w.val + x ∈ d.evc.fresh)))) ∧
    (∀ (k : Fin 64) (lv : Bool), mode d = mPark → gbit d (EVC_WAKEEN.EN (k / 32)) (k % 32) = true → gbit d (EVC_WAKEFLG.FLG (k / 32)) (k % 32) = false → tabGet false d.evc.wakePins k ≠ lv → bit (rd d (EVC_WAKEEDG.at (k / 16))) (2 * (k % 16) + if lv then 0 else 1) = true → 
      Does (.wakeEdge true k lv) s [.evc, .rstc] [EVC_WAKEFLG.at (k / 32), EVC_WAKETS.at] fun e => gbit e (EVC_WAKEFLG.FLG (k / 32)) (k % 32) = true ∧ e.rstc.wakeReq = true ∧ tabGet false e.evc.wakePins k = lv ∧
        rd e EVC_WAKETS.at = (if wakeAsked d then rd d EVC_WAKETS.at else shortTs d)) ∧
    (∀ (k : Fin 64) (lv : Bool), mode d = mPark → gb d (EVC_WAKESRC.EN (k % 8)) = true → tabGet false d.evc.wakeLatch (k % 8) = false → (if lv then senseOf (srcWord d (gf d (EVC_WAKESRC.SRC (k % 8)))) ∈ [1, 3, 5] else senseOf (srcWord d (gf d (EVC_WAKESRC.SRC (k % 8)))) ∈ [2, 4, 5]) → 
      Does (.wakeEdge false k lv) s [.evc, .rstc] [EVC_WAKETS.at] fun e => tabGet false e.evc.wakeLatch (k % 8) = true ∧ e.rstc.wakeReq = true ∧
        rd e EVC_WAKETS.at = (if wakeAsked d then rd d EVC_WAKETS.at else shortTs d)) ∧
    (∀ (mons : List Nat), mode d = mPark → d.rstc.wakeReq = true → d.rstc.phase = .started → d.folio.shadows = [] → d.flash.latchCopies = [] → d.pace.lowV = 0 ∨ 660 ≤ gf d PACE_TELEM.VMEAS ∨ gb d PACE_STAT.AVS_FAIL = true → 
      Completes (.parkWake mons) s fun t => mode t.dev = (if d.rstc.parkRecovery then mRecovery else mConfig) ∧ gf t.dev SYS_STAT.WHY = 6 ∧ gf t.dev SYS_STAT.PREV = mPark ∧
        t.dev.rstc.wakeReq = false ∧ t.dev.host.l1 = false ∧ t.dev.evc.wakeLatch = [] ∧ t.dev.merid.calFrom = d.now ∧ t.dev.rstc.wakeTick = d.now)

/-- R66 to R68, R122: the scrubber rewrites a route field of which one copy differs with the value of the two, reporting VOTE_CORR, and puts the fallback in the whole field where all three differ, reporting VOTE_FAIL. No command of this table upsets a copy. -/
def Obligations.Scrubbing : Prop :=
  ∀ s : State, s.dev.rstc.req = [] → s.dev.galley.waiters = [] →
    let d := s.dev
    (∀ (x : Fin 179) (w : Tri) (v : Word), mode d ≠ mPark → d.rstc.parkEntry = false → d.folio.copies = [(routeKey x, w)] → vote3 w = some v → d.folio.shadows = [] → d.flash.latchCopies = [] → 
      Completes .voteScrub s fun t => t.mem = s.mem ∧ t.dev.core = d.core ∧ t.dev.folio.copies = [] ∧ rd t.dev (routeKey x) = v ∧ bit (rd t.dev (FOLIO_EVT.at (routeKey x / 256))) 33 = true ∧ mode t.dev = mode d) ∧
    (∀ (x : Fin 179) (w : Tri), mode d ≠ mPark → d.rstc.parkEntry = false → d.folio.copies = [(routeKey x, w)] → vote3 w = none → d.folio.shadows = [] → d.flash.latchCopies = [] → 
      Completes .voteScrub s fun t => t.mem = s.mem ∧ t.dev.core = d.core ∧ t.dev.folio.copies = [] ∧ (∀ k ∈ voteUnit (routeKey x), rd t.dev k = 0xFFFF) ∧ bit (rd t.dev (FOLIO_EVT.at (routeKey x / 256))) 34 = true ∧
        gb t.dev (FOLIO_STAT.VOTE_ERR (routeKey x / 256)) = true)

/-- R239, R254, R256, R258, R259, R300 to R302, R306, R308, R496: a core is released and held by its folio, a line is filled, stores are issued and answered, an exception and an interrupt are entered, debug halts, steps and resumes. IP of a vector is 0x200000 + 8 × vector (R308). STEP and RESUME write the control bits back with the halt request clear (a model choice of the assumption log). -/
def Obligations.CoreControl : Prop :=
  ∀ s : State, Calm s →
    let d := s.dev
    (∀ (ini : Initiator) (c : Fin 8), Open ini (0x20 + c) s → c.val = 0 ∨ mode d ≠ mStart → 
      Completes (.coreRelease ini c) s fun t => t.mem = s.mem ∧ gb t.dev (FOLIO_CTL.EN (0x20 + c)) = true ∧ t.dev.core = d.core ∧ ∀ x ∈ upTo 8, x ≠ c.val → gb t.dev (FOLIO_CTL.EN (0x20 + x)) = gb d (FOLIO_CTL.EN (0x20 + x))) ∧
    (∀ (ini : Initiator) (c : Fin 8), Open ini (0x20 + c) s → 
      Completes (.coreHold ini c) s fun t => t.mem = s.mem ∧ gb t.dev (FOLIO_CTL.EN (0x20 + c)) = false ∧ t.dev.core = d.core ∧ coreOn t.dev c = false) ∧
    (∀ (c : Fin 8) (b : Nat), coreReady d c = true → regionOf (some c.val) ((coreOfDev d c).ip / 2) = .sram b → (((coreOfDev d c).fbuf.any fun l => decide (l.addr = (coreOfDev d c).ip / 2 / 4 * 4)) = false) → d.fab.tags = [] → d.fab.waiting = [] → canTag d (2 * c) = true → gb d (CORE_FBCFG.PREF c) = false → bankOff d (.sram b) = false → initWait d (.sram b) = false → substOf d b = false → flawOf s.mem ((coreOfDev d c).ip / 2) = flawZero → 
      Does (.lineFill c false) s [.core] [CORE_FBCNT.at c, FAB_PEAK.at] fun e => let l := (coreOfDev d c).ip / 2 / 4 * 4
        coreOfDev e c = { coreOfDev d c with fbuf := ((⟨l, (upTo 4).map fun i => storedWord s.mem (l + i)⟩ : FbLine) :: (coreOfDev d c).fbuf).take 8, filled := (coreOfDev d c).filled ++ [l] } ∧ (∀ x ∈ upTo 8, x ≠ c.val → coreOfDev e x = coreOfDev d x) ∧
        gf e (CORE_FBCNT.HIT c) = gf d (CORE_FBCNT.HIT c)) ∧
    (∀ (c : Fin 8) (x : StoreEntry) (r : List StoreEntry), (coreOfDev d c).wbuf = x :: r → direct c x.addr = false → canTag d (2 * c + 1) = true → d.fab.tags = [] → d.fab.waiting = [] → 
      Does (.storeIssue c) s [.core, .fab] [FAB_TAGUSE.at (2 * c + 1), FAB_STAT.at, FAB_PEAK.at] fun e => coreOfDev e c = { coreOfDev d c with wbuf := r, issued := (coreOfDev d c).issued ++ [{ x with tag := some d.fab.next }] } ∧
        e.fab.next = d.fab.next + 1 ∧ tabFind e.fab.tags d.fab.next = some ⟨2 * c + 1, x.addr, d.now, none, false⟩ ∧ (∀ y ∈ upTo 8, y ≠ c.val → coreOfDev e y = coreOfDev d y)) ∧
    (∀ (c : Fin 8) (x : StoreEntry) (r : List StoreEntry), (coreOfDev d c).wbuf = x :: r → direct c x.addr = true → 
      Does (.storeIssue c) s [.core] [] fun e => coreOfDev e c = { coreOfDev d c with wbuf := r, issued := (coreOfDev d c).issued ++ [x] } ∧ (∀ y ∈ upTo 8, y ≠ c.val → coreOfDev e y = coreOfDev d y)) ∧
    (∀ (c : Fin 8) (x : StoreEntry) (r : List StoreEntry), (coreOfDev d c).issued = x :: r → x.tag = none → x.val2 = none → regionOf (some c.val) x.addr = .dtcm c.val → initWait d (.dtcm c) = false → flawOf s.mem (physAddr c x.addr) = flawZero → 
      Completes (.storeAck c 0 .good) s fun t => storedWord t.mem (physAddr c x.addr) = (storedWord s.mem (physAddr c x.addr) &&& ~~~x.mask) ||| (x.val &&& x.mask) ∧ (∀ a, a ≠ physAddr c x.addr → storedWord t.mem a = storedWord s.mem a) ∧
        coreOfDev t.dev c = { coreOfDev d c with issued := r } ∧ (∀ y ∈ upTo 8, y ≠ c.val → coreOfDev t.dev y = coreOfDev d y)) ∧
    (∀ (c : Fin 8) (e : Exc), coreRuns d c = true → (coreOfDev d c).excs = [e] → (coreOfDev d c).depth < 4 → ((coreOfDev d c).draining = true → e.vec ≠ 11 ∧ e.vec ≠ 12) → compatOf d = true → 
      Completes (.exceptionEntry c) s fun t => let k := (coreOfDev d c).evented
        t.mem = s.mem ∧ coreOfDev t.dev c = { k with
          excs := [], pre := [], saveIp := tabSet 0 k.saveIp k.depth (BitVec.ofNat 36 (e.ip.getD k.ip)), savePsw := tabSet 0 k.savePsw k.depth (viewPsw d k.psw)
          latch := tabSet (false, 0) k.latch k.depth (k.sup, k.rp), depth := k.depth + 1, rp := if e.vec = 13 then k.rp else 3
          cause := causeWord { k with excs := [] } e, faddr := e.faddr.getD k.faddr, arithSrc := (e.arith.map (BitVec.ofNat 36)).getD k.arithSrc
          ctx := { k.ctx with ip := 0x200000 + 8 * e.vec, psw := setBitW (setBitW k.psw pswMode true) pswResume false } } ∧ (∀ x ∈ upTo 8, x ≠ c.val → coreOfDev t.dev x = coreOfDev d x)) ∧
    (∀ (c : Fin 8) (e : Exc), coreRuns d c = true → (coreOfDev d c).excs = [e] → (coreOfDev d c).depth < 4 → ((coreOfDev d c).draining = true → e.vec ≠ 11 ∧ e.vec ≠ 12) → compatOf d = false → 0x110000 ≤ (coreOfDev d c).tsbp.toNat → (coreOfDev d c).tsbp.toNat < 0x117FC1 → s.mem.flaws = [] → 
      Completes (.exceptionEntry c) s fun t => let k := (coreOfDev d c).evented
        (coreOfDev t.dev c).depth = k.depth + 1 ∧ (coreOfDev t.dev c).ip = 0x200000 + 8 * e.vec ∧ (coreOfDev t.dev c).sup = true ∧ (coreOfDev t.dev c).resume = false ∧ (coreOfDev t.dev c).excs = [] ∧
        (coreOfDev t.dev c).cause = causeWord k e ∧ (∀ r, (coreOfDev t.dev c).gr r = k.gr r) ∧
        let a := physAddr c (k.tsbp.toNat + 0x34 + 3 * k.depth)
        storedWord t.mem a = BitVec.ofNat 36 (e.ip.getD k.ip) ∧ storedWord t.mem (a + 1) = viewPsw d k.psw ∧ storedWord t.mem (a + 2) = causeWord k e ∧
        ∀ x, x ≠ a → x ≠ a + 1 → x ≠ a + 2 → storedWord t.mem x = storedWord s.mem x) ∧
    (∀ (c : Fin 8) (i p k : Nat) (r : List Nat), coreRuns d c = true → (coreOfDev d c).excs = [] → (coreOfDev d c).depth < 4 → compatOf d = true → (coreOfDev d c).draining = false → bpDue d c = false → dueLine d c (coreOfDev d c).rp = some (i, p) → lineSources d c i = k :: r → 
      Completes (.interruptEntry c) s fun t => t.mem = s.mem ∧ (coreOfDev t.dev c).depth = (coreOfDev d c).depth + 1 ∧ (coreOfDev t.dev c).ip = 0x200000 + 8 * (16 + i) ∧ (coreOfDev t.dev c).rp = p ∧ (coreOfDev t.dev c).sup = true ∧
        tabGet 0 (coreOfDev t.dev c).saveIp (coreOfDev d c).depth = BitVec.ofNat 36 (coreOfDev d c).ip ∧ gf t.dev (EVC_ISRC.SRC (4 * c + (coreOfDev d c).depth)) = k ∧ gb t.dev (EVC_ISRC.VALID (4 * c + (coreOfDev d c).depth)) = true ∧
        evcPend t.dev k = false ∧ evcInsv t.dev k = true ∧ (∀ x ∈ upTo 8, x ≠ c.val → coreOfDev t.dev x = coreOfDev d x)) ∧
    (∀ (ini : Initiator) (c : Fin 8), Open ini (pageOf .dbg 0) s → gb d SEC_STAT.DBGUNL = true → (coreOfDev d c).halted = false → gb d (DBG_CTL.MON c) = false → 
      Completes (.haltreq ini c) s fun t => t.mem = s.mem ∧ coreOfDev t.dev c = { coreOfDev d c with halted := true, stepping := false } ∧ bit (rd t.dev (FOLIO_EVT.at (pageOf .dbg 0))) 0 = true ∧ (∀ x ∈ upTo 8, x ≠ c.val → coreOfDev t.dev x = coreOfDev d x)) ∧
    (∀ (ini : Initiator) (c : Fin 8), Open ini (pageOf .dbg 0) s → gb d SEC_STAT.DBGUNL = true → 
      Completes (.step ini c) s fun t => t.mem = s.mem ∧ coreOfDev t.dev c = { coreOfDev d c with stepping := true, bpSkip := true } ∧ (∀ x ∈ upTo 8, x ≠ c.val → coreOfDev t.dev x = coreOfDev d x)) ∧
    (∀ (ini : Initiator) (c : Fin 8), Open ini (pageOf .dbg 0) s → gb d SEC_STAT.DBGUNL = true → (coreOfDev d c).halted = true → 
      Completes (.resume ini c) s fun t => t.mem = s.mem ∧ coreOfDev t.dev c = { coreOfDev d c with halted := false, stepping := false, bpSkip := true } ∧ (∀ x ∈ upTo 8, x ≠ c.val → coreOfDev t.dev x = coreOfDev d x)) ∧
    (∀ (c : Fin 8), bpDue d c = true → (coreOfDev d c).excs = [] → (coreOfDev d c).draining = false → 
      Completes (.breakpointHit c) s fun t => t.mem = s.mem ∧ (gb d (DBG_CTL.MON c) = false → coreOfDev t.dev c = { coreOfDev d c with halted := true, stepping := false }) ∧
        (gb d (DBG_CTL.MON c) = true → (coreOfDev t.dev c).excs.map (fun e => (e.vec, e.ip)) = (coreOfDev d c).excs.map (fun e => (e.vec, e.ip)) ++ [(12, some (coreOfDev d c).ip)]) ∧ (∀ x ∈ upTo 8, x ≠ c.val → coreOfDev t.dev x = coreOfDev d x))

/-- R287 to R293, R298, R315, R316: activation makes a WAITING slot READY and is held or lost otherwise, timers start and expire, enable and disable, a switch saves one context and takes another, the core watchdog. -/
def Obligations.Tasks : Prop :=
  ∀ s : State, Calm s →
    let d := s.dev
    (∀ (c : Fin 8) (x : Fin 32), slotEn d c x = true → x.val ≠ (coreOfDev d c).run ∨ (coreOfDev d c).waiting = true ∨ (coreOfDev d c).inPlace = false → x.val ∉ (coreOfDev d c).ready → 
      Does (.taskActivation c x) s [.core] [] fun e => coreOfDev e c = { (coreOfDev d c) with ready := (coreOfDev d c).ready ++ [x.val], fresh := (coreOfDev d c).fresh ++ [x.val] } ∧ (∀ x ∈ upTo 8, x ≠ c.val → coreOfDev e x = coreOfDev d x)) ∧
    (∀ (c : Fin 8) (x : Fin 32), slotEn d c x = true → (x.val = (coreOfDev d c).run ∧ (coreOfDev d c).waiting = false ∧ (coreOfDev d c).inPlace = true) ∨ (x.val ∈ (coreOfDev d c).ready ∧ x.val ∉ (coreOfDev d c).fresh ∧ (x.val ≠ (coreOfDev d c).run ∨ (coreOfDev d c).waiting = true ∨ (coreOfDev d c).inPlace = false)) → x.val ∉ (coreOfDev d c).pend → 
      Does (.taskActivation c x) s [.core] [] fun e => coreOfDev e c = { (coreOfDev d c) with pend := (coreOfDev d c).pend ++ [x.val] } ∧ (∀ x ∈ upTo 8, x ≠ c.val → coreOfDev e x = coreOfDev d x)) ∧
    (∀ (c : Fin 8) (x : Fin 32), slotEn d c x = true → x.val = (coreOfDev d c).run → (coreOfDev d c).waiting = false → (coreOfDev d c).inPlace = true → x.val ∈ (coreOfDev d c).pend → 
      Does (.taskActivation c x) s [.evc] [TSC_LOST.at c, FOLIO_EVT.at (0x28 + c)] fun e => gbit e (TSC_LOST.LOST c) x = true ∧ Raised d e (0x28 + c) 0) ∧
    (∀ (c : Fin 8) (x : Fin 32), slotEn d c x = false → 
      Does (.taskActivation c x) s [] [] fun _ => True) ∧
    (∀ (ini : Initiator) (c : Fin 8) (m : BitVec 32), Open ini (0x28 + c) s → 
      Completes (.tscSwact ini c m) s fun t => t.mem = s.mem ∧ (coreOfDev t.dev c).ctx = (coreOfDev d c).ctx ∧ (coreOfDev t.dev c).run = (coreOfDev d c).run ∧ (∀ x ∈ upTo 32, (x ∈ (coreOfDev t.dev c).ready ↔ x ∈ (coreOfDev d c).ready ∨
          (m.getLsbD x = true ∧ slotEn d c x = true ∧ (x ≠ (coreOfDev d c).run ∨ (coreOfDev d c).waiting = true ∨ (coreOfDev d c).inPlace = false)))) ∧ (∀ x ∈ upTo 8, x ≠ c.val → coreOfDev t.dev x = coreOfDev d x)) ∧
    (∀ (c : Fin 8) (x : Fin 32) (u : Nat), tabFind (coreOfDev d c).timers x = some u → u ≤ d.now → mode d ≠ mStart → mode d ≠ mPark → 
      Completes (.slotTimerExpiry c x) s fun t => t.mem = s.mem ∧ (coreOfDev t.dev c).timers = (if gb d (TSC_TMR.PERIODIC c x) then tabPut (coreOfDev d c).timers x (u + 16 * gf d (TSC_TMR.PER c x)) else tabErase (coreOfDev d c).timers x) ∧
        (gb d (TSC_TMR.PERIODIC c x) = false → gf t.dev (TSC_TMR.PER c x) = 0) ∧
        (gf d (TSC_SLOTCFG.ASRC c x) = 2 → slotEn d c x = true → x.val ≠ (coreOfDev d c).run → x.val ∈ (coreOfDev t.dev c).ready) ∧
        (gf d (TSC_SLOTCFG.ASRC c x) ≠ 2 → (coreOfDev t.dev c).ready = (coreOfDev d c).ready) ∧ (∀ x ∈ upTo 8, x ≠ c.val → coreOfDev t.dev x = coreOfDev d x)) ∧
    (∀ (ini : Initiator) (c : Fin 8) (x : Fin 32) (v : Word), Open ini (0x28 + c) s → 
      Does (.tscTmrWrite ini c x v) s [.core] [TSC_TMR.at c x] fun e => coreOfDev e c = { (coreOfDev d c) with timers := if gf e (TSC_TMR.PER c x) = 0 then tabErase (coreOfDev d c).timers x else tabPut (coreOfDev d c).timers x (d.now + 16 * gf e (TSC_TMR.PER c x)) } ∧
        gf e (TSC_TMR.PER c x) = fld v (TSC_TMR.PER c x).hi (TSC_TMR.PER c x).lo ∧ gf e (TSC_TMR.PERIODIC c x) = fld v (TSC_TMR.PERIODIC c x).hi (TSC_TMR.PERIODIC c x).lo ∧ (∀ x ∈ upTo 8, x ≠ c.val → coreOfDev e x = coreOfDev d x)) ∧
    (∀ (ini : Initiator) (c : Fin 8) (x : Fin 32) (v : Word), Open ini (0x28 + c) s → fld v 23 22 ≠ 3 → slotEn d c x = false ∨ fld v 8 0 = gf d (TSC_SLOTCFG.TSBIDX c x) → 
      Does (.slotEnable ini c x v) s [.core] [TSC_SLOTCFG.at c x] fun e => slotEn e c x = bit v 35 ∧ slotPri e c x = fld v (TSC_SLOTCFG.PRI c x).hi (TSC_SLOTCFG.PRI c x).lo ∧
        (slotEn d c x = true → bit v 35 = false → coreOfDev e c = { (coreOfDev d c) with ready := (coreOfDev d c).ready.filter (fun y => decide (y ≠ x.val)), fresh := (coreOfDev d c).fresh.filter (fun y => decide (y ≠ x.val)), pend := (coreOfDev d c).pend.filter (fun y => decide (y ≠ x.val)) }) ∧
        (slotEn d c x = bit v 35 → coreOfDev e c = (coreOfDev d c)) ∧ (∀ x ∈ upTo 8, x ≠ c.val → coreOfDev e x = coreOfDev d x)) ∧
    (∀ (c : Fin 8), switchDue d c = true → switchFree d c = true → mode d ≠ mStart → bestReady d c = some (coreOfDev d c).run → (coreOfDev d c).inPlace = true → slotEn d c (coreOfDev d c).run = true → 
      Completes (.taskSwitch c) s fun t => t.mem = s.mem ∧ coreOfDev t.dev c = { (coreOfDev d c).evented with waiting := false, giveWay := false, ready := (coreOfDev d c).ready.filter (fun y => decide (y ≠ (coreOfDev d c).run)), fresh := (coreOfDev d c).fresh.filter (fun y => decide (y ≠ (coreOfDev d c).run)) } ∧ (∀ x ∈ upTo 8, x ≠ c.val → coreOfDev t.dev x = coreOfDev d x)) ∧
    (∀ (c : Fin 8) (y b b2 : Nat) (x : Ctx), switchDue d c = true → switchFree d c = true → mode d ≠ mStart → bestReady d c = some y → y ≠ (coreOfDev d c).run → (coreOfDev d c).inPlace = true → slotEn d c (coreOfDev d c).run = true → bankOf d c (coreOfDev d c).run = some b → bankOf d c y = some b2 → tabFind (coreOfDev d c).banks b2 = some x → bit x.psw pswMode = false → 
      Completes (.taskSwitch c) s fun t => (coreOfDev t.dev c).run = y ∧ (coreOfDev t.dev c).inPlace = true ∧ (coreOfDev t.dev c).waiting = false ∧ (coreOfDev t.dev c).tsbp = BitVec.ofNat 36 (tsbOf d c y) ∧ (coreOfDev t.dev c).ctx = { x with psw := setBitW x.psw pswFpa false } ∧ y ∉ (coreOfDev t.dev c).ready ∧
        tabFind (coreOfDev t.dev c).banks b = some (coreOfDev d c).evented.ctx ∧ (coreOfDev t.dev c).depth = (coreOfDev d c).depth ∧ (coreOfDev t.dev c).f = (coreOfDev d c).f ∧ (coreOfDev t.dev c).fpOwn = (coreOfDev d c).fpOwn ∧ t.mem = s.mem) ∧
    (∀ (c : Fin 8) (y : Nat), switchDue d c = true → switchFree d c = true → mode d ≠ mStart → bestReady d c = some y → y ≠ (coreOfDev d c).run → 
      Completes (.taskSwitch c) s fun t => (coreOfDev t.dev c).run = y ∧ (coreOfDev t.dev c).inPlace = true ∧ (coreOfDev t.dev c).waiting = false ∧ (coreOfDev t.dev c).tsbp = BitVec.ofNat 36 (tsbOf d c y) ∧ y ∉ (coreOfDev t.dev c).ready ∧ (coreOfDev t.dev c).depth = (coreOfDev d c).depth ∧ (coreOfDev t.dev c).f = (coreOfDev d c).f ∧ bit (coreOfDev t.dev c).psw pswFpa = false) ∧
    (∀ (c : Fin 8), gb d (TSC_WDOG.EN c) = true → (coreOfDev d c).wdFrom + 1024 * gf d (TSC_WDOG.TIME c) ≤ d.now → 
      Completes (.wdExpire c) s fun t => t.mem = s.mem ∧ (coreOfDev t.dev c).wdFrom = d.now ∧ bit (rd t.dev (FOLIO_EVT.at (0x28 + c))) 1 = true ∧
        ((coreOfDev d c).wdOnce = false → (coreOfDev t.dev c).wdOnce = true ∧ (coreOfDev t.dev c).excs.map (·.vec) = (coreOfDev d c).excs.map (·.vec) ++ [11] ∧ t.dev.rstc.req = []) ∧ ((coreOfDev d c).wdOnce = true → (coreOfDev t.dev c).excs = (coreOfDev d c).excs ∧ t.dev.rstc.req = [.cwdog] ∧ gf t.dev RSTC_DETAIL.CORE = c.val ∧ gf t.dev RSTC_DETAIL.SUB = 1)) ∧
    (∀ (ini : Initiator) (c : Fin 8), Open ini (0x28 + c) s → 
      Does (.wdkick ini c 0xA5A5) s [.core] [TSC_WDKICK.at c] fun e => coreOfDev e c = { (coreOfDev d c) with wdFrom := d.now, wdOnce := false } ∧ (∀ x ∈ upTo 8, x ≠ c.val → coreOfDev e x = coreOfDev d x)) ∧
    (∀ (ini : Initiator) (c : Fin 8) (v : Word), Open ini (0x28 + c) s → v ≠ 0xA5A5 → 
      Does (.wdkick ini c v) s [.evc] [FOLIO_EVT.at (0x28 + c)] fun e => e.core = d.core ∧ Raised d e (0x28 + c) 3)

/-- R342 to R347: a waiting request gets a tag in round robin, a tag whose answer does not come in time is retired and its store faults, the late response frees the entry, or a further timeout does. Which of several waiting requests is next is R344’s round robin. -/
def Obligations.Fabric : Prop :=
  ∀ s : State, Calm s →
    let d := s.dev
    (∀ (h a : Nat), nextWaiting d = some (h, a) → 
      Does .tagGrant s [.fab] [FAB_TAGUSE.at h, FAB_STAT.at, FAB_PEAK.at] fun e => e.fab.waiting = d.fab.waiting.erase (h, a) ∧ tabFind e.fab.tags d.fab.next = some ⟨h, a, d.now, none, true⟩ ∧
        e.fab.next = d.fab.next + 1 ∧ e.fab.lastGrant = h) ∧
    (nextWaiting d = none → 
      Does .tagGrant s [] [] fun e => e.fab = d.fab) ∧
    (∀ (n : Nat) (g : TagSt) (c : Fin 8) (x : StoreEntry) (r : List StoreEntry), tabFind d.fab.tags n = some g → g.zombie = none → g.issued + 16 * gf d FAB_TAGTIMEOUT.TO ≤ d.now → storeOfTag d n = some (c.val, 0) → (coreOfDev d c).issued = x :: r → x.tag = some n → x.orphan = false → x.split = false → (∀ y ∈ r, y.tag ≠ some n) → 
      Completes (.fabTimeout n false) s fun t => t.mem = s.mem ∧ tabFind t.dev.fab.tags n = some { g with zombie := some d.now, granted := false } ∧
        gf t.dev FAB_ERRADDR.ADDR = g.addr % 2 ^ 28 ∧ gf t.dev FAB_ERRINFO.CAUSE = 3 ∧ bit (rd t.dev (FOLIO_EVT.at 0x0E)) 1 = true ∧
        (coreOfDev t.dev c).issued = r ∧ (coreOfDev t.dev c).excs.map (fun e => (e.vec, e.sub, e.faddr)) = (coreOfDev d c).excs.map (fun e => (e.vec, e.sub, e.faddr)) ++ [(7, 2, some (BitVec.ofNat 36 x.addr))] ∧ (∀ y ∈ upTo 8, y ≠ c.val → coreOfDev t.dev y = coreOfDev d y)) ∧
    (∀ (n : Nat) (g : TagSt) (z : Nat), tabFind d.fab.tags n = some g → g.zombie = some z → 
      Does (.fabLate n) s [.fab, .evc] [FAB_STAT.at, FOLIO_EVT.at 0x0E] fun e => tabFind e.fab.tags n = none ∧ gf e FAB_STAT.ZOMBIE = gf d FAB_STAT.ZOMBIE - 1 ∧ Raised d e 0x0E 2) ∧
    (∀ (n : Nat) (g : TagSt) (z : Nat), tabFind d.fab.tags n = some g → g.zombie = some z → z + 16 * gf d FAB_TAGTIMEOUT.TO ≤ d.now → 
      Does (.zombieRelease n) s [.fab] [FAB_STAT.at] fun e => tabFind e.fab.tags n = none ∧ gf e FAB_STAT.ZOMBIE = gf d FAB_STAT.ZOMBIE - 1)

/-- R352, R354, R356 to R360: initialisation clears a region, a bank is mirrored, substituted or given back by guarded writes, banks are marked unusable, a block is cleared, the log’s tail moves. -/
def Obligations.StoredData : Prop :=
  ∀ s : State, Calm s →
    let d := s.dev
    (∀ (k : Fin 35), d.rstc.phase = .started → gbit d MEMP_INIT.DONE k = false → 
      Completes (.memoryInitDone k) s fun t => Only [] [MEMP_INIT.at] d t.dev ∧ gbit t.dev MEMP_INIT.DONE k = true ∧ (∀ x ∈ upTo 35, x ≠ k.val → gbit t.dev MEMP_INIT.DONE x = gbit d MEMP_INIT.DONE x) ∧
        ∀ a, ((regionRange k).1 ≤ a → a < (regionRange k).2 → storedWord t.mem a = 0) ∧ (a < (regionRange k).1 ∨ (regionRange k).2 ≤ a → storedWord t.mem a = storedWord s.mem a)) ∧
    (∀ (ini : Initiator) (b : Fin 16), Open ini 0x0E s → gf d FAB_RETIRE.MODE = 0 → gbit d FAB_BANKOFF.OFF 16 = false → 
      Does (.retireMirror ini b) s [] [FAB_RETIRE.at] fun e => gf e FAB_RETIRE.MODE = 1 ∧ gf e FAB_RETIRE.BANK = b.val ∧ mirrorOf e b = true ∧ substOf e b = false) ∧
    (∀ (ini : Initiator) (b : Fin 16), Open ini 0x0E s → gf d FAB_RETIRE.MODE = 1 → 
      Does (.retireNone ini b) s [] [FAB_RETIRE.at] fun e => gf e FAB_RETIRE.MODE = 0 ∧ ∀ x ∈ upTo 16, mirrorOf e x = false) ∧
    (∀ (ini : Initiator) (b : Fin 16), Open ini 0x0E s → gf d FAB_RETIRE.MODE = 1 → gf d FAB_RETIRE.BANK = b.val → 
      Does (.retireSubst ini b) s [] [FAB_RETIRE.at] fun e => gf e FAB_RETIRE.MODE = 2 ∧ substOf e b = true ∧ ∀ a, physOf e (.sram b) a = spareBase + a % 0x10000) ∧
    (∀ (ini : Initiator) (b : Fin 16), Open ini 0x0E s → gf d FAB_RETIRE.MODE = 2 → 
      Does (.retireMirror ini b) s [.evc] [FOLIO_STAT.at 0x0E, FOLIO_EVT.at 0x0E, SYS_FOLIOERR.at] fun e => rd e FAB_RETIRE.at = rd d FAB_RETIRE.at ∧ gb e (FOLIO_STAT.QUOIN_ERR 0x0E) = true ∧ gf e (FOLIO_STAT.QCAUSE 0x0E) = 6) ∧
    (∀ (ini : Initiator) (v : Word), Open ini 0x0E s → 
      Does (.fabBankoffWrite ini v) s [] [FAB_BANKOFF.at, FAB_RETIRE.at] fun e => rd e FAB_BANKOFF.at = v &&& maskOf 16 0 ∧ gf e FAB_RETIRE.BANK = gf d FAB_RETIRE.BANK ∧ gf e FAB_RETIRE.MODE = (if bit v 16 ∧ gf d FAB_RETIRE.MODE = 1 then 0 else gf d FAB_RETIRE.MODE)) ∧
    (∀ (ini : Initiator) (v : Word) (c : Nat), Open ini 0x0F s → regionOf none (fld v 27 3 * 8) = .dtcm c → 
      Completes (.mempClrblk ini v) s fun t => Only [] [MEMP_CLRBLK.at] d t.dev ∧ ∀ a, (a / 8 = fld v 27 3 → storedWord t.mem a = 0 ∧ flawOf t.mem a = flawZero) ∧ (a / 8 ≠ fld v 27 3 → storedWord t.mem a = storedWord s.mem a)) ∧
    (∀ (ini : Initiator) (v : Word), Open ini 0x0F s → (gf d MEMP_STAT.HEAD + 128 - fld v 6 0) % 128 ≤ 64 → 
      Does (.mempTailWrite ini v) s [] [MEMP_TAIL.at, MEMP_STAT.at] fun e => gf e MEMP_TAIL.TAIL = fld v 6 0 ∧ gf e MEMP_STAT.UNREAD = (gf d MEMP_STAT.HEAD + 128 - fld v 6 0) % 128 ∧ gf e MEMP_STAT.HEAD = gf d MEMP_STAT.HEAD)

/-- R365, R367, R368, R375: ENABLE sets EN and clears FAULT, DISABLE clears EN and WAIT, FLUSH empties the ring, CLRSTAT clears the drop status, a refused command changes nothing and reports its queue, and descriptors are stored only while disabled. -/
def Obligations.QueueCommands : Prop :=
  ∀ s : State, Calm s →
    let d := s.dev
    (∀ (ini : Initiator) (q : Fin 32768) (x : QDesc), Open ini 0x10 s → descOf s q = x → initWait d .galley = false → flawOf s.mem (descAddr q 0) = flawZero → canTag d 17 = true → d.fab.waiting = [] → d.galley.posted = [] → mode d ≠ mPark → enableOk x = true → 
      Completes (.queueEnable ini q) s fun t => MemOnly s t ((upTo 4).map (descAddr q)) ∧ descOf t q = QDesc.fixPar { x with cfg := setBitW x.cfg 35 true, stat := setBitW x.stat 23 false } ∧ t.dev.core = d.core) ∧
    (∀ (ini : Initiator) (q : Fin 32768) (x : QDesc), Open ini 0x10 s → descOf s q = x → initWait d .galley = false → flawOf s.mem (descAddr q 0) = flawZero → canTag d 17 = true → d.fab.waiting = [] → d.galley.posted = [] → mode d ≠ mPark → enableOk x = false → 
      Does (.queueEnable ini q) s [.evc, .fab] [GALLEY_QCMD.at, GALLEY_ERRQ.at, FAB_PEAK.at, FAB_STAT.at, FAB_TAGUSE.at 17, FOLIO_EVT.at 0x10] fun e => gf e GALLEY_ERRQ.QUEUE = q.val ∧ gf e GALLEY_ERRQ.CODE = 1 ∧ Raised d e 0x10 1) ∧
    (∀ (ini : Initiator) (q : Fin 32768) (x : QDesc), Open ini 0x10 s → descOf s q = x → initWait d .galley = false → flawOf s.mem (descAddr q 0) = flawZero → canTag d 17 = true → d.fab.waiting = [] → d.galley.posted = [] → d.galley.parked = [] → mode d ≠ mPark → x.parOk = true → 
      Completes (.queueDisable ini q) s fun t => MemOnly s t ((upTo 4).map (descAddr q)) ∧ descOf t q = QDesc.fixPar { x with cfg := setBitW x.cfg 35 false, stat := setBitW x.stat 21 false } ∧ t.dev.core = d.core) ∧
    (∀ (ini : Initiator) (q : Fin 32768) (x : QDesc), Open ini 0x10 s → descOf s q = x → initWait d .galley = false → flawOf s.mem (descAddr q 0) = flawZero → canTag d 17 = true → d.fab.waiting = [] → d.galley.posted = [] → mode d ≠ mPark → x.parOk = true → x.en = true → x.faulted = false → 
      Completes (.queueFlush ini q) s fun t => MemOnly s t ((upTo 4).map (descAddr q)) ∧ descOf t q = QDesc.fixPar (x.setHead x.tail) ∧ (descOf t q).fill = 0) ∧
    (∀ (ini : Initiator) (q : Fin 32768) (x : QDesc), Open ini 0x10 s → descOf s q = x → initWait d .galley = false → flawOf s.mem (descAddr q 0) = flawZero → canTag d 17 = true → d.fab.waiting = [] → d.galley.posted = [] → mode d ≠ mPark → x.parOk = true → 
      Completes (.queueClrstat ini q) s fun t => MemOnly s t ((upTo 4).map (descAddr q)) ∧ descOf t q = QDesc.fixPar { x with stat := setFld (setBitW x.stat 22 false) 17 0 0 } ∧ t.dev.core = d.core) ∧
    (∀ (ini : Initiator) (q : Fin 32768) (k : Fin 4) (v : Word), iniServed d ini = true → debugShut d ini = false → bit (storedWord s.mem (descAddr q 0)) 35 = false → initWait d .galley = false → flawOf s.mem (descAddr q 0) = flawZero → 
      Completes (.descWr ini q k v) s fun t => Only [] [] d t.dev ∧ MemOnly s t [descAddr q k] ∧ storedWord t.mem (descAddr q k) = (if k.val = 0 then setBitW v 35 false else v)) ∧
    (∀ (ini : Initiator) (q : Fin 32768) (k : Fin 4) (v : Word), iniServed d ini = true → debugShut d ini = false → bit (storedWord s.mem (descAddr q 0)) 35 = true → flawOf s.mem (descAddr q 0) = flawZero → 
      Does (.descWr ini q k v) s [.evc, .core, .pressErr] [GALLEY_ERRQ.at, FOLIO_EVT.at 0x10, PCIE_ERRADDR.at, FOLIO_EVT.at 0x100] fun e =>
        (∀ c : Fin 8, ini = .core c → (coreOfDev e c).excs.map (fun x => (x.vec, x.sub, x.faddr)) = (coreOfDev d c).excs.map (fun x => (x.vec, x.sub, x.faddr)) ++ [(7, 2, some (BitVec.ofNat 36 (descAddr q k)))]) ∧
        (ini = .pcie → gf e PCIE_ERRADDR.ADDR = descAddr q k ∧ bit (rd e (FOLIO_EVT.at 0x100)) 2 = true) ∧ gf e GALLEY_ERRQ.QUEUE = q.val ∧ gf e GALLEY_ERRQ.CODE = 3 ∧ Raised d e 0x10 2)

/-- R366, R369 to R373: a put stores its payload from TAIL on and TAIL follows with its commit, a put that does not fit is discarded and counted, a take gives the word at HEAD, a take of an empty queue parks and completes with the next word. R278, R370: a producer that waits under BLOCK is served when its queue has space: the word is put, and the QPUT of a core ends with Z = 0. -/
def Obligations.QueueMoves : Prop :=
  ∀ s : State, s.dev.rstc.req = [] → s.dev.folio.copies = [] →
    let d := s.dev
    (∀ (p : Producer) (o : Offer) (x : QDesc), d.offers = [o] → o.producer = producerKey p → d.galley.posted = [] → Serving s o.queue x → x.fill + o.words.length ≤ x.size → o.queue < 32768 → d.galley.waiters = [] → 
      Completes (.queuePut p) s fun t => Only [.offers, .galley, .fab] [FAB_PEAK.at, FAB_STAT.at, FAB_TAGUSE.at 17] d t.dev ∧ t.dev.offers = [] ∧ t.dev.galley.posted = [⟨o.queue, o.words.length, x.fill, d.fab.next, some o.producer⟩] ∧ descOf t o.queue = x ∧
        MemOnly s t ((upTo o.words.length).map fun i => x.slot (x.tail + i)) ∧ ∀ i ∈ upTo o.words.length, storedWord t.mem (x.slot (x.tail + i)) = o.words.getD i 0) ∧
    (∀ (p : Producer) (o : Offer) (x : QDesc), d.offers = [o] → o.producer = producerKey p → d.galley.posted = [] → Serving s o.queue x → x.size < x.fill + o.words.length → x.pol ≠ 1 → o.queue < 32768 → d.galley.waiters = [] → 
      Completes (.queuePut p) s fun t => t.dev.offers = [] ∧ t.dev.galley.posted = [] ∧ MemOnly s t ((upTo 4).map (descAddr o.queue)) ∧ descOf t o.queue = (x.dropped o.words.length).fixPar ∧ gf t.dev GALLEY_LASTOVF.Q = o.queue ∧ t.dev.core = d.core) ∧
    (∀ (q : Fin 32768) (p : QPost) (x : QDesc), d.galley.posted = [p] → p.queue = q.val → d.galley.cmds = [] → Serving s q x → d.galley.waiters = [] → 
      Completes (.putCommit q) s fun t => t.dev.galley.posted = [] ∧ MemOnly s t ((upTo 4).map (descAddr q)) ∧ descOf t q = (x.setTail (x.tail + p.n)).fixPar ∧ t.dev.offers = d.offers) ∧
    (∀ (e : Fin 64) (q : Nat) (x : QDesc), takerWants d e = some q → canTag d (18 + e / 4) = true → q < 32768 → d.galley.parked = [] → d.galley.posted = [] → Serving s q x → x.fill ≠ 0 → d.galley.waiters = [] → 
      Completes (.queueTake (.trav e)) s fun t => tabFind t.dev.galley.setp e = some (storedWord s.mem (x.slot x.head)) ∧ MemOnly s t ((upTo 4).map (descAddr q)) ∧ descOf t q = (x.setHead (x.head + 1)).fixPar ∧ t.dev.galley.parked = d.galley.parked ∧ t.dev.trav = d.trav) ∧
    (∀ (k : Taker) (q : Nat) (x : QDesc), takerWants d (takerKey k) = some q → (takerKey k < 64 → canTag d (18 + takerKey k / 4) = true) → q < 32768 → d.galley.parked = [] → d.galley.posted = [] → Serving s q x → x.fill = 0 → d.galley.waiters = [] → 
      Completes (.queueTake k) s fun t => Only [.galley, .fab] ([FAB_PEAK.at, FAB_STAT.at, FAB_TAGUSE.at 17] ++ (upTo 16).map fun c => FAB_TAGUSE.at (18 + c)) d t.dev ∧ t.mem = s.mem ∧ t.dev.galley = { d.galley with parked := [(takerKey k, q)] }) ∧
    (∀ (q : Fin 32768) (e : Nat) (x : QDesc), d.galley.parked = [(e, q.val)] → e < 64 → d.galley.posted = [] → Serving s q x → x.fill ≠ 0 → d.galley.waiters = [] → 
      Completes (.parkedTakeComplete q) s fun t => t.dev.galley.parked = [] ∧ tabFind t.dev.galley.setp e = some (storedWord s.mem (x.slot x.head)) ∧ MemOnly s t ((upTo 4).map (descAddr q)) ∧ descOf t q = (x.setHead (x.head + 1)).fixPar) ∧
    (∀ (q : Fin 32768) (w : QWait) (x : QDesc), d.galley.waiters = [w] → d.rstc.parkEntry = false → w.who < 8 → w.queue = q.val → waiterValid d w = true → d.galley.posted = [] → d.galley.cmds = [] → Serving s q x → x.fill < x.size → 
      Completes (.blockPutServed q) s fun t => t.dev.galley.waiters = [] ∧ MemOnly s t (x.slot x.tail :: (upTo 4).map (descAddr q)) ∧ storedWord t.mem (x.slot x.tail) = w.word ∧ (descOf t q).tail = (x.tail + 1) % 2 ^ 17 ∧ (descOf t q).head = x.head ∧ bit (descOf t q).stat 21 = false ∧
        bit (coreOfDev t.dev w.who).psw pswZ = false ∧ (coreOfDev t.dev w.who).ip = ipAdd w.ip 1 ∧ (∀ r, (coreOfDev t.dev w.who).gr r = (coreOfDev d w.who).gr r))

/-- R377 to R379, R381 to R383, R387: START, SWTRIG, STOP and HCLR of a channel, its trigger, the end of a slip with or without a chain, and the halt after a bus error. R377, R378, R380: a slip is fetched from memory and checked, and a transfer copies the next word from the source side to the destination side. -/
def Obligations.PressChannels : Prop :=
  ∀ s : State, Calm s →
    let d := s.dev
    (∀ (ini : Initiator) (ch : Fin 128), Open ini (0xD0 + ch / 16) s → chState d ch = 0 ∨ chState d ch = 4 ∨ chState d ch = 5 → gb d PRESS_HALT.HALT = false → gf d (PRESS_CHPTR.SLIP (ch / 16) (ch % 16)) % 8 = 0 → 
      Does (.pressStart ini ch) s [.press] [PRESS_CHSTAT.at (ch / 16) (ch % 16), PRESS_CHCTL.at (ch / 16) (ch % 16)] fun e => rd e (PRESS_CHSTAT.at (ch / 16) (ch % 16)) = 1 ∧ chState e ch = 1 ∧ pressOf e ch = pressInit) ∧
    (∀ (ch : Fin 128), mode d ≠ mPark → (pressOf d ch).slip ≠ [] → slipMode (pressOf d ch) ≠ 0 → chState d ch = 2 → 
      Does (.pressTrigger ch) s [.press] [PRESS_CHSTAT.at (ch / 16) (ch % 16)] fun e => chState e ch = 3 ∧ (pressOf e ch).credit = (if slipMode (pressOf d ch) = 2 then min (slipTotal (pressOf d ch)) ((pressOf d ch).credit + slipDlen (pressOf d ch)) else slipTotal (pressOf d ch)) ∧ (pressOf e ch).moved = (pressOf d ch).moved) ∧
    (∀ (ch : Fin 128), mode d ≠ mPark → (pressOf d ch).slip = [] ∨ slipMode (pressOf d ch) ≠ 0 → chState d ch ≠ 2 → 
      Does (.pressTrigger ch) s [.evc] [PRESS_CHSTAT.at (ch / 16) (ch % 16), FOLIO_EVT.at (0xD0 + ch / 16)] fun e => chTpend e ch = true ∧ chState e ch = chState d ch ∧ (chTpend d ch = true → gb e (PRESS_CHSTAT.TLOST (ch / 16) (ch % 16)) = true ∧ Raised d e (0xD0 + ch / 16) (16 + ch % 16)) ∧ (chTpend d ch = false → rd e (FOLIO_EVT.at (0xD0 + ch / 16)) = rd d (FOLIO_EVT.at (0xD0 + ch / 16)))) ∧
    (∀ (ini : Initiator) (ch : Fin 128), Open ini (0xD0 + ch / 16) s → mode d ≠ mPark → (pressOf d ch).slip = [] → chState d ch ≠ 2 → chTpend d ch = false → 
      Does (.pressSwtrig ini ch) s [] [PRESS_CHSTAT.at (ch / 16) (ch % 16), PRESS_CHCTL.at (ch / 16) (ch % 16)] fun e => chTpend e ch = true ∧ chState e ch = chState d ch) ∧
    (∀ (ini : Initiator) (ch : Fin 128), Open ini (0xD0 + ch / 16) s → chState d ch < 6 → 
      Does (.pressStop ini ch) s [.press, .galley] [PRESS_CHSTAT.at (ch / 16) (ch % 16), PRESS_CHCTL.at (ch / 16) (ch % 16)] fun e => (chState d ch = 1 → chState e ch = 0 ∧ pressOf e ch = pressInit) ∧ (chState d ch = 2 → (pressOf d ch).moved = 0 → chState e ch = 0) ∧
        (chState d ch = 2 → (pressOf d ch).moved ≠ 0 → chState e ch = 2 ∧ gb e (PRESS_CHSTAT.STOPREQ (ch / 16) (ch % 16)) = true) ∧
        (chState d ch = 3 → chState e ch = 3 ∧ gb e (PRESS_CHSTAT.STOPREQ (ch / 16) (ch % 16)) = true ∧ pressOf e ch = pressOf d ch) ∧ (chState d ch = 0 ∨ 4 ≤ chState d ch → rd e (PRESS_CHSTAT.at (ch / 16) (ch % 16)) = rd d (PRESS_CHSTAT.at (ch / 16) (ch % 16)))) ∧
    (∀ (ch : Fin 128), chState d ch = 3 → (pressOf d ch).slip ≠ [] → slipTotal (pressOf d ch) ≤ (pressOf d ch).moved → pressRuns d = true → 
      Does (.slipComplete ch) s [.press, .galley, .evc] [PRESS_CHSTAT.at (ch / 16) (ch % 16), PRESS_CHREM.at (ch / 16) (ch % 16), PRESS_CHPTR.at (ch / 16) (ch % 16)] fun e => gf e (PRESS_CHREM.REM (ch / 16) (ch % 16)) = 0 ∧ pressOf e ch = pressInit ∧
        (if bit (slipWord (pressOf d ch) 6) 31 && !gb d (PRESS_CHSTAT.STOPREQ (ch / 16) (ch % 16)) then chState e ch = 1 ∧ gf e (PRESS_CHPTR.SLIP (ch / 16) (ch % 16)) = fld (slipWord (pressOf d ch) 7) 27 0 else chState e ch = 0 ∧ gf e (PRESS_CHPTR.SLIP (ch / 16) (ch % 16)) = gf d (PRESS_CHPTR.SLIP (ch / 16) (ch % 16)))) ∧
    (∀ (c a : Nat), d.pressErr = some (c, a) → 
      Completes .pressHalt s fun t => t.mem = s.mem ∧ t.dev.core = d.core ∧ t.dev.pressErr = none ∧ gb t.dev PRESS_HALT.HALT = true ∧ gf t.dev PRESS_HALTADDR.CAUSE = c % 8 ∧ gf t.dev PRESS_HALTADDR.ADDR = a % 2 ^ 28 ∧
        ∀ ch ∈ upTo 128, (1 ≤ chState d ch ∧ chState d ch ≤ 3 → chState t.dev ch = 5 ∧ gf t.dev (PRESS_CHSTAT.ERR (ch / 16) (ch % 16)) = 3) ∧ (chState d ch = 0 ∨ 4 ≤ chState d ch → rd t.dev (PRESS_CHSTAT.at (ch / 16) (ch % 16)) = rd d (PRESS_CHSTAT.at (ch / 16) (ch % 16)))) ∧
    (∀ (ini : Initiator), Open ini 0xD0 s → 
      Does (.hclr ini) s [] [PRESS_HALT.at, PRESS_GCTL.at] fun e => gb e PRESS_HALT.HALT = false ∧ gb e PRESS_GCTL.HEN = gb d PRESS_GCTL.HEN) ∧
    (∀ (ch : Fin 128) (ws : List Word), chState d ch = 1 → pressRuns d = true → SramWord s (gf d (PRESS_CHPTR.SLIP (ch / 16) (ch % 16))) → gf d (PRESS_CHPTR.SLIP (ch / 16) (ch % 16)) % 8 = 0 → s.mem.flaws = [] → d.fab.tags = [] → d.fab.waiting = [] → canTag d 16 = true → (ws = (upTo 8).map (fun i => storedWord s.mem (gf d (PRESS_CHPTR.SLIP (ch / 16) (ch % 16)) + i))) → slipBad ws = false → 
      Completes (.slipLoad ch) s fun t => t.mem = s.mem ∧ (pressOf t.dev ch).slip = ws ∧ (pressOf t.dev ch).moved = 0 ∧ gf t.dev (PRESS_CHREM.REM (ch / 16) (ch % 16)) = slipTotal ⟨ws, 0, 0, []⟩ % 2 ^ 36 ∧
        (fld (ws.getD 6 0) 35 34 = 0 → chState t.dev ch = 3 ∧ (pressOf t.dev ch).credit = slipTotal ⟨ws, 0, 0, []⟩) ∧ (fld (ws.getD 6 0) 35 34 ≠ 0 → chTpend d ch = false → chState t.dev ch = 2 ∧ (pressOf t.dev ch).credit = 0) ∧
        (fld (ws.getD 6 0) 35 34 ≠ 0 → chTpend d ch = true → chState t.dev ch = 3 ∧ chTpend t.dev ch = false)) ∧
    (∀ (ch : Fin 128), chState d ch = 1 → pressRuns d = true → SramWord s (gf d (PRESS_CHPTR.SLIP (ch / 16) (ch % 16))) → gf d (PRESS_CHPTR.SLIP (ch / 16) (ch % 16)) % 8 = 0 → s.mem.flaws = [] → d.fab.tags = [] → d.fab.waiting = [] → canTag d 16 = true → (slipBad ((upTo 8).map (fun i => storedWord s.mem (gf d (PRESS_CHPTR.SLIP (ch / 16) (ch % 16)) + i))) = true) → 
      Completes (.slipLoad ch) s fun t => t.mem = s.mem ∧ t.dev.press = d.press ∧ chState t.dev ch = 4 ∧ gf t.dev (PRESS_CHSTAT.ERR (ch / 16) (ch % 16)) = 1 ∧ bit (rd t.dev (FOLIO_EVT.at (0xD0 + ch / 16))) (ch % 16) = true) ∧
    (∀ (ch : Fin 128) (a b : Nat), chState d ch = 3 → pressRuns d = true → (pressOf d ch).slip ≠ [] → (pressOf d ch).hand = [] → (pressOf d ch).moved < (pressOf d ch).credit → bit (slipWord (pressOf d ch) 0) 35 = false → bit (slipWord (pressOf d ch) 1) 35 = false → slipDouble (pressOf d ch) = false → slipAddr (slipWord (pressOf d ch) 0) (slipWord (pressOf d ch) 2) (slipWord (pressOf d ch) 3) (pressOf d ch).moved = a → slipAddr (slipWord (pressOf d ch) 1) (slipWord (pressOf d ch) 4) (slipWord (pressOf d ch) 5) (pressOf d ch).moved = b → SramWord s a → SramWord s b → s.mem.flaws = [] → d.fab.tags = [] → d.fab.waiting = [] → canTag d 16 = true → 
      Completes (.pressTransfer ch) s fun t => MemOnly s t [b] ∧ storedWord t.mem b = storedWord s.mem a ∧ (pressOf t.dev ch).moved = (pressOf d ch).moved + 1 ∧ (pressOf t.dev ch).slip = (pressOf d ch).slip ∧
        gf t.dev (PRESS_CHREM.REM (ch / 16) (ch % 16)) = gf d (PRESS_CHREM.REM (ch / 16) (ch % 16)) - 1)

/-- R391 to R395, R411, R412: the link trains and goes down, frames are sent in the order of R395, acknowledged, asked for again and retransmitted; TIME frames and the PRBS checker. The content of a TIME frame is log entry 40. -/
def Obligations.MaeluLink : Prop :=
  ∀ s : State, Calm s →
    let d := s.dev
    (∀ (l : Fin 4), gf d TWIN_LSTAT.LST = 2 → 
      Completes (.laneLockLoss l) s fun t => t.mem = s.mem ∧ t.dev.core = d.core ∧ gf t.dev TWIN_LSTAT.LST = (if twinOn d && gf d TWIN_TEST.GEN == 0 && gf d TWIN_TEST.CHK == 0 then 1 else 0) ∧ gf t.dev TWIN_LSTAT.LOCK = 0 ∧ t.dev.twin.replay = [] ∧ t.dev.twin.linkBad = true ∧
        bit (rd t.dev (FOLIO_EVT.at 0x13)) 1 = true ∧ ((∃ r ∈ d.twin.replay, r.frame.typ = 4) → bit (rd t.dev (FOLIO_EVT.at 0x13)) 10 = true)) ∧
    (∀ (l : Fin 4), gf d TWIN_LSTAT.LST ≠ 2 → 
      Does (.laneLockLoss l) s [] [TWIN_LSTAT.at] fun e => gbit e TWIN_LSTAT.LOCK l = false ∧ gf e TWIN_LSTAT.LST = gf d TWIN_LSTAT.LST) ∧
    (gf d TWIN_LSTAT.LST = 1 → twinOn d = true → 
      Completes .linkUp s fun t => t.mem = s.mem ∧ t.dev.core = d.core ∧ gf t.dev TWIN_LSTAT.LST = 2 ∧ gf t.dev TWIN_LSTAT.LOCK = 15 ∧ t.dev.twin.txSeq = 0 ∧ t.dev.twin.rxSeq = 255 ∧ t.dev.twin.replay = [] ∧ bit (rd t.dev (FOLIO_EVT.at 0x13)) 0 = true) ∧
    (linkIsUp d = true → twinOn d = true → d.twin.delayed = [] → d.twin.nakDue = true → d.twin.swap = none → 
      Does .frameSend s [.twin] [TWIN_LCNT.at] fun e => e.twin.lastTx = [frameWords ⟨2, 0, []⟩ 0 d.twin.rxSeq 0] ∧ e.twin.nakDue = false ∧ e.twin.ackDue = false ∧ e.twin.replay = d.twin.replay) ∧
    (linkIsUp d = true → twinOn d = true → d.twin.delayed = [] → d.twin.nakDue = false → d.twin.ackDue = true → d.twin.cycle = [] → d.twin.fwd = [] → d.twin.swap = none → 
      Does .frameSend s [.twin] [] fun e => e.twin.lastTx = [frameWords ⟨1, 0, []⟩ 0 d.twin.rxSeq 0] ∧ e.twin.ackDue = false ∧ e.twin.replay = d.twin.replay) ∧
    (linkIsUp d = true → twinOn d = true → d.twin.delayed = [] → d.twin.nakDue = false → d.twin.timeDue = false → ((d.twin.replay.find? fun r => r.again) = none) → d.twin.replay.length < 32 → d.twin.fwd ≠ [] → d.twin.fwd.length ≤ 128 → gf d TWIN_INJ.KIND = 0 → d.twin.swap = none → 
      Does .frameSend s [.twin] [] fun e => e.twin.lastTx = [frameWords ⟨4, 0, d.twin.fwd.flatMap fun x => [x.1, x.2]⟩ d.twin.txSeq d.twin.rxSeq 0] ∧ e.twin.txSeq = (d.twin.txSeq + 1) % 256 ∧ e.twin.fwd = [] ∧
        e.twin.replay = d.twin.replay ++ [⟨⟨4, 0, d.twin.fwd.flatMap fun x => [x.1, x.2]⟩, d.twin.txSeq, d.now, 0, false⟩]) ∧
    (∀ (r : ReplayEntry) (l : List ReplayEntry), linkIsUp d = true → twinOn d = true → d.twin.delayed = [] → d.twin.nakDue = false → d.twin.ackDue = false → d.twin.timeDue = false → d.twin.replay = r :: l → r.again = true → ((∀ x ∈ l, x.seq ≠ r.seq)) → gf d TWIN_INJ.KIND = 0 → d.twin.swap = none → 
      Completes .frameSend s fun t => t.mem = s.mem ∧ t.dev.core = d.core ∧ t.dev.twin.lastTx = [frameWords r.frame r.seq d.twin.rxSeq 0] ∧ t.dev.twin.replay = { r with again := false, tries := r.tries + 1, sentAt := d.now } :: l ∧ bit (rd t.dev (FOLIO_EVT.at 0x13)) 2 = true) ∧
    (linkIsUp d = true → twinOn d = true → 
      Does (.badFrame none) s [.twin] [] fun e => e.twin.gap = true ∧ e.twin.nakDue = (d.twin.nakDue || !d.twin.gap) ∧ e.twin.replay = d.twin.replay ∧ e.twin.rxSeq = d.twin.rxSeq) ∧
    (∀ (q : BitVec 8) (l1 : List ReplayEntry) (r : ReplayEntry) (l2 : List ReplayEntry), linkIsUp d = true → twinOn d = true → d.twin.replay = l1 ++ r :: l2 → r.seq = q.toNat → ((∀ x ∈ l1, x.seq ≠ q.toNat)) → 
      Does (.ackFrame q) s [.twin] [] fun e => e.twin = { d.twin with replay := l2 }) ∧
    (∀ (q : BitVec 8) (l1 : List ReplayEntry) (r : ReplayEntry) (l2 : List ReplayEntry), linkIsUp d = true → twinOn d = true → d.twin.replay = l1 ++ r :: l2 → r.seq = q.toNat → ((∀ x ∈ l1, x.seq ≠ q.toNat)) → 
      Does (.nakFrame q) s [.twin] [] fun e => e.twin = { d.twin with replay := l2.map fun x => { x with again := decide (x.tries < 3) } }) ∧
    (∀ (r : ReplayEntry) (l : List ReplayEntry), linkIsUp d = true → d.twin.replay = r :: l → r.again = false → r.sentAt + 750 ≤ d.now → r.tries < 3 → 
      Does .replayTimeout s [.twin] [] fun e => e.twin = { d.twin with replay := (r :: l).map fun x => { x with again := decide (x.tries < 3) } }) ∧
    (∀ (r : ReplayEntry) (l : List ReplayEntry), linkIsUp d = true → d.twin.replay = r :: l → r.again = false → r.sentAt + 750 ≤ d.now → 3 ≤ r.tries → 
      Completes .replayTimeout s fun t => t.mem = s.mem ∧ t.dev.core = d.core ∧ gf t.dev TWIN_LSTAT.LST ≠ 2 ∧ t.dev.twin.replay = [] ∧ bit (rd t.dev (FOLIO_EVT.at 0x13)) 1 = true) ∧
    (linkIsUp d = true → twinOn d = true → d.twin.nextTime ≤ d.now → 
      Does .timeFrameSend s [.twin] [] fun e => e.twin = { d.twin with timeDue := true, nextTime := d.now + 100000 }) ∧
    (∀ (q : BitVec 8) (w0 w1 u : Word) (r : List Word), linkIsUp d = true → twinOn d = true → d.twin.replay = [] → d.merid.peerFollow = false → d.twin.timeSent = u :: r → w1 ≠ 0 → (w0 - w1).toNat ≤ (shortTs d - u).toNat → 
      Does (.timeFrame q w0 w1) s [.twin] [] fun e => e.twin = { d.twin with timePeer := w0, timeRecv := shortTs d, delay := ((shortTs d - u).toNat - (w0 - w1).toNat) / 2 }) ∧
    (∀ (l : Fin 4) (n : Nat), gbit d TWIN_TEST.CHK l = true → 
      Does (.prbsCheckerSync l n) s [] [TWIN_PRBS.at l] fun e => gb e (TWIN_PRBS.SYNC l) = true ∧ gf e (TWIN_PRBS.ERR l) = (if gb d (TWIN_PRBS.SYNC l) then min (2 ^ ((TWIN_PRBS.ERR l).hi + 1 - (TWIN_PRBS.ERR l).lo) - 1) (gf d (TWIN_PRBS.ERR l) + n) else gf d (TWIN_PRBS.ERR l)))

/-- R393, R398 to R401, R404: a sequenced frame in order is delivered and acknowledged, one out of order opens a gap; a standby takes heartbeats, folio writes, engine words, Forme values, Overlay points, memory words and the end of a cycle. -/
def Obligations.MirrorFrames : Prop :=
  ∀ s : State, Calm s →
    let d := s.dev
    (∀ (q a : BitVec 8) (w0 w1 : Word), linkIsUp d = true → twinOn d = true → q.toNat = (d.twin.rxSeq + 1) % 256 → d.twin.replay = [] → sst d ≠ 4 → 
      Completes (.heartFrame q a w0 w1) s fun t => t.mem = s.mem ∧ t.dev.core = d.core ∧ t.dev.twin.rxSeq = q.toNat ∧ t.dev.twin.ackDue = true ∧ t.dev.twin.hbAt = some d.now ∧ t.dev.twin.toFrom = d.now ∧ gf t.dev TWIN_STAT.PROLE = fld w0 35 34 ∧ gb t.dev TWIN_STAT.PREADY = bit w0 29 ∧ t.dev.twin.peerAlert = fld w0 15 0 ∧
        (bit w0 28 = true → bit (rd t.dev (FOLIO_EVT.at 0x13)) 10 = true) ∧ sst t.dev = (if sst d = 1 ∨ sst d = 3 then 2 else sst d)) ∧
    (∀ (q a : BitVec 8) (w0 w1 : Word), linkIsUp d = true → twinOn d = true → q.toNat ≠ (d.twin.rxSeq + 1) % 256 → d.twin.replay = [] → d.twin.gap = false → 
      Does (.heartFrame q a w0 w1) s [.twin] [] fun e => e.twin = { d.twin with gap := true, nakDue := true }) ∧
    (∀ (q a : BitVec 8) (e : Fin 64) (n : Fin 4) (v : Word), linkIsUp d = true → twinOn d = true → q.toNat = (d.twin.rxSeq + 1) % 256 → d.twin.replay = [] → sst d ≠ 4 → roleOf d = 2 → mode d = mStandby → Open .maelu (0x80 + e) s → f32Ok (v.setWidth 32) = true → 
      Completes (.folioFrame q a [BitVec.ofNat 36 (TRAV_LAT.at e n), v]) s fun t => t.mem = s.mem ∧ t.dev.twin.rxSeq = q.toNat ∧ t.dev.twin.ackDue = true ∧ rd t.dev (TRAV_LAT.at e n) = v &&& maskOf 31 0 ∧ gbit t.dev (TRAV_STAT.FRESH e) n = true ∧ gf t.dev TWIN_MCNT.REFUSED = gf d TWIN_MCNT.REFUSED) ∧
    (∀ (q a : BitVec 8) (e : Fin 64) (n : Fin 4) (v : Word), linkIsUp d = true → twinOn d = true → q.toNat = (d.twin.rxSeq + 1) % 256 → d.twin.replay = [] → sst d ≠ 4 → roleOf d = 2 → mode d = mStandby → Open .maelu (0x80 + e) s → f32Ok (v.setWidth 32) = false → 
      Completes (.folioFrame q a [BitVec.ofNat 36 (TRAV_LAT.at e n), v]) s fun t => t.mem = s.mem ∧ t.dev.twin.rxSeq = q.toNat ∧ t.dev.twin.ackDue = true ∧ rd t.dev (TRAV_LAT.at e n) = rd d (TRAV_LAT.at e n) ∧ bit (rd t.dev (FOLIO_EVT.at 0x13)) 10 = true ∧ (gf d TWIN_MCNT.REFUSED < 100 → gf t.dev TWIN_MCNT.REFUSED = gf d TWIN_MCNT.REFUSED + 1)) ∧
    (∀ (q a : BitVec 8) (e : Fin 64) (ws : List Word), linkIsUp d = true → twinOn d = true → q.toNat = (d.twin.rxSeq + 1) % 256 → d.twin.replay = [] → sst d ≠ 4 → roleOf d = 2 → mode d = mStandby → ws.length = 32 → (travOf d e).upd = none → 
      Completes (.engineFrame q a e ws) s fun t => t.mem = s.mem ∧ t.dev.core = d.core ∧ t.dev.twin.rxSeq = q.toNat ∧ t.dev.twin.ackDue = true ∧ (∀ k ∈ upTo 16, k ≠ 6 → k ≠ 8 → k ≠ 9 → k ≠ 10 → stw t.dev e k = ws.getD k 0) ∧ travState t.dev e = fld (ws.getD 6 0) 1 0 ∧ gf t.dev (TRAV_FECNT.CNT e) = fld (ws.getD 8 0) 31 0 ∧ ovst t.dev e = fld (ws.getD 0xA 0) 2 0 ∧ e.val ∈ t.dev.twin.engGot) ∧
    (∀ (q a : BitVec 8) (f : Fin 16) (ws : List Word), linkIsUp d = true → twinOn d = true → q.toNat = (d.twin.rxSeq + 1) % 256 → d.twin.replay = [] → sst d ≠ 4 → roleOf d = 2 → mode d = mStandby → ws.length = 5 → 
      Completes (.formeFrame q a f ws) s fun t => t.mem = s.mem ∧ t.dev.core = d.core ∧ t.dev.twin.rxSeq = q.toNat ∧ t.dev.twin.ackDue = true ∧ tabFind t.dev.twin.gactPend f = some (ws.drop 1) ∧ (alignedBts d f (ws.getD 0 0) = false → gb t.dev TWIN_STAT.ALIGN = false ∧ bit (rd t.dev (FOLIO_EVT.at 0x13)) 11 = true ∧ t.dev.twin.cycOk = false)) ∧
    (∀ (q a : BitVec 8) (e : Fin 64) (k : BitVec 10) (ws : List Word), linkIsUp d = true → twinOn d = true → q.toNat = (d.twin.rxSeq + 1) % 256 → d.twin.replay = [] → sst d ≠ 4 → roleOf d = 2 → mode d = mStandby → ws.length = 32 → 32 ≤ ovN d e → initWait d .overlay = false → s.mem.flaws = [] → 
      Completes (.overlayFrame q a e k ws) s fun t => t.dev.twin.rxSeq = q.toNat ∧ t.dev.twin.ackDue = true ∧ MemOnly s t ((upTo 32).map fun i => ovAddr e ((k.toNat + i) % ovN d e)) ∧ ∀ i ∈ upTo 32, storedWord t.mem (ovAddr e ((k.toNat + i) % ovN d e)) = ws.getD i 0) ∧
    (∀ (q a : BitVec 8) (o : BitVec 20) (ws : List Word), linkIsUp d = true → twinOn d = true → q.toNat = (d.twin.rxSeq + 1) % 256 → d.twin.replay = [] → sst d ≠ 4 → roleOf d = 2 → mode d = mStandby → 1 ≤ ws.length → ws.length ≤ 256 → o.toNat + ws.length ≤ 0x100000 → gf d MEMP_INIT.DONE = 2 ^ 35 - 1 → gf d FAB_RETIRE.MODE = 0 → gf d FAB_BANKOFF.OFF = 0 → s.mem.flaws = [] → 
      Completes (.memFrame q a o ws) s fun t => t.dev.twin.rxSeq = q.toNat ∧ t.dev.twin.ackDue = true ∧ MemOnly s t ((upTo ws.length).map fun i => 0x4000000 + o.toNat + i) ∧ ∀ i ∈ upTo ws.length, storedWord t.mem (0x4000000 + o.toNat + i) = ws.getD i 0) ∧
    (∀ (q a : BitVec 8) (c : Word), linkIsUp d = true → twinOn d = true → q.toNat = (d.twin.rxSeq + 1) % 256 → d.twin.replay = [] → sst d ≠ 4 → roleOf d = 2 → mode d = mStandby → 
      Completes (.endFrame q a c) s fun t => t.mem = s.mem ∧ t.dev.core = d.core ∧ t.dev.twin.rxSeq = q.toNat ∧ t.dev.twin.ackDue = true ∧ rd t.dev TWIN_MCYC.at = c ∧ gb t.dev TWIN_STAT.ALIGN = d.twin.cycOk ∧ t.dev.twin.cycOk = true)

/-- R390, R401 to R409: roles are written, a standby that hears no heartbeat decides a takeover and completes it in RUN, ownership wires and their conflict are told, divergence is cleared. That STANDBY written during a takeover ends it is log entry 186 (the model’s choice). -/
def Obligations.TwinRoles : Prop :=
  ∀ s : State, Calm s →
    let d := s.dev
    (∀ (ini : Initiator), Open ini 0x13 s → 
      Completes (.roleSolo ini) s fun t => t.mem = s.mem ∧ t.dev.core = d.core ∧ roleOf t.dev = 0 ∧ gf t.dev TWIN_STAT.ROLE = 0 ∧ sst t.dev = 0 ∧ t.dev.twin.cycle = [] ∧ t.dev.twin.fwd = [] ∧ t.dev.twin.t0 = none ∧ mode t.dev = mode d ∧ (mode d = mRun → gb t.dev TWIN_STAT.OWNOUT = true)) ∧
    (∀ (ini : Initiator), Open ini 0x13 s → gb d (FOLIO_CTL.EN 0x13) = true → mode d = mConfig → 
      Completes (.roleActive ini) s fun t => t.mem = s.mem ∧ t.dev.core = d.core ∧ roleOf t.dev = 1 ∧ gf t.dev TWIN_STAT.ROLE = 1 ∧ sst t.dev = (if sst d = 0 then 1 else sst d) ∧ mode t.dev = mode d ∧ gb t.dev TWIN_STAT.OWNOUT = true) ∧
    (∀ (ini : Initiator), Open ini 0x13 s → gb d (FOLIO_CTL.EN 0x13) = true → mode d = mStandby → roleOf d = 2 → gb d TWIN_STAT.OWNIN = false → 
      Does (.roleActive ini) s [.twin] [] fun e => e.twin = { d.twin with swReq := true } ∧ roleOf e = 2) ∧
    (∀ (ini : Initiator), Open ini 0x13 s → gb d (FOLIO_CTL.EN 0x13) = true → mode d = mStandby → gb d TWIN_STAT.OWNIN = true → 
      Does (.roleActive ini) s [.evc] [FOLIO_STAT.at 0x13, FOLIO_EVT.at 0x13, SYS_FOLIOERR.at] fun e => roleOf e = roleOf d ∧ gf e (FOLIO_STAT.QCAUSE 0x13) = 6) ∧
    (∀ (ini : Initiator), Open ini 0x13 s → gb d (FOLIO_CTL.EN 0x13) = true → mode d = mConfig → 
      Completes (.roleStandby ini) s fun t => t.mem = s.mem ∧ t.dev.core = d.core ∧ roleOf t.dev = 2 ∧ sst t.dev = (if sst d = 0 then 1 else if sst d = 4 then 3 else sst d) ∧ mode t.dev = mode d) ∧
    (∀ (ini : Initiator), Open ini 0x13 s → gb d (FOLIO_CTL.EN 0x13) = true → mode d = mRun → 
      Completes (.roleStandby ini) s fun t => roleOf t.dev = 2 ∧ mode t.dev = mStandby ∧ gf t.dev SYS_STAT.WHY = 5 ∧ bit (rd t.dev (FOLIO_EVT.at 0x13)) 9 = true ∧ (sst d ≠ 4 → gb t.dev TWIN_STAT.OWNOUT = t.dev.twin.relAt.isSome) ∧
        t.dev.twin.relAt = (if gb d TWIN_STAT.OWNOUT then some (d.now + 8 + Config.ownRelease d.freeCount) else d.twin.relAt)) ∧
    (twinOn d = true → sst d = 1 ∨ sst d = 2 → d.twin.toFrom + 1000 * max 8 d.twin.toUs ≤ d.now → 
      Completes .heartbeatTimeout s fun t => t.mem = s.mem ∧ t.dev.core = d.core ∧ sst t.dev = 3 ∧ gf t.dev TWIN_STAT.CAUSE = (if d.twin.linkBad || !linkIsUp d then 2 else 1) ∧ bit (rd t.dev (FOLIO_EVT.at 0x13)) 3 = true ∧ (gb d TWIN_STAT.OWNIN = true → bit (rd t.dev (FOLIO_EVT.at 0x13)) 6 = true)) ∧
    (∀ (v : Bool), gb d TWIN_STAT.OWNIN ≠ v → 
      Completes (.ownInChange v) s fun t => t.mem = s.mem ∧ t.dev.core = d.core ∧ gb t.dev TWIN_STAT.OWNIN = v ∧ t.dev.twin.ownLowFrom = (if v then none else some d.now) ∧ t.dev.twin.ownFell = (d.twin.ownFell || !v) ∧ roleOf t.dev = roleOf d) ∧
    (∀ (c : Nat), takeoverDue d = some c → c < 8 → d.rstc.phase = .started → 
      Completes .takeoverDecision s fun t => t.mem = s.mem ∧ t.dev.core = d.core ∧ roleOf t.dev = 1 ∧ sst t.dev = 4 ∧ gf t.dev TWIN_STAT.CAUSE = c ∧ t.dev.twin.t0 = some d.now ∧ t.dev.twin.engPend = [] ∧ t.dev.twin.gactPend = [] ∧ gb t.dev TWIN_STAT.OWNOUT = true) ∧
    (∀ (a : Nat), sst d = 4 → d.twin.completeAt = some a → mode d = mStandby → 
      Completes .takeoverComplete s fun t => mode t.dev = mRun ∧ gf t.dev SYS_STAT.WHY = 4 ∧ sst t.dev = 3 ∧ t.dev.twin.t0 = none ∧ t.dev.twin.completeAt = none ∧ bit (rd t.dev (FOLIO_EVT.at 0x13)) 4 = true) ∧
    (splitDue d = true → 
      Completes .split s fun t => t.mem = s.mem ∧ t.dev.core = d.core ∧ t.dev.twin.splitTold = true ∧ bit (rd t.dev (FOLIO_EVT.at 0x13)) 7 = true ∧ (gf d TWIN_SCFG.TSRC / 2 % 2 = 1 → live t.dev 177 = true)) ∧
    (∀ (ini : Initiator), Open ini 0x13 s → 
      Completes (.divergeClear ini) s fun t => t.mem = s.mem ∧ t.dev.core = d.core ∧ diverged t.dev = false)

/-- R422 to R429: FL_PROGRAM_WORD programs the value and the mask bit, the eighth mask bit seals the block, a word that does not read back is marked programmed with what it holds; FL_SEAL_BLOCK seals; a second operation, a call into the caller’s own bank and a refused address do nothing. Status in G1; G7 to G14, accumulators, FP registers and PSW but its flags are preserved. R431 to R433: FL_ERASE_SECTOR erases words, masks and seals of the sector, programs the seal word and closes the intent it journalled; a failed verify leaves the intent open; FL_JOURNAL_SCAN settles open intents and reports SUSPECT sectors. -/
def Obligations.FlashServices : Prop :=
  ∀ s : State, Calm s →
    let d := s.dev
    (∀ (c : Fin 8) (lp : Word), RomCalled c entryProgram lp s → d.flash.op = none → argOf s c 6 = 0 → inFlash (argOf s c 1) = true → journalSector (sectorOf (argOf s c 1)) = false → suspectSector s (sectorOf (argOf s c 1)) = false → flashSealed d (argOf s c 1) = false → wordProgrammed d (argOf s c 1) = false → selfBank s c (flashBankOf (argOf s c 1)) = false → 
      Completes (.flProgramWord c .whole none) s fun t => RomReturned c 0 lp s t ∧ MemOnly s t (argOf s c 1 :: romStack s c) ∧ storedWord t.mem (argOf s c 1) = (coreOfDev d c).gr 2 ∧ wordProgrammed t.dev (argOf s c 1) = true ∧
        (∀ a, a ≠ argOf s c 1 → flashSealed t.dev (argOf s c 1) = false → wordProgrammed t.dev a = wordProgrammed d a) ∧ flashSealed t.dev (argOf s c 1) = decide (maskBits d (argOf s c 1) ||| BitVec.ofNat 8 (2 ^ (argOf s c 1 % 8)) = 0xFF#8)) ∧
    (∀ (c : Fin 8) (lp : Word) (v : Word) (y : BitVec 4), RomCalled c entryProgram lp s → d.flash.op = none → argOf s c 6 = 0 → inFlash (argOf s c 1) = true → journalSector (sectorOf (argOf s c 1)) = false → suspectSector s (sectorOf (argOf s c 1)) = false → flashSealed d (argOf s c 1) = false → wordProgrammed d (argOf s c 1) = false → selfBank s c (flashBankOf (argOf s c 1)) = false → 
      Completes (.flProgramWord c .whole (some (v, y))) s fun t => RomReturned c 7 lp s t ∧ MemOnly s t (argOf s c 1 :: romStack s c) ∧ storedWord t.mem (argOf s c 1) = v ∧ wordProgrammed t.dev (argOf s c 1) = true) ∧
    (∀ (c : Fin 8) (lp : Word) (ph : RomPhase) (x : Option (Word × BitVec 4)) (st : Nat), RomCalled c entryProgram lp s → d.flash.op = none → argOf s c 6 = 0 → ph ≠ .finish → (st = 3 ∧ (inFlash (argOf s c 1) = false ∨ journalSector (sectorOf (argOf s c 1)) = true)) ∨
        (inFlash (argOf s c 1) = true ∧ journalSector (sectorOf (argOf s c 1)) = false ∧
          ((st = 6 ∧ suspectSector s (sectorOf (argOf s c 1)) = true) ∨ (suspectSector s (sectorOf (argOf s c 1)) = false ∧
            ((st = 5 ∧ flashSealed d (argOf s c 1) = true) ∨ (st = 4 ∧ flashSealed d (argOf s c 1) = false ∧ wordProgrammed d (argOf s c 1) = true))))) → 
      Completes (.flProgramWord c ph x) s fun t => RomReturned c st lp s t ∧ MemOnly s t (romStack s c) ∧ t.dev.flash.pmask = d.flash.pmask ∧ t.dev.flash.seals = d.flash.seals ∧ t.dev.flash.otp = d.flash.otp ∧ t.dev.flash.op = d.flash.op) ∧
    (∀ (c : Fin 8) (lp : Word) (x : Option (Word × BitVec 4)), RomCalled c entryProgram lp s → d.flash.op.isSome = true → ownOp s c = false → 
      Completes (.flProgramWord c .whole x) s fun t => RomReturned c 1 lp s t ∧ MemOnly s t (romStack s c) ∧ t.dev.flash.pmask = d.flash.pmask ∧ t.dev.flash.seals = d.flash.seals ∧ t.dev.flash.otp = d.flash.otp ∧ t.dev.flash.op = d.flash.op) ∧
    (∀ (c : Fin 8) (lp : Word) (x : Option (Word × BitVec 4)), RomCalled c entryProgram lp s → d.flash.op = none → argOf s c 6 = 0 → inFlash (argOf s c 1) = true → journalSector (sectorOf (argOf s c 1)) = false → suspectSector s (sectorOf (argOf s c 1)) = false → flashSealed d (argOf s c 1) = false → wordProgrammed d (argOf s c 1) = false → selfBank s c (flashBankOf (argOf s c 1)) = true → 
      Completes (.flProgramWord c .whole x) s fun t => RomReturned c 2 lp s t ∧ MemOnly s t (romStack s c) ∧ t.dev.flash.pmask = d.flash.pmask ∧ t.dev.flash.seals = d.flash.seals ∧ t.dev.flash.otp = d.flash.otp ∧ t.dev.flash.op = d.flash.op) ∧
    (∀ (c : Fin 8) (lp : Word) (x : Option (Word × BitVec 4)), RomCalled c entryProgram lp s → d.flash.op = none → argOf s c 6 < 2 → inFlash (argOf s c 1) = true → journalSector (sectorOf (argOf s c 1)) = false → suspectSector s (sectorOf (argOf s c 1)) = false → flashSealed d (argOf s c 1) = false → wordProgrammed d (argOf s c 1) = false → selfBank s c (flashBankOf (argOf s c 1)) = false ∨ argOf s c 6 = 1 → 
      Completes (.flProgramWord c .start x) s fun t => t.mem = s.mem ∧ (coreOfDev t.dev c).ip = (coreOfDev d c).ip ∧ (∀ r, (coreOfDev t.dev c).gr r = (coreOfDev d c).gr r) ∧ flashBusy t.dev (flashBankOf (argOf s c 1)) = true ∧ gf t.dev FLASHC_STAT.OP = 1 ∧ t.dev.flash.op.isSome = true ∧
        (selfBank s c (flashBankOf (argOf s c 1)) = true → gb t.dev EVC_GATE.GATE = true)) ∧
    (∀ (c : Fin 8) (lp : Word) (o : FlashOp), RomCalled c entryProgram lp s → d.flash.op = some o → ownOp s c = true → inFlash o.addr = true → 
      Completes (.flProgramWord c .finish none) s fun t => RomReturned c 0 lp s t ∧ MemOnly s t (o.addr :: romStack s c) ∧ storedWord t.mem o.addr = o.val ∧ wordProgrammed t.dev o.addr = true ∧ t.dev.flash.op = none ∧
        gf t.dev FLASHC_STAT.OP = 0 ∧ gb t.dev FLASHC_STAT.BUSY0 = false ∧ gb t.dev FLASHC_STAT.BUSY1 = false ∧ rd t.dev EVC_GATE.at = o.gate.getD (rd d EVC_GATE.at)) ∧
    (∀ (c : Fin 8) (lp : Word), RomCalled c entrySeal lp s → d.flash.op = none → argOf s c 6 = 0 → inFlash (argOf s c 1) = true → journalSector (sectorOf (argOf s c 1)) = false → suspectSector s (sectorOf (argOf s c 1)) = false → flashSealed d (argOf s c 1) = false → argOf s c 1 % 8 = 0 → selfBank s c (flashBankOf (argOf s c 1)) = false → 
      Completes (.flSealBlock c .whole) s fun t => RomReturned c 0 lp s t ∧ MemOnly s t (romStack s c) ∧ flashSealed t.dev (argOf s c 1) = true ∧ maskBits t.dev (argOf s c 1) = 0xFF#8 ∧ (∀ a, a / 8 ≠ argOf s c 1 / 8 → flashSealed t.dev a = flashSealed d a)) ∧
    (∀ (c : Fin 8) (lp : Word), RomCalled c entrySeal lp s → d.flash.op = none → argOf s c 6 = 0 → argOf s c 1 % 8 ≠ 0 → 
      Completes (.flSealBlock c .whole) s fun t => RomReturned c 3 lp s t ∧ MemOnly s t (romStack s c) ∧ t.dev.flash.pmask = d.flash.pmask ∧ t.dev.flash.seals = d.flash.seals ∧ t.dev.flash.otp = d.flash.otp ∧ t.dev.flash.op = d.flash.op) ∧
    (∀ (c : Fin 8) (lp : Word), RomCalled c entryErase lp s → d.flash.op = none → argOf s c 6 = 0 → inFlash (argOf s c 1) = true → argOf s c 1 % 512 = 0 → journalSector (sectorOf (argOf s c 1)) = false → selfBank s c (flashBankOf (argOf s c 1)) = false → 
      Completes (.flEraseSector c .whole .ok) s fun t => RomReturned c 0 lp s t ∧ tabGet 0 t.dev.flash.sealWord (sectorOf (argOf s c 1)) = 1 ∧ suspectSector t (sectorOf (argOf s c 1)) = false ∧
        (∀ a, sectorOf a = sectorOf (argOf s c 1) → inFlash a = true → storedWord t.mem a = BitVec.allOnes 36 ∧ wordProgrammed t.dev a = false ∧ flashSealed t.dev a = false) ∧
        (∀ a, a / 512 ≠ argOf s c 1 / 512 → journalSector (sectorOf a) = false → a ∉ romStack s c → storedWord t.mem a = storedWord s.mem a)) ∧
    (∀ (c : Fin 8) (lp : Word) (j : Nat), RomCalled c entryErase lp s → d.flash.op = none → argOf s c 6 = 0 → inFlash (argOf s c 1) = true → argOf s c 1 % 512 = 0 → journalSector (sectorOf (argOf s c 1)) = false → selfBank s c (flashBankOf (argOf s c 1)) = false → activeJournal (sectorOf (argOf s c 1) / 4096) s = some j → journalUsed j s + 2 ≤ 252 → nextSeq (journalRecords j s) + 1 < 2 ^ 36 → 
      Completes (.flEraseSector c .whole .ok) s fun t => RomReturned c 0 lp s t ∧ bankRecords (sectorOf (argOf s c 1) / 4096) t = bankRecords (sectorOf (argOf s c 1) / 4096) s ++ [(1, sectorOf (argOf s c 1), nextSeq (bankRecords (sectorOf (argOf s c 1) / 4096) s)), (2, sectorOf (argOf s c 1), nextSeq (bankRecords (sectorOf (argOf s c 1) / 4096) s) + 1)]) ∧
    (∀ (c : Fin 8) (lp : Word) (j : Nat) (i : Fin 512) (v : Word), RomCalled c entryErase lp s → d.flash.op = none → argOf s c 6 = 0 → inFlash (argOf s c 1) = true → argOf s c 1 % 512 = 0 → journalSector (sectorOf (argOf s c 1)) = false → selfBank s c (flashBankOf (argOf s c 1)) = false → activeJournal (sectorOf (argOf s c 1) / 4096) s = some j → journalUsed j s + 2 ≤ 252 → 
      Completes (.flEraseSector c .whole (.verifyFail [(i, v)])) s fun t => RomReturned c 8 lp s t ∧ storedWord t.mem (argOf s c 1 + i.val) = v ∧ tabGet 0 t.dev.flash.sealWord (sectorOf (argOf s c 1)) = 0 ∧ intentOpen (bankRecords (sectorOf (argOf s c 1) / 4096) t) (sectorOf (argOf s c 1)) = true) ∧
    (∀ (c : Fin 8) (lp : Word) (x : EraseOutcome) (st : Nat), RomCalled c entryErase lp s → d.flash.op = none → argOf s c 6 = 0 → (st = 3 ∧ (inFlash (argOf s c 1) = false ∨ argOf s c 1 % 512 ≠ 0 ∨ journalSector (sectorOf (argOf s c 1)) = true)) ∨ (st = 14 ∧ x = .noJournal ∧ inFlash (argOf s c 1) = true ∧ argOf s c 1 % 512 = 0 ∧ journalSector (sectorOf (argOf s c 1)) = false) → 
      Completes (.flEraseSector c .whole x) s fun t => RomReturned c st lp s t ∧ MemOnly s t (romStack s c) ∧ t.dev.flash.pmask = d.flash.pmask ∧ t.dev.flash.seals = d.flash.seals ∧ t.dev.flash.otp = d.flash.otp ∧ t.dev.flash.op = d.flash.op) ∧
    (∀ (c : Fin 8) (lp : Word) (x q j : Nat), RomCalled c entryScan lp s → d.flash.op = none → argOf s c 6 = 0 → bankRecords 0 s = [(1, x, q)] → bankRecords 1 s = [] → tabGet 0 d.flash.sealWord x ≠ 1 → activeJournal 0 s = some j → journalUsed j s + 2 ≤ 252 → x < 4094 → q + 1 < 2 ^ 36 → lpBank (coreOfDev d c |>.gr 15) = none → SramWord s (argOf s c 1) → argOf s c 1 ∉ romStack s c → 1 ≤ argOf s c 2 → 
      Completes (.flJournalScan c) s fun t => RomReturned c 0 lp s t ∧ (coreOfDev t.dev c).gr 2 = 1 ∧ storedWord t.mem (argOf s c 1) = BitVec.ofNat 36 x ∧ gf t.dev FLASHC_STAT.SUSPCNT = 1 ∧ suspectSector t x = true) ∧
    (∀ (c : Fin 8) (lp : Word) (x q j : Nat), RomCalled c entryScan lp s → d.flash.op = none → argOf s c 6 = 0 → bankRecords 0 s = [(1, x, q)] → bankRecords 1 s = [] → tabGet 0 d.flash.sealWord x = 1 → activeJournal 0 s = some j → journalUsed j s + 2 ≤ 252 → x < 4094 → q + 1 < 2 ^ 36 → lpBank (coreOfDev d c |>.gr 15) = none → 
      Completes (.flJournalScan c) s fun t => RomReturned c 0 lp s t ∧ (coreOfDev t.dev c).gr 2 = 0 ∧ gf t.dev FLASHC_STAT.SUSPCNT = 0 ∧ intentOpen (bankRecords 0 t) x = false)

/-- R421, R427, R430, R436 to R438: FL_VERIFY compares word by word, FL_STATUS reports, OTP_PROGRAM_FIELD programs or reports a field, the margin window moves its count, the ROM’s command interface is closed to others, an option load loads the latches or tries again. -/
def Obligations.RomReports : Prop :=
  ∀ s : State, Calm s →
    let d := s.dev
    (∀ (c : Fin 8) (lp : Word) (w : Nat → Word), RomCalled c entryVerify lp s → argOf s c 6 = 0 → inFlash (argOf s c 1) = true → 1 ≤ argOf s c 3 → argOf s c 3 ≤ 2 ^ 20 → (∀ i, i < argOf s c 3 → Loads c (argOf s c 1 + i) (w i) s ∧ Loads c (argOf s c 2 + i) (w i) s) → 
      Completes (.flVerify c) s fun t => RomReturned c 0 lp s t ∧ (coreOfDev t.dev c).gr 2 = 0 ∧ (coreOfDev t.dev c).gr 3 = 0 ∧ MemOnly s t (romStack s c)) ∧
    (∀ (c : Fin 8) (lp : Word) (w : Nat → Word) (j : Nat) (x y : Word), RomCalled c entryVerify lp s → argOf s c 6 = 0 → inFlash (argOf s c 1) = true → argOf s c 3 ≤ 2 ^ 20 → j < argOf s c 3 → (∀ i, i < j → Loads c (argOf s c 1 + i) (w i) s ∧ Loads c (argOf s c 2 + i) (w i) s) → Loads c (argOf s c 1 + j) x s → Loads c (argOf s c 2 + j) y s → x ≠ y → 
      Completes (.flVerify c) s fun t => RomReturned c 9 lp s t ∧ (coreOfDev t.dev c).gr 2 = BitVec.ofNat 36 (argOf s c 1 + j) ∧ MemOnly s t (romStack s c)) ∧
    (∀ (c : Fin 8) (lp : Word), RomCalled c entryStatus lp s → argOf s c 6 = 0 → 
      Completes (.flStatus c) s fun t => RomReturned c 0 lp s t ∧ (coreOfDev t.dev c).gr 2 = rd d FLASHC_STAT.at ∧ (coreOfDev t.dev c).gr 3 = BitVec.ofNat 36 d.flash.last ∧ (coreOfDev t.dev c).gr 4 = BitVec.ofNat 36 ((lpBank ((coreOfDev d c).gr 15)).getD 15) ∧ MemOnly s t (romStack s c)) ∧
    (∀ (c : Fin 8) (lp : Word) (w : Nat) (v : Word), RomCalled c entryOtp lp s → d.flash.op = none → argOf s c 6 = 0 → argOf s c 1 = w → 0x20 ≤ w → w < 0xA0 → Loads c (argOf s c 2) v s → fieldLocked d w = false → fieldUsed d w = false → mode d = mConfig → gb d PACE_STAT.HELD = true → 850 ≤ gf d PACE_VCMD.VCMD → gf d PACE_VCMD.VCMD ≤ 950 → lpBank (coreOfDev d c |>.gr 15) = none → 
      Completes (.otpProgramField c .whole) s fun t => RomReturned c 0 lp s t ∧ otpWord t.dev (w + 96) = otpWord d (w + 96) ||| v ∧ t.dev.latch = d.latch ∧ w ∈ t.dev.flash.otpDone ∧ (∀ x, x ≠ w + 96 → otpWord t.dev x = otpWord d x) ∧ MemOnly s t (romStack s c)) ∧
    (∀ (c : Fin 8) (lp : Word), RomCalled c entryOtp lp s → d.flash.op = none → argOf s c 6 = 0 → argOf s c 1 = 10 → rollbackCount (otpWord d) < 64 → (∀ i ∈ upTo 64, rollbackCount (otpWord d) < i → bit (otpWord d (70 + i / 32)) (i % 32) = false) → mode d = mConfig → gb d PACE_STAT.HELD = true → 850 ≤ gf d PACE_VCMD.VCMD → gf d PACE_VCMD.VCMD ≤ 950 → lpBank (coreOfDev d c |>.gr 15) = none → 
      Completes (.otpProgramField c .whole) s fun t => RomReturned c 0 lp s t ∧ rollbackCount (otpWord t.dev) = rollbackCount (otpWord d) + 1 ∧ t.dev.latch = d.latch ∧ (∀ x, x ≠ 70 → x ≠ 71 → otpWord t.dev x = otpWord d x) ∧ MemOnly s t (romStack s c)) ∧
    (∀ (c : Fin 8) (lp : Word) (st : Nat), RomCalled c entryOtp lp s → d.flash.op = none → argOf s c 6 = 0 → (argOf s c 1 = 0 ∧ st = 11) ∨ (11 ≤ argOf s c 1 ∧ argOf s c 1 ≤ 16 ∧ ((st = 12 ∧ fieldUsed d (argOf s c 1) = true) ∨ (st = 13 ∧ fieldUsed d (argOf s c 1) = false ∧ mode d ≠ mConfig))) → 
      Completes (.otpProgramField c .whole) s fun t => RomReturned c st lp s t ∧ t.dev.flash.pmask = d.flash.pmask ∧ t.dev.flash.seals = d.flash.seals ∧ t.dev.flash.otp = d.flash.otp ∧ t.dev.flash.op = d.flash.op ∧ MemOnly s t (romStack s c)) ∧
    (∀ (c : Fin 8) (lp : Word) (ph : RomPhase), RomCalled c entryOtp lp s → argOf s c 6 = 2 → (fieldWords (argOf s c 1)).isSome = true → (d.flash.op = none) → 
      Completes (.otpProgramField c ph) s fun t => RomReturned c 0 lp s t ∧ (coreOfDev t.dev c).gr 2 = (if fieldUsed d (argOf s c 1) then 1 else 0) ∧ t.dev.flash.pmask = d.flash.pmask ∧ t.dev.flash.seals = d.flash.seals ∧ t.dev.flash.otp = d.flash.otp ∧ t.dev.flash.op = d.flash.op ∧ MemOnly s t (romStack s c)) ∧
    (d.flash.winFrom + 1048576 ≤ d.now → 
      Does .flRtMargin s [.flash, .evc] [FLASHC_MCNT.at, FOLIO_EVT.at 0x12] fun e => gf e FLASHC_MCNT.PREV = gf d FLASHC_MCNT.CUR ∧ gf e FLASHC_MCNT.CUR = 0 ∧ e.flash = { d.flash with winFrom := d.flash.winFrom + 1048576 } ∧
        (gf d FLASHC_MARGIN.LIM < gf d FLASHC_MCNT.CUR ∧ gf d FLASHC_MCNT.PREV < gf d FLASHC_MCNT.CUR → Raised d e 0x12 0) ∧
        (gf d FLASHC_MCNT.CUR ≤ gf d FLASHC_MARGIN.LIM ∨ gf d FLASHC_MCNT.CUR ≤ gf d FLASHC_MCNT.PREV → rd e (FOLIO_EVT.at 0x12) = rd d (FOLIO_EVT.at 0x12))) ∧
    (∀ (ini : Initiator) (off : Nat) (v : Word), Open ini 0x12 s → fromRom d ini = false → 
      Does (.cmdDeny ini off v) s [.evc, .core, .pressErr] [FOLIO_EVT.at 0x12, PCIE_ERRADDR.at, FOLIO_EVT.at 0x100] fun e => Raised d e 0x12 2 ∧
        (∀ c : Fin 8, ini = .core c → (coreOfDev e c).excs.map (fun x => (x.vec, x.sub)) = (coreOfDev d c).excs.map (fun x => (x.vec, x.sub)) ++ [(7, 2)]) ∧
        (ini = .pcie → bit (rd e (FOLIO_EVT.at 0x100)) 2 = true)) ∧
    (∀ (ce : Nat), d.rstc.phase = .optionLoad → d.flash.otpFlaws = [] → 
      Completes (.optionLoad true ce) s fun t => t.mem = s.mem ∧ t.dev.latch = d.flash.otp ∧ t.dev.flash.otp = d.flash.otp ∧ t.dev.guard = guardOf (otpWord d 18) ∧ gf t.dev FLASHC_STAT.LDTRY = (d.rstc.attempts + 1) % 8 ∧ gf t.dev FLASHC_STAT.OTPCE = min 255 ce ∧
        t.dev.rstc.phase = .started ∧ t.dev.rstc.nrstOutLow = false ∧ gb t.dev RSTC_STAT.SAFECP = true ∧ gf t.dev PACE_VCMD.VCMD = bootVolt (otpWord d 17) ∧ gf t.dev PACE_VFIX.VFIX = bootVolt (otpWord d 17) ∧ t.dev.core = d.core) ∧
    (∀ (ce : Nat), d.rstc.phase = .optionLoad → 
      Does (.optionLoad false ce) s [.rstc] [FLASHC_STAT.at] fun e => gf e FLASHC_STAT.LDTRY = (d.rstc.attempts + 1) % 8 ∧ e.rstc.attempts = d.rstc.attempts + 1 ∧ (d.rstc.attempts < 3 → e.rstc.phase = .optionLoad) ∧ (3 ≤ d.rstc.attempts → e.rstc.phase = .loadHold))

/-- R443 to R446, R463: the boot ROM starts on LOCK with core 0’s memories initialised, or after 5 ms on holdover; a candidate that fails is recorded with its code and the host mailbox opens; an image that passes starts core 0 at ENTRY in CONFIG. The cryptographic primitives are open constants (log entry 16), so the clauses that rest on them are conditional on what they give. -/
def Obligations.SecureBoot : Prop :=
  ∀ s : State, Calm s →
    let d := s.dev
    (d.rstc.phase = .started → d.rstc.booted = false → mode d = mStart → (gb d MERID_STAT.LOCK = true ∧ gbit d MEMP_INIT.DONE 17 = true ∧ gbit d MEMP_INIT.DONE 25 = true) ∨ (gb d MERID_STAT.LOCK = false ∧ d.rstc.loadTick + 5000000 ≤ d.now) → 
      Completes .bootStart s fun t => t.dev.rstc = { d.rstc with booted := true } ∧ t.dev.core = d.core ∧ gf t.dev FLASHC_STAT.SUSPCNT = (journalScan s).2.length % 2 ^ 13) ∧
    (d.rstc.booted = true ∨ mode d ≠ mStart ∨ (gb d MERID_STAT.LOCK = true ∧ gbit d MEMP_INIT.DONE 17 = false) → 
      Completes .bootStart s fun t => t.dev.rstc = d.rstc ∧ t.dev.core = d.core ∧ t.mem = s.mem) ∧
    (∀ (h : ImageHdr), romBoots d = true → d.host.bootWaiting = false → fld (latchWord d 16) 2 0 = 0 → gf d SEC_BOOTST.BANK0 = 0xF → flashBusy d 0 = false → s.mem.flaws = [] → d.sec.raising = none → canTag d 34 = true → d.fab.waiting = [] → (h = ⟨(upTo 128).map fun i => storedWord s.mem (0x8000000 + i)⟩) → headerOk d h 0x8000000 false = false → 
      Completes .bootCandidate s fun t => gf t.dev SEC_BOOTST.BANK0 = 1 ∧ gb t.dev (FOLIO_CTL.EN 0x100) = true ∧ t.dev.host.bootWaiting = true ∧ mode t.dev = mStart ∧ t.mem = s.mem ∧ t.dev.core = d.core) ∧
    (∀ (h : ImageHdr), romBoots d = true → d.host.bootWaiting = false → fld (latchWord d 16) 2 0 = 0 → gf d SEC_BOOTST.BANK0 = 0xF → flashBusy d 0 = false → s.mem.flaws = [] → d.sec.raising = none → canTag d 34 = true → d.fab.waiting = [] → (h = ⟨(upTo 128).map fun i => storedWord s.mem (0x8000000 + i)⟩) → headerOk d h 0x8000000 false = true → slotSet d 0 = true → 
      Completes .bootCandidate s fun t => keyMatches d h.keyIdx h.key = false → gf t.dev SEC_BOOTST.BANK0 = 2 ∧ gb t.dev (FOLIO_CTL.EN 0x100) = true ∧ t.dev.host.bootWaiting = true ∧ mode t.dev = mStart ∧ t.mem = s.mem ∧ t.dev.core = d.core) ∧
    (∀ (h : ImageHdr), romBoots d = true → d.host.bootWaiting = false → fld (latchWord d 16) 2 0 = 0 → gf d SEC_BOOTST.BANK0 = 0xF → flashBusy d 0 = false → s.mem.flaws = [] → d.sec.raising = none → canTag d 34 = true → d.fab.waiting = [] → (h = ⟨(upTo 128).map fun i => storedWord s.mem (0x8000000 + i)⟩) → headerOk d h 0x8000000 false = true → slotSet d 0 = true → 
      Completes .bootCandidate s fun t => keyMatches d h.keyIdx h.key = true → h.ver < rollback d → gf t.dev SEC_BOOTST.BANK0 = 3 ∧ gb t.dev (FOLIO_CTL.EN 0x100) = true ∧ t.dev.host.bootWaiting = true ∧ mode t.dev = mStart ∧ t.mem = s.mem ∧ t.dev.core = d.core) ∧
    (∀ (h : ImageHdr), romBoots d = true → d.host.bootWaiting = false → fld (latchWord d 16) 2 0 = 0 → gf d SEC_BOOTST.BANK0 = 0xF → flashBusy d 0 = false → s.mem.flaws = [] → d.sec.raising = none → canTag d 34 = true → d.fab.waiting = [] → (h = ⟨(upTo 128).map fun i => storedWord s.mem (0x8000000 + i)⟩) → headerOk d h 0x8000000 false = true → slotSet d 0 = true → 
      Completes .bootCandidate s fun t => keyMatches d h.keyIdx h.key = true → rollback d ≤ h.ver → Config.ecdsaVerify h.key (imageDigest h ((upTo h.len).map fun i => storedWord s.mem (0x8000080 + i))) h.sig = false → gf t.dev SEC_BOOTST.BANK0 = 4 ∧ gb t.dev (FOLIO_CTL.EN 0x100) = true ∧ t.dev.host.bootWaiting = true ∧ mode t.dev = mStart ∧ t.mem = s.mem ∧ t.dev.core = d.core) ∧
    (∀ (h : ImageHdr), romBoots d = true → d.host.bootWaiting = false → fld (latchWord d 16) 2 0 = 0 → gf d SEC_BOOTST.BANK0 = 0xF → flashBusy d 0 = false → s.mem.flaws = [] → d.sec.raising = none → canTag d 34 = true → d.fab.waiting = [] → (h = ⟨(upTo 128).map fun i => storedWord s.mem (0x8000000 + i)⟩) → headerOk d h 0x8000000 false = true → slotSet d 0 = false → slotSet d 1 = false → h.enc = false → h.load = 0 → rollback d ≤ h.ver → h.roll = false → 
      Completes .bootCandidate s fun t => mode t.dev = mConfig ∧ gf t.dev SYS_STAT.PREV = mStart ∧ gf t.dev SYS_STAT.WHY = 1 ∧ gf t.dev SEC_BOOTST.BANK0 = 0 ∧ gf t.dev SEC_STAT.BOOTSRC = 0 ∧ gf t.dev SEC_STAT.VER = h.ver ∧
        gb t.dev SEC_STAT.OPEN = true ∧ (coreOfDev t.dev 0).ip = h.entry ∧ (coreOfDev t.dev 0).sup = true ∧ (∀ r, (coreOfDev t.dev 0).gr r = (coreInit 0).gr r) ∧ (coreOfDev t.dev 0).fpsr = 0 ∧ t.mem = s.mem) ∧
    (∀ (h : ImageHdr), romBoots d = true → d.host.bootWaiting = true → d.host.bootBusy = false → linkOn d = true → s.mem.flaws = [] → d.sec.raising = none → canTag d 34 = true → d.fab.waiting = [] → (∀ i ∈ upTo 128, SramWord s (d.host.bootBase + i)) → (h = ⟨(upTo 128).map fun i => storedWord s.mem (d.host.bootBase + i)⟩) → headerOk d h d.host.bootBase true = false → 
      Completes (.bootgo 1) s fun t => gf t.dev SEC_BOOTST.HOST = 1 ∧ t.dev.host.bootWaiting = true ∧ t.dev.host.bootBusy = false ∧ mode t.dev = mStart ∧ t.mem = s.mem ∧ (gb d (PCIE_MSIXSRC.EN 0) = false → 0 ∈ t.dev.host.msixDue)) ∧
    (∀ (v : BitVec 32), v ≠ 1 → 
      Does (.bootgo v) s [] [] fun _ => True)

/-- R451 to R454: a challenge draws a nonce unless four submits were refused, a submit consumes it and unlocks debug or is refused, HELLO opens a session or is refused, a CMD frame that fails acts not at all and the third ends the session, CLOSE ends it, random words are new, a health failure stops them. The cryptographic primitives are open constants (log entry 16). -/
def Obligations.SecurityServices : Prop :=
  ∀ s : State, Calm s →
    let d := s.dev
    (∀ (ini : Initiator), Heard ini 0x11 s → d.sec.refusals < 4 → gb d SEC_STAT.RNGOK = true → 
      Does (.debugChallenge ini) s [.sec] [] fun e => e.sec = { d.sec with chal := true, seed := if d.sec.rng < 2 ^ 20 then d.sec.seed else d.sec.seed + 1, rng := if d.sec.rng < 2 ^ 20 then d.sec.rng + 1 else 1 } ∧
        (∀ i ∈ upTo 11, rd e (SEC_DBGCHAL.at i) = (quantWords (if d.sec.rng < 2 ^ 20 then Config.drbg d.sec.seed d.sec.rng else Config.drbg (d.sec.seed + 1) 0)).getD i 0) ∧ gb e SEC_STAT.DBGUNL = gb d SEC_STAT.DBGUNL) ∧
    (∀ (ini : Initiator), Heard ini 0x11 s → 4 ≤ d.sec.refusals ∨ gb d SEC_STAT.RNGOK = false → 
      Does (.debugChallenge ini) s [.sec] [] fun e => e.sec = { d.sec with chal := false } ∧ (∀ i ∈ upTo 11, rd e (SEC_DBGCHAL.at i) = rd d (SEC_DBGCHAL.at i))) ∧
    (∀ (ini : Initiator), Heard ini 0x11 s → d.sec.chal = false ∨ mode d = mPark ∨ bit (latchWord d 72) 4 = true ∨ (slotUsable d 0 = false ∧ slotUsable d 1 = false) → 
      Completes (.debugSubmit ini) s fun t => t.mem = s.mem ∧ t.dev.sec.chal = false ∧ gb t.dev SEC_STAT.DBGUNL = gb d SEC_STAT.DBGUNL ∧ t.dev.sec.refusals = d.sec.refusals + 1 ∧ bit (rd t.dev (FOLIO_EVT.at 0x11)) 1 = true) ∧
    (∀ (ini : Initiator) (key : BitVec 384 × BitVec 384), Heard ini 0x11 s → d.sec.chal = true → mode d ≠ mPark → bit (latchWord d 72) 4 = false → (key = quantPair ((upTo 22).map fun i => tabGet 0 d.sec.resp i)) → 
      Completes (.debugSubmit ini) s fun t => t.mem = s.mem ∧ t.dev.sec.chal = false ∧
        (keyMatches d 0 key = true → Config.ecdsaVerify key (Config.sha384 (wordsOctets (((upTo 11).map fun i => rd d (SEC_DBGCHAL.at i)) ++ latchWords d 0 6))) (quantPair ((upTo 22).map fun i => tabGet 0 d.sec.resp (22 + i))) = true → gb t.dev SEC_STAT.DBGUNL = true ∧ t.dev.sec.dbgSince = true ∧ bit (rd t.dev (FOLIO_EVT.at 0x11)) 0 = true)) ∧
    (frameReady d = true → frameType d = 1 → d.host.cmdLen ≠ 338 ∨ gb d SEC_CFG.SESSEN = false ∨ gb d SEC_STAT.RNGOK = false ∨ mode d = mStart → 
      Completes .helloFrame s fun t => t.mem = s.mem ∧ t.dev.host.rspLen = 1 ∧ tabGet 0 t.dev.host.d2h 0 = 0xFF#8 ∧ t.dev.host.cmdLen = 0 ∧ t.dev.host.held = false ∧ t.dev.sec = d.sec ∧ gb t.dev SEC_STAT.SESS = gb d SEC_STAT.SESS) ∧
    (frameReady d = true → frameType d = 1 → d.host.cmdLen = 338 → gb d SEC_CFG.SESSEN = true → gb d SEC_STAT.RNGOK = true → secretSet d = true → mode d ≠ mStart → 
      Completes .helloFrame s fun t => t.mem = s.mem ∧ t.dev.host.cmdLen = 0 ∧ t.dev.host.held = false ∧
        (∀ z ∈ Config.ecMul (privateKey (drawRng d).2.toNat) (octetPair (((frameOctets d).drop 1).take 96)), keyMatches d ((frameOctets d).getD 145 0).toNat (octetPair (((frameOctets d).drop 146).take 96)) = true →
          Config.ecdsaVerify (octetPair (((frameOctets d).drop 146).take 96)) (Config.sha384 (((frameOctets d).drop 1).take 96 ++ ((frameOctets d).drop 97).take 48
            ++ pairOctets (devicePub d))) (octetPair (((frameOctets d).drop 242).take 96)) = true →
          gb t.dev SEC_STAT.SESS = true ∧
          t.dev.sec.key = BitVec.ofNat 256 (Config.kdf (quantOctets z.1) (label "K9600-SESSION" ++ ((frameOctets d).drop 97).take 48 ++ quantOctets (drawRng (drawRng d).1).2) 256) ∧ t.dev.sec.lastSeq = 0 ∧ t.dev.sec.fails = 0 ∧ bit (rd t.dev (FOLIO_EVT.at 0x11)) 2 = true ∧ t.dev.host.rspLen = 241 ∧ tabGet 0 t.dev.host.d2h 0 = 0x81#8)) ∧
    (frameReady d = true → frameType d = 2 → gb d SEC_STAT.SESS = false ∨ d.host.cmdLen ≠ 26 + 9 * ((frameOctets d).getD 9 0).toNat → 
      Completes .cmdFrame s fun t => t.mem = s.mem ∧ t.dev.host.rspLen = 1 ∧ tabGet 0 t.dev.host.d2h 0 = 0xFF#8 ∧ t.dev.host.cmdLen = 0 ∧ t.dev.host.held = false ∧ t.dev.sec = d.sec) ∧
    (frameReady d = true → frameType d = 2 → gb d SEC_STAT.SESS = true → 1 ≤ ((frameOctets d).getD 9 0).toNat → ((frameOctets d).getD 9 0).toNat ≤ 60 → d.host.cmdLen = 26 + 9 * ((frameOctets d).getD 9 0).toNat → octetsNat (((frameOctets d).drop 1).take 8) < d.sec.lastSeq → 
      Completes .cmdFrame s fun t => t.mem = s.mem ∧ t.dev.host.rspLen = 1 ∧ tabGet 0 t.dev.host.d2h 0 = 0xFF#8 ∧ t.dev.host.cmdLen = 0 ∧ t.dev.host.held = false ∧ bit (rd t.dev (FOLIO_EVT.at 0x11)) 3 = true ∧ (d.sec.fails < 2 → t.dev.sec.fails = d.sec.fails + 1 ∧ gb t.dev SEC_STAT.SESS = true) ∧ (2 ≤ d.sec.fails → gb t.dev SEC_STAT.SESS = false ∧ t.dev.sec.key = 0)) ∧
    (frameReady d = true → frameType d = 2 → gb d SEC_STAT.SESS = true → ((frameOctets d).getD 9 0).toNat = 1 → d.host.cmdLen = 35 → d.sec.lastSeq ≤ octetsNat (((frameOctets d).drop 1).take 8) → s.mem.flaws = [] → 
      Completes .cmdFrame s fun t => t.dev.host.cmdLen = 0 ∧ t.dev.host.held = false ∧
        ∀ bs, Config.gcmOpen d.sec.key (frameIv 1 (octetsNat (((frameOctets d).drop 1).take 8))) [] (BitVec.ofNat 128 (octetsNat (((frameOctets d).drop 19).take 16))) (((frameOctets d).drop 10).take 9) = some bs →
          SramWord s ((octetsWords 2 bs).getD 0 0).toNat →
          storedWord t.mem ((octetsWords 2 bs).getD 0 0).toNat = (octetsWords 2 bs).getD 1 0 ∧ MemOnly s t [((octetsWords 2 bs).getD 0 0).toNat] ∧ t.dev.sec.lastSeq = octetsNat (((frameOctets d).drop 1).take 8) + 1 ∧ t.dev.sec.fails = 0 ∧ tabGet 0 t.dev.host.d2h 0 = 0x82#8) ∧
    (frameReady d = true → frameType d = 3 → d.host.cmdLen = 1 → gb d SEC_STAT.EVAL = evalCond d → 
      Does .closeFrame s [.sec, .host] [] fun e => gb e SEC_STAT.SESS = false ∧ e.sec.key = 0 ∧ e.sec.fails = 0 ∧ e.host = { d.host with cmdLen := 0, held := false }) ∧
    (∀ (ini : Initiator), iniServed d ini = true → debugShut d ini = false → gb d SEC_STAT.RNGOK = true → 
      Does (.rngRead ini) s [.sec] [] fun e => e.sec = { d.sec with seed := if d.sec.rng < 2 ^ 20 then d.sec.seed else d.sec.seed + 1, rng := if d.sec.rng < 2 ^ 20 then d.sec.rng + 1 else 1 } ∧
        (folioLoad 0x11 (SEC_RNG.at % 256) s).2 = setBitW (((if d.sec.rng < 2 ^ 20 then Config.drbg d.sec.seed d.sec.rng else Config.drbg (d.sec.seed + 1) 0).setWidth 32).setWidth 36) 35 true) ∧
    (∀ (ini : Initiator), iniServed d ini = true → debugShut d ini = false → gb d SEC_STAT.RNGOK = false → 
      Does (.rngRead ini) s [] [] fun _ => (folioLoad 0x11 (SEC_RNG.at % 256) s).2 = 0) ∧
    (gb d SEC_STAT.RNGOK = true → 
      Does .rngFail s [.evc] [] fun e => gb e SEC_STAT.RNGOK = false ∧ bit (rd e (FOLIO_EVT.at 0x11)) 4 = true)

/-- R458 to R470: power-on release, brown-out, NRST_IN, the release of a warm reset, the system watchdog, a software reset and the pad hold. A low of NRST_IN between 50 and 200 ns is open. -/
def Obligations.Resets : Prop :=
  ∀ s : State, Calm s →
    let d := s.dev
    (d.rstc.phase = .asserted → d.rstc.cold = true → 
      Does .powerOnRelease s [.rstc, .evc] ((upTo 24).flatMap (fun u => [SURV_STAT.at u, FOLIO_EVT.at (0x60 + u)]) ++ (upTo 4).flatMap fun g => [CONT_STAT.at g, FOLIO_EVT.at (0x7C + g)]) fun e => e.rstc = { d.rstc with phase := .optionLoad, attempts := 0 } ∧ (∀ u ∈ upTo 24, gb e (SURV_STAT.LOWA u) = (d.vddaLow && !gb d (SURV_CTL.VREF u))) ∧ ∀ g ∈ upTo 4, gb e (CONT_STAT.LOWA g) = (d.vddaLow && !gb d (CONT_GCTL.VREF g))) ∧
    (d.rstc.phase ≠ .asserted ∨ d.rstc.cold = false → 
      Does .powerOnRelease s [] [] fun _ => True) ∧
    (∀ (x : Supply), d.flash.op = none → firedNow d = [] → 
      Completes (.brownOut x) s fun t => t.mem = s.mem ∧ t.dev.rstc.phase = .asserted ∧ t.dev.rstc.cold = true ∧ (x = .vddio → t.dev.rstc.safeCopy = none) ∧ (x ≠ .vddio → t.dev.rstc.safeCopy = d.rstc.safeCopy) ∧
        rd t.dev RSTC_CAUSE.at = (match x with | .vddio => 4 | .vdda => 8 | .vddcore => 16) ∧ mode t.dev = mStart ∧ (∀ c ∈ upTo 8, coreOfDev t.dev c = coreInit c) ∧ t.dev.now = d.now ∧
        ∀ a, a ∉ [RSTC_CAUSE.at, RSTC_STAT.at, TWIN_STAT.at] ++ (upTo 4).map (fun i => GPIO_IN.at i) ++ (upTo 16).map (fun u => BRNG_STAT.at u) → a / 256 ≠ 0x11 → rd t.dev a = regReset a) ∧
    (d.rstc.nrstLow = false → 
      Does (.nrstIn true) s [.rstc] [] fun e => e.rstc = { d.rstc with nrstLow := true, nrstTick := d.now }) ∧
    (d.rstc.nrstLow = true → d.rstc.nrstTick + 200 ≤ d.now → 
      Does (.nrstIn true) s [.rstc] [] fun e => e.rstc = { d.rstc with req := [.nrst] }) ∧
    (d.rstc.nrstLow = true → d.now < d.rstc.nrstTick + 50 → 
      Does (.nrstIn false) s [.rstc] [] fun e => e.rstc = { d.rstc with nrstLow := false }) ∧
    (d.rstc.nrstLow = true → d.rstc.nrstTick + 50 ≤ d.now → 
      Does (.nrstIn false) s [.rstc, .free] [] fun e => (e.rstc = { d.rstc with nrstLow := false } ∨ e.rstc = { d.rstc with nrstLow := false, req := [.nrst] }) ∧ (d.rstc.nrstTick + 200 ≤ d.now → e.rstc.req = [.nrst])) ∧
    (d.rstc.phase = .asserted → d.rstc.cold = false → d.rstc.nrstLow = false → d.rstc.assertTick + 2000 ≤ d.now → 
      Does .warmResetRelease s [.rstc, .evc] ((upTo 24).flatMap (fun u => [SURV_STAT.at u, FOLIO_EVT.at (0x60 + u)]) ++ (upTo 4).flatMap fun g => [CONT_STAT.at g, FOLIO_EVT.at (0x7C + g)]) fun e => e.rstc = { d.rstc with phase := .optionLoad, attempts := 0 } ∧ (∀ u ∈ upTo 24, gb e (SURV_STAT.LOWA u) = (d.vddaLow && !gb d (SURV_CTL.VREF u))) ∧ ∀ g ∈ upTo 4, gb e (CONT_STAT.LOWA g) = (d.vddaLow && !gb d (CONT_GCTL.VREF g))) ∧
    (d.rstc.phase ≠ .asserted ∨ d.rstc.nrstLow = true ∨ d.now < d.rstc.assertTick + 2000 → 
      Does .warmResetRelease s [] [] fun _ => True) ∧
    (gb d RSTC_SWDOG.EN = true → mode d ≠ mStart → mode d ≠ mPark → 1024 * gf d RSTC_SWDOG.TIME ≤ d.rstc.swdCount → 
      Does .systemWatchdogExpiry s [.rstc] [] fun e => e.rstc = { d.rstc with req := [.swdog] }) ∧
    (gb d RSTC_SWDOG.EN = true → mode d ≠ mStart → mode d ≠ mPark → d.rstc.swdWarned = false → 1024 * gf d RSTC_SWDOG.TIME ≤ 2 * d.rstc.swdCount → 
      Does .swdWarn s [.rstc, .evc] [FOLIO_EVT.at 1] fun e => Raised d e 1 0 ∧ e.rstc = { d.rstc with swdWarned := true }) ∧
    (∀ (ini : Initiator), Open ini 1 s → 
      Does (.swkick ini 0x3C3C) s [.rstc] [RSTC_SWKICK.at] fun e => e.rstc = { d.rstc with swdCount := 0, swdWarned := false }) ∧
    (∀ (ini : Initiator) (v : Word), Open ini 1 s → v ≠ 0x3C3C → 
      Does (.swkick ini v) s [.evc] [RSTC_SWKICK.at, FOLIO_EVT.at 1] fun e => Raised d e 1 1) ∧
    (∀ (ini : Initiator), Open ini 1 s → 
      Does (.swrst ini) s [.rstc] [RSTC_SWRST.at] fun e => e.rstc = { d.rstc with req := if ini = .pcie ∨ ini = .sec then [.hostreq] else [.swreq] }) ∧
    (∀ (ini : Initiator) (b : BitVec 6), Open ini 1 s → 
      Does (.holdrel ini b) s [.rstc] [RSTC_HOLDREL.at, RSTC_HOLD.at] fun e => (∀ k ∈ upTo 6, gbit e RSTC_HOLD.HOLD k = (gbit d RSTC_HOLD.HOLD k && !b.getLsbD k)) ∧ (∀ p ∈ upTo 512, b.getLsbD (pinBank p) = false → tabFind e.rstc.held p = tabFind d.rstc.held p))

/-- R459, R461, R462, R465, R466: a warm reset keeps memories, tick counter, causes, bank retirement, the MEMP log, latches and safe-state copy, adds its causes, puts the pad hold in force and everything else in reset. -/
def Obligations.WarmResetAsserts : Prop :=
  ∀ s : State, s.dev.rstc.req ≠ [] → s.dev.rstc.phase ≠ .asserted →
    let d := s.dev
    (votesAgree d = true → d.flash.op = none → (∀ c ∈ upTo 8, (coreOfDev d c).issued = []) → 
      Completes .warmReset s fun t => t.mem = s.mem ∧ t.dev.rstc.phase = .asserted ∧ t.dev.rstc.cold = false ∧ t.dev.rstc.req = [] ∧ t.dev.rstc.safeCopy = d.rstc.safeCopy ∧ t.dev.now = d.now ∧ t.dev.memp = d.memp ∧ t.dev.latch = d.latch ∧ t.dev.guard = d.guard ∧ t.dev.flash.otp = d.flash.otp ∧
        gf t.dev RSTC_HOLD.HOLD = 0x3F ∧ mode t.dev = mStart ∧ (∀ c ∈ upTo 8, coreOfDev t.dev c = coreInit c) ∧ gf t.dev TWIN_ROLE.ROLE = 0 ∧ gb t.dev TWIN_STAT.OWNOUT = false ∧ gb t.dev SEC_STAT.DBGUNL = false) ∧
    (votesAgree d = true → d.flash.op = none → (∀ c ∈ upTo 8, (coreOfDev d c).issued = []) → 
      Completes .warmReset s fun t => (∀ k ∈ upTo 12, bit (rd t.dev RSTC_CAUSE.at) k = (bit (rd d RSTC_CAUSE.at) k || decide (k ∈ d.rstc.req.map ResetSource.bit))) ∧
        ∀ a ∈ [RSTC_DETAIL.at, RSTC_CRITADDR.at, FAB_RETIRE.at, FAB_BANKOFF.at, MEMP_STAT.at, MEMP_INIT.at, MEMP_WRAP.at, MEMP_TAIL.at], rd t.dev a = rd d a) ∧
    (votesAgree d = true → d.flash.op = none → (∀ c ∈ upTo 8, (coreOfDev d c).issued = []) → 
      Completes .warmReset s fun t => ∀ a, warmKept a = false → a / 256 ∉ [1, 3, 0x11, 0x13] → a ∉ (upTo 16).map (fun u => BRNG_STAT.at u) → a / 256 < 0x60 ∨ 0x78 ≤ a / 256 → rd t.dev a = regReset a)

/-- R472 to R474, R480: a mode pair is taken where the table has its transition and condition, refused with MODE_LOCK elsewhere, ignored for the mode in force; RECOVERY puts engines to HOLD, PARK stops timers, calibration and pace once no flash operation runs; PINC takes pin functions. -/
def Obligations.Modes : Prop :=
  ∀ s : State, Calm s →
    let d := s.dev
    (∀ (ini : Initiator), Open ini 0 s → mode d ≠ mStart → mode d ≠ mPark → mode d ≠ mConfig → 
      Completes (.modeConfig ini) s fun t => mode t.dev = mConfig ∧ gf t.dev SYS_STAT.MODE = mConfig ∧ gf t.dev SYS_STAT.PREV = mode d ∧ gf t.dev SYS_STAT.WHY = 0 ∧ bit (rd t.dev (FOLIO_EVT.at 0)) 0 = true ∧ t.mem = s.mem ∧ t.dev.core = d.core) ∧
    (∀ (ini : Initiator), Open ini 0 s → mode d = mConfig ∨ mode d = mRecovery → gb d MERID_STAT.LOCK = true → gb d MERID_STAT.CAL_OK = true → gb d PACE_STAT.HELD = true → roleOf d ≠ 2 → 
      Completes (.modeRun ini) s fun t => mode t.dev = mRun ∧ gf t.dev SYS_STAT.MODE = mRun ∧ gf t.dev SYS_STAT.PREV = mode d ∧ gf t.dev SYS_STAT.WHY = 0 ∧ bit (rd t.dev (FOLIO_EVT.at 0)) 0 = true ∧ t.mem = s.mem ∧ t.dev.core = d.core) ∧
    (∀ (ini : Initiator), Open ini 0 s → mode d ≠ mStart → mode d ≠ mPark → mode d ≠ mStandby → roleOf d = 2 → (mode d = mConfig → gb d (FOLIO_CTL.EN twinPage) = true) → 
      Completes (.modeStandby ini) s fun t => mode t.dev = mStandby ∧ gf t.dev SYS_STAT.MODE = mStandby ∧ gf t.dev SYS_STAT.PREV = mode d ∧ gf t.dev SYS_STAT.WHY = 0 ∧ bit (rd t.dev (FOLIO_EVT.at 0)) 0 = true ∧ t.mem = s.mem ∧ t.dev.core = d.core) ∧
    (∀ (ini : Initiator), Open ini 0 s → mode d ≠ mStart → mode d ≠ mPark → mode d ≠ mRecovery → 
      Completes (.modeRecovery ini) s fun t => mode t.dev = mRecovery ∧ gf t.dev SYS_STAT.MODE = mRecovery ∧ gf t.dev SYS_STAT.PREV = mode d ∧ gf t.dev SYS_STAT.WHY = 0 ∧ bit (rd t.dev (FOLIO_EVT.at 0)) 0 = true ∧ t.mem = s.mem ∧ t.dev.core = d.core ∧ ∀ e ∈ upTo 64, (travOf t.dev e).fRecov = true) ∧
    (∀ (ini : Initiator), Open ini 0 s → mode d ≠ mStart → mode d ≠ mPark → d.flash.op = none → (∀ c ∈ upTo 8, (coreOfDev d c).wbuf = [] ∧ (coreOfDev d c).issued = []) → d.galley.posted = [] → 
      Completes (.modePark ini) s fun t => mode t.dev = mPark ∧ gf t.dev SYS_STAT.MODE = mPark ∧ gf t.dev SYS_STAT.PREV = mode d ∧ gf t.dev SYS_STAT.WHY = 0 ∧ bit (rd t.dev (FOLIO_EVT.at 0)) 0 = true ∧ t.mem = s.mem ∧ (∀ c ∈ upTo 8, (coreOfDev t.dev c).timers = [] ∧ (coreOfDev t.dev c).ctx = (coreOfDev d c).ctx) ∧ gb t.dev MERID_STAT.CAL_OK = false ∧ t.dev.pace.saved = gf d PACE_VCMD.VCMD ∧ (∀ f ∈ upTo 16, counting t.dev f = false)) ∧
    (∀ (ini : Initiator), Open ini 0 s → mode d ≠ mStart → mode d ≠ mPark → d.flash.op.isSome = true → 
      Completes (.modePark ini) s fun t => t.mem = s.mem ∧ mode t.dev = mode d ∧ t.dev.rstc.parkEntry = true ∧ t.dev.flash.op = d.flash.op ∧ (∀ f ∈ upTo 16, counting t.dev f = false)) ∧
    (∀ (ini : Initiator), Open ini 0 s → mode d ≠ mRun → mode d = mStart ∨ mode d = mStandby ∨ mode d = mPark ∨ gb d MERID_STAT.LOCK = false ∨ gb d MERID_STAT.CAL_OK = false ∨ gb d PACE_STAT.HELD = false ∨ roleOf d = 2 → 
      Completes (.modeRun ini) s fun t => mode t.dev = mode d ∧ rd t.dev SYS_STAT.at = rd d SYS_STAT.at ∧ gb t.dev (FOLIO_STAT.MODE_LOCK 0) = true ∧ t.mem = s.mem ∧ t.dev.core = d.core) ∧
    (∀ (ini : Initiator), Open ini 0 s → mode d = mStart → 
      Completes (.modeConfig ini) s fun t => mode t.dev = mode d ∧ rd t.dev SYS_STAT.at = rd d SYS_STAT.at ∧ gb t.dev (FOLIO_STAT.MODE_LOCK 0) = true ∧ t.mem = s.mem ∧ t.dev.core = d.core) ∧
    (∀ (ini : Initiator), Open ini 0 s → mode d = mConfig → 
      Does (.modeConfig ini) s [] [] fun _ => True) ∧
    (∀ (ini : Initiator) (w : Fin 16) (v : Word), Open ini 2 s → w.val < 8 → (∀ i ∈ upTo 16, bit v (2 * i + 1) = false) → 
      Completes (.pincWrite ini false w v) s fun t => t.mem = s.mem ∧ rd t.dev (PINC_FUNC.at w) = v &&& maskOf 31 0) ∧
    (∀ (ini : Initiator) (w : Fin 16) (v : Word), Open ini 2 s → (∀ i ∈ upTo 8, fld v (4 * i + 1) (4 * i) ≠ 3) → 
      Does (.pincWrite ini true w v) s [] [PINC_PAD.at w] fun e => rd e (PINC_PAD.at w) = v &&& maskOf 31 0)

/-- R482 to R488: the link, folio words through BAR0 with stage and capture, words and guard nibbles through BAR2 and BAR4, the mailbox, MSI-X; with HOSTAUTH a BAR0 folio write is discarded with ACC_ERR; in PARK reads end in Completer Abort. -/
def Obligations.HostAccess : Prop :=
  ∀ s : State, Calm s →
    let d := s.dev
    (∀ (w : Bool) (g : Fin 4), gb d (FOLIO_CTL.EN 0x100) = true → 
      Does (.pcieLinkChange true w g) s [.evc] [PCIE_STAT.at, FOLIO_EVT.at 0x100] fun e => gf e PCIE_STAT.LINK = 2 ∧ gb e PCIE_STAT.WIDTH = w ∧ gf e PCIE_STAT.SPEED = g.val ∧ (linkOn d = false → Raised d e 0x100 0) ∧ (linkOn d = true → rd e (FOLIO_EVT.at 0x100) = rd d (FOLIO_EVT.at 0x100))) ∧
    (∀ (w : Bool) (g : Fin 4), gb d (FOLIO_CTL.EN 0x100) = true → 
      Does (.pcieLinkChange false w g) s [.evc] [PCIE_STAT.at, FOLIO_EVT.at 0x100] fun e => gf e PCIE_STAT.LINK = 1 ∧ (linkOn d = true → Raised d e 0x100 1)) ∧
    (∀ (v : BitVec 32), hostServed d = true → 
      Does (.bar0HighWrite v) s [.host] [] fun e => e.host = { d.host with stage := v.toNat % 16 }) ∧
    (∀ (v : Fin 64) (w : BitVec 32), hostServed d = true → Open .pcie 0x100 s → gb d SEC_CFG.HOSTAUTH = false → d.fab.waiting = [] → canTag d 35 = true → d.fab.tags = [] → 
      Does (.bar0LowWrite (.folio (Fin.ofNat 1048576 (0x10040 + v))) w) s [.host] [FAB_PEAK.at, PCIE_MSIXSRC.at v] fun e => rd e (PCIE_MSIXSRC.at v) = BitVec.ofNat 36 (d.host.stage * 2 ^ 32 + w.toNat) &&& 0x8000007FF ∧ e.host.stage = 0) ∧
    (∀ (n : Fin 1048576) (w : BitVec 32), hostServed d = true → gb d SEC_CFG.HOSTAUTH = true → 
      Does (.bar0LowWrite (.folio n) w) s [.host, .evc] [PCIE_ERRADDR.at, FOLIO_EVT.at 0x100] fun e => gf e PCIE_ERRADDR.ADDR = 0xF000000 + n.val ∧ Raised d e 0x100 2 ∧ e.host.stage = 0) ∧
    (∀ (w : BitVec 32), hostServed d = true → 
      Does (.bar0LowWrite (.mailbox 0) w) s [.host] [] fun e => e.host = { d.host with bootBase := w.toNat % 2 ^ 28 }) ∧
    (∀ (k : Fin 256) (w : BitVec 32), hostServed d = true → 
      Does (.bar0LowWrite (.mailbox (Fin.ofNat 1536 (0x400 + k))) w) s [.host] [] fun e => (∀ i ∈ upTo 4, tabGet 0 e.host.h2d (4 * k + i) = BitVec.ofNat 8 (w.toNat / 256 ^ i)) ∧ e.host.cmdLen = d.host.cmdLen ∧ e.host.stage = d.host.stage) ∧
    (∀ (v : Fin 64), hostServed d = true → d.fab.waiting = [] → canTag d 35 = true → d.fab.tags = [] → 
      Does (.bar0LowRead (Fin.ofNat 1048576 (0x10040 + v))) s [.host] [FAB_PEAK.at] fun e => e.host = { d.host with capture := (rd d (PCIE_MSIXSRC.at v)).toNat / 2 ^ 32, readBack := some ((rd d (PCIE_MSIXSRC.at v)).setWidth 32) }) ∧
    (hostServed d = true → 
      Does (.hostRead .bar0High) s [.host] [] fun e => e.host = { d.host with readBack := some (BitVec.ofNat 32 d.host.capture) }) ∧
    (∀ (o : Nat), hostServed d = true → o = 0 ∨ o = 8 ∨ o = 0x100 ∨ o = 0x104 → 
      Does (.hostRead (.mailbox o)) s [.host] [] fun e => e.host.readBack = some (if o = 0 then BitVec.ofNat 32 d.host.bootBase else if o = 8 then bootSt d.host else if o = 0x100 then BitVec.ofNat 32 d.host.cmdLen else BitVec.ofNat 32 d.host.rspLen)) ∧
    (∀ (j : Nat), hostServed d = true → SramWord s (barWord d j) → s.mem.flaws = [] → d.fab.waiting = [] → canTag d 35 = true → 
      Completes (.hostRead (.bar2 j)) s fun t => t.mem = s.mem ∧ t.dev.host.readBack = some ((storedWord s.mem (barWord d j)).setWidth 32) ∧ t.dev.core = d.core) ∧
    (∀ (j : Nat), hostServed d = true → (∀ i ∈ upTo 8, SramWord s (barWord d (8 * j + i))) → s.mem.flaws = [] → d.fab.waiting = [] → canTag d 35 = true → 
      Completes (.hostRead (.bar4 j)) s fun t => t.mem = s.mem ∧ t.dev.core = d.core ∧ t.dev.host.readBack.isSome = true ∧ ∀ i ∈ upTo 8, fld ((t.dev.host.readBack.getD 0).setWidth 36) (4 * i + 3) (4 * i) = (storedWord s.mem (barWord d (8 * j + i))).toNat / 2 ^ 32) ∧
    (∀ (j : Nat) (v : BitVec 32), hostServed d = true → SramWord s (barWord d j) → s.mem.flaws = [] → d.fab.waiting = [] → canTag d 35 = true → 
      Completes (.bar2Write j v) s fun t => MemOnly s t [barWord d j] ∧ storedWord t.mem (barWord d j) = v.setWidth 36 ∧ t.dev.core = d.core) ∧
    (∀ (j : Nat) (v : BitVec 32) (be : BitVec 4), hostServed d = true → (∀ i ∈ upTo 8, SramWord s (barWord d (8 * j + i))) → s.mem.flaws = [] → d.fab.waiting = [] → canTag d 35 = true → 
      Completes (.bar4Write j v be) s fun t => MemOnly s t ((upTo 8).map fun i => barWord d (8 * j + i)) ∧ ∀ i ∈ upTo 8, storedWord t.mem (barWord d (8 * j + i)) = (if be.getLsbD (i / 2) then setFld (storedWord s.mem (barWord d (8 * j + i))) 35 32 (v.toNat / 16 ^ i % 16) else storedWord s.mem (barWord d (8 * j + i)))) ∧
    (∀ (x : HostTarget), linkOn d = true → mode d = mPark → 
      Does (.hostRead x) s [.host] [] fun e => e.host = { d.host with readBack := none }) ∧
    (∀ (n : BitVec 32), hostServed d = true → d.host.held = false → n ≠ 0 → 
      Does (.cmdlenWrite n) s [.host, .evc] [FOLIO_EVT.at 0x100] fun e => Raised d e 0x100 3 ∧ e.host.cmdLen = n.toNat ∧ e.host.held = true) ∧
    (∀ (n : BitVec 32), hostServed d = true → d.host.held = true → 
      Does (.cmdlenWrite n) s [] [] fun _ => True) ∧
    (∀ (n : BitVec 32), hostServed d = true → 
      Does (.rsplenWrite n) s [.host] [] fun e => e.host = { d.host with rspLen := if n = 0 then 0 else d.host.rspLen }) ∧
    (∀ (v : Fin 64), v.val ∈ d.host.msixDue → linkOn d = true → d.host.msixOn = true → v.val ∉ d.host.msixMask → 
      Does (.msixMessage v) s [.host] [] fun e => e.host.msix = d.host.msix ++ [v.val] ∧ e.host.msixDue = d.host.msixDue.erase v.val)

/-- R489 to R493, R497: Ethernet frames go out from and come into Galley buffers while the gate is open, a gate list advances, management frames, CAN FD frames with fault confinement, serial records. -/
def Obligations.FieldLinks : Prop :=
  ∀ s : State, Calm s →
    let d := s.dev
    (∀ (m : Fin 2) (c : Fin 8) (b x : Word), tabFind d.galley.recs (192 + 8 * m.val + c.val) = some ⟨[b, x], false⟩ → gb d (ETH_CTL.TXEN m) = true → ifMode d = true → 14 ≤ fld x 15 0 → fld x 15 0 ≤ 1514 → (ethOf d m).gclLen = 0 → (ethOf d m).gates.testBit c = true → (ethOf d m).busyTo ≤ d.now → canTag d (36 + m) = true → d.fab.waiting = [] → (∀ i ∈ upTo 379, SramWord s (fld b 27 0 + i)) → s.mem.flaws = [] → ((d.offers.filter fun o => decide (o.producer = 104 + m.val)) = []) → 
      Completes (.ethTransmit m c) s fun t => t.mem = s.mem ∧ t.dev.core = d.core ∧ tabFind t.dev.galley.recs (192 + 8 * m.val + c.val) = none ∧ (ethOf t.dev m).lastTx = some (fld b 27 0, (ethStamp d m).toNat) ∧
        (ethOf t.dev m).busyTo = d.now + frameTime d m (fld x 15 0) + interframe * octetTicks d m ∧
        (ethOf t.dev m).lastFrame = (if ethOutput d m = false then (ethOf d m).lastFrame else octetsIn ((upTo ((fld x 15 0 + 3) / 4)).map fun i => storedWord s.mem (fld b 27 0 + i)) (fld x 15 0)) ∧
        t.dev.offers = d.offers ++ [⟨104 + m.val, gf d (ETH_DONEQ.Q m), [BitVec.ofNat 36 (fld b 27 0), if bit x 16 then ethStamp d m else 0]⟩]) ∧
    (∀ (m : Fin 2) (c : Fin 8) (b x : Word), tabFind d.galley.recs (192 + 8 * m.val + c.val) = some ⟨[b, x], false⟩ → gb d (ETH_CTL.TXEN m) = true → ifMode d = true → 14 ≤ fld x 15 0 → fld x 15 0 ≤ 1514 → (ethOf d m).busyTo ≤ d.now → gateHolds m c (frameTime d m (fld x 15 0)) s = false → 
      Completes (.ethTransmit m c) s fun t => t.mem = s.mem ∧ t.dev.offers = d.offers ∧ t.dev.galley.recs = d.galley.recs ∧ (ethOf t.dev m).lastTx = (ethOf d m).lastTx ∧ ((ethOf d m).gates.testBit c = true → (ethOf d m).late.testBit c = false → bit (rd t.dev (FOLIO_EVT.at (0x101 + m))) 1 = true)) ∧
    (∀ (m : Fin 2) (f : List (BitVec 8)) (x : Bool) (q : Nat) (y : QDesc) (w : Word), gb d (ETH_CTL.RXEN m) = true → ifMode d = true → ethInput d m = true → canTag d (36 + m) = true → q = gf d (ETH_FREEQ.Q m) → Serving s q y → y.fill ≠ 0 → d.galley.posted = [] → d.galley.parked = [] → w = storedWord s.mem (y.slot y.head) → (∀ i ∈ upTo 5, SramWord s (fld w 27 0 + i)) → (∀ i ∈ upTo 5, ∀ k ∈ upTo 4, fld w 27 0 + i ≠ descAddr q k) → f.length = 20 → (f.getD 0 0).getLsbD 0 = true → f.getD 12 0 ≠ 0x88#8 ∨ f.getD 13 0 ≠ 0xF7#8 → ((d.offers.filter fun o => decide (o.producer = 104 + m.val)) = []) → 
      Completes (.ethReceive m f x) s fun t => t.dev.offers = d.offers ++ [⟨104 + m.val, gf d (ETH_RXQ.Q m), [BitVec.ofNat 36 (fld w 27 0), BitVec.ofNat 36 (20 + (if x then 2 ^ 16 else 0)), if gb d (ETH_CTL.TSALL m) then ethStamp d m else 0]⟩] ∧
        (∀ i ∈ upTo 5, storedWord t.mem (fld w 27 0 + i) = (packOctets f).getD i 0) ∧ (descOf t q).fill = y.fill - 1) ∧
    (∀ (m : Fin 2) (f : List (BitVec 8)) (x : Bool) (q : Nat) (y : QDesc), gb d (ETH_CTL.RXEN m) = true → ifMode d = true → ethInput d m = true → canTag d (36 + m) = true → q = gf d (ETH_FREEQ.Q m) → Serving s q y → y.fill = 0 → d.galley.posted = [] → d.galley.parked = [] → ethAccepts d m f = true → 
      Completes (.ethReceive m f x) s fun t => t.mem = s.mem ∧ t.dev.offers = d.offers ∧ bit (rd t.dev (FOLIO_EVT.at (0x101 + m))) 0 = true) ∧
    (∀ (m : Fin 2) (v w : Word) (el : Int), gclDue m s = true → (ethOf d m).gclLen = 2 → (ethOf d m).gclAnchor < 2 ^ 36 → SramWord s (ethOf d m).gclBase → SramWord s ((ethOf d m).gclBase + 1) → s.mem.flaws = [] → v = storedWord s.mem (ethOf d m).gclBase → w = storedWord s.mem ((ethOf d m).gclBase + 1) → stampAfter (shortTs d).toNat (ethOf d m).gclAnchor = el → (fld v 27 0 : Int) ≤ el → el < fld v 27 0 + fld w 27 0 → 
      Does (.gclEntry m) s [.eth] [] fun e => ethOf e m = { ethOf d m with gates := fld w 35 28, gclIdx := 1, gclFrom := ((ethOf d m).gclAnchor + fld v 27 0) % 2 ^ 36, gclEnd := ((ethOf d m).gclAnchor + fld v 27 0 + fld w 27 0) % 2 ^ 36 }) ∧
    (∀ (ini : Initiator) (m : Fin 2) (v : Word), Open ini (0x101 + m) s → gb d (ETH_MDIO.BUSY m) = false → 
      Does (.mdioGo ini m v) s [.eth] [ETH_MDIO.at m] fun e => gb e (ETH_MDIO.BUSY m) = true ∧ ethOf e m = { ethOf d m with mdio := some (bit v 34, fld v 30 26, fld v 25 21, fld v 15 0) }) ∧
    (∀ (m : Fin 2) (v : BitVec 16) (x : Bool × Nat × Nat × Nat), (ethOf d m).mdio = some x → 
      Does (.mdioDone m v) s [.eth] [ETH_MDIO.at m] fun e => gb e (ETH_MDIO.BUSY m) = false ∧ (ethOf e m).mdio = none ∧ gf e (ETH_MDIO.DATA m) = (if x.1 then gf d (ETH_MDIO.DATA m) else if pinFunc d (24 + 2 * m) = 1 ∧ pinFunc d (25 + 2 * m) = 1 then v.toNat else 0xFFFF)) ∧
    (∀ (m : Fin 2) (y a : Bool) (v : Fin 4), 
      Does (.ethLinkState m y a v) s [] [ETH_STAT.at m] fun e => gb e (ETH_STAT.SGSYNC m) = y ∧ gb e (ETH_STAT.AN_DONE m) = a ∧ gf e (ETH_STAT.SPEED m) = (if gb d (ETH_CTL.SGAN m) then (if a then v.val else gf d (ETH_STAT.SPEED m)) else gf d (ETH_CTL.SPEED m))) ∧
    (∀ (n : Fin 8) (x : IfRec), tabFind d.galley.recs (208 + n.val) = some x → x.bad = false → recComplete (208 + n.val) x.words = true → canLive d n = true → gb d (CANF_CTL.LOM n) = false → bit (x.words.getD 0 0) 35 = false → pinFunc d (28 + 2 * n.val) = 1 → pinFunc d (29 + 2 * n.val) = 1 → 
      Does (.canTransmit n true) s [.galley, .can, .evc] [CANF_STAT.at n, FOLIO_EVT.at (0x108 + n)] fun e => tabFind e.galley.recs (208 + n) = none ∧ (canOf e n).lastTx = [x.words.getD 0 0 &&& (maskOf 35 32 ||| maskOf 28 0), x.words.getD 1 0 &&& maskOf 4 0] ∧
        (canOf e n).lastData = octetsIn (x.words.drop 3) (if bit (x.words.getD 0 0) 32 then 0 else canLength false (fld (x.words.getD 1 0) 3 0)) ∧ gf e (CANF_STAT.TEC n) = gf d (CANF_STAT.TEC n) - 1 ∧ gf e (CANF_STAT.REC n) = gf d (CANF_STAT.REC n)) ∧
    (∀ (n : Fin 8) (ok : Bool) (x : IfRec), tabFind d.galley.recs (208 + n.val) = some x → x.bad = false → recComplete (208 + n.val) x.words = true → canLive d n = true → gb d (CANF_CTL.LOM n) = false → bit (x.words.getD 0 0) 35 = false → (ok && pinFunc d (28 + 2 * n.val) == 1 && pinFunc d (29 + 2 * n.val) == 1) = false → 
      Does (.canTransmit n ok) s [.can, .evc] [CANF_STAT.at n, FOLIO_EVT.at (0x108 + n)] fun e => gf e (CANF_STAT.TEC n) = min 255 (gf d (CANF_STAT.TEC n) + 8) ∧ (255 < gf d (CANF_STAT.TEC n) + 8 → gf e (CANF_STAT.STATE n) = 2 ∧ Raised d e (0x108 + n) 2) ∧ (gf d (CANF_STAT.TEC n) + 8 ≤ 255 → 127 < gf d (CANF_STAT.TEC n) + 8 → gf e (CANF_STAT.STATE n) = 1)) ∧
    (∀ (n : Fin 8) (w0 w1 : Word) (f : List (BitVec 8)), canLive d n = true → pinFunc d (29 + 2 * n.val) = 1 → w0 &&& maskOf 35 29 = 0 → w1 &&& maskOf 35 4 = 0 → 1 ≤ fld w1 3 0 → fld w1 3 0 ≤ 4 → f.length = fld w1 3 0 → gb d (CANF_CTL.LOM n) = false → gf d (CANF_STAT.REC n) ≤ 127 → (∀ k ∈ upTo 8, gb d (CANF_ID.EN n k) = false) → ((d.offers.filter fun o => decide (o.producer = 106 + n.val)) = []) → 
      Completes (.canReceive n true w0 w1 f) s fun t => t.mem = s.mem ∧ t.dev.offers = d.offers ++ [⟨106 + n.val, gf d (CANF_RXQ.Q n), [w0, w1, shortTs d, (packOctets f).getD 0 0]⟩] ∧ gf t.dev (CANF_STAT.REC n) = gf d (CANF_STAT.REC n) - 1) ∧
    (∀ (n : Fin 8) (w0 w1 : Word) (x : List (BitVec 8)), canLive d n = true → pinFunc d (29 + 2 * n.val) = 1 → gb d (CANF_CTL.LOM n) = false → bit w0 35 = false → 
      Does (.canReceive n false w0 w1 x) s [.evc] [CANF_STAT.at n, FOLIO_EVT.at (0x108 + n)] fun e => gf e (CANF_STAT.REC n) = min 255 (gf d (CANF_STAT.REC n) + 1) ∧ gf e (CANF_STAT.TEC n) = gf d (CANF_STAT.TEC n)) ∧
    (∀ (ini : Initiator) (n : Fin 8), Open ini (0x108 + n) s → gf d (CANF_STAT.STATE n) = 2 → 
      Does (.canRecov ini n) s [.can] [CANF_CTL.at n] fun e => (canOf e n).recovering = true) ∧
    (∀ (n : Fin 8), (canOf d n).recovering = true → 
      Does (.busOffRecoveryDone n) s [.can] [CANF_STAT.at n] fun e => gf e (CANF_STAT.STATE n) = 0 ∧ gf e (CANF_STAT.TEC n) = 0 ∧ gf e (CANF_STAT.REC n) = 0 ∧ (canOf e n).recovering = false) ∧
    (∀ (k : Fin 18) (x : Bool) (w0 w1 : Word), tabFind d.galley.recs (216 + k.val) = some ⟨[w0, w1], false⟩ → serOn d k = true → ifMode d = true → 1 ≤ fld w1 2 0 → fld w1 2 0 ≤ 4 → 
      Does (.serialTransmit k x) s [.galley, .ser, .evc] [FOLIO_EVT.at (0x110 + k)] fun e => tabFind e.galley.recs (216 + k) = none ∧ (serOf e k).lastTx = (if serOutput d k then w0 &&& maskOf (8 * fld w1 2 0 - 1) 0 else (serOf d k).lastTx) ∧
        (serOf e k).line = (if serOutput d k then serLine d k w0 w1 (decide (16 ≤ k.val) && x) else (serOf d k).line) ∧ (16 ≤ k.val → x = true ∨ serOutput d k = false → Raised d e (0x110 + k) 2)) ∧
    (∀ (k : Fin 18) (a b : BitVec 8) (f : BitVec 5), serOn d k = true → ifMode d = true → serInput d k = true → k.val < 16 ∨ gb d (I2C_CTL.TARGET (k - 16)) = false → ((d.offers.filter fun o => decide (o.producer = 114 + k.val)) = []) → 
      Completes (.serialReceive k [a, b] f) s fun t => t.mem = s.mem ∧ t.dev.offers = d.offers ++ [⟨114 + k.val, serRxq d k, [(packOctets (serData d k [a, b])).getD 0 0, BitVec.ofNat 36 (2 + 8 * (serFlags d k f).toNat)]⟩])

/-- R481, R494, R495: GPIO bits set and clear, an edge sets IN and the selected event, AVS_STAT’s count clears, the six boundary-scan instructions; IDCODE gives Colophon word 0. -/
def Obligations.PinsAndBoundary : Prop :=
  ∀ s : State, Calm s →
    let d := s.dev
    (∀ (ini : Initiator) (b : Fin 4) (v : BitVec 32), Open ini (0x130 + b) s → 
      Does (.gpioSet ini b v) s [] [GPIO_OUT.at b, GPIO_SET.at b] fun e => rd e (GPIO_OUT.at b) = rd d (GPIO_OUT.at b) ||| (v.setWidth 36 &&& ~~~(gpioCleared d b))) ∧
    (∀ (ini : Initiator) (b : Fin 4) (v : BitVec 32), Open ini (0x130 + b) s → 
      Does (.gpioClr ini b v) s [.host] [GPIO_OUT.at b, GPIO_CLR.at b] fun e => rd e (GPIO_OUT.at b) = rd d (GPIO_OUT.at b) &&& ~~~(v.setWidth 36) ∧ gpioCleared e b = gpioCleared d b ||| v.setWidth 36) ∧
    (∀ (p : Fin 128) (l : Bool), 
      Does (.gpioEdge p l) s [.evc, .rstc] [GPIO_IN.at (p / 32), FOLIO_EVT.at (0x130 + p / 32)] fun e => gbit e (GPIO_IN.IN (p / 32)) (p % 32) = padLevel d p l ∧ (∀ i ∈ upTo 32, i ≠ p.val % 32 → gbit e (GPIO_IN.IN (p / 32)) i = gbit d (GPIO_IN.IN (p / 32)) i) ∧
        (gbit d (GPIO_IN.IN (p / 32)) (p % 32) = (!padLevel d p l) → fld (rd d (GPIO_EDGE.at (p / 32) (p % 32 / 16))) (2 * (p % 16) + 1) (2 * (p % 16)) = 3 → Raised d e (0x130 + p / 32) (p % 32))) ∧
    (∀ (ini : Initiator) (v : Word), Open ini 0x122 s → 
      Does (.avsStatWrite ini v) s [] [AVS_STAT.at] fun e => gf e AVS_STAT.FAILS = 0 ∧ fld (rd e AVS_STAT.at) 15 0 = fld (rd d AVS_STAT.at) 15 0) ∧
    (Does .bypass s [.jtag] [] fun e => e.jtag.instr = .bypass ∧ e.jtag.driving = false ∧ e.jtag.floated = false) ∧
    (Does .idcode s [.jtag] [] fun e => e.jtag.instr = .idcode ∧ e.jtag.dr = (tabGet 0 d.latch 0).setWidth 32 ∧ e.jtag.driving = false ∧ e.jtag.floated = false) ∧
    (∀ (x b : List Nat), 
      Does (.samplePreload x b) s [.jtag] [] fun e => e.jtag.instr = .samplePreload ∧ e.jtag.driving = false ∧ (∀ p ∈ boundaryPins, tabGet false e.jtag.seen p = (pinLevel d p).getD (decide (p ∈ b)) ∧ tabGet false e.jtag.cells p = decide (p ∈ x))) ∧
    (∀ (x b : List Nat), 
      Does (.extest x b) s [.jtag] [] fun e => e.jtag.instr = .extest ∧ (∀ p ∈ boundaryPins, (pinLevel e p = some (decide (p ∈ x))) ∨ (inputPin p = true ∧ pinLevel e p = pinFunctional d p) ∨ (p < 130 ∧ gb d SEC_STAT.DBGUNL = false ∧ pinLevel e p = pinFunctional d p))) ∧
    (Does .clamp s [.jtag] [] fun e => e.jtag.instr = .clamp ∧ e.jtag.driving = true ∧ e.jtag.cells = d.jtag.cells) ∧
    (Does .highz s [.jtag] [] fun e => e.jtag.instr = .highz ∧ (∀ p ∈ boundaryPins, (pinLevel e p = none) ∨ (inputPin p = true ∧ pinLevel e p = pinFunctional d p) ∨ (p < 130 ∧ gb d SEC_STAT.DBGUNL = false ∧ pinLevel e p = pinFunctional d p)))

/-- R39: A write to PACE_TARGET outside 32–80 u, or to PACE_VMIN or PACE_VMAX that is not a multiple of 5 mV within 700 ≤ VMIN ≤ VMAX ≤ 950 mV, is discarded and raises PACE_BOUND_ERR. -/
def Obligations.PaceBounds : Prop :=
  ∀ s : State, Calm s →
    let d := s.dev
    (∀ (ini : Initiator) (v : Word), Open ini 4 s → fld v 6 0 < 32 ∨ 80 < fld v 6 0 → 
      Does (.paceTargetWrite ini v) s [.evc] [FOLIO_EVT.at 4] fun e => Raised d e 4 4) ∧
    (∀ (ini : Initiator) (v : Word), Open ini 4 s → fld v 9 0 % 5 ≠ 0 ∨ fld v 9 0 < 700 ∨ gf d PACE_VMAX.VMAX < fld v 9 0 ∨ 950 < fld v 9 0 → 
      Does (.paceVboundWrite ini false v) s [.evc] [FOLIO_EVT.at 4] fun e => Raised d e 4 4) ∧
    (∀ (ini : Initiator) (v : Word), Open ini 4 s → fld v 9 0 % 5 ≠ 0 ∨ fld v 9 0 < gf d PACE_VMIN.VMIN ∨ fld v 9 0 < 700 ∨ 950 < fld v 9 0 → 
      Does (.paceVboundWrite ini true v) s [.evc] [FOLIO_EVT.at 4] fun e => Raised d e 4 4)

/-- R470: A matching quoin pair that writes RSTC_SWRST.WARM = 1 causes a warm reset. The cause is HOSTREQ when the initiator is PCIe or the security engine acting on an authenticated host command (R453). For every other initiator the cause is SWREQ. -/
def Obligations.SoftwareWarmReset : Prop :=
  ∀ s : State, Calm s →
    let d := s.dev
    (∀ (ini : Initiator), Open ini 1 s → 
      Completes (.swrst ini) s fun t => Completes .warmReset t fun u => u.dev.rstc.phase = .asserted ∧ u.dev.rstc.cold = false ∧ gb u.dev (if ini = .pcie ∨ ini = .sec then RSTC_CAUSE.HOSTREQ else RSTC_CAUSE.SWREQ) = true) ∧
    (∀ (ini : Initiator), Open ini 1 s → 
      Completes (.swrst ini) s fun t => t.dev.rstc.req = [if ini = .pcie ∨ ini = .sec then .hostreq else .swreq] ∧ t.mem = s.mem ∧ t.dev.core = d.core)

/-- R469: A core watchdog escalation, which is a second expiry under R315 or sub-cause NEST under R305, causes a warm reset of the device with cause CWDOG. RSTC_DETAIL records the core, together with sub-cause 0x01 for a second expiry or 0x02 for NEST. -/
def Obligations.CoreEscalations : Prop :=
  ∀ s : State, Calm s →
    let d := s.dev
    (∀ (c : Fin 8), gb d (TSC_WDOG.EN c) = true → (coreOfDev d c).wdFrom + 1024 * gf d (TSC_WDOG.TIME c) ≤ d.now → (coreOfDev d c).wdOnce = true → 
      Completes (.wdExpire c) s fun t => t.mem = s.mem ∧ Completes .warmReset t fun u => u.dev.rstc.phase = .asserted ∧ u.dev.rstc.cold = false ∧ gb u.dev RSTC_CAUSE.CWDOG = true ∧ gf u.dev RSTC_DETAIL.CORE = c.val ∧ gf u.dev RSTC_DETAIL.SUB = 1) ∧
    (∀ (c : Fin 8), coreRuns d c = true → (coreOfDev d c).excs ≠ [] → (coreOfDev d c).depth = 4 → 
      Completes (.exceptionEntry c) s fun t => (coreOfDev t.dev c).stopped = true ∧ (coreOfDev t.dev c).ctx = (coreOfDev d c).ctx ∧ t.mem = s.mem ∧ Completes .warmReset t fun u => u.dev.rstc.phase = .asserted ∧ u.dev.rstc.cold = false ∧ gb u.dev RSTC_CAUSE.CWDOG = true ∧ gf u.dev RSTC_DETAIL.CORE = c.val ∧ gf u.dev RSTC_DETAIL.SUB = 2)

end
end

