-- ==== Sys2Proof/Laws/Tab.lean ====
section
/-!
SUPPORT. Laws of the sparse tables: reading what was written, leaving other keys alone, and the canonical form, which
every operation on a table keeps.
-/
namespace Sys2Proof.Machine

variable {α : Type}

/-! ### Keys above a bound -/

theorem tabGet_below (d : α) {t : Tab α} {lo k : Nat} (h : tabSorted lo t = true) (hk : k < lo) : tabGet d t k = d := by
  induction t generalizing lo with
  | nil => rfl
  | cons e t ih =>
    obtain ⟨k', v⟩ := e
    simp only [tabSorted, Bool.and_eq_true, decide_eq_true_eq] at h
    have : k' ≠ k := by omega
    simp [tabGet, this, ih h.2 (by omega)]

theorem tabSorted_mono {t : Tab α} {lo lo' : Nat} (h : tabSorted lo t = true) (hl : lo' ≤ lo) : tabSorted lo' t = true := by
  cases t with
  | nil => rfl
  | cons e t =>
    obtain ⟨k', v⟩ := e
    simp only [tabSorted, Bool.and_eq_true, decide_eq_true_eq] at h ⊢
    exact ⟨by omega, h.2⟩

/-! ### Reading after writing -/

@[simp] theorem tabGet_tabErase_same (d : α) (t : Tab α) (k : Nat) : tabGet d (tabErase t k) k = d := by
  induction t with
  | nil => rfl
  | cons e t ih => obtain ⟨k', v⟩ := e; by_cases h : k' = k <;> simp [tabErase, tabGet, h, ih]

@[simp] theorem tabGet_tabErase_ne (d : α) (t : Tab α) {k k' : Nat} (h : k' ≠ k) : tabGet d (tabErase t k) k' = tabGet d t k' := by
  induction t with
  | nil => rfl
  | cons e t ih =>
    obtain ⟨a, v⟩ := e
    by_cases ha : a = k
    · subst ha; simp [tabErase, tabGet, ih, Ne.symm h]
    · rw [tabErase, if_neg ha, tabGet, tabGet, ih]

theorem tabGet_tabInsert_ne (d : α) (t : Tab α) {k k' : Nat} (v : α) (h : k' ≠ k) : tabGet d (tabInsert t k v) k' = tabGet d t k' := by
  induction t with
  | nil => simp [tabInsert, tabGet, Ne.symm h]
  | cons e t ih =>
    obtain ⟨a, w⟩ := e
    by_cases hl : k < a
    · simp [tabInsert, hl, tabGet, Ne.symm h]
    · rw [tabInsert, if_neg hl, tabGet, tabGet, ih]

/-- `k` is no key of the table. -/
def tabFree (t : Tab α) (k : Nat) : Prop := ∀ e ∈ t, e.1 ≠ k

theorem tabFree_tabErase (t : Tab α) (k : Nat) : tabFree (tabErase t k) k := by
  induction t with
  | nil => intro e h; cases h
  | cons e t ih =>
    obtain ⟨a, v⟩ := e
    by_cases h : a = k
    · simpa [tabErase, h] using ih
    · intro x hx
      simp only [tabErase, h, if_false, List.mem_cons] at hx
      rcases hx with rfl | hx
      · exact h
      · exact ih x hx

theorem tabGet_tabInsert_same (d : α) {t : Tab α} {k : Nat} (v : α) (hf : tabFree t k) : tabGet d (tabInsert t k v) k = v := by
  induction t with
  | nil => simp [tabInsert, tabGet]
  | cons e t ih =>
    obtain ⟨a, w⟩ := e
    have ha : a ≠ k := hf (a, w) (by simp)
    have ht : tabFree t k := fun x hx => hf x (by simp [hx])
    by_cases hl : k < a
    · simp [tabInsert, hl, tabGet]
    · simp [tabInsert, hl, tabGet, ha, ih ht]

@[simp] theorem tabGet_tabSet_same [DecidableEq α] (d : α) (t : Tab α) (k : Nat) (v : α) : tabGet d (tabSet d t k v) k = v := by
  by_cases h : v = d
  · simp [tabSet, h]
  · simp [tabSet, h, tabGet_tabInsert_same d v (tabFree_tabErase t k)]

@[simp] theorem tabGet_tabSet_ne [DecidableEq α] (d e : α) (t : Tab α) {k k' : Nat} (v : α) (h : k' ≠ k) :
    tabGet d (tabSet e t k v) k' = tabGet d t k' := by
  by_cases hv : v = e
  · simp [tabSet, hv, h]
  · simp [tabSet, hv, tabGet_tabInsert_ne _ _ v h, h]

/-! ### Tables that list what is present -/

@[simp] theorem tabFind_tabErase_same (t : Tab α) (k : Nat) : tabFind (tabErase t k) k = none := by
  induction t with
  | nil => rfl
  | cons e t ih => obtain ⟨a, v⟩ := e; by_cases h : a = k <;> simp [tabErase, tabFind, h, ih]

@[simp] theorem tabFind_tabErase_ne (t : Tab α) {k k' : Nat} (h : k' ≠ k) : tabFind (tabErase t k) k' = tabFind t k' := by
  induction t with
  | nil => rfl
  | cons e t ih =>
    obtain ⟨a, v⟩ := e
    by_cases ha : a = k
    · subst ha; simp [tabErase, tabFind, ih, Ne.symm h]
    · rw [tabErase, if_neg ha, tabFind, tabFind, ih]

theorem tabFind_tabInsert_ne (t : Tab α) {k k' : Nat} (v : α) (h : k' ≠ k) : tabFind (tabInsert t k v) k' = tabFind t k' := by
  induction t with
  | nil => simp [tabInsert, tabFind, Ne.symm h]
  | cons e t ih =>
    obtain ⟨a, w⟩ := e
    by_cases hl : k < a
    · simp [tabInsert, hl, tabFind, Ne.symm h]
    · rw [tabInsert, if_neg hl, tabFind, tabFind, ih]

theorem tabFind_tabInsert_same {t : Tab α} {k : Nat} (v : α) (hf : tabFree t k) : tabFind (tabInsert t k v) k = some v := by
  induction t with
  | nil => simp [tabInsert, tabFind]
  | cons e t ih =>
    obtain ⟨a, w⟩ := e
    have ha : a ≠ k := hf (a, w) (by simp)
    have ht : tabFree t k := fun x hx => hf x (by simp [hx])
    by_cases hl : k < a
    · simp [tabInsert, hl, tabFind]
    · simp [tabInsert, hl, tabFind, ha, ih ht]

@[simp] theorem tabFind_tabPut_same (t : Tab α) (k : Nat) (v : α) : tabFind (tabPut t k v) k = some v := by
  simp [tabPut, tabFind_tabInsert_same v (tabFree_tabErase t k)]

@[simp] theorem tabFind_tabPut_ne (t : Tab α) {k k' : Nat} (v : α) (h : k' ≠ k) : tabFind (tabPut t k v) k' = tabFind t k' := by
  simp [tabPut, tabFind_tabInsert_ne _ v h, h]

/-! ### The canonical form -/

theorem tabSorted_erase {t : Tab α} {lo : Nat} (k : Nat) (h : tabSorted lo t = true) : tabSorted lo (tabErase t k) = true := by
  induction t generalizing lo with
  | nil => rfl
  | cons e t ih =>
    obtain ⟨a, v⟩ := e
    simp only [tabSorted, Bool.and_eq_true, decide_eq_true_eq] at h
    by_cases ha : a = k
    · simp only [tabErase, ha, if_true]; exact tabSorted_mono (ih h.2) (by omega)
    · simp only [tabErase, ha, if_false, tabSorted, Bool.and_eq_true, decide_eq_true_eq]; exact ⟨h.1, ih h.2⟩

theorem tabSorted_insert {t : Tab α} {lo k : Nat} (v : α) (h : tabSorted lo t = true) (hk : lo ≤ k) (hf : tabFree t k) :
    tabSorted lo (tabInsert t k v) = true := by
  induction t generalizing lo with
  | nil => simp [tabInsert, tabSorted, hk]
  | cons e t ih =>
    obtain ⟨a, w⟩ := e
    simp only [tabSorted, Bool.and_eq_true, decide_eq_true_eq] at h
    have ha : a ≠ k := hf (a, w) (by simp)
    have ht : tabFree t k := fun x hx => hf x (by simp [hx])
    by_cases hl : k < a
    · simp only [tabInsert, hl, if_true, tabSorted, Bool.and_eq_true, decide_eq_true_eq]; exact ⟨hk, by omega, h.2⟩
    · simp only [tabInsert, hl, if_false, tabSorted, Bool.and_eq_true, decide_eq_true_eq]; exact ⟨h.1, ih h.2 (by omega) ht⟩

theorem tabSorted_filter {t : Tab α} {lo : Nat} (p : Nat × α → Bool) (h : tabSorted lo t = true) : tabSorted lo (t.filter p) = true := by
  induction t generalizing lo with
  | nil => rfl
  | cons e t ih =>
    obtain ⟨a, v⟩ := e
    simp only [tabSorted, Bool.and_eq_true, decide_eq_true_eq] at h
    by_cases hp : p (a, v) = true
    · simp only [List.filter_cons, hp, if_true, tabSorted, Bool.and_eq_true, decide_eq_true_eq]; exact ⟨h.1, ih h.2⟩
    · simp only [List.filter_cons, hp]; exact tabSorted_mono (ih h.2) (by omega)

theorem mem_tabErase {t : Tab α} {k : Nat} {e : Nat × α} (h : e ∈ tabErase t k) : e ∈ t := by
  induction t with
  | nil => cases h
  | cons x t ih =>
    obtain ⟨a, v⟩ := x
    by_cases ha : a = k
    · simp only [tabErase, ha, if_true] at h; exact List.mem_cons_of_mem _ (ih h)
    · simp only [tabErase, ha, if_false, List.mem_cons] at h
      rcases h with rfl | h
      · simp
      · exact List.mem_cons_of_mem _ (ih h)

theorem mem_tabInsert {t : Tab α} {k : Nat} {v : α} {e : Nat × α} (h : e ∈ tabInsert t k v) : e = (k, v) ∨ e ∈ t := by
  induction t with
  | nil => simp [tabInsert] at h; exact Or.inl h
  | cons x t ih =>
    obtain ⟨a, w⟩ := x
    by_cases hl : k < a
    · simp only [tabInsert, hl, if_true, List.mem_cons] at h
      rcases h with rfl | h
      · exact Or.inl rfl
      · exact Or.inr (by simpa using h)
    · simp only [tabInsert, hl, if_false, List.mem_cons] at h
      rcases h with rfl | h
      · exact Or.inr (by simp)
      · rcases ih h with h | h
        · exact Or.inl h
        · exact Or.inr (List.mem_cons_of_mem _ h)

variable [DecidableEq α]

theorem tabWf_iff (d : Nat → α) (t : Tab α) : tabWf d t = true ↔ tabSorted 0 t = true ∧ ∀ e ∈ t, e.2 ≠ d e.1 := by
  simp [tabWf]

theorem tabWf_nil (d : Nat → α) : tabWf d ([] : Tab α) = true := rfl

theorem tabWf_erase {d : Nat → α} {t : Tab α} (k : Nat) (h : tabWf d t = true) : tabWf d (tabErase t k) = true := by
  rw [tabWf_iff] at h ⊢
  exact ⟨tabSorted_erase k h.1, fun e he => h.2 e (mem_tabErase he)⟩

theorem tabWf_filter {d : Nat → α} {t : Tab α} (p : Nat × α → Bool) (h : tabWf d t = true) : tabWf d (t.filter p) = true := by
  rw [tabWf_iff] at h ⊢
  exact ⟨tabSorted_filter p h.1, fun e he => h.2 e (List.mem_filter.mp he).1⟩

/-- A write keeps the canonical form. -/
theorem tabWf_set {d : Nat → α} {t : Tab α} (k : Nat) (v : α) (h : tabWf d t = true) : tabWf d (tabSet (d k) t k v) = true := by
  by_cases hv : v = d k
  · simpa [tabSet, hv] using tabWf_erase k h
  · have he := tabWf_erase (d := d) k h
    rw [tabWf_iff] at he ⊢
    simp only [tabSet, hv, if_false]
    refine ⟨tabSorted_insert v he.1 (Nat.zero_le _) (tabFree_tabErase t k), fun e hm => ?_⟩
    rcases mem_tabInsert hm with rfl | hm
    · exact hv
    · exact he.2 e hm

end Sys2Proof.Machine
end

