-- ==== Sys2Proof/Laws/State.lean ====
section
/-!
SUPPORT. One law for each field of the state and each named update: what the update leaves in the field. No later proof
unfolds a record update.
-/
namespace Sys2Proof.Machine

variable (s : State) (d : Dev)

@[simp] theorem setDev_dev : (setDev s d).dev = d := rfl
@[simp] theorem setDev_mem : (setDev s d).mem = s.mem := rfl
@[simp] theorem setDev_pending : (setDev s d).pending = s.pending := rfl
@[simp] theorem setMem_dev (m : MemSt) : (setMem s m).dev = s.dev := rfl
@[simp] theorem setMem_mem (m : MemSt) : (setMem s m).mem = m := rfl
@[simp] theorem setMem_pending (m : MemSt) : (setMem s m).pending = s.pending := rfl
@[simp] theorem onD_dev (f : Dev → Dev) : (onD s f).dev = f s.dev := rfl
@[simp] theorem onD_mem (f : Dev → Dev) : (onD s f).mem = s.mem := rfl
@[simp] theorem onD_pending (f : Dev → Dev) : (onD s f).pending = s.pending := rfl
@[simp] theorem onCore_mem (c : Nat) (f : CoreSt → CoreSt) : (onCore c f s).mem = s.mem := rfl
@[simp] theorem onCore_dev (c : Nat) (f : CoreSt → CoreSt) : (onCore c f s).dev = withCore s.dev c f := rfl
@[simp] theorem setDev_setDev (d' : Dev) : setDev (setDev s d) d' = setDev s d' := rfl
@[simp] theorem setDev_self : setDev s s.dev = s := rfl
@[simp] theorem takeFree_regs : (takeFree d).1.regs = d.regs := rfl

@[simp] theorem withMerid_merid (f : MeridSt → MeridSt) : (withMerid d f).merid = f d.merid := rfl
@[simp] theorem withMerid_now (f : MeridSt → MeridSt) : (withMerid d f).now = d.now := rfl
@[simp] theorem withMerid_regs (f : MeridSt → MeridSt) : (withMerid d f).regs = d.regs := rfl
@[simp] theorem withMerid_folio (f : MeridSt → MeridSt) : (withMerid d f).folio = d.folio := rfl
@[simp] theorem withMerid_core (f : MeridSt → MeridSt) : (withMerid d f).core = d.core := rfl
@[simp] theorem withMerid_evc (f : MeridSt → MeridSt) : (withMerid d f).evc = d.evc := rfl
@[simp] theorem withMerid_rstc (f : MeridSt → MeridSt) : (withMerid d f).rstc = d.rstc := rfl
@[simp] theorem withMerid_galley (f : MeridSt → MeridSt) : (withMerid d f).galley = d.galley := rfl
@[simp] theorem rd_withMerid (f : MeridSt → MeridSt) (key : Nat) : rd (withMerid d f) key = rd d key := rfl
@[simp] theorem withPace_pace (f : PaceSt → PaceSt) : (withPace d f).pace = f d.pace := rfl
@[simp] theorem withPace_now (f : PaceSt → PaceSt) : (withPace d f).now = d.now := rfl
@[simp] theorem withPace_regs (f : PaceSt → PaceSt) : (withPace d f).regs = d.regs := rfl
@[simp] theorem withPace_folio (f : PaceSt → PaceSt) : (withPace d f).folio = d.folio := rfl
@[simp] theorem withPace_core (f : PaceSt → PaceSt) : (withPace d f).core = d.core := rfl
@[simp] theorem withPace_evc (f : PaceSt → PaceSt) : (withPace d f).evc = d.evc := rfl
@[simp] theorem withPace_rstc (f : PaceSt → PaceSt) : (withPace d f).rstc = d.rstc := rfl
@[simp] theorem withPace_galley (f : PaceSt → PaceSt) : (withPace d f).galley = d.galley := rfl
@[simp] theorem rd_withPace (f : PaceSt → PaceSt) (key : Nat) : rd (withPace d f) key = rd d key := rfl
@[simp] theorem withCba_cba (f : CbaSt → CbaSt) : (withCba d f).cba = f d.cba := rfl
@[simp] theorem withCba_now (f : CbaSt → CbaSt) : (withCba d f).now = d.now := rfl
@[simp] theorem withCba_regs (f : CbaSt → CbaSt) : (withCba d f).regs = d.regs := rfl
@[simp] theorem withCba_folio (f : CbaSt → CbaSt) : (withCba d f).folio = d.folio := rfl
@[simp] theorem withCba_core (f : CbaSt → CbaSt) : (withCba d f).core = d.core := rfl
@[simp] theorem withCba_evc (f : CbaSt → CbaSt) : (withCba d f).evc = d.evc := rfl
@[simp] theorem withCba_rstc (f : CbaSt → CbaSt) : (withCba d f).rstc = d.rstc := rfl
@[simp] theorem withCba_galley (f : CbaSt → CbaSt) : (withCba d f).galley = d.galley := rfl
@[simp] theorem rd_withCba (f : CbaSt → CbaSt) (key : Nat) : rd (withCba d f) key = rd d key := rfl
@[simp] theorem withRstc_rstc (f : RstcSt → RstcSt) : (withRstc d f).rstc = f d.rstc := rfl
@[simp] theorem withRstc_now (f : RstcSt → RstcSt) : (withRstc d f).now = d.now := rfl
@[simp] theorem withRstc_regs (f : RstcSt → RstcSt) : (withRstc d f).regs = d.regs := rfl
@[simp] theorem withRstc_folio (f : RstcSt → RstcSt) : (withRstc d f).folio = d.folio := rfl
@[simp] theorem withRstc_core (f : RstcSt → RstcSt) : (withRstc d f).core = d.core := rfl
@[simp] theorem withRstc_evc (f : RstcSt → RstcSt) : (withRstc d f).evc = d.evc := rfl
@[simp] theorem withRstc_galley (f : RstcSt → RstcSt) : (withRstc d f).galley = d.galley := rfl
@[simp] theorem rd_withRstc (f : RstcSt → RstcSt) (key : Nat) : rd (withRstc d f) key = rd d key := rfl
@[simp] theorem withEvc_evc (f : EvcSt → EvcSt) : (withEvc d f).evc = f d.evc := rfl
@[simp] theorem withEvc_now (f : EvcSt → EvcSt) : (withEvc d f).now = d.now := rfl
@[simp] theorem withEvc_regs (f : EvcSt → EvcSt) : (withEvc d f).regs = d.regs := rfl
@[simp] theorem withEvc_folio (f : EvcSt → EvcSt) : (withEvc d f).folio = d.folio := rfl
@[simp] theorem withEvc_core (f : EvcSt → EvcSt) : (withEvc d f).core = d.core := rfl
@[simp] theorem withEvc_rstc (f : EvcSt → EvcSt) : (withEvc d f).rstc = d.rstc := rfl
@[simp] theorem withEvc_galley (f : EvcSt → EvcSt) : (withEvc d f).galley = d.galley := rfl
@[simp] theorem rd_withEvc (f : EvcSt → EvcSt) (key : Nat) : rd (withEvc d f) key = rd d key := rfl
@[simp] theorem withHost_host (f : HostSt → HostSt) : (withHost d f).host = f d.host := rfl
@[simp] theorem withHost_now (f : HostSt → HostSt) : (withHost d f).now = d.now := rfl
@[simp] theorem withHost_regs (f : HostSt → HostSt) : (withHost d f).regs = d.regs := rfl
@[simp] theorem withHost_folio (f : HostSt → HostSt) : (withHost d f).folio = d.folio := rfl
@[simp] theorem withHost_core (f : HostSt → HostSt) : (withHost d f).core = d.core := rfl
@[simp] theorem withHost_evc (f : HostSt → HostSt) : (withHost d f).evc = d.evc := rfl
@[simp] theorem withHost_rstc (f : HostSt → HostSt) : (withHost d f).rstc = d.rstc := rfl
@[simp] theorem withHost_galley (f : HostSt → HostSt) : (withHost d f).galley = d.galley := rfl
@[simp] theorem rd_withHost (f : HostSt → HostSt) (key : Nat) : rd (withHost d f) key = rd d key := rfl
@[simp] theorem withJtag_jtag (f : JtagSt → JtagSt) : (withJtag d f).jtag = f d.jtag := rfl
@[simp] theorem withJtag_now (f : JtagSt → JtagSt) : (withJtag d f).now = d.now := rfl
@[simp] theorem withJtag_regs (f : JtagSt → JtagSt) : (withJtag d f).regs = d.regs := rfl
@[simp] theorem withJtag_folio (f : JtagSt → JtagSt) : (withJtag d f).folio = d.folio := rfl
@[simp] theorem withJtag_core (f : JtagSt → JtagSt) : (withJtag d f).core = d.core := rfl
@[simp] theorem withJtag_evc (f : JtagSt → JtagSt) : (withJtag d f).evc = d.evc := rfl
@[simp] theorem withJtag_rstc (f : JtagSt → JtagSt) : (withJtag d f).rstc = d.rstc := rfl
@[simp] theorem withJtag_galley (f : JtagSt → JtagSt) : (withJtag d f).galley = d.galley := rfl
@[simp] theorem rd_withJtag (f : JtagSt → JtagSt) (key : Nat) : rd (withJtag d f) key = rd d key := rfl
@[simp] theorem withFab_fab (f : FabSt → FabSt) : (withFab d f).fab = f d.fab := rfl
@[simp] theorem withFab_now (f : FabSt → FabSt) : (withFab d f).now = d.now := rfl
@[simp] theorem withFab_regs (f : FabSt → FabSt) : (withFab d f).regs = d.regs := rfl
@[simp] theorem withFab_folio (f : FabSt → FabSt) : (withFab d f).folio = d.folio := rfl
@[simp] theorem withFab_core (f : FabSt → FabSt) : (withFab d f).core = d.core := rfl
@[simp] theorem withFab_evc (f : FabSt → FabSt) : (withFab d f).evc = d.evc := rfl
@[simp] theorem withFab_rstc (f : FabSt → FabSt) : (withFab d f).rstc = d.rstc := rfl
@[simp] theorem withFab_galley (f : FabSt → FabSt) : (withFab d f).galley = d.galley := rfl
@[simp] theorem rd_withFab (f : FabSt → FabSt) (key : Nat) : rd (withFab d f) key = rd d key := rfl
@[simp] theorem withFlash_flash (f : FlashSt → FlashSt) : (withFlash d f).flash = f d.flash := rfl
@[simp] theorem withFlash_now (f : FlashSt → FlashSt) : (withFlash d f).now = d.now := rfl
@[simp] theorem withFlash_regs (f : FlashSt → FlashSt) : (withFlash d f).regs = d.regs := rfl
@[simp] theorem withFlash_folio (f : FlashSt → FlashSt) : (withFlash d f).folio = d.folio := rfl
@[simp] theorem withFlash_core (f : FlashSt → FlashSt) : (withFlash d f).core = d.core := rfl
@[simp] theorem withFlash_evc (f : FlashSt → FlashSt) : (withFlash d f).evc = d.evc := rfl
@[simp] theorem withFlash_rstc (f : FlashSt → FlashSt) : (withFlash d f).rstc = d.rstc := rfl
@[simp] theorem withFlash_galley (f : FlashSt → FlashSt) : (withFlash d f).galley = d.galley := rfl
@[simp] theorem rd_withFlash (f : FlashSt → FlashSt) (key : Nat) : rd (withFlash d f) key = rd d key := rfl
@[simp] theorem withTrip_trip (f : TripSt → TripSt) : (withTrip d f).trip = f d.trip := rfl
@[simp] theorem withTrip_now (f : TripSt → TripSt) : (withTrip d f).now = d.now := rfl
@[simp] theorem withTrip_regs (f : TripSt → TripSt) : (withTrip d f).regs = d.regs := rfl
@[simp] theorem withTrip_folio (f : TripSt → TripSt) : (withTrip d f).folio = d.folio := rfl
@[simp] theorem withTrip_core (f : TripSt → TripSt) : (withTrip d f).core = d.core := rfl
@[simp] theorem withTrip_evc (f : TripSt → TripSt) : (withTrip d f).evc = d.evc := rfl
@[simp] theorem withTrip_rstc (f : TripSt → TripSt) : (withTrip d f).rstc = d.rstc := rfl
@[simp] theorem withTrip_galley (f : TripSt → TripSt) : (withTrip d f).galley = d.galley := rfl
@[simp] theorem rd_withTrip (f : TripSt → TripSt) (key : Nat) : rd (withTrip d f) key = rd d key := rfl
@[simp] theorem withGalley_galley (f : GalleySt → GalleySt) : (withGalley d f).galley = f d.galley := rfl
@[simp] theorem withGalley_now (f : GalleySt → GalleySt) : (withGalley d f).now = d.now := rfl
@[simp] theorem withGalley_regs (f : GalleySt → GalleySt) : (withGalley d f).regs = d.regs := rfl
@[simp] theorem withGalley_folio (f : GalleySt → GalleySt) : (withGalley d f).folio = d.folio := rfl
@[simp] theorem withGalley_core (f : GalleySt → GalleySt) : (withGalley d f).core = d.core := rfl
@[simp] theorem withGalley_evc (f : GalleySt → GalleySt) : (withGalley d f).evc = d.evc := rfl
@[simp] theorem withGalley_rstc (f : GalleySt → GalleySt) : (withGalley d f).rstc = d.rstc := rfl
@[simp] theorem rd_withGalley (f : GalleySt → GalleySt) (key : Nat) : rd (withGalley d f) key = rd d key := rfl
@[simp] theorem withTwin_twin (f : TwinSt → TwinSt) : (withTwin d f).twin = f d.twin := rfl
@[simp] theorem withTwin_now (f : TwinSt → TwinSt) : (withTwin d f).now = d.now := rfl
@[simp] theorem withTwin_regs (f : TwinSt → TwinSt) : (withTwin d f).regs = d.regs := rfl
@[simp] theorem withTwin_folio (f : TwinSt → TwinSt) : (withTwin d f).folio = d.folio := rfl
@[simp] theorem withTwin_core (f : TwinSt → TwinSt) : (withTwin d f).core = d.core := rfl
@[simp] theorem withTwin_evc (f : TwinSt → TwinSt) : (withTwin d f).evc = d.evc := rfl
@[simp] theorem withTwin_rstc (f : TwinSt → TwinSt) : (withTwin d f).rstc = d.rstc := rfl
@[simp] theorem withTwin_galley (f : TwinSt → TwinSt) : (withTwin d f).galley = d.galley := rfl
@[simp] theorem rd_withTwin (f : TwinSt → TwinSt) (key : Nat) : rd (withTwin d f) key = rd d key := rfl
@[simp] theorem withSec_sec (f : SecSt → SecSt) : (withSec d f).sec = f d.sec := rfl
@[simp] theorem withSec_now (f : SecSt → SecSt) : (withSec d f).now = d.now := rfl
@[simp] theorem withSec_regs (f : SecSt → SecSt) : (withSec d f).regs = d.regs := rfl
@[simp] theorem withSec_folio (f : SecSt → SecSt) : (withSec d f).folio = d.folio := rfl
@[simp] theorem withSec_core (f : SecSt → SecSt) : (withSec d f).core = d.core := rfl
@[simp] theorem withSec_evc (f : SecSt → SecSt) : (withSec d f).evc = d.evc := rfl
@[simp] theorem withSec_rstc (f : SecSt → SecSt) : (withSec d f).rstc = d.rstc := rfl
@[simp] theorem withSec_galley (f : SecSt → SecSt) : (withSec d f).galley = d.galley := rfl
@[simp] theorem rd_withSec (f : SecSt → SecSt) (key : Nat) : rd (withSec d f) key = rd d key := rfl
@[simp] theorem withFolio_folio (f : FolioSt → FolioSt) : (withFolio d f).folio = f d.folio := rfl
@[simp] theorem withFolio_now (f : FolioSt → FolioSt) : (withFolio d f).now = d.now := rfl
@[simp] theorem withFolio_regs (f : FolioSt → FolioSt) : (withFolio d f).regs = d.regs := rfl
@[simp] theorem withFolio_core (f : FolioSt → FolioSt) : (withFolio d f).core = d.core := rfl
@[simp] theorem withFolio_evc (f : FolioSt → FolioSt) : (withFolio d f).evc = d.evc := rfl
@[simp] theorem withFolio_rstc (f : FolioSt → FolioSt) : (withFolio d f).rstc = d.rstc := rfl
@[simp] theorem withFolio_galley (f : FolioSt → FolioSt) : (withFolio d f).galley = d.galley := rfl
@[simp] theorem withBrng_brng (u : Nat) (f : BrngSt → BrngSt) : (withBrng d u f).brng = tabSet brngInit d.brng u (f (brngOf d u)) := rfl
@[simp] theorem withBrng_now (u : Nat) (f : BrngSt → BrngSt) : (withBrng d u f).now = d.now := rfl
@[simp] theorem withBrng_regs (u : Nat) (f : BrngSt → BrngSt) : (withBrng d u f).regs = d.regs := rfl
@[simp] theorem withBrng_folio (u : Nat) (f : BrngSt → BrngSt) : (withBrng d u f).folio = d.folio := rfl
@[simp] theorem withBrng_core (u : Nat) (f : BrngSt → BrngSt) : (withBrng d u f).core = d.core := rfl
@[simp] theorem withBrng_evc (u : Nat) (f : BrngSt → BrngSt) : (withBrng d u f).evc = d.evc := rfl
@[simp] theorem withBrng_rstc (u : Nat) (f : BrngSt → BrngSt) : (withBrng d u f).rstc = d.rstc := rfl
@[simp] theorem withBrng_galley (u : Nat) (f : BrngSt → BrngSt) : (withBrng d u f).galley = d.galley := rfl
@[simp] theorem rd_withBrng (u : Nat) (f : BrngSt → BrngSt) (key : Nat) : rd (withBrng d u f) key = rd d key := rfl
@[simp] theorem withEth_eth (u : Nat) (f : EthSt → EthSt) : (withEth d u f).eth = tabSet ethInit d.eth u (f (ethOf d u)) := rfl
@[simp] theorem withEth_now (u : Nat) (f : EthSt → EthSt) : (withEth d u f).now = d.now := rfl
@[simp] theorem withEth_regs (u : Nat) (f : EthSt → EthSt) : (withEth d u f).regs = d.regs := rfl
@[simp] theorem withEth_folio (u : Nat) (f : EthSt → EthSt) : (withEth d u f).folio = d.folio := rfl
@[simp] theorem withEth_core (u : Nat) (f : EthSt → EthSt) : (withEth d u f).core = d.core := rfl
@[simp] theorem withEth_evc (u : Nat) (f : EthSt → EthSt) : (withEth d u f).evc = d.evc := rfl
@[simp] theorem withEth_rstc (u : Nat) (f : EthSt → EthSt) : (withEth d u f).rstc = d.rstc := rfl
@[simp] theorem withEth_galley (u : Nat) (f : EthSt → EthSt) : (withEth d u f).galley = d.galley := rfl
@[simp] theorem rd_withEth (u : Nat) (f : EthSt → EthSt) (key : Nat) : rd (withEth d u f) key = rd d key := rfl
@[simp] theorem withCan_can (u : Nat) (f : CanSt → CanSt) : (withCan d u f).can = tabSet canInit d.can u (f (canOf d u)) := rfl
@[simp] theorem withCan_now (u : Nat) (f : CanSt → CanSt) : (withCan d u f).now = d.now := rfl
@[simp] theorem withCan_regs (u : Nat) (f : CanSt → CanSt) : (withCan d u f).regs = d.regs := rfl
@[simp] theorem withCan_folio (u : Nat) (f : CanSt → CanSt) : (withCan d u f).folio = d.folio := rfl
@[simp] theorem withCan_core (u : Nat) (f : CanSt → CanSt) : (withCan d u f).core = d.core := rfl
@[simp] theorem withCan_evc (u : Nat) (f : CanSt → CanSt) : (withCan d u f).evc = d.evc := rfl
@[simp] theorem withCan_rstc (u : Nat) (f : CanSt → CanSt) : (withCan d u f).rstc = d.rstc := rfl
@[simp] theorem withCan_galley (u : Nat) (f : CanSt → CanSt) : (withCan d u f).galley = d.galley := rfl
@[simp] theorem rd_withCan (u : Nat) (f : CanSt → CanSt) (key : Nat) : rd (withCan d u f) key = rd d key := rfl
@[simp] theorem withSer_ser (u : Nat) (f : SerSt → SerSt) : (withSer d u f).ser = tabSet serInit d.ser u (f (serOf d u)) := rfl
@[simp] theorem withSer_now (u : Nat) (f : SerSt → SerSt) : (withSer d u f).now = d.now := rfl
@[simp] theorem withSer_regs (u : Nat) (f : SerSt → SerSt) : (withSer d u f).regs = d.regs := rfl
@[simp] theorem withSer_folio (u : Nat) (f : SerSt → SerSt) : (withSer d u f).folio = d.folio := rfl
@[simp] theorem withSer_core (u : Nat) (f : SerSt → SerSt) : (withSer d u f).core = d.core := rfl
@[simp] theorem withSer_evc (u : Nat) (f : SerSt → SerSt) : (withSer d u f).evc = d.evc := rfl
@[simp] theorem withSer_rstc (u : Nat) (f : SerSt → SerSt) : (withSer d u f).rstc = d.rstc := rfl
@[simp] theorem withSer_galley (u : Nat) (f : SerSt → SerSt) : (withSer d u f).galley = d.galley := rfl
@[simp] theorem rd_withSer (u : Nat) (f : SerSt → SerSt) (key : Nat) : rd (withSer d u f) key = rd d key := rfl
@[simp] theorem withSurv_surv (u : Nat) (f : SurvSt → SurvSt) : (withSurv d u f).surv = tabSet survInit d.surv u (f (survOf d u)) := rfl
@[simp] theorem withSurv_now (u : Nat) (f : SurvSt → SurvSt) : (withSurv d u f).now = d.now := rfl
@[simp] theorem withSurv_regs (u : Nat) (f : SurvSt → SurvSt) : (withSurv d u f).regs = d.regs := rfl
@[simp] theorem withSurv_folio (u : Nat) (f : SurvSt → SurvSt) : (withSurv d u f).folio = d.folio := rfl
@[simp] theorem withSurv_core (u : Nat) (f : SurvSt → SurvSt) : (withSurv d u f).core = d.core := rfl
@[simp] theorem withSurv_evc (u : Nat) (f : SurvSt → SurvSt) : (withSurv d u f).evc = d.evc := rfl
@[simp] theorem withSurv_rstc (u : Nat) (f : SurvSt → SurvSt) : (withSurv d u f).rstc = d.rstc := rfl
@[simp] theorem withSurv_galley (u : Nat) (f : SurvSt → SurvSt) : (withSurv d u f).galley = d.galley := rfl
@[simp] theorem rd_withSurv (u : Nat) (f : SurvSt → SurvSt) (key : Nat) : rd (withSurv d u f) key = rd d key := rfl
@[simp] theorem withSdf_sdf (u : Nat) (f : SdfSt → SdfSt) : (withSdf d u f).sdf = tabSet sdfInit d.sdf u (f (sdfOf d u)) := rfl
@[simp] theorem withSdf_now (u : Nat) (f : SdfSt → SdfSt) : (withSdf d u f).now = d.now := rfl
@[simp] theorem withSdf_regs (u : Nat) (f : SdfSt → SdfSt) : (withSdf d u f).regs = d.regs := rfl
@[simp] theorem withSdf_folio (u : Nat) (f : SdfSt → SdfSt) : (withSdf d u f).folio = d.folio := rfl
@[simp] theorem withSdf_core (u : Nat) (f : SdfSt → SdfSt) : (withSdf d u f).core = d.core := rfl
@[simp] theorem withSdf_evc (u : Nat) (f : SdfSt → SdfSt) : (withSdf d u f).evc = d.evc := rfl
@[simp] theorem withSdf_rstc (u : Nat) (f : SdfSt → SdfSt) : (withSdf d u f).rstc = d.rstc := rfl
@[simp] theorem withSdf_galley (u : Nat) (f : SdfSt → SdfSt) : (withSdf d u f).galley = d.galley := rfl
@[simp] theorem rd_withSdf (u : Nat) (f : SdfSt → SdfSt) (key : Nat) : rd (withSdf d u f) key = rd d key := rfl
@[simp] theorem withComp_comp (u : Nat) (f : CompSt → CompSt) : (withComp d u f).comp = tabSet compInit d.comp u (f (compOf d u)) := rfl
@[simp] theorem withComp_now (u : Nat) (f : CompSt → CompSt) : (withComp d u f).now = d.now := rfl
@[simp] theorem withComp_regs (u : Nat) (f : CompSt → CompSt) : (withComp d u f).regs = d.regs := rfl
@[simp] theorem withComp_folio (u : Nat) (f : CompSt → CompSt) : (withComp d u f).folio = d.folio := rfl
@[simp] theorem withComp_core (u : Nat) (f : CompSt → CompSt) : (withComp d u f).core = d.core := rfl
@[simp] theorem withComp_evc (u : Nat) (f : CompSt → CompSt) : (withComp d u f).evc = d.evc := rfl
@[simp] theorem withComp_rstc (u : Nat) (f : CompSt → CompSt) : (withComp d u f).rstc = d.rstc := rfl
@[simp] theorem withComp_galley (u : Nat) (f : CompSt → CompSt) : (withComp d u f).galley = d.galley := rfl
@[simp] theorem rd_withComp (u : Nat) (f : CompSt → CompSt) (key : Nat) : rd (withComp d u f) key = rd d key := rfl
@[simp] theorem withForme_forme (u : Nat) (f : FormeSt → FormeSt) : (withForme d u f).forme = tabSet formeInit d.forme u (f (formeOf d u)) := rfl
@[simp] theorem withForme_now (u : Nat) (f : FormeSt → FormeSt) : (withForme d u f).now = d.now := rfl
@[simp] theorem withForme_regs (u : Nat) (f : FormeSt → FormeSt) : (withForme d u f).regs = d.regs := rfl
@[simp] theorem withForme_folio (u : Nat) (f : FormeSt → FormeSt) : (withForme d u f).folio = d.folio := rfl
@[simp] theorem withForme_core (u : Nat) (f : FormeSt → FormeSt) : (withForme d u f).core = d.core := rfl
@[simp] theorem withForme_evc (u : Nat) (f : FormeSt → FormeSt) : (withForme d u f).evc = d.evc := rfl
@[simp] theorem withForme_rstc (u : Nat) (f : FormeSt → FormeSt) : (withForme d u f).rstc = d.rstc := rfl
@[simp] theorem withForme_galley (u : Nat) (f : FormeSt → FormeSt) : (withForme d u f).galley = d.galley := rfl
@[simp] theorem rd_withForme (u : Nat) (f : FormeSt → FormeSt) (key : Nat) : rd (withForme d u f) key = rd d key := rfl
@[simp] theorem withTrav_trav (u : Nat) (f : TravSt → TravSt) : (withTrav d u f).trav = tabSet travInit d.trav u (f (travOf d u)) := rfl
@[simp] theorem withTrav_now (u : Nat) (f : TravSt → TravSt) : (withTrav d u f).now = d.now := rfl
@[simp] theorem withTrav_regs (u : Nat) (f : TravSt → TravSt) : (withTrav d u f).regs = d.regs := rfl
@[simp] theorem withTrav_folio (u : Nat) (f : TravSt → TravSt) : (withTrav d u f).folio = d.folio := rfl
@[simp] theorem withTrav_core (u : Nat) (f : TravSt → TravSt) : (withTrav d u f).core = d.core := rfl
@[simp] theorem withTrav_evc (u : Nat) (f : TravSt → TravSt) : (withTrav d u f).evc = d.evc := rfl
@[simp] theorem withTrav_rstc (u : Nat) (f : TravSt → TravSt) : (withTrav d u f).rstc = d.rstc := rfl
@[simp] theorem withTrav_galley (u : Nat) (f : TravSt → TravSt) : (withTrav d u f).galley = d.galley := rfl
@[simp] theorem rd_withTrav (u : Nat) (f : TravSt → TravSt) (key : Nat) : rd (withTrav d u f) key = rd d key := rfl
@[simp] theorem withFd_fd (u : Nat) (f : FdSt → FdSt) : (withFd d u f).fd = tabSet fdInit d.fd u (f (fdOf d u)) := rfl
@[simp] theorem withFd_now (u : Nat) (f : FdSt → FdSt) : (withFd d u f).now = d.now := rfl
@[simp] theorem withFd_regs (u : Nat) (f : FdSt → FdSt) : (withFd d u f).regs = d.regs := rfl
@[simp] theorem withFd_folio (u : Nat) (f : FdSt → FdSt) : (withFd d u f).folio = d.folio := rfl
@[simp] theorem withFd_core (u : Nat) (f : FdSt → FdSt) : (withFd d u f).core = d.core := rfl
@[simp] theorem withFd_evc (u : Nat) (f : FdSt → FdSt) : (withFd d u f).evc = d.evc := rfl
@[simp] theorem withFd_rstc (u : Nat) (f : FdSt → FdSt) : (withFd d u f).rstc = d.rstc := rfl
@[simp] theorem withFd_galley (u : Nat) (f : FdSt → FdSt) : (withFd d u f).galley = d.galley := rfl
@[simp] theorem rd_withFd (u : Nat) (f : FdSt → FdSt) (key : Nat) : rd (withFd d u f) key = rd d key := rfl
@[simp] theorem withPress_press (u : Nat) (f : PressSt → PressSt) : (withPress d u f).press = tabSet pressInit d.press u (f (pressOf d u)) := rfl
@[simp] theorem withPress_now (u : Nat) (f : PressSt → PressSt) : (withPress d u f).now = d.now := rfl
@[simp] theorem withPress_regs (u : Nat) (f : PressSt → PressSt) : (withPress d u f).regs = d.regs := rfl
@[simp] theorem withPress_folio (u : Nat) (f : PressSt → PressSt) : (withPress d u f).folio = d.folio := rfl
@[simp] theorem withPress_core (u : Nat) (f : PressSt → PressSt) : (withPress d u f).core = d.core := rfl
@[simp] theorem withPress_evc (u : Nat) (f : PressSt → PressSt) : (withPress d u f).evc = d.evc := rfl
@[simp] theorem withPress_rstc (u : Nat) (f : PressSt → PressSt) : (withPress d u f).rstc = d.rstc := rfl
@[simp] theorem withPress_galley (u : Nat) (f : PressSt → PressSt) : (withPress d u f).galley = d.galley := rfl
@[simp] theorem rd_withPress (u : Nat) (f : PressSt → PressSt) (key : Nat) : rd (withPress d u f) key = rd d key := rfl
@[simp] theorem setCore_core (u : Nat) (f : CoreSt) : (setCore d u f).core = tabSet (coreInit u) d.core u f := rfl
@[simp] theorem setCore_now (u : Nat) (f : CoreSt) : (setCore d u f).now = d.now := rfl
@[simp] theorem setCore_regs (u : Nat) (f : CoreSt) : (setCore d u f).regs = d.regs := rfl
@[simp] theorem setCore_folio (u : Nat) (f : CoreSt) : (setCore d u f).folio = d.folio := rfl
@[simp] theorem setCore_evc (u : Nat) (f : CoreSt) : (setCore d u f).evc = d.evc := rfl
@[simp] theorem setCore_rstc (u : Nat) (f : CoreSt) : (setCore d u f).rstc = d.rstc := rfl
@[simp] theorem setCore_galley (u : Nat) (f : CoreSt) : (setCore d u f).galley = d.galley := rfl
@[simp] theorem rd_setCore (u : Nat) (f : CoreSt) (key : Nat) : rd (setCore d u f) key = rd d key := rfl

@[simp] theorem wr_now (key : Nat) (v : Word) : (wr d key v).now = d.now := rfl
@[simp] theorem pf_now (x : Fd) (v : Nat) : (pf d x v).now = d.now := rfl
@[simp] theorem pb_now (x : Fd) (v : Bool) : (pb d x v).now = d.now := rfl
@[simp] theorem pbit_now (x : Fd) (i : Nat) (v : Bool) : (pbit d x i v).now = d.now := by unfold pbit; split <;> rfl
@[simp] theorem wr_core (key : Nat) (v : Word) : (wr d key v).core = d.core := rfl
@[simp] theorem pf_core (x : Fd) (v : Nat) : (pf d x v).core = d.core := rfl
@[simp] theorem pb_core (x : Fd) (v : Bool) : (pb d x v).core = d.core := rfl
@[simp] theorem pbit_core (x : Fd) (i : Nat) (v : Bool) : (pbit d x i v).core = d.core := by unfold pbit; split <;> rfl
@[simp] theorem wr_evc (key : Nat) (v : Word) : (wr d key v).evc = d.evc := rfl
@[simp] theorem pf_evc (x : Fd) (v : Nat) : (pf d x v).evc = d.evc := rfl
@[simp] theorem pb_evc (x : Fd) (v : Bool) : (pb d x v).evc = d.evc := rfl
@[simp] theorem pbit_evc (x : Fd) (i : Nat) (v : Bool) : (pbit d x i v).evc = d.evc := by unfold pbit; split <;> rfl
@[simp] theorem wr_rstc (key : Nat) (v : Word) : (wr d key v).rstc = d.rstc := rfl
@[simp] theorem pf_rstc (x : Fd) (v : Nat) : (pf d x v).rstc = d.rstc := rfl
@[simp] theorem pb_rstc (x : Fd) (v : Bool) : (pb d x v).rstc = d.rstc := rfl
@[simp] theorem pbit_rstc (x : Fd) (i : Nat) (v : Bool) : (pbit d x i v).rstc = d.rstc := by unfold pbit; split <;> rfl
@[simp] theorem wr_galley (key : Nat) (v : Word) : (wr d key v).galley = d.galley := rfl
@[simp] theorem pf_galley (x : Fd) (v : Nat) : (pf d x v).galley = d.galley := rfl
@[simp] theorem pb_galley (x : Fd) (v : Bool) : (pb d x v).galley = d.galley := rfl
@[simp] theorem pbit_galley (x : Fd) (i : Nat) (v : Bool) : (pbit d x i v).galley = d.galley := by unfold pbit; split <;> rfl
@[simp] theorem wr_merid (key : Nat) (v : Word) : (wr d key v).merid = d.merid := rfl
@[simp] theorem pf_merid (x : Fd) (v : Nat) : (pf d x v).merid = d.merid := rfl
@[simp] theorem pb_merid (x : Fd) (v : Bool) : (pb d x v).merid = d.merid := rfl
@[simp] theorem pbit_merid (x : Fd) (i : Nat) (v : Bool) : (pbit d x i v).merid = d.merid := by unfold pbit; split <;> rfl
@[simp] theorem wr_forme (key : Nat) (v : Word) : (wr d key v).forme = d.forme := rfl
@[simp] theorem pf_forme (x : Fd) (v : Nat) : (pf d x v).forme = d.forme := rfl
@[simp] theorem pb_forme (x : Fd) (v : Bool) : (pb d x v).forme = d.forme := rfl
@[simp] theorem pbit_forme (x : Fd) (i : Nat) (v : Bool) : (pbit d x i v).forme = d.forme := by unfold pbit; split <;> rfl
@[simp] theorem wr_trip (key : Nat) (v : Word) : (wr d key v).trip = d.trip := rfl
@[simp] theorem pf_trip (x : Fd) (v : Nat) : (pf d x v).trip = d.trip := rfl
@[simp] theorem pb_trip (x : Fd) (v : Bool) : (pb d x v).trip = d.trip := rfl
@[simp] theorem pbit_trip (x : Fd) (i : Nat) (v : Bool) : (pbit d x i v).trip = d.trip := by unfold pbit; split <;> rfl
@[simp] theorem wr_trav (key : Nat) (v : Word) : (wr d key v).trav = d.trav := rfl
@[simp] theorem pf_trav (x : Fd) (v : Nat) : (pf d x v).trav = d.trav := rfl
@[simp] theorem pb_trav (x : Fd) (v : Bool) : (pb d x v).trav = d.trav := rfl
@[simp] theorem pbit_trav (x : Fd) (i : Nat) (v : Bool) : (pbit d x i v).trav = d.trav := by unfold pbit; split <;> rfl
@[simp] theorem wr_host (key : Nat) (v : Word) : (wr d key v).host = d.host := rfl
@[simp] theorem pf_host (x : Fd) (v : Nat) : (pf d x v).host = d.host := rfl
@[simp] theorem pb_host (x : Fd) (v : Bool) : (pb d x v).host = d.host := rfl
@[simp] theorem pbit_host (x : Fd) (i : Nat) (v : Bool) : (pbit d x i v).host = d.host := by unfold pbit; split <;> rfl
@[simp] theorem wr_twin (key : Nat) (v : Word) : (wr d key v).twin = d.twin := rfl
@[simp] theorem pf_twin (x : Fd) (v : Nat) : (pf d x v).twin = d.twin := rfl
@[simp] theorem pb_twin (x : Fd) (v : Bool) : (pb d x v).twin = d.twin := rfl
@[simp] theorem pbit_twin (x : Fd) (i : Nat) (v : Bool) : (pbit d x i v).twin = d.twin := by unfold pbit; split <;> rfl
@[simp] theorem wr_sec (key : Nat) (v : Word) : (wr d key v).sec = d.sec := rfl
@[simp] theorem pf_sec (x : Fd) (v : Nat) : (pf d x v).sec = d.sec := rfl
@[simp] theorem pb_sec (x : Fd) (v : Bool) : (pb d x v).sec = d.sec := rfl
@[simp] theorem pbit_sec (x : Fd) (i : Nat) (v : Bool) : (pbit d x i v).sec = d.sec := by unfold pbit; split <;> rfl
@[simp] theorem wr_fab (key : Nat) (v : Word) : (wr d key v).fab = d.fab := rfl
@[simp] theorem pf_fab (x : Fd) (v : Nat) : (pf d x v).fab = d.fab := rfl
@[simp] theorem pb_fab (x : Fd) (v : Bool) : (pb d x v).fab = d.fab := rfl
@[simp] theorem pbit_fab (x : Fd) (i : Nat) (v : Bool) : (pbit d x i v).fab = d.fab := by unfold pbit; split <;> rfl
@[simp] theorem wr_flash (key : Nat) (v : Word) : (wr d key v).flash = d.flash := rfl
@[simp] theorem pf_flash (x : Fd) (v : Nat) : (pf d x v).flash = d.flash := rfl
@[simp] theorem pb_flash (x : Fd) (v : Bool) : (pb d x v).flash = d.flash := rfl
@[simp] theorem pbit_flash (x : Fd) (i : Nat) (v : Bool) : (pbit d x i v).flash = d.flash := by unfold pbit; split <;> rfl
@[simp] theorem wr_surv (key : Nat) (v : Word) : (wr d key v).surv = d.surv := rfl
@[simp] theorem pf_surv (x : Fd) (v : Nat) : (pf d x v).surv = d.surv := rfl
@[simp] theorem pb_surv (x : Fd) (v : Bool) : (pb d x v).surv = d.surv := rfl
@[simp] theorem pbit_surv (x : Fd) (i : Nat) (v : Bool) : (pbit d x i v).surv = d.surv := by unfold pbit; split <;> rfl
@[simp] theorem wr_sdf (key : Nat) (v : Word) : (wr d key v).sdf = d.sdf := rfl
@[simp] theorem pf_sdf (x : Fd) (v : Nat) : (pf d x v).sdf = d.sdf := rfl
@[simp] theorem pb_sdf (x : Fd) (v : Bool) : (pb d x v).sdf = d.sdf := rfl
@[simp] theorem pbit_sdf (x : Fd) (i : Nat) (v : Bool) : (pbit d x i v).sdf = d.sdf := by unfold pbit; split <;> rfl
@[simp] theorem wr_fd (key : Nat) (v : Word) : (wr d key v).fd = d.fd := rfl
@[simp] theorem pf_fd (x : Fd) (v : Nat) : (pf d x v).fd = d.fd := rfl
@[simp] theorem pb_fd (x : Fd) (v : Bool) : (pb d x v).fd = d.fd := rfl
@[simp] theorem pbit_fd (x : Fd) (i : Nat) (v : Bool) : (pbit d x i v).fd = d.fd := by unfold pbit; split <;> rfl
@[simp] theorem wr_comp (key : Nat) (v : Word) : (wr d key v).comp = d.comp := rfl
@[simp] theorem pf_comp (x : Fd) (v : Nat) : (pf d x v).comp = d.comp := rfl
@[simp] theorem pb_comp (x : Fd) (v : Bool) : (pb d x v).comp = d.comp := rfl
@[simp] theorem pbit_comp (x : Fd) (i : Nat) (v : Bool) : (pbit d x i v).comp = d.comp := by unfold pbit; split <;> rfl
@[simp] theorem wr_press (key : Nat) (v : Word) : (wr d key v).press = d.press := rfl
@[simp] theorem pf_press (x : Fd) (v : Nat) : (pf d x v).press = d.press := rfl
@[simp] theorem pb_press (x : Fd) (v : Bool) : (pb d x v).press = d.press := rfl
@[simp] theorem pbit_press (x : Fd) (i : Nat) (v : Bool) : (pbit d x i v).press = d.press := by unfold pbit; split <;> rfl
@[simp] theorem wr_ain (key : Nat) (v : Word) : (wr d key v).ain = d.ain := rfl
@[simp] theorem pf_ain (x : Fd) (v : Nat) : (pf d x v).ain = d.ain := rfl
@[simp] theorem pb_ain (x : Fd) (v : Bool) : (pb d x v).ain = d.ain := rfl
@[simp] theorem pbit_ain (x : Fd) (i : Nat) (v : Bool) : (pbit d x i v).ain = d.ain := by unfold pbit; split <;> rfl
@[simp] theorem wr_landings (key : Nat) (v : Word) : (wr d key v).landings = d.landings := rfl
@[simp] theorem pf_landings (x : Fd) (v : Nat) : (pf d x v).landings = d.landings := rfl
@[simp] theorem pb_landings (x : Fd) (v : Bool) : (pb d x v).landings = d.landings := rfl
@[simp] theorem pbit_landings (x : Fd) (i : Nat) (v : Bool) : (pbit d x i v).landings = d.landings := by unfold pbit; split <;> rfl
@[simp] theorem wr_offers (key : Nat) (v : Word) : (wr d key v).offers = d.offers := rfl
@[simp] theorem pf_offers (x : Fd) (v : Nat) : (pf d x v).offers = d.offers := rfl
@[simp] theorem pb_offers (x : Fd) (v : Bool) : (pb d x v).offers = d.offers := rfl
@[simp] theorem pbit_offers (x : Fd) (i : Nat) (v : Bool) : (pbit d x i v).offers = d.offers := by unfold pbit; split <;> rfl
@[simp] theorem wr_trigDue (key : Nat) (v : Word) : (wr d key v).trigDue = d.trigDue := rfl
@[simp] theorem pf_trigDue (x : Fd) (v : Nat) : (pf d x v).trigDue = d.trigDue := rfl
@[simp] theorem pb_trigDue (x : Fd) (v : Bool) : (pb d x v).trigDue = d.trigDue := rfl
@[simp] theorem pbit_trigDue (x : Fd) (i : Nat) (v : Bool) : (pbit d x i v).trigDue = d.trigDue := by unfold pbit; split <;> rfl
@[simp] theorem wr_trigRaw (key : Nat) (v : Word) : (wr d key v).trigRaw = d.trigRaw := rfl
@[simp] theorem pf_trigRaw (x : Fd) (v : Nat) : (pf d x v).trigRaw = d.trigRaw := rfl
@[simp] theorem pb_trigRaw (x : Fd) (v : Bool) : (pb d x v).trigRaw = d.trigRaw := rfl
@[simp] theorem pbit_trigRaw (x : Fd) (i : Nat) (v : Bool) : (pbit d x i v).trigRaw = d.trigRaw := by unfold pbit; split <;> rfl

/-! ### Registers of a core -/

theorem coreOfDev_setCore_same (c : Nat) (k : CoreSt) : coreOfDev (setCore d c k) c = k := by simp [coreOfDev]
theorem coreOfDev_setCore_ne {c c' : Nat} (k : CoreSt) (h : c' ≠ c) : coreOfDev (setCore d c k) c' = coreOfDev d c' := by
  simp [coreOfDev, h]

variable (k : CoreSt)

@[simp] theorem gr_setGr_same (r : Nat) (v : Word) : (k.setGr r v).gr r = v := by simp [CoreSt.gr, CoreSt.setGr]
theorem gr_setGr_ne {r r' : Nat} (v : Word) (h : r' ≠ r) : (k.setGr r v).gr r' = k.gr r' := by simp [CoreSt.gr, CoreSt.setGr, h]
@[simp] theorem fr_setFr_same (r : Nat) (v : F32) : (k.setFr r v).fr r = v := by simp [CoreSt.fr, CoreSt.setFr]
theorem fr_setFr_ne {r r' : Nat} (v : F32) (h : r' ≠ r) : (k.setFr r v).fr r' = k.fr r' := by simp [CoreSt.fr, CoreSt.setFr, h]
@[simp] theorem psw_setGr (r : Nat) (v : Word) : (k.setGr r v).psw = k.psw := rfl
@[simp] theorem ip_setGr (r : Nat) (v : Word) : (k.setGr r v).ip = k.ip := rfl
@[simp] theorem fr_setGr (r r' : Nat) (v : Word) : (k.setGr r v).fr r' = k.fr r' := rfl
@[simp] theorem gr_setFr (r r' : Nat) (v : F32) : (k.setFr r v).gr r' = k.gr r' := rfl
@[simp] theorem gr_flags (f : FlagW) (r : Nat) : (k.flags f).gr r = k.gr r := rfl
@[simp] theorem ip_flags (f : FlagW) : (k.flags f).ip = k.ip := rfl
@[simp] theorem psw_flags (f : FlagW) : (k.flags f).psw = f.apply k.psw := rfl
@[simp] theorem gr_retire (n r : Nat) : (k.retire n).gr r = k.gr r := rfl
@[simp] theorem fr_retire (n r : Nat) : (k.retire n).fr r = k.fr r := rfl
@[simp] theorem ip_retire (n : Nat) : (k.retire n).ip = ipAdd k.ip n := rfl
@[simp] theorem psw_retire (n : Nat) : (k.retire n).psw = setBitW k.psw pswResume false := rfl

/-! ### Folio registers while no copy is upset -/

variable {d}

/-- With no disagreeing copies a register reads as its table holds it. -/
theorem rd_clean (h : d.folio.copies = []) (key : Nat) : rd d key = tabGet (regReset key) d.regs key := by simp [rd, h]

theorem wr_clean (h : d.folio.copies = []) (key : Nat) (v : Word) : (wr d key v).folio.copies = [] := by simp [wr, h, tabErase]

theorem rd_wr_same (h : d.folio.copies = []) (key : Nat) (v : Word) : rd (wr d key v) key = v := by
  rw [rd_clean (wr_clean h key v)]; simp [wr]

theorem rd_wr_ne (h : d.folio.copies = []) {key key' : Nat} (v : Word) (hk : key' ≠ key) : rd (wr d key v) key' = rd d key' := by
  rw [rd_clean (wr_clean h key v), rd_clean h]; simp [wr, hk]

end Sys2Proof.Machine
end

