-- ==== Sys2Proof/Laws/Core.lean ====
section
/-!
SUPPORT. What a Kamul instruction does to its core and to nothing else, once for all instructions on a core's own registers.
-/
namespace Sys2Proof.Machine

/-! ### Events and counters leave the cores alone -/

@[simp] theorem incF_core (d : Dev) (x : Fd) (n : Nat) : (incF d x n).core = d.core := rfl
@[simp] theorem drive_core (d : Dev) (n : Nat) : (drive d n).core = d.core := rfl
@[simp] theorem raiseEvt_core (d : Dev) (p b : Nat) : (raiseEvt d p b).core = d.core := by
  unfold raiseEvt; dsimp only; split
  · simp
  · split
    · simp
    · split <;> simp
@[simp] theorem logAs_core (d : Dev) (f : Flaw) (c : Nat × Nat × Nat) (r a : Nat) : (logAs d f c r a).core = d.core := by
  simp [logAs, fixUnread, apply_ite Dev.core]
@[simp] theorem fabError_core (d : Dev) (a h c e : Nat) : (fabError d a h c e).core = d.core := by simp [fabError]
@[simp] theorem flashCount_core (d : Dev) (a c : Nat) (r : Bool) : (flashCount d a c r).core = d.core := by
  unfold flashCount; dsimp only; split_ifs <;> simp

@[simp] theorem flashLoad_core (b a : Nat) (s : State) : (flashLoad b a s).1.dev.core = s.dev.core := by
  unfold flashLoad logAccess; dsimp only; repeat' split
  all_goals simp
@[simp] theorem flashLoad_mem (b a : Nat) (s : State) : (flashLoad b a s).1.mem = s.mem := by
  unfold flashLoad logAccess; dsimp only; repeat' split
  all_goals simp

/-- A load changes no core. -/
@[simp] theorem memLoad_core (ini : Initiator) (sup : Bool) (a : Nat) (s : State) : (memLoad ini sup a s).1.dev.core = s.dev.core := by
  unfold memLoad memLoadAs logAccess; dsimp only
  repeat' split
  all_goals simp

@[simp] theorem incF_galley (d : Dev) (x : Fd) (n : Nat) : (incF d x n).galley = d.galley := rfl
@[simp] theorem drive_galley (d : Dev) (n : Nat) : (drive d n).galley = d.galley := rfl
@[simp] theorem raiseEvt_galley (d : Dev) (p b : Nat) : (raiseEvt d p b).galley = d.galley := by
  unfold raiseEvt; dsimp only; split
  · simp
  · split
    · simp
    · split <;> simp
@[simp] theorem logAs_galley (d : Dev) (f : Flaw) (c : Nat × Nat × Nat) (r a : Nat) : (logAs d f c r a).galley = d.galley := by
  simp [logAs, fixUnread, apply_ite Dev.galley]
@[simp] theorem fabError_galley (d : Dev) (a h c e : Nat) : (fabError d a h c e).galley = d.galley := by simp [fabError]
@[simp] theorem flashCount_galley (d : Dev) (a c : Nat) (r : Bool) : (flashCount d a c r).galley = d.galley := by
  unfold flashCount; dsimp only; split_ifs <;> simp

@[simp] theorem flashLoad_galley (b a : Nat) (s : State) : (flashLoad b a s).1.dev.galley = s.dev.galley := by
  unfold flashLoad logAccess; dsimp only; repeat' split
  all_goals simp

/-- A load changes nothing of Galley. -/
@[simp] theorem memLoad_galley (ini : Initiator) (sup : Bool) (a : Nat) (s : State) : (memLoad ini sup a s).1.dev.galley = s.dev.galley := by
  unfold memLoad memLoadAs logAccess; dsimp only
  repeat' split
  all_goals simp

@[simp] theorem incF_rstc (d : Dev) (x : Fd) (n : Nat) : (incF d x n).rstc = d.rstc := rfl
@[simp] theorem drive_rstc (d : Dev) (n : Nat) : (drive d n).rstc = d.rstc := rfl
@[simp] theorem raiseEvt_rstc (d : Dev) (p b : Nat) : (raiseEvt d p b).rstc = d.rstc := by
  unfold raiseEvt; dsimp only; split
  · simp
  · split
    · simp
    · split <;> simp
@[simp] theorem logAs_rstc (d : Dev) (f : Flaw) (c : Nat × Nat × Nat) (r a : Nat) : (logAs d f c r a).rstc = d.rstc := by
  simp [logAs, fixUnread, apply_ite Dev.rstc]
@[simp] theorem fabError_rstc (d : Dev) (a h c e : Nat) : (fabError d a h c e).rstc = d.rstc := by simp [fabError]
@[simp] theorem flashCount_rstc (d : Dev) (a c : Nat) (r : Bool) : (flashCount d a c r).rstc = d.rstc := by
  unfold flashCount; dsimp only; split_ifs <;> simp

@[simp] theorem flashLoad_rstc (b a : Nat) (s : State) : (flashLoad b a s).1.dev.rstc = s.dev.rstc := by
  unfold flashLoad logAccess; dsimp only; repeat' split
  all_goals simp

/-- A load changes nothing of the reset unit. -/
@[simp] theorem memLoad_rstc (ini : Initiator) (sup : Bool) (a : Nat) (s : State) : (memLoad ini sup a s).1.dev.rstc = s.dev.rstc := by
  unfold memLoad memLoadAs logAccess; dsimp only
  repeat' split
  all_goals simp

/-- A load changes no memory. -/
@[simp] theorem memLoad_mem (ini : Initiator) (sup : Bool) (a : Nat) (s : State) : (memLoad ini sup a s).1.mem = s.mem := by
  unfold memLoad memLoadAs logAccess; dsimp only
  repeat' split
  all_goals simp

/-! ### Fetching and finishing an instruction -/

/-- From `s` to `s'` at most the fetch buffer of core `c`, its record of fills and the words that its port holds have changed
among the cores; memories, Galley and the reset unit stay. -/
structure Fetched (c : Nat) (s s' : State) : Prop where
  own : ∃ b l p, coreOfDev s'.dev c = { coreOfDev s.dev c with fbuf := b, filled := l, pre := p }
  others : ∀ c', c' ≠ c → coreOfDev s'.dev c' = coreOfDev s.dev c'
  mem : s'.mem = s.mem
  galley : s'.dev.galley = s.dev.galley
  rstc : s'.dev.rstc = s.dev.rstc
  pending : s'.pending = s.pending

theorem Fetched.refl (c : Nat) (s : State) : Fetched c s s := ⟨⟨_, _, _, rfl⟩, fun _ _ => rfl, rfl, rfl, rfl, rfl⟩

theorem Fetched.trans {c : Nat} {s s' t : State} (h : Fetched c s s') (h' : Fetched c s' t) : Fetched c s t := by
  obtain ⟨b, l, p, hb⟩ := h.own
  obtain ⟨b', l', p', hb'⟩ := h'.own
  exact ⟨⟨b', l', p', by rw [hb', hb]⟩, fun c' hc => (h'.others c' hc).trans (h.others c' hc), h'.mem.trans h.mem,
    h'.galley.trans h.galley, h'.rstc.trans h.rstc, h'.pending.trans h.pending⟩

theorem memLoad_pending (ini : Initiator) (sup : Bool) (a : Nat) (s : State) : (memLoad ini sup a s).1.pending = s.pending := by
  unfold memLoad memLoadAs flashLoad logAccess; dsimp only
  repeat' split
  all_goals simp

theorem coreOfDev_congr {d d' : Dev} (h : d.core = d'.core) (c : Nat) : coreOfDev d c = coreOfDev d' c := by simp [coreOfDev, h]

theorem fetched_memLoad (c : Nat) (ini : Initiator) (sup : Bool) (a : Nat) (s : State) : Fetched c s (memLoad ini sup a s).1 :=
  ⟨⟨(coreOfDev s.dev c).fbuf, (coreOfDev s.dev c).filled, (coreOfDev s.dev c).pre, by rw [coreOfDev_congr (memLoad_core ..)]⟩,
   fun c' _ => coreOfDev_congr (memLoad_core ..) c', memLoad_mem .., memLoad_galley .., memLoad_rstc .., memLoad_pending ..⟩

/-- Only these three fields of the core's record change. -/
theorem fetched_setCore {c : Nat} {k : CoreSt} (s : State)
    (h : ∃ b l p, k = { coreOfDev s.dev c with fbuf := b, filled := l, pre := p }) : Fetched c s (setDev s (setCore s.dev c k)) :=
  ⟨by rw [setDev_dev, coreOfDev_setCore_same]; exact h, fun c' hc => by rw [setDev_dev, coreOfDev_setCore_ne _ _ hc], rfl, rfl, rfl, rfl⟩

theorem fetched_incF (c : Nat) (x : Fd) (n : Nat) (s : State) : Fetched c s (setDev s (incF s.dev x n)) :=
  ⟨⟨_, _, _, by rw [setDev_dev, coreOfDev_congr (incF_core ..)]⟩, fun c' _ => by rw [setDev_dev, coreOfDev_congr (incF_core ..)],
   rfl, rfl, rfl, rfl⟩

theorem fetchHalf_fetched (c h : Nat) (s : State) : Fetched c s (fetchHalf c h s).1 := by
  have ht : ∀ a, Fetched c s (setDev s (setCore s.dev c (fbTouch (coreOfDev s.dev c) a))) := fun a =>
    fetched_setCore s (by unfold fbTouch; split <;> exact ⟨_, _, _, rfl⟩)
  unfold fetchHalf; dsimp only
  repeat' split
  all_goals first
    | exact Fetched.refl c s
    | exact ht _
    | (rename_i hm; have := fetched_memLoad c (.core (Fin.ofNat 8 c)) true (h / 2) s; rw [hm] at this
       first | exact this | exact this.trans (fetched_setCore _ ⟨_, _, _, rfl⟩))

/-- What the port holds ahead is the core's own, and nothing else changes. -/
theorem holdAhead_fetched (c : Nat) (s : State) : Fetched c s (holdAhead c s) := fetched_setCore s ⟨_, _, _, rfl⟩

theorem fetchDone_fetched (c len : Nat) (s : State) : Fetched c s (fetchDone c len s) := by
  unfold fetchDone; dsimp only
  refine Fetched.trans ?_ (holdAhead_fetched c _)
  have h1 : Fetched c s (setDev s (setCore s.dev c { coreOfDev s.dev c with filled := [] })) := fetched_setCore s ⟨_, _, _, rfl⟩
  split
  · exact h1
  · exact h1.trans (fetched_incF c _ _ _)

/-- A fetch that gives the halves changes nothing else. -/
theorem fetchInstr_fetched {c len : Nat} {s : State} (h : (fetchInstr c len s).2 = true) : Fetched c s (fetchInstr c len s).1 := by
  revert h; unfold fetchInstr; dsimp only
  have h1 := fetchHalf_fetched c (coreOfDev s.dev c).ip s
  split
  · simp
  · simp
  · rename_i s1 hs; rw [hs] at h1
    split
    · have h2 := fetchHalf_fetched c (ipAdd (coreOfDev s.dev c).ip 1) s1
      split
      · simp
      · simp
      · rename_i s2 hs2; rw [hs2] at h2; exact fun _ => (h1.trans h2).trans (fetchDone_fetched ..)
    · exact fun _ => h1.trans (fetchDone_fetched ..)

theorem fetchOnce_fetched {c len : Nat} {s : State} (h : (fetchOnce c len s).2 = true) : Fetched c s (fetchOnce c len s).1 := by
  unfold fetchOnce at h ⊢; dsimp only at h ⊢; split
  · exact Fetched.refl c s
  · rw [if_neg ‹_›] at h; exact fetchInstr_fetched h

/-- What a spent step or breakpoint leaves: the registers of every core, the memories and Galley. -/
theorem debugStop_regs (d : Dev) (c : Nat) (ip : Option Nat) (c' : Nat) :
    let k := coreOfDev (debugStop d c ip) c'
    k.ctx = (coreOfDev d c').ctx ∧ k.f = (coreOfDev d c').f ∧ k.fpsr = (coreOfDev d c').fpsr := by
  by_cases hc : c' = c
  · subst hc; unfold debugStop debugHalt; dsimp only; split
    · simp [coreOfDev_setCore_same]
    · rw [coreOfDev_congr (raiseEvt_core ..)]; simp [coreOfDev_setCore_same]
  · unfold debugStop debugHalt; dsimp only; split
    · simp [coreOfDev_setCore_ne _ _ hc]
    · rw [coreOfDev_congr (raiseEvt_core ..)]; simp [coreOfDev_setCore_ne _ _ hc]

@[simp] theorem debugStop_rstc (d : Dev) (c : Nat) (ip : Option Nat) : (debugStop d c ip).rstc = d.rstc := by
  unfold debugStop debugHalt; dsimp only; split <;> simp

@[simp] theorem debugStop_galley (d : Dev) (c : Nat) (ip : Option Nat) : (debugStop d c ip).galley = d.galley := by
  unfold debugStop debugHalt; dsimp only; split <;> simp

theorem spendStep_regs (d : Dev) (c c' : Nat) :
    let k := coreOfDev (spendStep d c) c'
    k.ctx = (coreOfDev d c').ctx ∧ k.f = (coreOfDev d c').f ∧ k.fpsr = (coreOfDev d c').fpsr := by
  have hset : ∀ (d : Dev) (k : CoreSt), k.ctx = (coreOfDev d c).ctx → k.f = (coreOfDev d c).f → k.fpsr = (coreOfDev d c).fpsr →
      (coreOfDev (setCore d c k) c').ctx = (coreOfDev d c').ctx ∧ (coreOfDev (setCore d c k) c').f = (coreOfDev d c').f ∧
      (coreOfDev (setCore d c k) c').fpsr = (coreOfDev d c').fpsr := by
    intro d k h1 h2 h3
    by_cases hc : c' = c
    · subst hc; rw [coreOfDev_setCore_same]; exact ⟨h1, h2, h3⟩
    · rw [coreOfDev_setCore_ne _ _ hc]; exact ⟨rfl, rfl, rfl⟩
  unfold spendStep; dsimp only
  have e1 : ∀ c'', let d1 := (if (coreOfDev d c).bpSkip = true then setCore d c { coreOfDev d c with bpSkip := false } else d)
      (coreOfDev d1 c'').ctx = (coreOfDev d c'').ctx ∧ (coreOfDev d1 c'').f = (coreOfDev d c'').f ∧ (coreOfDev d1 c'').fpsr = (coreOfDev d c'').fpsr := by
    intro c''; dsimp only; split
    · by_cases hc : c'' = c
      · subst hc; rw [coreOfDev_setCore_same]; exact ⟨rfl, rfl, rfl⟩
      · rw [coreOfDev_setCore_ne _ _ hc]; exact ⟨rfl, rfl, rfl⟩
    · exact ⟨rfl, rfl, rfl⟩
  generalize (if (coreOfDev d c).bpSkip = true then setCore d c { coreOfDev d c with bpSkip := false } else d) = d1 at e1 ⊢
  split
  · have hd := debugStop_regs (setCore d1 c { coreOfDev d1 c with halted := false }) c none c'
    have hs := hset d1 { coreOfDev d1 c with halted := false } rfl rfl rfl
    have he := e1 c'
    exact ⟨hd.1.trans (hs.1.trans he.1), hd.2.1.trans (hs.2.1.trans he.2.1), hd.2.2.trans (hs.2.2.trans he.2.2)⟩
  · exact e1 c'

/-- Other cores' records stay whole. -/
theorem spendStep_others (d : Dev) {c c' : Nat} (hc : c' ≠ c) : coreOfDev (spendStep d c) c' = coreOfDev d c' := by
  unfold spendStep debugStop debugHalt; dsimp only
  repeat' split
  all_goals simp [coreOfDev_setCore_ne _ _ hc, coreOfDev_congr (raiseEvt_core ..)]

@[simp] theorem spendStep_rstc (d : Dev) (c : Nat) : (spendStep d c).rstc = d.rstc := by
  unfold spendStep; dsimp only; repeat' split
  all_goals simp

@[simp] theorem spendStep_galley (d : Dev) (c : Nat) : (spendStep d c).galley = d.galley := by
  unfold spendStep; dsimp only; repeat' split
  all_goals simp

/-! ### What settles after a command -/

@[simp] theorem evalUpdate_core (d : Dev) : (evalUpdate d).core = d.core := by
  unfold evalUpdate secEvt; dsimp only; repeat' split
  all_goals simp
@[simp] theorem evalUpdate_now (d : Dev) : (evalUpdate d).now = d.now := by
  unfold evalUpdate secEvt raiseEvt drive; dsimp only; repeat' split
  all_goals simp

/-- With no put waiting, only EVAL settles. -/
theorem settle_calm {s : State} (h : s.dev.galley.waiters = []) : settle s = onD s evalUpdate := by
  simp [settle, dropWaiters, h]

/-- A calm machine does a command by its function and lets EVAL follow, where the function leaves no put waiting. -/
theorem onState_calm {s : State} (f : State → State) (hc : Calm s) (hw : (f s).dev.galley.waiters = [])
    (hm : (f s).dev.rstc.parkEntry = false) :
    onState f s = .next { onD (f s) evalUpdate with pending := s.pending } := by
  have hr : resetFirst s = s := by simp [resetFirst, hc.noReset]
  have hv : voteUse s = s := by simp [voteUse, hc.agree]
  have hp : parkFinish (f s) = f s := by simp [parkFinish, hm]
  rw [onState, hr, hv, hp, settle_calm hw]

end Sys2Proof.Machine
end

