-- ==== Sys2Proof/Laws/Dev.lean ====
section
/-!
SUPPORT. What the named operations over folio registers do to a register's value and to the other parts of the device,
while no register copy is upset.
-/
namespace Sys2Proof.Machine

variable {d e : Dev}

/-! ### Bit fields -/

theorem testBit_fld (w : Word) (hi lo j : Nat) : (fld w hi lo).testBit j = (decide (j < hi + 1 - lo) && w.getLsbD (lo + j)) := by
  simp [fld, Nat.testBit_mod_two_pow, Nat.testBit_shiftRight, BitVec.getLsbD]

theorem getLsbD_maskOf (hi lo j : Nat) : (maskOf hi lo).getLsbD j = decide (j < 36 ∧ lo ≤ j ∧ j < lo + (hi + 1 - lo)) := by
  simp only [maskOf, BitVec.getLsbD_ofNat, Nat.testBit_shiftLeft, Nat.testBit_two_pow_sub_one]
  rw [Bool.eq_iff_iff]; simp; omega

theorem getLsbD_setFld (w : Word) (hi lo v j : Nat) : (setFld w hi lo v).getLsbD j =
    if j < 36 ∧ lo ≤ j ∧ j < lo + (hi + 1 - lo) then v.testBit (j - lo) else w.getLsbD j := by
  simp only [setFld, BitVec.getLsbD_or, BitVec.getLsbD_and, BitVec.getLsbD_not, getLsbD_maskOf, BitVec.getLsbD_ofNat,
    Nat.testBit_shiftLeft, Nat.testBit_mod_two_pow]
  by_cases h : j < 36 ∧ lo ≤ j ∧ j < lo + (hi + 1 - lo)
  · rw [if_pos h]
    have h3 : j - lo < hi + 1 - lo := by omega
    simp [h.1, h.2.1, h3, h.2.2]
  · rw [if_neg h]
    by_cases hj : j < 36
    · have : ¬ (lo ≤ j ∧ j - lo < hi + 1 - lo) := by omega
      by_cases hl : lo ≤ j
      · have h4 : ¬ (j - lo < hi + 1 - lo) := by omega
        have h5 : ¬ (j < lo + (hi + 1 - lo)) := by omega
        simp [hj, hl, h4, h5]
      · simp [hj, hl]
    · have : w.getLsbD j = false := BitVec.getLsbD_of_ge w j (by omega)
      simp [hj, this]

/-- A field written is read back, cut to its width. -/
@[simp] theorem fld_setFld_same (w : Word) {hi lo : Nat} (v : Nat) (h : hi < 36) : fld (setFld w hi lo v) hi lo = v % 2 ^ (hi + 1 - lo) := by
  apply Nat.eq_of_testBit_eq; intro j
  rw [testBit_fld, getLsbD_setFld, Nat.testBit_mod_two_pow]
  by_cases hj : j < hi + 1 - lo
  · rw [if_pos (by omega)]; simp [hj]
  · simp [hj]

/-- Another field keeps its value. -/
theorem fld_setFld_ne (w : Word) {hi lo hi' lo' : Nat} (v : Nat) (h : hi < lo' ∨ hi' < lo) : fld (setFld w hi lo v) hi' lo' = fld w hi' lo' := by
  apply Nat.eq_of_testBit_eq; intro j
  rw [testBit_fld, testBit_fld, getLsbD_setFld]
  by_cases hj : j < hi' + 1 - lo'
  · rw [if_neg (by omega)]
  · simp [hj]

@[simp] theorem bit_setBitW_same (w : Word) {i : Nat} (b : Bool) (h : i < 36) : bit (setBitW w i b) i = b := by
  simp only [bit, setBitW, getLsbD_setFld]; rw [if_pos (by omega)]; cases b <;> simp

theorem bit_setBitW_ne (w : Word) {i j : Nat} (b : Bool) (h : j ≠ i) : bit (setBitW w i b) j = bit w j := by
  simp only [bit, setBitW, getLsbD_setFld]; rw [if_neg (by omega)]

theorem bit_setFld_ne (w : Word) {hi lo j : Nat} (v : Nat) (h : j < lo ∨ hi < j) : bit (setFld w hi lo v) j = bit w j := by
  simp only [bit, getLsbD_setFld]; rw [if_neg (by omega)]

/-! ### Registers while no copy is upset -/

@[simp] theorem wr_copies (h : d.folio.copies = []) (k : Nat) (v : Word) : (wr d k v).folio.copies = [] := wr_clean h k v
@[simp] theorem pf_copies (h : d.folio.copies = []) (f : Fd) (n : Nat) : (pf d f n).folio.copies = [] := wr_clean h ..
@[simp] theorem pb_copies (h : d.folio.copies = []) (f : Fd) (b : Bool) : (pb d f b).folio.copies = [] := wr_clean h ..
@[simp] theorem incF_copies (h : d.folio.copies = []) (f : Fd) (n : Nat) : (incF d f n).folio.copies = [] := wr_clean h ..
@[simp] theorem pbit_copies (h : d.folio.copies = []) (f : Fd) (i : Nat) (b : Bool) : (pbit d f i b).folio.copies = [] := by
  unfold pbit; split
  · exact wr_clean h ..
  · exact h
@[simp] theorem drive_folio (n : Nat) : (drive d n).folio = d.folio := rfl
@[simp] theorem rd_drive (n k : Nat) : rd (drive d n) k = rd d k := rfl

theorem rd_wr (h : d.folio.copies = []) (k : Nat) (v : Word) (k' : Nat) : rd (wr d k v) k' = if k' = k then v else rd d k' := by
  split
  · subst k'; exact rd_wr_same h k v
  · exact rd_wr_ne h v ‹_›
theorem rd_pf (h : d.folio.copies = []) (f : Fd) (n k : Nat) :
    rd (pf d f n) k = if k = f.reg then setFld (rd d f.reg) f.hi f.lo n else rd d k := rd_wr h ..
theorem rd_pb (h : d.folio.copies = []) (f : Fd) (b : Bool) (k : Nat) :
    rd (pb d f b) k = if k = f.reg then setFld (rd d f.reg) f.hi f.lo b.toNat else rd d k := rd_wr h ..
theorem rd_incF (h : d.folio.copies = []) (f : Fd) (n k : Nat) :
    rd (incF d f n) k = if k = f.reg then setFld (rd d f.reg) f.hi f.lo (satAdd (f.hi + 1 - f.lo) (gf d f) n) else rd d k := rd_wr h ..
theorem rd_pbit (h : d.folio.copies = []) (f : Fd) (i : Nat) (b : Bool) (k : Nat) :
    rd (pbit d f i b) k = if k = f.reg ∧ i ≤ f.hi - f.lo then setBitW (rd d f.reg) (f.lo + i) b else rd d k := by
  unfold pbit
  by_cases hi : i ≤ f.hi - f.lo
  · rw [if_pos hi, rd_wr h]; simp [hi]
  · rw [if_neg hi]; simp [hi]

/-- An event raised: its bit, and at most a pulse. -/
theorem raiseEvt_cases (p b : Nat) : raiseEvt d p b = pbit d (FOLIO_EVT.BLK p) b true ∨ ∃ n, raiseEvt d p b = drive (pbit d (FOLIO_EVT.BLK p) b true) n := by
  unfold raiseEvt; dsimp only
  repeat' split
  all_goals first | exact .inl rfl | exact .inr ⟨_, rfl⟩
@[simp] theorem raiseEvt_copies (h : d.folio.copies = []) (p b : Nat) : (raiseEvt d p b).folio.copies = [] := by
  obtain h' | ⟨n, h'⟩ := raiseEvt_cases (d := d) p b <;> rw [h'] <;> simp [h]
theorem rd_raiseEvt (h : d.folio.copies = []) (p b k : Nat) :
    rd (raiseEvt d p b) k = if k = FOLIO_EVT.at p ∧ b ≤ 31 then setBitW (rd d (FOLIO_EVT.at p)) b true else rd d k := by
  have e : (FOLIO_EVT.BLK p).reg = FOLIO_EVT.at p ∧ (FOLIO_EVT.BLK p).hi = 31 ∧ (FOLIO_EVT.BLK p).lo = 0 := ⟨rfl, rfl, rfl⟩
  obtain h' | ⟨n, h'⟩ := raiseEvt_cases (d := d) p b <;> rw [h'] <;> simp [rd_pbit h, e.1, e.2.1, e.2.2]

/-! ### The other parts -/

theorem sameOn_refl (p : Part) (d : Dev) : sameOn p d d := by cases p <;> rfl
theorem sameOn_trans {p : Part} {a b c : Dev} (h : sameOn p a b) (h' : sameOn p b c) : sameOn p a c := by
  cases p <;> simp only [sameOn] at * <;> exact h.trans h'
theorem sameOn_symm {p : Part} {a b : Dev} (h : sameOn p a b) : sameOn p b a := by
  cases p <;> simp only [sameOn] at * <;> exact h.symm

theorem folio_eq_of_clean {f : FolioSt} (h : f.copies = []) (k : Nat) : { f with copies := tabErase f.copies k } = f := by
  cases f; simp only at h; subst h; rfl

@[simp] theorem sameOn_wr (h : d.folio.copies = []) (p : Part) (k : Nat) (v : Word) : sameOn p (wr d k v) e ↔ sameOn p d e := by
  cases p <;> simp only [sameOn, wr, folio_eq_of_clean h]
@[simp] theorem sameOn_pf (h : d.folio.copies = []) (p : Part) (f : Fd) (n : Nat) : sameOn p (pf d f n) e ↔ sameOn p d e := sameOn_wr h ..
@[simp] theorem sameOn_pb (h : d.folio.copies = []) (p : Part) (f : Fd) (b : Bool) : sameOn p (pb d f b) e ↔ sameOn p d e := sameOn_wr h ..
@[simp] theorem sameOn_incF (h : d.folio.copies = []) (p : Part) (f : Fd) (n : Nat) : sameOn p (incF d f n) e ↔ sameOn p d e := sameOn_wr h ..
@[simp] theorem sameOn_pbit (h : d.folio.copies = []) (p : Part) (f : Fd) (i : Nat) (b : Bool) : sameOn p (pbit d f i b) e ↔ sameOn p d e := by
  unfold pbit; split
  · exact sameOn_wr h ..
  · rfl
@[simp] theorem sameOn_drive (p : Part) (n : Nat) : sameOn p (drive d n) e ↔ sameOn p d e := by cases p <;> simp only [sameOn, drive]
@[simp] theorem sameOn_raiseEvt (h : d.folio.copies = []) (p : Part) (g b : Nat) : sameOn p (raiseEvt d g b) e ↔ sameOn p d e := by
  obtain h' | ⟨n, h'⟩ := raiseEvt_cases (d := d) g b <;> rw [h'] <;> simp [h]
@[simp] theorem sameOn_withMerid {p : Part} (h : p ≠ .merid) (f : MeridSt → MeridSt) : sameOn p (withMerid d f) e ↔ sameOn p d e := by
  cases p <;> first | rfl | exact absurd rfl h
@[simp] theorem sameOn_withPace {p : Part} (h : p ≠ .pace) (f : PaceSt → PaceSt) : sameOn p (withPace d f) e ↔ sameOn p d e := by
  cases p <;> first | rfl | exact absurd rfl h
@[simp] theorem sameOn_withCba {p : Part} (h : p ≠ .cba) (f : CbaSt → CbaSt) : sameOn p (withCba d f) e ↔ sameOn p d e := by
  cases p <;> first | rfl | exact absurd rfl h
@[simp] theorem sameOn_withRstc {p : Part} (h : p ≠ .rstc) (f : RstcSt → RstcSt) : sameOn p (withRstc d f) e ↔ sameOn p d e := by
  cases p <;> first | rfl | exact absurd rfl h
@[simp] theorem sameOn_withEvc {p : Part} (h : p ≠ .evc) (f : EvcSt → EvcSt) : sameOn p (withEvc d f) e ↔ sameOn p d e := by
  cases p <;> first | rfl | exact absurd rfl h
@[simp] theorem sameOn_withFolio {p : Part} (h : p ≠ .folio) (f : FolioSt → FolioSt) : sameOn p (withFolio d f) e ↔ sameOn p d e := by
  cases p <;> first | rfl | exact absurd rfl h
@[simp] theorem rd_withFolio {f : FolioSt → FolioSt} (h : (f d.folio).copies = d.folio.copies) (k : Nat) : rd (withFolio d f) k = rd d k := by
  simp [rd, withFolio, voteUnitOf, copyOf, h]; rfl
@[simp] theorem sameOn_withFlash {p : Part} (h : p ≠ .flash) (f : FlashSt → FlashSt) : sameOn p (withFlash d f) e ↔ sameOn p d e := by
  cases p <;> first | rfl | exact absurd rfl h
@[simp] theorem sameOn_withGalley {p : Part} (h : p ≠ .galley) (f : GalleySt → GalleySt) : sameOn p (withGalley d f) e ↔ sameOn p d e := by
  cases p <;> first | rfl | exact absurd rfl h
@[simp] theorem sameOn_withHost {p : Part} (h : p ≠ .host) (f : HostSt → HostSt) : sameOn p (withHost d f) e ↔ sameOn p d e := by
  cases p <;> first | rfl | exact absurd rfl h
@[simp] theorem sameOn_withJtag {p : Part} (h : p ≠ .jtag) (f : JtagSt → JtagSt) : sameOn p (withJtag d f) e ↔ sameOn p d e := by
  cases p <;> first | rfl | exact absurd rfl h
@[simp] theorem sameOn_withFab {p : Part} (h : p ≠ .fab) (f : FabSt → FabSt) : sameOn p (withFab d f) e ↔ sameOn p d e := by
  cases p <;> first | rfl | exact absurd rfl h
@[simp] theorem sameOn_withSec {p : Part} (h : p ≠ .sec) (f : SecSt → SecSt) : sameOn p (withSec d f) e ↔ sameOn p d e := by
  cases p <;> first | rfl | exact absurd rfl h
@[simp] theorem sameOn_withTwin {p : Part} (h : p ≠ .twin) (f : TwinSt → TwinSt) : sameOn p (withTwin d f) e ↔ sameOn p d e := by
  cases p <;> first | rfl | exact absurd rfl h
@[simp] theorem sameOn_withTrip {p : Part} (h : p ≠ .trip) (f : TripSt → TripSt) : sameOn p (withTrip d f) e ↔ sameOn p d e := by
  cases p <;> first | rfl | exact absurd rfl h
@[simp] theorem sameOn_withBrng {p : Part} (h : p ≠ .brng) (u : Nat) (f : BrngSt → BrngSt) : sameOn p (withBrng d u f) e ↔ sameOn p d e := by
  cases p <;> first | rfl | exact absurd rfl h
@[simp] theorem sameOn_withComp {p : Part} (h : p ≠ .comp) (u : Nat) (f : CompSt → CompSt) : sameOn p (withComp d u f) e ↔ sameOn p d e := by
  cases p <;> first | rfl | exact absurd rfl h
@[simp] theorem sameOn_withForme {p : Part} (h : p ≠ .forme) (u : Nat) (f : FormeSt → FormeSt) : sameOn p (withForme d u f) e ↔ sameOn p d e := by
  cases p <;> first | rfl | exact absurd rfl h
@[simp] theorem sameOn_withPress {p : Part} (h : p ≠ .press) (u : Nat) (f : PressSt → PressSt) : sameOn p (withPress d u f) e ↔ sameOn p d e := by
  cases p <;> first | rfl | exact absurd rfl h
@[simp] theorem sameOn_withEth {p : Part} (h : p ≠ .eth) (u : Nat) (f : EthSt → EthSt) : sameOn p (withEth d u f) e ↔ sameOn p d e := by
  cases p <;> first | rfl | exact absurd rfl h
@[simp] theorem sameOn_withCan {p : Part} (h : p ≠ .can) (u : Nat) (f : CanSt → CanSt) : sameOn p (withCan d u f) e ↔ sameOn p d e := by
  cases p <;> first | rfl | exact absurd rfl h
@[simp] theorem sameOn_withSer {p : Part} (h : p ≠ .ser) (u : Nat) (f : SerSt → SerSt) : sameOn p (withSer d u f) e ↔ sameOn p d e := by
  cases p <;> first | rfl | exact absurd rfl h
@[simp] theorem sameOn_withSurv {p : Part} (h : p ≠ .surv) (u : Nat) (f : SurvSt → SurvSt) : sameOn p (withSurv d u f) e ↔ sameOn p d e := by
  cases p <;> first | rfl | exact absurd rfl h
@[simp] theorem sameOn_withSdf {p : Part} (h : p ≠ .sdf) (u : Nat) (f : SdfSt → SdfSt) : sameOn p (withSdf d u f) e ↔ sameOn p d e := by
  cases p <;> first | rfl | exact absurd rfl h
@[simp] theorem sameOn_withFd {p : Part} (h : p ≠ .fd) (u : Nat) (f : FdSt → FdSt) : sameOn p (withFd d u f) e ↔ sameOn p d e := by
  cases p <;> first | rfl | exact absurd rfl h
@[simp] theorem sameOn_withTrav {p : Part} (h : p ≠ .trav) (u : Nat) (f : TravSt → TravSt) : sameOn p (withTrav d u f) e ↔ sameOn p d e := by
  cases p <;> first | rfl | exact absurd rfl h
@[simp] theorem sameOn_withCore {p : Part} (h : p ≠ .core) (u : Nat) (f : CoreSt → CoreSt) : sameOn p (withCore d u f) e ↔ sameOn p d e := by
  cases p <;> first | rfl | exact absurd rfl h
@[simp] theorem rd_withCore (u : Nat) (f : CoreSt → CoreSt) (k : Nat) : rd (withCore d u f) k = rd d k := rfl
@[simp] theorem withCore_folio (u : Nat) (f : CoreSt → CoreSt) : (withCore d u f).folio = d.folio := rfl

/-! ### Events leave the records alone -/

@[simp] theorem raiseEvt_now (p b : Nat) : (raiseEvt d p b).now = d.now := by
  obtain h' | ⟨n, h'⟩ := raiseEvt_cases (d := d) p b <;> rw [h'] <;> unfold pbit <;> split <;> rfl
@[simp] theorem incF_now (x : Fd) (n : Nat) : (incF d x n).now = d.now := rfl
@[simp] theorem drive_now (n : Nat) : (drive d n).now = d.now := rfl
@[simp] theorem raiseEvt_merid (p b : Nat) : (raiseEvt d p b).merid = d.merid := by
  obtain h' | ⟨n, h'⟩ := raiseEvt_cases (d := d) p b <;> rw [h'] <;> unfold pbit <;> split <;> rfl
@[simp] theorem incF_merid (x : Fd) (n : Nat) : (incF d x n).merid = d.merid := rfl
@[simp] theorem drive_merid (n : Nat) : (drive d n).merid = d.merid := rfl
@[simp] theorem raiseEvt_pace (p b : Nat) : (raiseEvt d p b).pace = d.pace := by
  obtain h' | ⟨n, h'⟩ := raiseEvt_cases (d := d) p b <;> rw [h'] <;> unfold pbit <;> split <;> rfl
@[simp] theorem incF_pace (x : Fd) (n : Nat) : (incF d x n).pace = d.pace := rfl
@[simp] theorem drive_pace (n : Nat) : (drive d n).pace = d.pace := rfl
@[simp] theorem raiseEvt_cba (p b : Nat) : (raiseEvt d p b).cba = d.cba := by
  obtain h' | ⟨n, h'⟩ := raiseEvt_cases (d := d) p b <;> rw [h'] <;> unfold pbit <;> split <;> rfl
@[simp] theorem incF_cba (x : Fd) (n : Nat) : (incF d x n).cba = d.cba := rfl
@[simp] theorem drive_cba (n : Nat) : (drive d n).cba = d.cba := rfl
@[simp] theorem raiseEvt_brng (p b : Nat) : (raiseEvt d p b).brng = d.brng := by
  obtain h' | ⟨n, h'⟩ := raiseEvt_cases (d := d) p b <;> rw [h'] <;> unfold pbit <;> split <;> rfl
@[simp] theorem incF_brng (x : Fd) (n : Nat) : (incF d x n).brng = d.brng := rfl
@[simp] theorem drive_brng (n : Nat) : (drive d n).brng = d.brng := rfl
@[simp] theorem raiseEvt_eth (p b : Nat) : (raiseEvt d p b).eth = d.eth := by
  obtain h' | ⟨n, h'⟩ := raiseEvt_cases (d := d) p b <;> rw [h'] <;> unfold pbit <;> split <;> rfl
@[simp] theorem incF_eth (x : Fd) (n : Nat) : (incF d x n).eth = d.eth := rfl
@[simp] theorem drive_eth (n : Nat) : (drive d n).eth = d.eth := rfl
@[simp] theorem raiseEvt_can (p b : Nat) : (raiseEvt d p b).can = d.can := by
  obtain h' | ⟨n, h'⟩ := raiseEvt_cases (d := d) p b <;> rw [h'] <;> unfold pbit <;> split <;> rfl
@[simp] theorem incF_can (x : Fd) (n : Nat) : (incF d x n).can = d.can := rfl
@[simp] theorem drive_can (n : Nat) : (drive d n).can = d.can := rfl
@[simp] theorem raiseEvt_ser (p b : Nat) : (raiseEvt d p b).ser = d.ser := by
  obtain h' | ⟨n, h'⟩ := raiseEvt_cases (d := d) p b <;> rw [h'] <;> unfold pbit <;> split <;> rfl
@[simp] theorem incF_ser (x : Fd) (n : Nat) : (incF d x n).ser = d.ser := rfl
@[simp] theorem drive_ser (n : Nat) : (drive d n).ser = d.ser := rfl
@[simp] theorem raiseEvt_jtag (p b : Nat) : (raiseEvt d p b).jtag = d.jtag := by
  obtain h' | ⟨n, h'⟩ := raiseEvt_cases (d := d) p b <;> rw [h'] <;> unfold pbit <;> split <;> rfl
@[simp] theorem incF_jtag (x : Fd) (n : Nat) : (incF d x n).jtag = d.jtag := rfl
@[simp] theorem drive_jtag (n : Nat) : (drive d n).jtag = d.jtag := rfl
@[simp] theorem raiseEvt_fab (p b : Nat) : (raiseEvt d p b).fab = d.fab := by
  obtain h' | ⟨n, h'⟩ := raiseEvt_cases (d := d) p b <;> rw [h'] <;> unfold pbit <;> split <;> rfl
@[simp] theorem incF_fab (x : Fd) (n : Nat) : (incF d x n).fab = d.fab := rfl
@[simp] theorem drive_fab (n : Nat) : (drive d n).fab = d.fab := rfl
@[simp] theorem raiseEvt_memp (p b : Nat) : (raiseEvt d p b).memp = d.memp := by
  obtain h' | ⟨n, h'⟩ := raiseEvt_cases (d := d) p b <;> rw [h'] <;> unfold pbit <;> split <;> rfl
@[simp] theorem incF_memp (x : Fd) (n : Nat) : (incF d x n).memp = d.memp := rfl
@[simp] theorem drive_memp (n : Nat) : (drive d n).memp = d.memp := rfl
@[simp] theorem raiseEvt_flash (p b : Nat) : (raiseEvt d p b).flash = d.flash := by
  obtain h' | ⟨n, h'⟩ := raiseEvt_cases (d := d) p b <;> rw [h'] <;> unfold pbit <;> split <;> rfl
@[simp] theorem incF_flash (x : Fd) (n : Nat) : (incF d x n).flash = d.flash := rfl
@[simp] theorem drive_flash (n : Nat) : (drive d n).flash = d.flash := rfl
@[simp] theorem raiseEvt_latch (p b : Nat) : (raiseEvt d p b).latch = d.latch := by
  obtain h' | ⟨n, h'⟩ := raiseEvt_cases (d := d) p b <;> rw [h'] <;> unfold pbit <;> split <;> rfl
@[simp] theorem incF_latch (x : Fd) (n : Nat) : (incF d x n).latch = d.latch := rfl
@[simp] theorem drive_latch (n : Nat) : (drive d n).latch = d.latch := rfl
@[simp] theorem raiseEvt_guard (p b : Nat) : (raiseEvt d p b).guard = d.guard := by
  obtain h' | ⟨n, h'⟩ := raiseEvt_cases (d := d) p b <;> rw [h'] <;> unfold pbit <;> split <;> rfl
@[simp] theorem incF_guard (x : Fd) (n : Nat) : (incF d x n).guard = d.guard := rfl
@[simp] theorem drive_guard (n : Nat) : (drive d n).guard = d.guard := rfl
@[simp] theorem raiseEvt_surv (p b : Nat) : (raiseEvt d p b).surv = d.surv := by
  obtain h' | ⟨n, h'⟩ := raiseEvt_cases (d := d) p b <;> rw [h'] <;> unfold pbit <;> split <;> rfl
@[simp] theorem incF_surv (x : Fd) (n : Nat) : (incF d x n).surv = d.surv := rfl
@[simp] theorem drive_surv (n : Nat) : (drive d n).surv = d.surv := rfl
@[simp] theorem raiseEvt_sdf (p b : Nat) : (raiseEvt d p b).sdf = d.sdf := by
  obtain h' | ⟨n, h'⟩ := raiseEvt_cases (d := d) p b <;> rw [h'] <;> unfold pbit <;> split <;> rfl
@[simp] theorem incF_sdf (x : Fd) (n : Nat) : (incF d x n).sdf = d.sdf := rfl
@[simp] theorem drive_sdf (n : Nat) : (drive d n).sdf = d.sdf := rfl
@[simp] theorem raiseEvt_trigDue (p b : Nat) : (raiseEvt d p b).trigDue = d.trigDue := by
  obtain h' | ⟨n, h'⟩ := raiseEvt_cases (d := d) p b <;> rw [h'] <;> unfold pbit <;> split <;> rfl
@[simp] theorem incF_trigDue (x : Fd) (n : Nat) : (incF d x n).trigDue = d.trigDue := rfl
@[simp] theorem drive_trigDue (n : Nat) : (drive d n).trigDue = d.trigDue := rfl
@[simp] theorem raiseEvt_offers (p b : Nat) : (raiseEvt d p b).offers = d.offers := by
  obtain h' | ⟨n, h'⟩ := raiseEvt_cases (d := d) p b <;> rw [h'] <;> unfold pbit <;> split <;> rfl
@[simp] theorem incF_offers (x : Fd) (n : Nat) : (incF d x n).offers = d.offers := rfl
@[simp] theorem drive_offers (n : Nat) : (drive d n).offers = d.offers := rfl
@[simp] theorem raiseEvt_arrivals (p b : Nat) : (raiseEvt d p b).arrivals = d.arrivals := by
  obtain h' | ⟨n, h'⟩ := raiseEvt_cases (d := d) p b <;> rw [h'] <;> unfold pbit <;> split <;> rfl
@[simp] theorem incF_arrivals (x : Fd) (n : Nat) : (incF d x n).arrivals = d.arrivals := rfl
@[simp] theorem drive_arrivals (n : Nat) : (drive d n).arrivals = d.arrivals := rfl
@[simp] theorem raiseEvt_vddaLow (p b : Nat) : (raiseEvt d p b).vddaLow = d.vddaLow := by
  obtain h' | ⟨n, h'⟩ := raiseEvt_cases (d := d) p b <;> rw [h'] <;> unfold pbit <;> split <;> rfl
@[simp] theorem incF_vddaLow (x : Fd) (n : Nat) : (incF d x n).vddaLow = d.vddaLow := rfl
@[simp] theorem drive_vddaLow (n : Nat) : (drive d n).vddaLow = d.vddaLow := rfl
@[simp] theorem raiseEvt_comp (p b : Nat) : (raiseEvt d p b).comp = d.comp := by
  obtain h' | ⟨n, h'⟩ := raiseEvt_cases (d := d) p b <;> rw [h'] <;> unfold pbit <;> split <;> rfl
@[simp] theorem incF_comp (x : Fd) (n : Nat) : (incF d x n).comp = d.comp := rfl
@[simp] theorem drive_comp (n : Nat) : (drive d n).comp = d.comp := rfl
@[simp] theorem raiseEvt_contFrom (p b : Nat) : (raiseEvt d p b).contFrom = d.contFrom := by
  obtain h' | ⟨n, h'⟩ := raiseEvt_cases (d := d) p b <;> rw [h'] <;> unfold pbit <;> split <;> rfl
@[simp] theorem incF_contFrom (x : Fd) (n : Nat) : (incF d x n).contFrom = d.contFrom := rfl
@[simp] theorem drive_contFrom (n : Nat) : (drive d n).contFrom = d.contFrom := rfl
@[simp] theorem raiseEvt_fd (p b : Nat) : (raiseEvt d p b).fd = d.fd := by
  obtain h' | ⟨n, h'⟩ := raiseEvt_cases (d := d) p b <;> rw [h'] <;> unfold pbit <;> split <;> rfl
@[simp] theorem incF_fd (x : Fd) (n : Nat) : (incF d x n).fd = d.fd := rfl
@[simp] theorem drive_fd (n : Nat) : (drive d n).fd = d.fd := rfl
@[simp] theorem raiseEvt_trigRaw (p b : Nat) : (raiseEvt d p b).trigRaw = d.trigRaw := by
  obtain h' | ⟨n, h'⟩ := raiseEvt_cases (d := d) p b <;> rw [h'] <;> unfold pbit <;> split <;> rfl
@[simp] theorem incF_trigRaw (x : Fd) (n : Nat) : (incF d x n).trigRaw = d.trigRaw := rfl
@[simp] theorem drive_trigRaw (n : Nat) : (drive d n).trigRaw = d.trigRaw := rfl
@[simp] theorem raiseEvt_landings (p b : Nat) : (raiseEvt d p b).landings = d.landings := by
  obtain h' | ⟨n, h'⟩ := raiseEvt_cases (d := d) p b <;> rw [h'] <;> unfold pbit <;> split <;> rfl
@[simp] theorem incF_landings (x : Fd) (n : Nat) : (incF d x n).landings = d.landings := rfl
@[simp] theorem drive_landings (n : Nat) : (drive d n).landings = d.landings := rfl
@[simp] theorem raiseEvt_ain (p b : Nat) : (raiseEvt d p b).ain = d.ain := by
  obtain h' | ⟨n, h'⟩ := raiseEvt_cases (d := d) p b <;> rw [h'] <;> unfold pbit <;> split <;> rfl
@[simp] theorem incF_ain (x : Fd) (n : Nat) : (incF d x n).ain = d.ain := rfl
@[simp] theorem drive_ain (n : Nat) : (drive d n).ain = d.ain := rfl
@[simp] theorem raiseEvt_trip (p b : Nat) : (raiseEvt d p b).trip = d.trip := by
  obtain h' | ⟨n, h'⟩ := raiseEvt_cases (d := d) p b <;> rw [h'] <;> unfold pbit <;> split <;> rfl
@[simp] theorem incF_trip (x : Fd) (n : Nat) : (incF d x n).trip = d.trip := rfl
@[simp] theorem drive_trip (n : Nat) : (drive d n).trip = d.trip := rfl
@[simp] theorem raiseEvt_forme (p b : Nat) : (raiseEvt d p b).forme = d.forme := by
  obtain h' | ⟨n, h'⟩ := raiseEvt_cases (d := d) p b <;> rw [h'] <;> unfold pbit <;> split <;> rfl
@[simp] theorem incF_forme (x : Fd) (n : Nat) : (incF d x n).forme = d.forme := rfl
@[simp] theorem drive_forme (n : Nat) : (drive d n).forme = d.forme := rfl
@[simp] theorem raiseEvt_trav (p b : Nat) : (raiseEvt d p b).trav = d.trav := by
  obtain h' | ⟨n, h'⟩ := raiseEvt_cases (d := d) p b <;> rw [h'] <;> unfold pbit <;> split <;> rfl
@[simp] theorem incF_trav (x : Fd) (n : Nat) : (incF d x n).trav = d.trav := rfl
@[simp] theorem drive_trav (n : Nat) : (drive d n).trav = d.trav := rfl
@[simp] theorem raiseEvt_press (p b : Nat) : (raiseEvt d p b).press = d.press := by
  obtain h' | ⟨n, h'⟩ := raiseEvt_cases (d := d) p b <;> rw [h'] <;> unfold pbit <;> split <;> rfl
@[simp] theorem incF_press (x : Fd) (n : Nat) : (incF d x n).press = d.press := rfl
@[simp] theorem drive_press (n : Nat) : (drive d n).press = d.press := rfl
@[simp] theorem raiseEvt_pressErr (p b : Nat) : (raiseEvt d p b).pressErr = d.pressErr := by
  obtain h' | ⟨n, h'⟩ := raiseEvt_cases (d := d) p b <;> rw [h'] <;> unfold pbit <;> split <;> rfl
@[simp] theorem incF_pressErr (x : Fd) (n : Nat) : (incF d x n).pressErr = d.pressErr := rfl
@[simp] theorem drive_pressErr (n : Nat) : (drive d n).pressErr = d.pressErr := rfl
@[simp] theorem raiseEvt_twin (p b : Nat) : (raiseEvt d p b).twin = d.twin := by
  obtain h' | ⟨n, h'⟩ := raiseEvt_cases (d := d) p b <;> rw [h'] <;> unfold pbit <;> split <;> rfl
@[simp] theorem incF_twin (x : Fd) (n : Nat) : (incF d x n).twin = d.twin := rfl
@[simp] theorem drive_twin (n : Nat) : (drive d n).twin = d.twin := rfl
@[simp] theorem raiseEvt_sec (p b : Nat) : (raiseEvt d p b).sec = d.sec := by
  obtain h' | ⟨n, h'⟩ := raiseEvt_cases (d := d) p b <;> rw [h'] <;> unfold pbit <;> split <;> rfl
@[simp] theorem incF_sec (x : Fd) (n : Nat) : (incF d x n).sec = d.sec := rfl
@[simp] theorem drive_sec (n : Nat) : (drive d n).sec = d.sec := rfl
@[simp] theorem raiseEvt_freeCount (p b : Nat) : (raiseEvt d p b).freeCount = d.freeCount := by
  obtain h' | ⟨n, h'⟩ := raiseEvt_cases (d := d) p b <;> rw [h'] <;> unfold pbit <;> split <;> rfl
@[simp] theorem incF_freeCount (x : Fd) (n : Nat) : (incF d x n).freeCount = d.freeCount := rfl
@[simp] theorem drive_freeCount (n : Nat) : (drive d n).freeCount = d.freeCount := rfl
@[simp] theorem wr_pace (k : Nat) (v : Word) : (wr d k v).pace = d.pace := rfl
@[simp] theorem pf_pace (x : Fd) (n : Nat) : (pf d x n).pace = d.pace := rfl
@[simp] theorem pb_pace (x : Fd) (b : Bool) : (pb d x b).pace = d.pace := rfl
@[simp] theorem pbit_pace (x : Fd) (i : Nat) (b : Bool) : (pbit d x i b).pace = d.pace := by unfold pbit; split <;> rfl
@[simp] theorem wr_cba (k : Nat) (v : Word) : (wr d k v).cba = d.cba := rfl
@[simp] theorem pf_cba (x : Fd) (n : Nat) : (pf d x n).cba = d.cba := rfl
@[simp] theorem pb_cba (x : Fd) (b : Bool) : (pb d x b).cba = d.cba := rfl
@[simp] theorem pbit_cba (x : Fd) (i : Nat) (b : Bool) : (pbit d x i b).cba = d.cba := by unfold pbit; split <;> rfl
@[simp] theorem wr_brng (k : Nat) (v : Word) : (wr d k v).brng = d.brng := rfl
@[simp] theorem pf_brng (x : Fd) (n : Nat) : (pf d x n).brng = d.brng := rfl
@[simp] theorem pb_brng (x : Fd) (b : Bool) : (pb d x b).brng = d.brng := rfl
@[simp] theorem pbit_brng (x : Fd) (i : Nat) (b : Bool) : (pbit d x i b).brng = d.brng := by unfold pbit; split <;> rfl
@[simp] theorem wr_eth (k : Nat) (v : Word) : (wr d k v).eth = d.eth := rfl
@[simp] theorem pf_eth (x : Fd) (n : Nat) : (pf d x n).eth = d.eth := rfl
@[simp] theorem pb_eth (x : Fd) (b : Bool) : (pb d x b).eth = d.eth := rfl
@[simp] theorem pbit_eth (x : Fd) (i : Nat) (b : Bool) : (pbit d x i b).eth = d.eth := by unfold pbit; split <;> rfl
@[simp] theorem wr_can (k : Nat) (v : Word) : (wr d k v).can = d.can := rfl
@[simp] theorem pf_can (x : Fd) (n : Nat) : (pf d x n).can = d.can := rfl
@[simp] theorem pb_can (x : Fd) (b : Bool) : (pb d x b).can = d.can := rfl
@[simp] theorem pbit_can (x : Fd) (i : Nat) (b : Bool) : (pbit d x i b).can = d.can := by unfold pbit; split <;> rfl
@[simp] theorem wr_ser (k : Nat) (v : Word) : (wr d k v).ser = d.ser := rfl
@[simp] theorem pf_ser (x : Fd) (n : Nat) : (pf d x n).ser = d.ser := rfl
@[simp] theorem pb_ser (x : Fd) (b : Bool) : (pb d x b).ser = d.ser := rfl
@[simp] theorem pbit_ser (x : Fd) (i : Nat) (b : Bool) : (pbit d x i b).ser = d.ser := by unfold pbit; split <;> rfl
@[simp] theorem wr_jtag (k : Nat) (v : Word) : (wr d k v).jtag = d.jtag := rfl
@[simp] theorem pf_jtag (x : Fd) (n : Nat) : (pf d x n).jtag = d.jtag := rfl
@[simp] theorem pb_jtag (x : Fd) (b : Bool) : (pb d x b).jtag = d.jtag := rfl
@[simp] theorem pbit_jtag (x : Fd) (i : Nat) (b : Bool) : (pbit d x i b).jtag = d.jtag := by unfold pbit; split <;> rfl
@[simp] theorem wr_memp (k : Nat) (v : Word) : (wr d k v).memp = d.memp := rfl
@[simp] theorem pf_memp (x : Fd) (n : Nat) : (pf d x n).memp = d.memp := rfl
@[simp] theorem pb_memp (x : Fd) (b : Bool) : (pb d x b).memp = d.memp := rfl
@[simp] theorem pbit_memp (x : Fd) (i : Nat) (b : Bool) : (pbit d x i b).memp = d.memp := by unfold pbit; split <;> rfl
@[simp] theorem wr_latch (k : Nat) (v : Word) : (wr d k v).latch = d.latch := rfl
@[simp] theorem pf_latch (x : Fd) (n : Nat) : (pf d x n).latch = d.latch := rfl
@[simp] theorem pb_latch (x : Fd) (b : Bool) : (pb d x b).latch = d.latch := rfl
@[simp] theorem pbit_latch (x : Fd) (i : Nat) (b : Bool) : (pbit d x i b).latch = d.latch := by unfold pbit; split <;> rfl
@[simp] theorem wr_guard (k : Nat) (v : Word) : (wr d k v).guard = d.guard := rfl
@[simp] theorem pf_guard (x : Fd) (n : Nat) : (pf d x n).guard = d.guard := rfl
@[simp] theorem pb_guard (x : Fd) (b : Bool) : (pb d x b).guard = d.guard := rfl
@[simp] theorem pbit_guard (x : Fd) (i : Nat) (b : Bool) : (pbit d x i b).guard = d.guard := by unfold pbit; split <;> rfl
@[simp] theorem wr_arrivals (k : Nat) (v : Word) : (wr d k v).arrivals = d.arrivals := rfl
@[simp] theorem pf_arrivals (x : Fd) (n : Nat) : (pf d x n).arrivals = d.arrivals := rfl
@[simp] theorem pb_arrivals (x : Fd) (b : Bool) : (pb d x b).arrivals = d.arrivals := rfl
@[simp] theorem pbit_arrivals (x : Fd) (i : Nat) (b : Bool) : (pbit d x i b).arrivals = d.arrivals := by unfold pbit; split <;> rfl
@[simp] theorem wr_vddaLow (k : Nat) (v : Word) : (wr d k v).vddaLow = d.vddaLow := rfl
@[simp] theorem pf_vddaLow (x : Fd) (n : Nat) : (pf d x n).vddaLow = d.vddaLow := rfl
@[simp] theorem pb_vddaLow (x : Fd) (b : Bool) : (pb d x b).vddaLow = d.vddaLow := rfl
@[simp] theorem pbit_vddaLow (x : Fd) (i : Nat) (b : Bool) : (pbit d x i b).vddaLow = d.vddaLow := by unfold pbit; split <;> rfl
@[simp] theorem wr_contFrom (k : Nat) (v : Word) : (wr d k v).contFrom = d.contFrom := rfl
@[simp] theorem pf_contFrom (x : Fd) (n : Nat) : (pf d x n).contFrom = d.contFrom := rfl
@[simp] theorem pb_contFrom (x : Fd) (b : Bool) : (pb d x b).contFrom = d.contFrom := rfl
@[simp] theorem pbit_contFrom (x : Fd) (i : Nat) (b : Bool) : (pbit d x i b).contFrom = d.contFrom := by unfold pbit; split <;> rfl
@[simp] theorem wr_pressErr (k : Nat) (v : Word) : (wr d k v).pressErr = d.pressErr := rfl
@[simp] theorem pf_pressErr (x : Fd) (n : Nat) : (pf d x n).pressErr = d.pressErr := rfl
@[simp] theorem pb_pressErr (x : Fd) (b : Bool) : (pb d x b).pressErr = d.pressErr := rfl
@[simp] theorem pbit_pressErr (x : Fd) (i : Nat) (b : Bool) : (pbit d x i b).pressErr = d.pressErr := by unfold pbit; split <;> rfl
@[simp] theorem wr_freeCount (k : Nat) (v : Word) : (wr d k v).freeCount = d.freeCount := rfl
@[simp] theorem pf_freeCount (x : Fd) (n : Nat) : (pf d x n).freeCount = d.freeCount := rfl
@[simp] theorem pb_freeCount (x : Fd) (b : Bool) : (pb d x b).freeCount = d.freeCount := rfl
@[simp] theorem pbit_freeCount (x : Fd) (i : Nat) (b : Bool) : (pbit d x i b).freeCount = d.freeCount := by unfold pbit; split <;> rfl

theorem folio_same {x : Dev} (hs : sameOn .folio x d) : x.folio = d.folio := hs
@[simp] theorem raiseEvt_folio (h : d.folio.copies = []) (p b : Nat) : (raiseEvt d p b).folio = d.folio :=
  folio_same ((sameOn_raiseEvt h .folio p b).2 rfl)
@[simp] theorem wr_folio (h : d.folio.copies = []) (k : Nat) (v : Word) : (wr d k v).folio = d.folio := folio_same ((sameOn_wr h .folio k v).2 rfl)
@[simp] theorem pf_folio (h : d.folio.copies = []) (f : Fd) (n : Nat) : (pf d f n).folio = d.folio := wr_folio h ..
@[simp] theorem pb_folio (h : d.folio.copies = []) (f : Fd) (b : Bool) : (pb d f b).folio = d.folio := wr_folio h ..
@[simp] theorem incF_folio (h : d.folio.copies = []) (f : Fd) (n : Nat) : (incF d f n).folio = d.folio := wr_folio h ..
@[simp] theorem pbit_folio (h : d.folio.copies = []) (f : Fd) (i : Nat) (b : Bool) : (pbit d f i b).folio = d.folio :=
  folio_same ((sameOn_pbit h .folio f i b).2 rfl)

@[simp] theorem raiseEvt_evc (p b : Nat) : { (raiseEvt d p b).evc with pulses := [] } = { d.evc with pulses := [] } := by
  obtain h' | ⟨n, h'⟩ := raiseEvt_cases (d := d) p b <;> rw [h'] <;> unfold pbit <;> split <;> rfl
@[simp] theorem raiseEvt_host (p b : Nat) : { (raiseEvt d p b).host with msixDue := [] } = { d.host with msixDue := [] } := by
  obtain h' | ⟨n, h'⟩ := raiseEvt_cases (d := d) p b <;> rw [h'] <;> unfold pbit <;> split <;> rfl

/-- EVAL follows its conditions: of the device only registers of the security folio may change. -/
theorem evalUpdate_only (h : d.folio.copies = []) : (evalUpdate d).folio.copies = [] ∧ (∀ p, sameOn p (evalUpdate d) d) ∧
    ∀ k, k / 256 ≠ 0x11 → rd (evalUpdate d) k = rd d k := by
  have hs : ∀ k, k / 256 ≠ 0x11 → ¬ k = SEC_STAT.EVAL.reg ∧ ¬ k = FOLIO_EVT.at secPage := by
    intro k hk
    constructor
    · rintro rfl; exact hk (by decide)
    · rintro rfl; exact hk (by decide)
  unfold evalUpdate secEvt; dsimp only
  repeat' split
  · exact ⟨h, fun p => sameOn_refl .., fun _ _ => rfl⟩
  · refine ⟨by simp [h], fun p => by simp [h, sameOn_refl], fun k hk => by simp [rd_pb h, (hs k hk).1]⟩
  · refine ⟨by simp [h], fun p => by simp [h, sameOn_refl], fun k hk => ?_⟩
    rw [rd_raiseEvt (by simp [h]), if_neg fun x => (hs k hk).2 x.1, rd_pb h, if_neg (hs k hk).1]


/-! ### What EVAL leaves alone -/

@[simp] theorem evalUpdate_folio (h : d.folio.copies = []) : (evalUpdate d).folio = d.folio := folio_same ((evalUpdate_only h).2.1 .folio)
theorem rd_evalUpdate (h : d.folio.copies = []) {k : Nat} (hk : k / 256 ≠ 0x11) : rd (evalUpdate d) k = rd d k := (evalUpdate_only h).2.2 k hk
theorem gf_evalUpdate (h : d.folio.copies = []) {f : Fd} (hk : f.reg / 256 ≠ 0x11) : gf (evalUpdate d) f = gf d f := by
  simp [gf, rd_evalUpdate h hk]
theorem gb_evalUpdate (h : d.folio.copies = []) {f : Fd} (hk : f.reg / 256 ≠ 0x11) : gb (evalUpdate d) f = gb d f := by
  simp [gb, gf_evalUpdate h hk]
theorem gbit_evalUpdate (h : d.folio.copies = []) {f : Fd} (i : Nat) (hk : f.reg / 256 ≠ 0x11) : gbit (evalUpdate d) f i = gbit d f i := by
  simp [gbit, rd_evalUpdate h hk]
@[simp] theorem evalUpdate_merid : (evalUpdate d).merid = d.merid := by
  unfold evalUpdate secEvt; dsimp only; repeat' split
  all_goals simp
@[simp] theorem evalUpdate_pace : (evalUpdate d).pace = d.pace := by
  unfold evalUpdate secEvt; dsimp only; repeat' split
  all_goals simp
@[simp] theorem evalUpdate_cba : (evalUpdate d).cba = d.cba := by
  unfold evalUpdate secEvt; dsimp only; repeat' split
  all_goals simp
@[simp] theorem evalUpdate_rstc : (evalUpdate d).rstc = d.rstc := by
  unfold evalUpdate secEvt; dsimp only; repeat' split
  all_goals simp
@[simp] theorem evalUpdate_brng : (evalUpdate d).brng = d.brng := by
  unfold evalUpdate secEvt; dsimp only; repeat' split
  all_goals simp
@[simp] theorem evalUpdate_eth : (evalUpdate d).eth = d.eth := by
  unfold evalUpdate secEvt; dsimp only; repeat' split
  all_goals simp
@[simp] theorem evalUpdate_can : (evalUpdate d).can = d.can := by
  unfold evalUpdate secEvt; dsimp only; repeat' split
  all_goals simp
@[simp] theorem evalUpdate_ser : (evalUpdate d).ser = d.ser := by
  unfold evalUpdate secEvt; dsimp only; repeat' split
  all_goals simp
@[simp] theorem evalUpdate_jtag : (evalUpdate d).jtag = d.jtag := by
  unfold evalUpdate secEvt; dsimp only; repeat' split
  all_goals simp
@[simp] theorem evalUpdate_fab : (evalUpdate d).fab = d.fab := by
  unfold evalUpdate secEvt; dsimp only; repeat' split
  all_goals simp
@[simp] theorem evalUpdate_memp : (evalUpdate d).memp = d.memp := by
  unfold evalUpdate secEvt; dsimp only; repeat' split
  all_goals simp
@[simp] theorem evalUpdate_flash : (evalUpdate d).flash = d.flash := by
  unfold evalUpdate secEvt; dsimp only; repeat' split
  all_goals simp
@[simp] theorem evalUpdate_latch : (evalUpdate d).latch = d.latch := by
  unfold evalUpdate secEvt; dsimp only; repeat' split
  all_goals simp
@[simp] theorem evalUpdate_guard : (evalUpdate d).guard = d.guard := by
  unfold evalUpdate secEvt; dsimp only; repeat' split
  all_goals simp
@[simp] theorem evalUpdate_surv : (evalUpdate d).surv = d.surv := by
  unfold evalUpdate secEvt; dsimp only; repeat' split
  all_goals simp
@[simp] theorem evalUpdate_sdf : (evalUpdate d).sdf = d.sdf := by
  unfold evalUpdate secEvt; dsimp only; repeat' split
  all_goals simp
@[simp] theorem evalUpdate_trigDue : (evalUpdate d).trigDue = d.trigDue := by
  unfold evalUpdate secEvt; dsimp only; repeat' split
  all_goals simp
@[simp] theorem evalUpdate_offers : (evalUpdate d).offers = d.offers := by
  unfold evalUpdate secEvt; dsimp only; repeat' split
  all_goals simp
@[simp] theorem evalUpdate_arrivals : (evalUpdate d).arrivals = d.arrivals := by
  unfold evalUpdate secEvt; dsimp only; repeat' split
  all_goals simp
@[simp] theorem evalUpdate_vddaLow : (evalUpdate d).vddaLow = d.vddaLow := by
  unfold evalUpdate secEvt; dsimp only; repeat' split
  all_goals simp
@[simp] theorem evalUpdate_comp : (evalUpdate d).comp = d.comp := by
  unfold evalUpdate secEvt; dsimp only; repeat' split
  all_goals simp
@[simp] theorem evalUpdate_contFrom : (evalUpdate d).contFrom = d.contFrom := by
  unfold evalUpdate secEvt; dsimp only; repeat' split
  all_goals simp
@[simp] theorem evalUpdate_fd : (evalUpdate d).fd = d.fd := by
  unfold evalUpdate secEvt; dsimp only; repeat' split
  all_goals simp
@[simp] theorem evalUpdate_trigRaw : (evalUpdate d).trigRaw = d.trigRaw := by
  unfold evalUpdate secEvt; dsimp only; repeat' split
  all_goals simp
@[simp] theorem evalUpdate_landings : (evalUpdate d).landings = d.landings := by
  unfold evalUpdate secEvt; dsimp only; repeat' split
  all_goals simp
@[simp] theorem evalUpdate_ain : (evalUpdate d).ain = d.ain := by
  unfold evalUpdate secEvt; dsimp only; repeat' split
  all_goals simp
@[simp] theorem evalUpdate_trip : (evalUpdate d).trip = d.trip := by
  unfold evalUpdate secEvt; dsimp only; repeat' split
  all_goals simp
@[simp] theorem evalUpdate_forme : (evalUpdate d).forme = d.forme := by
  unfold evalUpdate secEvt; dsimp only; repeat' split
  all_goals simp
@[simp] theorem evalUpdate_trav : (evalUpdate d).trav = d.trav := by
  unfold evalUpdate secEvt; dsimp only; repeat' split
  all_goals simp
@[simp] theorem evalUpdate_galley : (evalUpdate d).galley = d.galley := by
  unfold evalUpdate secEvt; dsimp only; repeat' split
  all_goals simp
@[simp] theorem evalUpdate_press : (evalUpdate d).press = d.press := by
  unfold evalUpdate secEvt; dsimp only; repeat' split
  all_goals simp
@[simp] theorem evalUpdate_pressErr : (evalUpdate d).pressErr = d.pressErr := by
  unfold evalUpdate secEvt; dsimp only; repeat' split
  all_goals simp
@[simp] theorem evalUpdate_twin : (evalUpdate d).twin = d.twin := by
  unfold evalUpdate secEvt; dsimp only; repeat' split
  all_goals simp
@[simp] theorem evalUpdate_sec : (evalUpdate d).sec = d.sec := by
  unfold evalUpdate secEvt; dsimp only; repeat' split
  all_goals simp
@[simp] theorem evalUpdate_freeCount : (evalUpdate d).freeCount = d.freeCount := by
  unfold evalUpdate secEvt; dsimp only; repeat' split
  all_goals simp

/-- A device command: what its function does is what the command does, EVAL apart. -/
theorem onDev_does {s : State} {i : Instr} {f : Dev → Dev} {parts : List Part} {keys : List Nat} {post : Dev → Prop}
    (hi : exec i s = onDev f s) (hc : Calm s) (hw : (f s.dev).galley.waiters = []) (hu : (f s.dev).folio.copies = [])
    (hm : (f s.dev).rstc.parkEntry = false)
    (ho : Only parts keys s.dev (f s.dev)) (hp : post (evalUpdate (f s.dev))) : Does i s parts keys post := by
  obtain ⟨-, h2, h3⟩ := evalUpdate_only hu
  refine ⟨_, hi.trans (onState_calm (fun s => onD s f) hc hw hm), rfl, rfl, ?_, hp⟩
  exact ⟨fun p hp => sameOn_trans (h2 p) (ho.1 p hp), fun k hk h11 => (h3 k h11).trans (ho.2 k hk h11)⟩

end Sys2Proof.Machine
end

