-- ==== Sys2Proof/Laws/Instr.lean ====
section
/-!
SUPPORT. What an instruction on a core's own registers does, once for all such instructions.
-/
namespace Sys2Proof.Machine

/-! ### Instructions on a core's own registers -/

/-- Nothing is owed where no exception owes. -/
theorem owesAny_none {k : CoreSt} (h : ∀ x ∈ k.excs, x.owes = []) (use : List Nat) : owesAny k use = false := by
  simp only [owesAny, List.any_eq_false]
  intro x hx; simp [h x hx]

/-- An instruction that is executable ends with its function of the core's record; the fetch leaves the registers alone. -/
theorem kPure_result {c len : Nat} {use : List Nat} {s : State} (f : CoreSt → CoreSt) (hc : Calm s) (he : Executable c len s) :
    ∃ t b l p, onState (fun s => kPure c len use f s) s = .next t ∧ t.pending = s.pending ∧
      (let k' := f { coreOfDev s.dev c with fbuf := b, filled := l, pre := p }
       (coreOfDev t.dev c).ctx = k'.ctx ∧ (coreOfDev t.dev c).f = k'.f ∧ (coreOfDev t.dev c).fpsr = k'.fpsr) ∧
      t.mem = s.mem ∧ ∀ c', c' ≠ c → coreOfDev t.dev c' = coreOfDev s.dev c' := by
  obtain ⟨h1, h2, h3⟩ := he
  have hf := fetchOnce_fetched h2
  obtain ⟨b, l, p, hb⟩ := hf.own
  have hk : kPure c len use f s = (let s1 := (fetchOnce c len s).1
      let s2 := setDev s1 (setCore s1.dev c (f (coreOfDev s1.dev c)))
      if coreMoved (coreOfDev s1.dev c) (coreOfDev s2.dev c) then setDev s2 (spendStep s2.dev c)
      else setDev s2 (setCore s2.dev c { coreOfDev s2.dev c with fetched := some ((coreOfDev s2.dev c).ip, (coreOfDev s2.dev c).retCnt) })) := by
    unfold kPure kInstr; rw [owesAny_none h3, h1]; dsimp only
    rw [if_pos (by rfl), if_pos h2]
  generalize (fetchOnce c len s).1 = s1 at hf hb hk
  dsimp only at hk
  have key : (kPure c len use f s).dev.galley.waiters = [] ∧ (kPure c len use f s).dev.rstc.parkEntry = false ∧ (kPure c len use f s).mem = s.mem ∧
      ((coreOfDev (kPure c len use f s).dev c).ctx = (f (coreOfDev s1.dev c)).ctx ∧
       (coreOfDev (kPure c len use f s).dev c).f = (f (coreOfDev s1.dev c)).f ∧
       (coreOfDev (kPure c len use f s).dev c).fpsr = (f (coreOfDev s1.dev c)).fpsr) ∧
      ∀ c', c' ≠ c → coreOfDev (kPure c len use f s).dev c' = coreOfDev s.dev c' := by
    rw [hk]; split
    · have hs := spendStep_regs (setCore s1.dev c (f (coreOfDev s1.dev c))) c c
      simp only [coreOfDev_setCore_same] at hs
      refine ⟨by simp [hf.galley, hc.noWait], by simp [hf.rstc, hc.settled], hf.mem, hs, fun c' h => ?_⟩
      simp only [setDev_dev]; rw [spendStep_others _ h, coreOfDev_setCore_ne _ _ h, hf.others c' h]
    · refine ⟨by simp [hf.galley, hc.noWait], by simp [hf.rstc, hc.settled], hf.mem, by simp [coreOfDev_setCore_same], fun c' h => ?_⟩
      simp only [setDev_dev]; rw [coreOfDev_setCore_ne _ _ h, coreOfDev_setCore_ne _ _ h, hf.others c' h]
  obtain ⟨k1, k2, k3, k4, k5⟩ := key
  refine ⟨_, b, l, p, onState_calm (fun s => kPure c len use f s) hc k1 k2, rfl, ?_, k3, fun c' h => ?_⟩
  · rw [← hb]; simpa [coreOfDev_congr (evalUpdate_core ..)] using k4
  · rw [← k5 c' h]; exact coreOfDev_congr (evalUpdate_core ..) c'

/-- The same in the terms of `Shows`: what the function makes of the record is what the core shows. -/
theorem kPure_shows {c len : Nat} {use : List Nat} {s : State} {i : Instr} {f : CoreSt → CoreSt} {g : Nat → Word} {acc : Nat → Acc} {fr : Nat → F32}
    {fpsr psw : Word} {ip : Nat} (hi : exec i s = onState (fun s => kPure c len use f s) s) (hc : Calm s) (he : Executable c len s)
    (hf : ∀ b l p, let k' := f { coreOfDev s.dev c with fbuf := b, filled := l, pre := p }
      (∀ r, k'.gr r = g r) ∧ (∀ n, n < 2 → k'.acc n = acc n) ∧ (∀ r, k'.fr r = fr r) ∧ k'.fpsr = fpsr ∧ k'.psw = psw ∧ k'.ip = ip) :
    Completes i s (fun t => Shows c s t g acc fr fpsr psw ip) := by
  obtain ⟨t, b, l, p, h1, h2, ⟨h3, h4, h5⟩, h6, h7⟩ := kPure_result (use := use) f hc he
  obtain ⟨a1, a2, a3, a4, a5, a6⟩ := hf b l p
  refine ⟨t, hi.trans h1, h2, ⟨fun r => ?_, fun n hn => ?_, fun r => ?_, ?_, ?_, ?_, h6, h7⟩⟩
  · rw [← a1 r]; simp [CoreSt.gr, h3]
  · rw [← a2 n hn]; simp [CoreSt.acc, h3]
  · rw [← a3 r]; simp [CoreSt.fr, h4]
  · rw [h5, a4]
  · rw [← a5]; simp [CoreSt.psw, h3]
  · rw [← a6]; simp [CoreSt.ip, h3]

end Sys2Proof.Machine
end

