-- ==== Sys2Proof/Laws/Mem.lean ====
section
/-!
SUPPORT. The memories: a read after a write, and that every operation on them keeps the canonical form.
-/
namespace Sys2Proof.Machine

/-! ### A read after a write -/

@[simp] theorem storedWord_putWord_same (m : MemSt) (p : Nat) (v : Word) : storedWord (putWord m p v) p = v := by
  simp [storedWord, putWord]

@[simp] theorem storedWord_putWord_ne (m : MemSt) {p q : Nat} (v : Word) (h : q ≠ p) : storedWord (putWord m p v) q = storedWord m q := by
  simp [storedWord, putWord, h]

@[simp] theorem flawOf_putWord (m : MemSt) (p q : Nat) (v : Word) : flawOf (putWord m p v) q = flawOf m q := rfl
@[simp] theorem storedWord_putFlaw (m : MemSt) (p q : Nat) (f : Flaw) : storedWord (putFlaw m p f) q = storedWord m q := rfl

/-! ### The canonical form is kept -/

theorem wf_iff (m : MemSt) : MemSt.wf m = true ↔ tabWf memDefault m.words = true ∧ tabWf (fun _ => flawZero) m.flaws = true := by
  simp [MemSt.wf]

theorem wf_putWord {m : MemSt} (p : Nat) (v : Word) (h : MemSt.wf m = true) : MemSt.wf (putWord m p v) = true := by
  rw [wf_iff] at h ⊢
  exact ⟨tabWf_set p v h.1, h.2⟩

theorem wf_putFlaw {m : MemSt} (p : Nat) (f : Flaw) (h : MemSt.wf m = true) : MemSt.wf (putFlaw m p f) = true := by
  rw [wf_iff] at h ⊢
  exact ⟨h.1, tabWf_set (d := fun _ => flawZero) _ f h.2⟩

/-- Words and flaws that a test on their address keeps. -/
theorem wf_filter {m : MemSt} (p : Nat × Word → Bool) (q : Nat × Flaw → Bool) (h : MemSt.wf m = true) :
    MemSt.wf { words := m.words.filter p, flaws := m.flaws.filter q } = true := by
  rw [wf_iff] at h ⊢
  exact ⟨tabWf_filter p h.1, tabWf_filter q h.2⟩

theorem wf_eraseFlaw {m : MemSt} (k : Nat) (h : MemSt.wf m = true) : MemSt.wf { m with flaws := tabErase m.flaws k } = true := by
  rw [wf_iff] at h ⊢
  exact ⟨h.1, tabWf_erase k h.2⟩

theorem wf_clearBlock {m : MemSt} (p : Nat) (h : MemSt.wf m = true) : MemSt.wf (clearBlock m p) = true := by
  rw [wf_iff] at h ⊢
  exact ⟨tabWf_filter _ h.1, tabWf_erase _ h.2⟩

theorem wf_initRange {m : MemSt} (lo hi : Nat) (h : MemSt.wf m = true) : MemSt.wf (initRange m lo hi) = true := wf_filter _ _ h

/-- Words written one after another. -/
theorem wf_foldl_putWord {α : Type} (f : α → Nat) (g : α → Word) (l : List α) :
    ∀ {m : MemSt}, MemSt.wf m = true → MemSt.wf (l.foldl (fun m x => putWord m (f x) (g x)) m) = true := by
  induction l with
  | nil => intro m h; exact h
  | cons x l ih => intro m h; exact ih (wf_putWord _ _ h)

theorem wf_writeBlock {m : MemSt} (p : Nat) (ws : List Word) (h : MemSt.wf m = true) : MemSt.wf (writeBlock m p ws) = true :=
  wf_foldl_putWord _ _ _ (wf_eraseFlaw _ h)

/-! ### Stores and flash operations keep it -/

theorem wf_storeAt {s : State} (r : Region) (sp : Bool) (p a : Nat) (mask v : Word) (h : MemSt.wf s.mem = true) :
    MemSt.wf (storeAt s r sp p a mask v).1.mem = true := by
  unfold storeAt logAccess; dsimp only
  repeat' split
  all_goals first
    | exact h
    | exact wf_putFlaw _ _ (wf_putWord _ _ h)

/-- A store, with its copy in the spare bank under MIRROR. -/
theorem wf_memStore {s : State} (ini : Initiator) (a : Nat) (mask v : Word) (h : MemSt.wf s.mem = true) :
    MemSt.wf (memStore ini a mask v s).1.mem = true := by
  unfold memStore; dsimp only
  repeat' split
  all_goals first
    | exact h
    | exact wf_storeAt _ _ _ _ _ _ h
    | exact wf_storeAt _ _ _ _ _ _ (wf_storeAt _ _ _ _ _ _ h)

theorem wf_sealBlock {s : State} (a : Nat) (h : MemSt.wf s.mem = true) : MemSt.wf (sealBlock a s).mem = true := wf_putFlaw _ _ h

theorem wf_programWord {s : State} (a : Nat) (v : Word) (syn : Nat) (h : MemSt.wf s.mem = true) :
    MemSt.wf (programWord a v syn s).mem = true := by
  have h1 := wf_putFlaw a ((flawOf (putWord s.mem a v) a).setRow (a % 8) syn) (wf_putWord a v h)
  unfold programWord; dsimp only; split
  · exact wf_sealBlock _ h1
  · exact h1

theorem wf_eraseSector {s : State} (n : Nat) (h : MemSt.wf s.mem = true) : MemSt.wf (eraseSector n s).mem = true := wf_filter _ _ h

/-- The memories at reset list nothing. -/
theorem wf_reset : MemSt.wf State.reset.mem = true := rfl

end Sys2Proof.Machine
end

