-- ==== Sys2Proof/WellFormed.lean ====
section
/-!
DEFINITION. Well-formed commands: the operands that a command can carry by the spec, where the type of an operand does
not say it already. The machine gives every command a meaning, well formed or not; nothing else rests on this.
-/
namespace Sys2Proof

/-- A page of folio space: 0x0F00_0000 + p × 0x100 up to 0x0FFF_FFFF (chapter 03). -/
def pageOk (page : Nat) : Bool := decide (page < 4096)

/-- A word of a page, complement ports included (R48). -/
def offOk (off : Nat) : Bool := decide (off < 256)

/-- A pace sample gives a reading of each of the 16 monitors, 12 bits wide (R32). -/
def monsOk (mons : List Nat) : Bool := decide (mons.length = 16) && mons.all fun v => decide (v < 4096)

/-- Converter outputs have 12 or 16 bits, and there is at least one (R84). -/
def outputsOk (outs : List Nat) : Bool := !outs.isEmpty && outs.all fun v => decide (v < 65536)

/-- A fabric tag (R343). -/
def tagOk (id : Nat) : Bool := decide (id < 8192)

/-- What a host read may name within its BAR (R483, R487). -/
def hostTargetOk : HostTarget → Bool
  | .bar0High => true
  | .mailbox ofs => decide (ofs < 6144)
  | .bar2 j => decide (j < 16777216)
  | .bar4 j => decide (j < 2097152)

/-- The operands are those that the spec lets the command carry. -/
def Instr.wf : Instr → Bool
  | .registerWrite _ page off _ => pageOk page && offOk off
  | .readClearCounter _ page off => pageOk page && offOk off
  | .quoinValueWrite _ page off _ => pageOk page && offOk off
  | .quoinComplementWrite _ page off _ => pageOk page && offOk off
  | .quoinTimeout _ page => pageOk page
  | .blockEnable _ page _ => pageOk page
  | .blockReset _ page => pageOk page
  | .blockResetRelease page => pageOk page
  | .folioGroupWrite _ page _ => pageOk page
  | .sysStrobe .. => true
  | .strobesrcWrite .. => true
  | .groupApply .. => true
  | .voteScrub => true
  | .meridCtlWrite .. => true
  | .refLoss => true
  | .lockLoss => true
  | .lockAcquire => true
  | .peerTimingLoss => true
  | .tickhRead .. => true
  | .alarmWrite .. => true
  | .alarmFire .. => true
  | .meridStep .. => true
  | .discServoUpdate .. => true
  | .lineRecal .. => true
  | .caldone => true
  | .paceSamplingStart => true
  | .paceSample mons => monsOk mons
  | .paceDroop _ val => decide (val < 4096)
  | .avsTransaction .. => true
  | .paceTargetWrite .. => true
  | .paceVboundWrite .. => true
  | .paceModeWrite .. => true
  | .cbaWindow events => events.all fun e => decide (e.1 < 64)
  | .cbaCeilingWrite .. => true
  | .surveyTrigger .. => true
  | .survSwtrig .. => true
  | .surveyCommit .. => true
  | .samplingInstant .. => true
  | .surveyResult _ outs => outputsOk outs
  | .survResRead .. => true
  | .survCalreq .. => true
  | .calDone .. => true
  | .vddaLow .. => true
  | .survReady .. => true
  | .sdfClockLoss .. => true
  | .sdfTrigger .. => true
  | .sdfSwtrig .. => true
  | .sdfResult .. => true
  | .sdfResRead .. => true
  | .contourCrossing .. => true
  | .blankingEnd .. => true
  | .slopeDacLoad .. => true
  | .contourReady .. => true
  | .fastDetectorChange _ edges => !edges.isEmpty
  | .tripinChange .. => true
  | .tripinFilterQualify .. => true
  | .tripLatch .. => true
  | .tripClearA .. => true
  | .tripClearB .. => true
  | .tripClearC .. => true
  | .tripClearD .. => true
  | .swtrip .. => true
  | .routeWordWrite .. => true
  | .formeRunStart .. => true
  | .formeRunStop .. => true
  | .formeCounterStart .. => true
  | .formeBoundary .. => true
  | .formeCounterStop .. => true
  | .formeMidPeriod .. => true
  | .carrierEvent .. => true
  | .refEdge .. => true
  | .pairEdgeEvent .. => true
  | .edgeShadowWrite .. => true
  | .lateLoadDecision .. => true
  | .gutterTurnOn .. => true
  | .interlockRelease .. => true
  | .minPulseEnd .. => true
  | .latchArrival .. => true
  | .travLatWrite .. => true
  | .travSwtrig .. => true
  | .travUpdate .. => true
  | .updateWriteback .. => true
  | .setpointArrival .. => true
  | .forcedStateChange .. => true
  | .starve .. => true
  | .overlayZeroFill .. => true
  | .feTrip .. => true
  | .safeAction .. => true
  | .feclr .. => true
  | .bearingEdge .. => true
  | .bearingIndex .. => true
  | .brngPosset .. => true
  | .bearingSample .. => true
  | .ssiFrameEnd .. => true
  | .periodEdge .. => true
  | .perLost .. => true
  | .coreRelease .. => true
  | .coreHold .. => true
  | .lineFill .. => true
  | .storeIssue .. => true
  | .storeAck .. => true
  | .exceptionEntry .. => true
  | .interruptEntry .. => true
  | .kNop .. => true
  | .kDrain .. => true
  | .kFlushi .. => true
  | .kSync .. => true
  | .kYield .. => true
  | .kWaitev .. => true
  | .kRetx .. => true
  | .kRet .. => true
  | .kTrap .. => true
  | .kRetq .. => true
  | .kAdd .. => true
  | .kSub .. => true
  | .kAdc .. => true
  | .kSbc .. => true
  | .kAnd .. => true
  | .kOr .. => true
  | .kXor .. => true
  | .kAndn .. => true
  | .kShl .. => true
  | .kShr .. => true
  | .kSar .. => true
  | .kMov .. => true
  | .kNeg .. => true
  | .kNot .. => true
  | .kCmp .. => true
  | .kTst .. => true
  | .kMin .. => true
  | .kMax .. => true
  | .kMinu .. => true
  | .kMaxu .. => true
  | .kClz .. => true
  | .kPopc .. => true
  | .kAddi .. => true
  | .kAndi .. => true
  | .kOri .. => true
  | .kXori .. => true
  | .kMovi .. => true
  | .kCmpi .. => true
  | .kLdi .. => true
  | .kLdhi .. => true
  | .kShiShl .. => true
  | .kShiShr .. => true
  | .kShiSar .. => true
  | .kShiRor .. => true
  | .kMul .. => true
  | .kMulh .. => true
  | .kMulu .. => true
  | .kMulhu .. => true
  | .kDiv .. => true
  | .kDivu .. => true
  | .kRem .. => true
  | .kRemu .. => true
  | .kAccMul .. => true
  | .kMac .. => true
  | .kMsu .. => true
  | .kAccMulu .. => true
  | .kMacu .. => true
  | .kExtf .. => true
  | .kExti .. => true
  | .kClra .. => true
  | .kMovfaH .. => true
  | .kMovfaL .. => true
  | .kMovtaH .. => true
  | .kMovtaL .. => true
  | .kFrmul .. => true
  | .kFradd .. => true
  | .kFrsub .. => true
  | .kFrneg .. => true
  | .kFrabs .. => true
  | .kRshr .. => true
  | .kFrsat .. => true
  | .kFadd .. => true
  | .kFsub .. => true
  | .kFmul .. => true
  | .kFdiv .. => true
  | .kFsqrt .. => true
  | .kFmin .. => true
  | .kFmax .. => true
  | .kFcmp .. => true
  | .kFmov .. => true
  | .kFneg .. => true
  | .kFabs .. => true
  | .kFmac .. => true
  | .kFmsu .. => true
  | .kFitof .. => true
  | .kFftoi .. => true
  | .kFrtof .. => true
  | .kFftor .. => true
  | .kMovgf .. => true
  | .kMovfg .. => true
  | .kLdw .. => true
  | .kLdwsp .. => true
  | .kLdh .. => true
  | .kLdhs .. => true
  | .kLdhf .. => true
  | .kLdd .. => true
  | .kFld .. => true
  | .kStw .. => true
  | .kStwsp .. => true
  | .kSth .. => true
  | .kSthf .. => true
  | .kStd .. => true
  | .kFst .. => true
  | .kPush .. => true
  | .kPop .. => true
  | .kPushf .. => true
  | .kPopf .. => true
  | .kBr .. => true
  | .kJmp .. => true
  | .kCall .. => true
  | .kCallm .. => true
  | .kCallmr .. => true
  | .kCallq .. => true
  | .kRetm .. => true
  | .kBlkmov .. => true
  | .kVmac .. => true
  | .kQput .. => true
  | .kQtake .. => true
  | .kMovcFrom .. => true
  | .kMovcTo .. => true
  | .taskActivation .. => true
  | .tscSwact .. => true
  | .slotTimerExpiry .. => true
  | .tscTmrWrite .. => true
  | .slotEnable .. => true
  | .taskSwitch .. => true
  | .wdExpire .. => true
  | .wdkick .. => true
  | .eventSensed .. => true
  | .glitchFilterSettle .. => true
  | .eventDelivery .. => true
  | .evcSrcAccess .. => true
  | .evcGateWrite .. => true
  | .evcSwset .. => true
  | .evcPendDiscard .. => true
  | .wakeEdge .. => true
  | .parkWake mons => monsOk mons
  | .tagGrant => true
  | .fabTimeout id _ => tagOk id
  | .fabLate id => tagOk id
  | .zombieRelease id => tagOk id
  | .memoryInitDone .. => true
  | .retireMirror .. => true
  | .retireNone .. => true
  | .retireSubst .. => true
  | .fabBankoffWrite .. => true
  | .mempClrblk .. => true
  | .mempTailWrite .. => true
  | .queueEnable .. => true
  | .queueDisable .. => true
  | .queueFlush .. => true
  | .queueClrstat .. => true
  | .queuePut .. => true
  | .putCommit .. => true
  | .queueTake .. => true
  | .parkedTakeComplete .. => true
  | .blockPutServed .. => true
  | .descWr .. => true
  | .pressStart .. => true
  | .slipLoad .. => true
  | .pressSwtrig .. => true
  | .pressTrigger .. => true
  | .pressStop .. => true
  | .pressTransfer .. => true
  | .slipComplete .. => true
  | .pressHalt => true
  | .hclr .. => true
  | .laneLockLoss .. => true
  | .linkUp => true
  | .frameSend => true
  | .badFrame .. => true
  | .ackFrame .. => true
  | .nakFrame .. => true
  | .replayTimeout => true
  | .heartFrame .. => true
  | .folioFrame _ _ ws => decide (2 ≤ ws.length ∧ ws.length ≤ 256 ∧ ws.length % 2 = 0)
  | .engineFrame _ _ _ ws => decide (ws.length = 32)
  | .formeFrame _ _ _ ws => decide (ws.length = 5)
  | .overlayFrame _ _ _ _ ws => decide (ws.length = 32)
  | .memFrame _ _ _ ws => decide (1 ≤ ws.length ∧ ws.length ≤ 256)
  | .endFrame .. => true
  | .timeFrame .. => true
  | .timeFrameSend => true
  | .roleSolo .. => true
  | .roleActive .. => true
  | .roleStandby .. => true
  | .heartbeatTimeout => true
  | .ownInChange .. => true
  | .takeoverDecision => true
  | .takeoverComplete => true
  | .split => true
  | .divergeClear .. => true
  | .flProgramWord .. => true
  | .flEraseSector .. => true
  | .flSealBlock .. => true
  | .flVerify .. => true
  | .flStatus .. => true
  | .flJournalScan .. => true
  | .otpProgramField .. => true
  | .flRtMargin => true
  | .cmdDeny _ off _ => decide (off < 32)
  | .optionLoad .. => true
  | .bootStart => true
  | .bootCandidate => true
  | .bootgo .. => true
  | .debugChallenge .. => true
  | .debugSubmit .. => true
  | .helloFrame => true
  | .cmdFrame => true
  | .closeFrame => true
  | .rngRead .. => true
  | .rngFail => true
  | .powerOnRelease => true
  | .brownOut .. => true
  | .nrstIn .. => true
  | .warmReset => true
  | .warmResetRelease => true
  | .systemWatchdogExpiry => true
  | .swdWarn => true
  | .swkick .. => true
  | .swrst .. => true
  | .holdrel .. => true
  | .modeConfig .. => true
  | .modeRun .. => true
  | .modeStandby .. => true
  | .modeRecovery .. => true
  | .modePark .. => true
  | .pincWrite .. => true
  | .gpioSet .. => true
  | .gpioClr .. => true
  | .gpioEdge .. => true
  | .pcieLinkChange .. => true
  | .bar0HighWrite .. => true
  | .bar0LowWrite .. => true
  | .bar0LowRead .. => true
  | .bar2Write j _ => decide (j < 16777216)
  | .bar4Write j _ _ => decide (j < 2097152)
  | .hostRead t => hostTargetOk t
  | .cmdlenWrite .. => true
  | .rsplenWrite .. => true
  | .msixMessage .. => true
  | .ethTransmit .. => true
  | .ethReceive _ octets _ => !octets.isEmpty
  | .gclEntry .. => true
  | .mdioGo .. => true
  | .mdioDone .. => true
  | .canTransmit .. => true
  | .canReceive .. => true
  | .canRecov .. => true
  | .serialTransmit .. => true
  | .serialReceive _ octets _ => decide (1 ≤ octets.length ∧ octets.length ≤ 4)
  | .avsStatWrite .. => true
  | .bypass => true
  | .idcode => true
  | .samplePreload .. => true
  | .extest .. => true
  | .clamp => true
  | .highz => true
  | .haltreq .. => true
  | .step .. => true
  | .resume .. => true
  | .breakpointHit .. => true
  | .referenceReturn => true
  | .sdfClockReturn .. => true
  | .prbsCheckerSync .. => true
  | .ethLinkState .. => true
  | .busOffRecoveryDone .. => true

/-- Commands that are well formed. -/
abbrev WellFormed (i : Instr) : Prop := i.wf = true

end Sys2Proof
end

