-- ==== Sys2Proof/Tests/Slice0.lean ====
section
/-!
SUPPORT. Tests: ill-formed commands that the check of well-formedness refuses, worked examples of the spec, and for every
statement with hypotheses a state and operands that meet them, clause by clause.
-/
set_option Elab.async false
set_option linter.unusedTactic false
set_option linter.unreachableTactic false
namespace Sys2Proof.Tests
open Sys2Proof Sys2Proof.Machine
/-- A started machine in mode START at tick 1,000,000, the fields of `l` and the parts of `f` set. -/
def tst (l : List (Fd × Nat)) (f : Dev → Dev := id) : State :=
  { State.reset with dev := f (((PCIE_STAT.LINK, 2) :: l).foldl (fun d x => pf d x.1 x.2) { Dev.reset with now := 1000000, rstc := { Dev.reset.rstc with phase := .started } }) }
/-- Memories with the listed words. -/
def memOf (l : List (Nat × Word)) : MemSt := l.foldl (fun m e => putWord m e.1 e.2) ⟨[], []⟩
/-- The words of queue `q` with descriptor `x`. -/
def descAt (q : Nat) (x : QDesc) : List (Nat × Word) :=
  let y := x.fixPar
  [(descAddr q 0, y.cfg), (descAddr q 1, y.ptr), (descAddr q 2, y.evt), (descAddr q 3, y.stat)]
/-- Core `c` executes from its instruction TCM in RUN, with the core, the fields of `l` and the parts of `fd` set. -/
def tk (c : Nat) (f : CoreSt → CoreSt) (l : List (Fd × Nat)) (fd : Dev → Dev := id) : State :=
  { tst ([(SYS_MODE.MODE, 2), (MEMP_INIT.DONE, 0x7FFFFFFFF), (FAB_RETIRE.MODE, 0), (FAB_BANKOFF.OFF, 0), (FOLIO_CTL.EN (0x20 + c), 1)] ++ l) fun d =>
      fd (withCore (withRstc d fun r => { r with booted := true }) c fun k => f { k with ctx := { k.ctx with ip := 0x200040 } }) with mem := memOf [] }
/-- The register of a page at an offset. -/
def regOf (page off : Nat) : RegDef := match regAt page off with
  | some (r, _) => r
  | none => ⟨"", 0, 0, 0, false, false, false, false, []⟩
/-- Loads as a decision. -/
def loadsB (c a : Nat) (w : Word) (s : State) : Bool :=
  loadable s.dev (coreOfDev s.dev c).sup (regionOf (some c) a) && !initWait s.dev (regionOf (some c) a) &&
  !bankOff s.dev (regionOf (some c) a) && decide (s.mem.flaws = []) && decide (pendingStores (coreOfDev s.dev c) = []) &&
  canTag s.dev (2 * c + 1) && decide (s.dev.fab.waiting = []) && decide (storedWord s.mem (physOf s.dev (regionOf (some c) a) a) = w)
theorem loads_all {α : Type} {l : List α} {c : Nat} {a : α → Nat} {w : α → Word} {s : State}
    (h : (l.all fun x => loadsB c (a x) (w x) s) = true) : ∀ x ∈ l, Loads c (a x) (w x) s := by
  intro x hx
  have h1 := List.all_eq_true.mp h x hx
  simp only [loadsB, Bool.and_eq_true, decide_eq_true_eq, Bool.not_eq_true'] at h1
  obtain ⟨⟨⟨⟨⟨⟨⟨h1, h2⟩, h3⟩, h4⟩, h5⟩, h6⟩, h7⟩, h8⟩ := h1
  exact ⟨h1, h2, h3, h4, h5, h6, h7, h8⟩
theorem loads_two {n c : Nat} {a b : Nat → Nat} {w : Nat → Word} {s : State}
    (h : ((List.range n).all fun i => loadsB c (a i) (w i) s && loadsB c (b i) (w i) s) = true) :
    ∀ i, i < n → Loads c (a i) (w i) s ∧ Loads c (b i) (w i) s := by
  intro i hi
  have h1 := List.all_eq_true.mp h i (List.mem_range.mpr hi)
  simp only [loadsB, Bool.and_eq_true, decide_eq_true_eq, Bool.not_eq_true'] at h1
  obtain ⟨⟨⟨⟨⟨⟨⟨⟨h1, h2⟩, h3⟩, h4⟩, h5⟩, h6⟩, h7⟩, h8⟩, ⟨⟨⟨⟨⟨⟨g1, g2⟩, g3⟩, g4⟩, g5⟩, g6⟩, g7⟩, g8⟩ := h1
  exact ⟨⟨h1, h2, h3, h4, h5, h6, h7, h8⟩, ⟨g1, g2, g3, g4, g5, g6, g7, g8⟩⟩
/-- SramWord as a decision. -/
def sramB (s : State) (a : Nat) : Bool :=
  decide (0x4000000 ≤ a) && decide (a < 0x4100000) && !initWait s.dev (regionOf none a) &&
  decide (gf s.dev FAB_RETIRE.MODE = 0) && decide (gf s.dev FAB_BANKOFF.OFF = 0)
theorem sram_all {α : Type} {l : List α} {a : α → Nat} {s : State}
    (h : (l.all fun x => sramB s (a x)) = true) : ∀ x ∈ l, SramWord s (a x) := by
  intro x hx
  have h1 := List.all_eq_true.mp h x hx
  simp only [sramB, Bool.and_eq_true, decide_eq_true_eq, Bool.not_eq_true'] at h1
  obtain ⟨⟨⟨⟨h1, h2⟩, h3⟩, h4⟩, h5⟩ := h1
  exact ⟨h1, h2, h3, h4, h5⟩

/-- The state after a command. -/
def after (i : Instr) (s : State) : State := match exec i s with
  | .next t => t
  | _ => s

/-! ### The queue -/

/-- The front command is carried out and the rest of the queue stays. -/
theorem test_step_front : (match step { tst [] with pending := [.sysStrobe .pcie 5, .voteScrub] } with
    | .next t => decide (t.pending = [.voteScrub]) | _ => false) = true := by decide +kernel
/-- No row of the table gives bits: no word spells a command. -/
theorem test_no_word : decodeTableWord 36 5 = none := rfl

/-! ### Instruction words written out from R262, R264, R265 and R269 -/

/-- ADDI G4, 1 · MOVI G3, 8 · STW G5, [G4] · BR AL, −7 · CLRA ACC0 · EXTF G5, ACC0; OPS 0x14 is illegal. -/
theorem test_decode_short :
    ([0x02401, 0x03308, 0x09540, 0x0DEF9, 0x13002, 0x13500, 0x14000].map (decodeShort 3)) =
    [.instr (.kAddi 3 (.short 4 1)), .instr (.kMovi 3 3 8), .instr (.kStw 3 (.short 5 4 0)), .instr (.kBr 3 14 (.short (-7))),
     .instr (.kClra 3 0 0), .instr (.kExtf 3 5 0), .illegal 1 1] := by decide
/-- VMAC ACC0, G3, G1, G2 · JMP −2 · CALLM 0x8204, 5; OPL 0x3F is illegal. -/
theorem test_decode_long :
    ([0xDE6240000, 0xD3FFFFFFE, 0xD70408005, 0xFE0000000].map (decodeLong 3)) =
    [.instr (.kVmac 3 0 3 1 2 none), .instr (.kJmp 3 (.disp (-2))), .instr (.kCallm 3 0x8204 5 none), .illegal 2 1] := by decide

/-! ### Ill-formed commands: one for each check -/

theorem test_wf_page : ¬ WellFormed (.blockResetRelease 4096) := by decide
theorem test_wf_page_write : ¬ WellFormed (.registerWrite .pcie 4096 0 0) := by decide
theorem test_wf_off : ¬ WellFormed (.registerWrite .pcie 3 256 0) := by decide
theorem test_wf_mons : ¬ WellFormed (.paceSample [48, 49]) := by decide
theorem test_wf_mon_value : ¬ WellFormed (.parkWake (4096 :: List.replicate 15 48)) := by decide
theorem test_wf_droop : ¬ WellFormed (.paceDroop 2 4096) := by decide
theorem test_wf_window : ¬ WellFormed (.cbaWindow [(64, 1)]) := by decide
theorem test_wf_outputs : ¬ WellFormed (.surveyResult 3 []) := by decide
theorem test_wf_fast : ¬ WellFormed (.fastDetectorChange 3 []) := by decide
theorem test_wf_tag : ¬ WellFormed (.fabTimeout 8192 true) := by decide
theorem test_wf_tag_late : ¬ WellFormed (.fabLate 8192) := by decide
theorem test_wf_tag_zombie : ¬ WellFormed (.zombieRelease 8192) := by decide
theorem test_wf_folio_frame : ¬ WellFormed (.folioFrame 1 0 [0, 1, 2]) := by decide
theorem test_wf_engine_frame : ¬ WellFormed (.engineFrame 1 0 9 [0]) := by decide
theorem test_wf_forme_frame : ¬ WellFormed (.formeFrame 1 0 9 [0]) := by decide
theorem test_wf_overlay_frame : ¬ WellFormed (.overlayFrame 1 0 9 0 [0]) := by decide
theorem test_wf_mem_frame : ¬ WellFormed (.memFrame 1 0 9 []) := by decide
theorem test_wf_cmd_deny : ¬ WellFormed (.cmdDeny .pcie 32 0) := by decide
theorem test_wf_bar2 : ¬ WellFormed (.bar2Write 16777216 0) := by decide
theorem test_wf_bar4 : ¬ WellFormed (.bar4Write 2097152 0 15) := by decide
theorem test_wf_host_read : ¬ WellFormed (.hostRead (.mailbox 6144)) := by decide
theorem test_wf_eth : ¬ WellFormed (.ethReceive 1 [] false) := by decide
theorem test_wf_serial : ¬ WellFormed (.serialReceive 3 [1, 2, 3, 4, 5] 0) := by decide
theorem test_wf_good : WellFormed (.registerWrite .pcie 0xFFF 0xFF 0) := by decide

/-! ### Worked examples of the spec -/

/-- Core 3 with G2, G5 and PSW set. -/
def core3 (g2 g5 psw : Word) : State := tk 3 (fun k => { k with ctx := { k.ctx with g := [(2, g2), (5, g5)], psw := psw } }) []
def res (i : Instr) (s : State) : Word × Bool × Bool :=
  let k := coreOfDev (after i s).dev 3
  (k.gr 2, bit k.psw pswV, bit k.psw pswSS)

/-- Chapter 11, rounding: 3u × 0.5 and −3u × 0.5 under TRUNC, HALFUP, HALFEVEN, TOZERO. -/
theorem test_rounding :
    ([0x800000000, 0x801000000, 0x802000000, 0x803000000].map fun p : Word =>
      ((res (.kFrmul 3 (.short 2 5)) (core3 3 0x40000000 p)).1, (res (.kFrmul 3 (.short 2 5)) (core3 0xFFFFFFFFD 0x40000000 p)).1)) =
    [(1, 0xFFFFFFFFE), (2, 0xFFFFFFFFF), (2, 0xFFFFFFFFE), (1, 0xFFFFFFFFF)] := by decide +kernel
/-- Chapter 11, saturation: 1.5 × 0.75 under OFF, UNIT, GUARD. -/
theorem test_saturation :
    ([0x800000000, 0x804000000, 0x808000000].map fun p : Word => res (.kFrmul 3 (.short 2 5)) (core3 0xC0000000 0x60000000 p)) =
    [(0x90000000, false, false), (0x7FFFFFFF, true, true), (0x90000000, false, false)] := by decide +kernel
/-- Chapter 11, extraction of 20.25 under OFF, UNIT, GUARD. -/
theorem test_extraction :
    ([0x800000000, 0x804000000, 0x808000000].map fun p : Word =>
      res (.kExtf 3 2 1) (tk 3 (fun k => { k with ctx := { k.ctx with acc1 := BitVec.ofNat 80 (81 * 2 ^ 60), psw := p } }) [])) =
    [(0xA20000000, true, false), (0x7FFFFFFF, true, true), (0x7FFFFFFFF, true, true)] := by decide +kernel

/-! ### States that meet the hypotheses of the statements -/

/-- A core that executes: the hypotheses of the statements about its integer instructions, for both lengths. -/
theorem witness_KamulIntegers :
    (∃ (s : State) (c : Fin 8) (rd rs rt : Fin 16), Calm s ∧ Executable c 1 s ∧ Executable c 2 s ∧
      rtZero (.long rd rs 0) ∧ rdZero (.long 0 rs rt) ∧ rdZeroI (.long 0 rs 5) ∧ (coreOfDev s.dev c).gr rt ≠ 0 ∧
      ¬ ((coreOfDev s.dev c).gr rs |>.toInt) = -(2 ^ 35)) ∧
    (35 : Fin 64).val ≤ 35 :=
  ⟨⟨core3 7 0xFFFFFFFFD 0x800000000, 3, 4, 2, 5, by repeat' first | decide +kernel | rfl | exact True.intro | apply And.intro | constructor | (apply loads_all; decide +kernel) | (apply sram_all; decide +kernel) | (apply loads_two; decide +kernel) | exact fun _ h => nomatch h⟩, by decide⟩
/-- Operands for every clause of Binary32: exact sums, cancellations, products, quotients, roots, fused sums, infinities,
NaNs, a conversion at its bound, a subnormal under FTZ and in RM at their greatest. -/
theorem witness_Binary32 :
    let u := fun (fm : FMode) (a : F32) => f32Units (f32In fm a)
    let fm : FMode := ⟨3, true⟩
    let one : F32 := 0x3F800000; let two : F32 := 0x40000000; let inf : F32 := 0x7F800000; let nan : F32 := 0x7F800001
    fm.rm < 4 ∧ f32Finite one = true ∧ f32Finite two = true ∧ u fm one + u fm two ≠ 0 ∧ u fm one - u fm two ≠ 0 ∧
    u fm one + u fm 0xBF800000 = 0 ∧ u fm one - u fm one = 0 ∧ u fm one * u fm two ≠ 0 ∧ u fm one * u fm 0x80000000 = 0 ∧
    u fm 0x007FFFFF = 0 ∧ u ⟨3, false⟩ 0x007FFFFF ≠ 0 ∧ 0 < u fm one ∧ u fm 0xBF800000 < 0 ∧
    u fm one * u fm two + u fm 0xC0000000 * 2 ^ 149 = 0 ∧ u fm one * u fm two + u fm one * 2 ^ 149 ≠ 0 ∧
    f32Inf inf = true ∧ f32Nan inf = false ∧ f32Inf 0xFF800000 = true ∧ f32Nan nan = true ∧ f32Snan nan = true ∧
    (f32Inf inf && f32Zero (0 : F32)) = true ∧ f32Zero one = false ∧ (0x800000000 : Word) ≠ 0 ∧
    RoundsTo fm.rm (u fm 0x51000000 * 2 ^ 0) 149 (2 ^ 35) ∧ RoundsTo fm.rm (u fm 0xBF800000 * 2 ^ 31) 149 (-(2 ^ 31)) := by
  dsimp only [RoundsTo]
  repeat' first | decide +kernel | apply And.intro

theorem witness_UserStaysUser :
    (∃ (s : State) (c : Fin 8) (i : Instr), let d := s.dev; let k := coreOfDev d c; Calm s ∧ k.sup = false ∧ instrCore i = some c ∧ (∀ a, i ≠ .kYield c a) ∧ (∀ a, i ≠ .kWaitev c a)) :=
  ⟨({ tk 3 (fun k => { k with ctx := { k.ctx with g := [(7, 5)], psw := 0 } }) [] with mem := memOf [] }), (3 : Fin 8), (.kMovcTo 3 7 0 : Instr), by repeat' first | decide +kernel | rfl | exact True.intro | apply And.intro | constructor | (apply loads_all; decide +kernel) | (apply sram_all; decide +kernel) | (apply loads_two; decide +kernel) | exact fun _ h => nomatch h⟩

theorem witness_CoresApart :
    (∃ (s : State) (c : Fin 8) (i : Instr) (e : Nat), Calm s ∧ instrCore i = some c ∧ e ≠ c.val) :=
  ⟨({ tk 3 (fun k => { k with ctx := { k.ctx with g := [(7, 5)], psw := 0 } }) [] with mem := memOf [] }), (3 : Fin 8), (.kMovcTo 3 7 0 : Instr), (5 : Nat), by repeat' first | decide +kernel | rfl | exact True.intro | apply And.intro | constructor | (apply loads_all; decide +kernel) | (apply sram_all; decide +kernel) | (apply loads_two; decide +kernel) | exact fun _ h => nomatch h⟩

theorem witness_Accumulators :
    (∃ (s : State) (c : Fin 8) (o : MacOp), Calm s ∧ Executable c (MacOp.len o) s ∧ rdZeroM o) ∧
    (∃ (s : State) (c : Fin 8) (o : MacOp), Calm s ∧ Executable c (MacOp.len o) s ∧ rdZeroM o) ∧
    (∃ (s : State) (c : Fin 8) (o : MacOp), Calm s ∧ Executable c (MacOp.len o) s ∧ rdZeroM o) ∧
    (∃ (s : State) (c : Fin 8) (o : MacOp), Calm s ∧ Executable c (MacOp.len o) s ∧ rdZeroM o) ∧
    (∃ (s : State) (c : Fin 8) (o : MacOp), Calm s ∧ Executable c (MacOp.len o) s ∧ rdZeroM o) ∧
    (∃ (s : State) (c : Fin 8) (a : Fin 16), Calm s ∧ Executable c 1 s ∧ a < 2) ∧
    (∃ (s : State) (c : Fin 8) (a : Fin 16) (r : Int) (w : Word) (f : FlagW), let d := s.dev; let k := coreOfDev d c; Calm s ∧ Executable c 1 s ∧ a < 2 ∧ Rounds k.rnd (k.acc a).toInt 31 r ∧ Ranged k.sat r w f) ∧
    (∃ (s : State) (c : Fin 8) (a : Fin 16) (w : Word) (f : FlagW), let d := s.dev; let k := coreOfDev d c; Calm s ∧ Executable c 1 s ∧ a < 2 ∧ (Ranged (if k.sat = 0 then 0 else 2) (k.acc a).toInt w f)) ∧
    (∃ (s : State) (c : Fin 8) (rd : Fin 16) (a : Fin 16), Calm s ∧ Executable c 1 s ∧ a < 2 ∧ rd.val % 2 = 0) ∧
    (∃ (s : State) (c : Fin 8) (rd : Fin 16) (a : Fin 16), Calm s ∧ Executable c 1 s ∧ a < 2 ∧ rd.val % 2 = 0) ∧
    (∃ (s : State) (c : Fin 8) (rd : Fin 16) (a : Fin 16), Calm s ∧ Executable c 1 s ∧ a < 2 ∧ rd.val % 2 = 0) ∧
    (∃ (s : State) (c : Fin 8) (rd : Fin 16) (a : Fin 16), Calm s ∧ Executable c 1 s ∧ a < 2 ∧ rd.val % 2 = 0) :=
  ⟨⟨({ tk 3 (fun k => { k with ctx := { k.ctx with g := [(2, 0x40000000), (5, 0xFFFFFFFFD)], psw := 0x800000000 } }) [] (id) with mem := memOf [] }), (3 : Fin 8), ((MacOp.short 1 2 5) : MacOp), by repeat' first | decide +kernel | rfl | exact True.intro | apply And.intro | constructor | (apply loads_all; decide +kernel) | (apply sram_all; decide +kernel) | (apply loads_two; decide +kernel) | exact fun _ h => nomatch h⟩,
   ⟨({ tk 3 (fun k => { k with ctx := { k.ctx with g := [(2, 0x40000000), (5, 0xFFFFFFFFD)], psw := 0x800000000 } }) [] (id) with mem := memOf [] }), (3 : Fin 8), ((MacOp.short 1 2 5) : MacOp), by repeat' first | decide +kernel | rfl | exact True.intro | apply And.intro | constructor | (apply loads_all; decide +kernel) | (apply sram_all; decide +kernel) | (apply loads_two; decide +kernel) | exact fun _ h => nomatch h⟩,
   ⟨({ tk 3 (fun k => { k with ctx := { k.ctx with g := [(2, 0x40000000), (5, 0xFFFFFFFFD)], psw := 0x800000000 } }) [] (id) with mem := memOf [] }), (3 : Fin 8), ((MacOp.short 1 2 5) : MacOp), by repeat' first | decide +kernel | rfl | exact True.intro | apply And.intro | constructor | (apply loads_all; decide +kernel) | (apply sram_all; decide +kernel) | (apply loads_two; decide +kernel) | exact fun _ h => nomatch h⟩,
   ⟨({ tk 3 (fun k => { k with ctx := { k.ctx with g := [(2, 0x40000000), (5, 0xFFFFFFFFD)], psw := 0x800000000 } }) [] (id) with mem := memOf [] }), (3 : Fin 8), ((MacOp.short 1 2 5) : MacOp), by repeat' first | decide +kernel | rfl | exact True.intro | apply And.intro | constructor | (apply loads_all; decide +kernel) | (apply sram_all; decide +kernel) | (apply loads_two; decide +kernel) | exact fun _ h => nomatch h⟩,
   ⟨({ tk 3 (fun k => { k with ctx := { k.ctx with g := [(2, 0x40000000), (5, 0xFFFFFFFFD)], psw := 0x800000000 } }) [] (id) with mem := memOf [] }), (3 : Fin 8), ((MacOp.short 1 2 5) : MacOp), by repeat' first | decide +kernel | rfl | exact True.intro | apply And.intro | constructor | (apply loads_all; decide +kernel) | (apply sram_all; decide +kernel) | (apply loads_two; decide +kernel) | exact fun _ h => nomatch h⟩,
   ⟨({ tk 3 (fun k => { k with ctx := { k.ctx with g := [(2, 0x40000000), (5, 0xFFFFFFFFD)], psw := 0x800000000 } }) [] (id) with mem := memOf [] }), (3 : Fin 8), (1 : Fin 16), by repeat' first | decide +kernel | rfl | exact True.intro | apply And.intro | constructor | (apply loads_all; decide +kernel) | (apply sram_all; decide +kernel) | (apply loads_two; decide +kernel) | exact fun _ h => nomatch h⟩,
   ⟨({ tk 3 (fun k => { k with ctx := { k.ctx with g := [(2, 0x40000000), (5, 0xFFFFFFFFD)], psw := 0x800000000 } }) [] (id) with mem := memOf [] }), (3 : Fin 8), (1 : Fin 16), (rndShift (coreOfDev (({ tk 3 (fun k => { k with ctx := { k.ctx with g := [(2, 0x40000000), (5, 0xFFFFFFFFD)], psw := 0x800000000 } }) [] (id) with mem := memOf [] })).dev 3).rnd ((coreOfDev (({ tk 3 (fun k => { k with ctx := { k.ctx with g := [(2, 0x40000000), (5, 0xFFFFFFFFD)], psw := 0x800000000 } }) [] (id) with mem := memOf [] })).dev 3).acc (1 : Fin 16)).toInt 31 : Int), ((fracRes (coreOfDev (({ tk 3 (fun k => { k with ctx := { k.ctx with g := [(2, 0x40000000), (5, 0xFFFFFFFFD)], psw := 0x800000000 } }) [] (id) with mem := memOf [] })).dev 3).sat (rndShift (coreOfDev (({ tk 3 (fun k => { k with ctx := { k.ctx with g := [(2, 0x40000000), (5, 0xFFFFFFFFD)], psw := 0x800000000 } }) [] (id) with mem := memOf [] })).dev 3).rnd ((coreOfDev (({ tk 3 (fun k => { k with ctx := { k.ctx with g := [(2, 0x40000000), (5, 0xFFFFFFFFD)], psw := 0x800000000 } }) [] (id) with mem := memOf [] })).dev 3).acc (1 : Fin 16)).toInt 31 : Int)).val : Word), ((fracRes (coreOfDev (({ tk 3 (fun k => { k with ctx := { k.ctx with g := [(2, 0x40000000), (5, 0xFFFFFFFFD)], psw := 0x800000000 } }) [] (id) with mem := memOf [] })).dev 3).sat (rndShift (coreOfDev (({ tk 3 (fun k => { k with ctx := { k.ctx with g := [(2, 0x40000000), (5, 0xFFFFFFFFD)], psw := 0x800000000 } }) [] (id) with mem := memOf [] })).dev 3).rnd ((coreOfDev (({ tk 3 (fun k => { k with ctx := { k.ctx with g := [(2, 0x40000000), (5, 0xFFFFFFFFD)], psw := 0x800000000 } }) [] (id) with mem := memOf [] })).dev 3).acc (1 : Fin 16)).toInt 31 : Int)).fl : FlagW), by repeat' first | decide +kernel | rfl | exact True.intro | apply And.intro | constructor | (apply loads_all; decide +kernel) | (apply sram_all; decide +kernel) | (apply loads_two; decide +kernel) | exact fun _ h => nomatch h⟩,
   ⟨({ tk 3 (fun k => { k with ctx := { k.ctx with g := [(2, 0x40000000), (5, 0xFFFFFFFFD)], psw := 0x800000000 } }) [] (id) with mem := memOf [] }), (3 : Fin 8), (1 : Fin 16), ((fracRes (if (coreOfDev (({ tk 3 (fun k => { k with ctx := { k.ctx with g := [(2, 0x40000000), (5, 0xFFFFFFFFD)], psw := 0x800000000 } }) [] (id) with mem := memOf [] })).dev 3).sat = 0 then 0 else 2) ((coreOfDev (({ tk 3 (fun k => { k with ctx := { k.ctx with g := [(2, 0x40000000), (5, 0xFFFFFFFFD)], psw := 0x800000000 } }) [] (id) with mem := memOf [] })).dev 3).acc (1 : Fin 16)).toInt).val : Word), ((fracRes (if (coreOfDev (({ tk 3 (fun k => { k with ctx := { k.ctx with g := [(2, 0x40000000), (5, 0xFFFFFFFFD)], psw := 0x800000000 } }) [] (id) with mem := memOf [] })).dev 3).sat = 0 then 0 else 2) ((coreOfDev (({ tk 3 (fun k => { k with ctx := { k.ctx with g := [(2, 0x40000000), (5, 0xFFFFFFFFD)], psw := 0x800000000 } }) [] (id) with mem := memOf [] })).dev 3).acc (1 : Fin 16)).toInt).fl : FlagW), by repeat' first | decide +kernel | rfl | exact True.intro | apply And.intro | constructor | (apply loads_all; decide +kernel) | (apply sram_all; decide +kernel) | (apply loads_two; decide +kernel) | exact fun _ h => nomatch h⟩,
   ⟨({ tk 3 (fun k => { k with ctx := { k.ctx with g := [(2, 0x40000000), (5, 0xFFFFFFFFD)], psw := 0x800000000 } }) [] (id) with mem := memOf [] }), (3 : Fin 8), (4 : Fin 16), (1 : Fin 16), by repeat' first | decide +kernel | rfl | exact True.intro | apply And.intro | constructor | (apply loads_all; decide +kernel) | (apply sram_all; decide +kernel) | (apply loads_two; decide +kernel) | exact fun _ h => nomatch h⟩,
   ⟨({ tk 3 (fun k => { k with ctx := { k.ctx with g := [(2, 0x40000000), (5, 0xFFFFFFFFD)], psw := 0x800000000 } }) [] (id) with mem := memOf [] }), (3 : Fin 8), (4 : Fin 16), (1 : Fin 16), by repeat' first | decide +kernel | rfl | exact True.intro | apply And.intro | constructor | (apply loads_all; decide +kernel) | (apply sram_all; decide +kernel) | (apply loads_two; decide +kernel) | exact fun _ h => nomatch h⟩,
   ⟨({ tk 3 (fun k => { k with ctx := { k.ctx with g := [(2, 0x40000000), (5, 0xFFFFFFFFD)], psw := 0x800000000 } }) [] (id) with mem := memOf [] }), (3 : Fin 8), (4 : Fin 16), (1 : Fin 16), by repeat' first | decide +kernel | rfl | exact True.intro | apply And.intro | constructor | (apply loads_all; decide +kernel) | (apply sram_all; decide +kernel) | (apply loads_two; decide +kernel) | exact fun _ h => nomatch h⟩,
   ⟨({ tk 3 (fun k => { k with ctx := { k.ctx with g := [(2, 0x40000000), (5, 0xFFFFFFFFD)], psw := 0x800000000 } }) [] (id) with mem := memOf [] }), (3 : Fin 8), (4 : Fin 16), (1 : Fin 16), by repeat' first | decide +kernel | rfl | exact True.intro | apply And.intro | constructor | (apply loads_all; decide +kernel) | (apply sram_all; decide +kernel) | (apply loads_two; decide +kernel) | exact fun _ h => nomatch h⟩⟩

theorem witness_Fractions :
    (∃ (s : State) (c : Fin 8) (o : Alu2) (y : Int) (w : Word) (f : FlagW), let d := s.dev; let k := coreOfDev d c; Calm s ∧ Executable c (Alu2.len o) s ∧ Rounds k.rnd ((opA k o).toInt * (opB k o).toInt) 31 y ∧ Ranged k.sat y w f) ∧
    (∃ (s : State) (c : Fin 8) (o : Alu2) (w : Word) (f : FlagW), let d := s.dev; let k := coreOfDev d c; Calm s ∧ Executable c (Alu2.len o) s ∧ Ranged k.sat ((opA k o).toInt + (opB k o).toInt) w f) ∧
    (∃ (s : State) (c : Fin 8) (o : Alu2) (w : Word) (f : FlagW), let d := s.dev; let k := coreOfDev d c; Calm s ∧ Executable c (Alu2.len o) s ∧ Ranged k.sat ((opA k o).toInt - (opB k o).toInt) w f) ∧
    (∃ (s : State) (c : Fin 8) (o : Alu2) (w : Word) (f : FlagW), let d := s.dev; let k := coreOfDev d c; Calm s ∧ Executable c (Alu2.len o) s ∧ Ranged k.sat (-(opB k o).toInt) w f) ∧
    (∃ (s : State) (c : Fin 8) (o : Alu2) (w : Word) (f : FlagW), let d := s.dev; let k := coreOfDev d c; Calm s ∧ Executable c (Alu2.len o) s ∧ Ranged k.sat (((opB k o).toInt.natAbs : Int)) w f) ∧
    (∃ (s : State) (c : Fin 8) (o : Alu2) (y : Int) (w : Word) (f : FlagW), let d := s.dev; let k := coreOfDev d c; Calm s ∧ Executable c (Alu2.len o) s ∧ Rounds k.rnd ((opA k o).toInt) ((opB k o).toNat % 64) y ∧ Ranged k.sat y w f) ∧
    (∃ (s : State) (c : Fin 8) (o : Alu2) (w : Word) (f : FlagW), let d := s.dev; let k := coreOfDev d c; Calm s ∧ Executable c (Alu2.len o) s ∧ Ranged k.sat ((opB k o).toInt) w f) :=
  ⟨⟨({ tk 3 (fun k => { k with ctx := { k.ctx with g := [(2, 0x40000000), (5, 0xFFFFFFFFD)], psw := 0x800000000 } }) [] (id) with mem := memOf [] }), (3 : Fin 8), ((Alu2.short 2 5) : Alu2), (rndShift (coreOfDev (({ tk 3 (fun k => { k with ctx := { k.ctx with g := [(2, 0x40000000), (5, 0xFFFFFFFFD)], psw := 0x800000000 } }) [] (id) with mem := memOf [] })).dev 3).rnd ((opA (coreOfDev (({ tk 3 (fun k => { k with ctx := { k.ctx with g := [(2, 0x40000000), (5, 0xFFFFFFFFD)], psw := 0x800000000 } }) [] (id) with mem := memOf [] })).dev 3) ((Alu2.short 2 5) : Alu2)).toInt * (opB (coreOfDev (({ tk 3 (fun k => { k with ctx := { k.ctx with g := [(2, 0x40000000), (5, 0xFFFFFFFFD)], psw := 0x800000000 } }) [] (id) with mem := memOf [] })).dev 3) ((Alu2.short 2 5) : Alu2)).toInt) (31) : Int), ((fracRes (coreOfDev (({ tk 3 (fun k => { k with ctx := { k.ctx with g := [(2, 0x40000000), (5, 0xFFFFFFFFD)], psw := 0x800000000 } }) [] (id) with mem := memOf [] })).dev 3).sat (rndShift (coreOfDev (({ tk 3 (fun k => { k with ctx := { k.ctx with g := [(2, 0x40000000), (5, 0xFFFFFFFFD)], psw := 0x800000000 } }) [] (id) with mem := memOf [] })).dev 3).rnd ((opA (coreOfDev (({ tk 3 (fun k => { k with ctx := { k.ctx with g := [(2, 0x40000000), (5, 0xFFFFFFFFD)], psw := 0x800000000 } }) [] (id) with mem := memOf [] })).dev 3) ((Alu2.short 2 5) : Alu2)).toInt * (opB (coreOfDev (({ tk 3 (fun k => { k with ctx := { k.ctx with g := [(2, 0x40000000), (5, 0xFFFFFFFFD)], psw := 0x800000000 } }) [] (id) with mem := memOf [] })).dev 3) ((Alu2.short 2 5) : Alu2)).toInt) (31) : Int)).val : Word), ((fracRes (coreOfDev (({ tk 3 (fun k => { k with ctx := { k.ctx with g := [(2, 0x40000000), (5, 0xFFFFFFFFD)], psw := 0x800000000 } }) [] (id) with mem := memOf [] })).dev 3).sat (rndShift (coreOfDev (({ tk 3 (fun k => { k with ctx := { k.ctx with g := [(2, 0x40000000), (5, 0xFFFFFFFFD)], psw := 0x800000000 } }) [] (id) with mem := memOf [] })).dev 3).rnd ((opA (coreOfDev (({ tk 3 (fun k => { k with ctx := { k.ctx with g := [(2, 0x40000000), (5, 0xFFFFFFFFD)], psw := 0x800000000 } }) [] (id) with mem := memOf [] })).dev 3) ((Alu2.short 2 5) : Alu2)).toInt * (opB (coreOfDev (({ tk 3 (fun k => { k with ctx := { k.ctx with g := [(2, 0x40000000), (5, 0xFFFFFFFFD)], psw := 0x800000000 } }) [] (id) with mem := memOf [] })).dev 3) ((Alu2.short 2 5) : Alu2)).toInt) (31) : Int)).fl : FlagW), by repeat' first | decide +kernel | rfl | exact True.intro | apply And.intro | constructor | (apply loads_all; decide +kernel) | (apply sram_all; decide +kernel) | (apply loads_two; decide +kernel) | exact fun _ h => nomatch h⟩,
   ⟨({ tk 3 (fun k => { k with ctx := { k.ctx with g := [(2, 0x40000000), (5, 0xFFFFFFFFD)], psw := 0x800000000 } }) [] (id) with mem := memOf [] }), (3 : Fin 8), ((Alu2.short 2 5) : Alu2), ((fracRes (coreOfDev (({ tk 3 (fun k => { k with ctx := { k.ctx with g := [(2, 0x40000000), (5, 0xFFFFFFFFD)], psw := 0x800000000 } }) [] (id) with mem := memOf [] })).dev 3).sat ((opA (coreOfDev (({ tk 3 (fun k => { k with ctx := { k.ctx with g := [(2, 0x40000000), (5, 0xFFFFFFFFD)], psw := 0x800000000 } }) [] (id) with mem := memOf [] })).dev 3) ((Alu2.short 2 5) : Alu2)).toInt + (opB (coreOfDev (({ tk 3 (fun k => { k with ctx := { k.ctx with g := [(2, 0x40000000), (5, 0xFFFFFFFFD)], psw := 0x800000000 } }) [] (id) with mem := memOf [] })).dev 3) ((Alu2.short 2 5) : Alu2)).toInt)).val : Word), ((fracRes (coreOfDev (({ tk 3 (fun k => { k with ctx := { k.ctx with g := [(2, 0x40000000), (5, 0xFFFFFFFFD)], psw := 0x800000000 } }) [] (id) with mem := memOf [] })).dev 3).sat ((opA (coreOfDev (({ tk 3 (fun k => { k with ctx := { k.ctx with g := [(2, 0x40000000), (5, 0xFFFFFFFFD)], psw := 0x800000000 } }) [] (id) with mem := memOf [] })).dev 3) ((Alu2.short 2 5) : Alu2)).toInt + (opB (coreOfDev (({ tk 3 (fun k => { k with ctx := { k.ctx with g := [(2, 0x40000000), (5, 0xFFFFFFFFD)], psw := 0x800000000 } }) [] (id) with mem := memOf [] })).dev 3) ((Alu2.short 2 5) : Alu2)).toInt)).fl : FlagW), by repeat' first | decide +kernel | rfl | exact True.intro | apply And.intro | constructor | (apply loads_all; decide +kernel) | (apply sram_all; decide +kernel) | (apply loads_two; decide +kernel) | exact fun _ h => nomatch h⟩,
   ⟨({ tk 3 (fun k => { k with ctx := { k.ctx with g := [(2, 0x40000000), (5, 0xFFFFFFFFD)], psw := 0x800000000 } }) [] (id) with mem := memOf [] }), (3 : Fin 8), ((Alu2.short 2 5) : Alu2), ((fracRes (coreOfDev (({ tk 3 (fun k => { k with ctx := { k.ctx with g := [(2, 0x40000000), (5, 0xFFFFFFFFD)], psw := 0x800000000 } }) [] (id) with mem := memOf [] })).dev 3).sat ((opA (coreOfDev (({ tk 3 (fun k => { k with ctx := { k.ctx with g := [(2, 0x40000000), (5, 0xFFFFFFFFD)], psw := 0x800000000 } }) [] (id) with mem := memOf [] })).dev 3) ((Alu2.short 2 5) : Alu2)).toInt - (opB (coreOfDev (({ tk 3 (fun k => { k with ctx := { k.ctx with g := [(2, 0x40000000), (5, 0xFFFFFFFFD)], psw := 0x800000000 } }) [] (id) with mem := memOf [] })).dev 3) ((Alu2.short 2 5) : Alu2)).toInt)).val : Word), ((fracRes (coreOfDev (({ tk 3 (fun k => { k with ctx := { k.ctx with g := [(2, 0x40000000), (5, 0xFFFFFFFFD)], psw := 0x800000000 } }) [] (id) with mem := memOf [] })).dev 3).sat ((opA (coreOfDev (({ tk 3 (fun k => { k with ctx := { k.ctx with g := [(2, 0x40000000), (5, 0xFFFFFFFFD)], psw := 0x800000000 } }) [] (id) with mem := memOf [] })).dev 3) ((Alu2.short 2 5) : Alu2)).toInt - (opB (coreOfDev (({ tk 3 (fun k => { k with ctx := { k.ctx with g := [(2, 0x40000000), (5, 0xFFFFFFFFD)], psw := 0x800000000 } }) [] (id) with mem := memOf [] })).dev 3) ((Alu2.short 2 5) : Alu2)).toInt)).fl : FlagW), by repeat' first | decide +kernel | rfl | exact True.intro | apply And.intro | constructor | (apply loads_all; decide +kernel) | (apply sram_all; decide +kernel) | (apply loads_two; decide +kernel) | exact fun _ h => nomatch h⟩,
   ⟨({ tk 3 (fun k => { k with ctx := { k.ctx with g := [(2, 0x40000000), (5, 0xFFFFFFFFD)], psw := 0x800000000 } }) [] (id) with mem := memOf [] }), (3 : Fin 8), ((Alu2.short 2 5) : Alu2), ((fracRes (coreOfDev (({ tk 3 (fun k => { k with ctx := { k.ctx with g := [(2, 0x40000000), (5, 0xFFFFFFFFD)], psw := 0x800000000 } }) [] (id) with mem := memOf [] })).dev 3).sat (-(opB (coreOfDev (({ tk 3 (fun k => { k with ctx := { k.ctx with g := [(2, 0x40000000), (5, 0xFFFFFFFFD)], psw := 0x800000000 } }) [] (id) with mem := memOf [] })).dev 3) ((Alu2.short 2 5) : Alu2)).toInt)).val : Word), ((fracRes (coreOfDev (({ tk 3 (fun k => { k with ctx := { k.ctx with g := [(2, 0x40000000), (5, 0xFFFFFFFFD)], psw := 0x800000000 } }) [] (id) with mem := memOf [] })).dev 3).sat (-(opB (coreOfDev (({ tk 3 (fun k => { k with ctx := { k.ctx with g := [(2, 0x40000000), (5, 0xFFFFFFFFD)], psw := 0x800000000 } }) [] (id) with mem := memOf [] })).dev 3) ((Alu2.short 2 5) : Alu2)).toInt)).fl : FlagW), by repeat' first | decide +kernel | rfl | exact True.intro | apply And.intro | constructor | (apply loads_all; decide +kernel) | (apply sram_all; decide +kernel) | (apply loads_two; decide +kernel) | exact fun _ h => nomatch h⟩,
   ⟨({ tk 3 (fun k => { k with ctx := { k.ctx with g := [(2, 0x40000000), (5, 0xFFFFFFFFD)], psw := 0x800000000 } }) [] (id) with mem := memOf [] }), (3 : Fin 8), ((Alu2.short 2 5) : Alu2), ((fracRes (coreOfDev (({ tk 3 (fun k => { k with ctx := { k.ctx with g := [(2, 0x40000000), (5, 0xFFFFFFFFD)], psw := 0x800000000 } }) [] (id) with mem := memOf [] })).dev 3).sat (((opB (coreOfDev (({ tk 3 (fun k => { k with ctx := { k.ctx with g := [(2, 0x40000000), (5, 0xFFFFFFFFD)], psw := 0x800000000 } }) [] (id) with mem := memOf [] })).dev 3) ((Alu2.short 2 5) : Alu2)).toInt.natAbs : Int))).val : Word), ((fracRes (coreOfDev (({ tk 3 (fun k => { k with ctx := { k.ctx with g := [(2, 0x40000000), (5, 0xFFFFFFFFD)], psw := 0x800000000 } }) [] (id) with mem := memOf [] })).dev 3).sat (((opB (coreOfDev (({ tk 3 (fun k => { k with ctx := { k.ctx with g := [(2, 0x40000000), (5, 0xFFFFFFFFD)], psw := 0x800000000 } }) [] (id) with mem := memOf [] })).dev 3) ((Alu2.short 2 5) : Alu2)).toInt.natAbs : Int))).fl : FlagW), by repeat' first | decide +kernel | rfl | exact True.intro | apply And.intro | constructor | (apply loads_all; decide +kernel) | (apply sram_all; decide +kernel) | (apply loads_two; decide +kernel) | exact fun _ h => nomatch h⟩,
   ⟨({ tk 3 (fun k => { k with ctx := { k.ctx with g := [(2, 0x40000000), (5, 0xFFFFFFFFD)], psw := 0x800000000 } }) [] (id) with mem := memOf [] }), (3 : Fin 8), ((Alu2.short 2 5) : Alu2), (rndShift (coreOfDev (({ tk 3 (fun k => { k with ctx := { k.ctx with g := [(2, 0x40000000), (5, 0xFFFFFFFFD)], psw := 0x800000000 } }) [] (id) with mem := memOf [] })).dev 3).rnd ((opA (coreOfDev (({ tk 3 (fun k => { k with ctx := { k.ctx with g := [(2, 0x40000000), (5, 0xFFFFFFFFD)], psw := 0x800000000 } }) [] (id) with mem := memOf [] })).dev 3) ((Alu2.short 2 5) : Alu2)).toInt) (((opB (coreOfDev (({ tk 3 (fun k => { k with ctx := { k.ctx with g := [(2, 0x40000000), (5, 0xFFFFFFFFD)], psw := 0x800000000 } }) [] (id) with mem := memOf [] })).dev 3) ((Alu2.short 2 5) : Alu2)).toNat % 64)) : Int), ((fracRes (coreOfDev (({ tk 3 (fun k => { k with ctx := { k.ctx with g := [(2, 0x40000000), (5, 0xFFFFFFFFD)], psw := 0x800000000 } }) [] (id) with mem := memOf [] })).dev 3).sat (rndShift (coreOfDev (({ tk 3 (fun k => { k with ctx := { k.ctx with g := [(2, 0x40000000), (5, 0xFFFFFFFFD)], psw := 0x800000000 } }) [] (id) with mem := memOf [] })).dev 3).rnd ((opA (coreOfDev (({ tk 3 (fun k => { k with ctx := { k.ctx with g := [(2, 0x40000000), (5, 0xFFFFFFFFD)], psw := 0x800000000 } }) [] (id) with mem := memOf [] })).dev 3) ((Alu2.short 2 5) : Alu2)).toInt) (((opB (coreOfDev (({ tk 3 (fun k => { k with ctx := { k.ctx with g := [(2, 0x40000000), (5, 0xFFFFFFFFD)], psw := 0x800000000 } }) [] (id) with mem := memOf [] })).dev 3) ((Alu2.short 2 5) : Alu2)).toNat % 64)) : Int)).val : Word), ((fracRes (coreOfDev (({ tk 3 (fun k => { k with ctx := { k.ctx with g := [(2, 0x40000000), (5, 0xFFFFFFFFD)], psw := 0x800000000 } }) [] (id) with mem := memOf [] })).dev 3).sat (rndShift (coreOfDev (({ tk 3 (fun k => { k with ctx := { k.ctx with g := [(2, 0x40000000), (5, 0xFFFFFFFFD)], psw := 0x800000000 } }) [] (id) with mem := memOf [] })).dev 3).rnd ((opA (coreOfDev (({ tk 3 (fun k => { k with ctx := { k.ctx with g := [(2, 0x40000000), (5, 0xFFFFFFFFD)], psw := 0x800000000 } }) [] (id) with mem := memOf [] })).dev 3) ((Alu2.short 2 5) : Alu2)).toInt) (((opB (coreOfDev (({ tk 3 (fun k => { k with ctx := { k.ctx with g := [(2, 0x40000000), (5, 0xFFFFFFFFD)], psw := 0x800000000 } }) [] (id) with mem := memOf [] })).dev 3) ((Alu2.short 2 5) : Alu2)).toNat % 64)) : Int)).fl : FlagW), by repeat' first | decide +kernel | rfl | exact True.intro | apply And.intro | constructor | (apply loads_all; decide +kernel) | (apply sram_all; decide +kernel) | (apply loads_two; decide +kernel) | exact fun _ h => nomatch h⟩,
   ⟨({ tk 3 (fun k => { k with ctx := { k.ctx with g := [(2, 0x40000000), (5, 0xFFFFFFFFD)], psw := 0x800000000 } }) [] (id) with mem := memOf [] }), (3 : Fin 8), ((Alu2.short 2 5) : Alu2), ((fracRes (coreOfDev (({ tk 3 (fun k => { k with ctx := { k.ctx with g := [(2, 0x40000000), (5, 0xFFFFFFFFD)], psw := 0x800000000 } }) [] (id) with mem := memOf [] })).dev 3).sat ((opB (coreOfDev (({ tk 3 (fun k => { k with ctx := { k.ctx with g := [(2, 0x40000000), (5, 0xFFFFFFFFD)], psw := 0x800000000 } }) [] (id) with mem := memOf [] })).dev 3) ((Alu2.short 2 5) : Alu2)).toInt)).val : Word), ((fracRes (coreOfDev (({ tk 3 (fun k => { k with ctx := { k.ctx with g := [(2, 0x40000000), (5, 0xFFFFFFFFD)], psw := 0x800000000 } }) [] (id) with mem := memOf [] })).dev 3).sat ((opB (coreOfDev (({ tk 3 (fun k => { k with ctx := { k.ctx with g := [(2, 0x40000000), (5, 0xFFFFFFFFD)], psw := 0x800000000 } }) [] (id) with mem := memOf [] })).dev 3) ((Alu2.short 2 5) : Alu2)).toInt)).fl : FlagW), by repeat' first | decide +kernel | rfl | exact True.intro | apply And.intro | constructor | (apply loads_all; decide +kernel) | (apply sram_all; decide +kernel) | (apply loads_two; decide +kernel) | exact fun _ h => nomatch h⟩⟩

theorem witness_FloatingPoint :
    (∃ (s : State) (c : Fin 8) (o : Alu2), let d := s.dev; let k := coreOfDev d c; Calm s ∧ Executable c (Alu2.len o) s ∧ bit k.psw pswFpa = true) ∧
    (∃ (s : State) (c : Fin 8) (o : Alu2), let d := s.dev; let k := coreOfDev d c; Calm s ∧ Executable c (Alu2.len o) s ∧ bit k.psw pswFpa = true) ∧
    (∃ (s : State) (c : Fin 8) (o : Alu2), let d := s.dev; let k := coreOfDev d c; Calm s ∧ Executable c (Alu2.len o) s ∧ bit k.psw pswFpa = true) ∧
    (∃ (s : State) (c : Fin 8) (o : Alu2), let d := s.dev; let k := coreOfDev d c; Calm s ∧ Executable c (Alu2.len o) s ∧ bit k.psw pswFpa = true) ∧
    (∃ (s : State) (c : Fin 8) (o : Alu2), let d := s.dev; let k := coreOfDev d c; Calm s ∧ Executable c (Alu2.len o) s ∧ bit k.psw pswFpa = true) ∧
    (∃ (s : State) (c : Fin 8) (o : Alu2), let d := s.dev; let k := coreOfDev d c; Calm s ∧ Executable c (Alu2.len o) s ∧ bit k.psw pswFpa = true) ∧
    (∃ (s : State) (c : Fin 8) (o : Alu2), let d := s.dev; let k := coreOfDev d c; Calm s ∧ Executable c (Alu2.len o) s ∧ bit k.psw pswFpa = true ∧ rtZero o) ∧
    (∃ (s : State) (c : Fin 8) (o : Alu2), let d := s.dev; let k := coreOfDev d c; Calm s ∧ Executable c (Alu2.len o) s ∧ bit k.psw pswFpa = true ∧ rtZero o) ∧
    (∃ (s : State) (c : Fin 8) (o : Alu2), let d := s.dev; let k := coreOfDev d c; Calm s ∧ Executable c (Alu2.len o) s ∧ bit k.psw pswFpa = true ∧ rtZero o) ∧
    (∃ (s : State) (c : Fin 8) (o : Alu2), let d := s.dev; let k := coreOfDev d c; Calm s ∧ Executable c (Alu2.len o) s ∧ bit k.psw pswFpa = true ∧ rtZero o) ∧
    (∃ (s : State) (c : Fin 8), let d := s.dev; let k := coreOfDev d c; Calm s ∧ Executable c 2 s ∧ bit k.psw pswFpa = true) ∧
    (∃ (s : State) (c : Fin 8) (rs : Fin 16), let d := s.dev; let k := coreOfDev d c; Calm s ∧ Executable c 2 s ∧ bit k.psw pswFpa = true ∧ f32Nan (k.fr rs) = true) ∧
    (∃ (s : State) (c : Fin 8) (rs : Fin 16), let d := s.dev; let k := coreOfDev d c; Calm s ∧ Executable c 2 s ∧ bit k.psw pswFpa = true ∧ f32Nan (k.fr rs) = false) ∧
    (∃ (s : State) (c : Fin 8), let d := s.dev; let k := coreOfDev d c; Calm s ∧ Executable c 2 s ∧ bit k.psw pswFpa = true) ∧
    (∃ (s : State) (c : Fin 8), let d := s.dev; let k := coreOfDev d c; Calm s ∧ Executable c 2 s ∧ bit k.psw pswFpa = true) ∧
    (∃ (s : State) (c : Fin 8), let d := s.dev; let k := coreOfDev d c; Calm s ∧ Executable c 2 s ∧ bit k.psw pswFpa = true) ∧
    (∃ (s : State) (c : Fin 8), let d := s.dev; let k := coreOfDev d c; Calm s ∧ Executable c 2 s ∧ bit k.psw pswFpa = true) ∧
    (∃ (s : State) (c : Fin 8), let d := s.dev; let k := coreOfDev d c; Calm s ∧ Executable c 2 s ∧ bit k.psw pswFpa = true) ∧
    (∃ (s : State) (c : Fin 8), let d := s.dev; let k := coreOfDev d c; Calm s ∧ Executable c 2 s ∧ bit k.psw pswFpa = true) ∧
    (∃ (s : State) (c : Fin 8) (o : Alu2) (x : F32) (y : F32), let d := s.dev; let k := coreOfDev d c; Calm s ∧ Executable c (Alu2.len o) s ∧ bit k.psw pswFpa = true ∧ x = f32In (fpMode k.fpsr) (fpA k o) ∧ y = f32In (fpMode k.fpsr) (fpB k o) ∧ f32Nan x = false ∧ f32Nan y = false ∧ f32Eq x y = true) ∧
    (∃ (s : State) (c : Fin 8) (o : Alu2) (x : F32) (y : F32), let d := s.dev; let k := coreOfDev d c; Calm s ∧ Executable c (Alu2.len o) s ∧ bit k.psw pswFpa = true ∧ x = f32In (fpMode k.fpsr) (fpA k o) ∧ y = f32In (fpMode k.fpsr) (fpB k o) ∧ f32Nan x = false ∧ f32Nan y = false ∧ f32Eq x y = false ∧ f32Lt x y = true) ∧
    (∃ (s : State) (c : Fin 8) (o : Alu2) (x : F32) (y : F32), let d := s.dev; let k := coreOfDev d c; Calm s ∧ Executable c (Alu2.len o) s ∧ bit k.psw pswFpa = true ∧ x = f32In (fpMode k.fpsr) (fpA k o) ∧ y = f32In (fpMode k.fpsr) (fpB k o) ∧ f32Nan x = false ∧ f32Nan y = false ∧ f32Eq x y = false ∧ f32Lt x y = false) ∧
    (∃ (s : State) (c : Fin 8) (o : Alu2) (x : F32) (y : F32), let d := s.dev; let k := coreOfDev d c; Calm s ∧ Executable c (Alu2.len o) s ∧ bit k.psw pswFpa = true ∧ x = f32In (fpMode k.fpsr) (fpA k o) ∧ y = f32In (fpMode k.fpsr) (fpB k o) ∧ (f32Nan x = true ∨ f32Nan y = true)) :=
  ⟨⟨({ tk 3 (fun k => { k with ctx := { k.ctx with g := [(2, 0x40000000), (5, 0xFFFFFFFFD)], psw := 0x900000000 } }) [] (id) with mem := memOf [] }), (3 : Fin 8), ((Alu2.short 2 5) : Alu2), by repeat' first | decide +kernel | rfl | exact True.intro | apply And.intro | constructor | (apply loads_all; decide +kernel) | (apply sram_all; decide +kernel) | (apply loads_two; decide +kernel) | exact fun _ h => nomatch h⟩,
   ⟨({ tk 3 (fun k => { k with ctx := { k.ctx with g := [(2, 0x40000000), (5, 0xFFFFFFFFD)], psw := 0x900000000 } }) [] (id) with mem := memOf [] }), (3 : Fin 8), ((Alu2.short 2 5) : Alu2), by repeat' first | decide +kernel | rfl | exact True.intro | apply And.intro | constructor | (apply loads_all; decide +kernel) | (apply sram_all; decide +kernel) | (apply loads_two; decide +kernel) | exact fun _ h => nomatch h⟩,
   ⟨({ tk 3 (fun k => { k with ctx := { k.ctx with g := [(2, 0x40000000), (5, 0xFFFFFFFFD)], psw := 0x900000000 } }) [] (id) with mem := memOf [] }), (3 : Fin 8), ((Alu2.short 2 5) : Alu2), by repeat' first | decide +kernel | rfl | exact True.intro | apply And.intro | constructor | (apply loads_all; decide +kernel) | (apply sram_all; decide +kernel) | (apply loads_two; decide +kernel) | exact fun _ h => nomatch h⟩,
   ⟨({ tk 3 (fun k => { k with ctx := { k.ctx with g := [(2, 0x40000000), (5, 0xFFFFFFFFD)], psw := 0x900000000 } }) [] (id) with mem := memOf [] }), (3 : Fin 8), ((Alu2.short 2 5) : Alu2), by repeat' first | decide +kernel | rfl | exact True.intro | apply And.intro | constructor | (apply loads_all; decide +kernel) | (apply sram_all; decide +kernel) | (apply loads_two; decide +kernel) | exact fun _ h => nomatch h⟩,
   ⟨({ tk 3 (fun k => { k with ctx := { k.ctx with g := [(2, 0x40000000), (5, 0xFFFFFFFFD)], psw := 0x900000000 } }) [] (id) with mem := memOf [] }), (3 : Fin 8), ((Alu2.short 2 5) : Alu2), by repeat' first | decide +kernel | rfl | exact True.intro | apply And.intro | constructor | (apply loads_all; decide +kernel) | (apply sram_all; decide +kernel) | (apply loads_two; decide +kernel) | exact fun _ h => nomatch h⟩,
   ⟨({ tk 3 (fun k => { k with ctx := { k.ctx with g := [(2, 0x40000000), (5, 0xFFFFFFFFD)], psw := 0x900000000 } }) [] (id) with mem := memOf [] }), (3 : Fin 8), ((Alu2.short 2 5) : Alu2), by repeat' first | decide +kernel | rfl | exact True.intro | apply And.intro | constructor | (apply loads_all; decide +kernel) | (apply sram_all; decide +kernel) | (apply loads_two; decide +kernel) | exact fun _ h => nomatch h⟩,
   ⟨({ tk 3 (fun k => { k with ctx := { k.ctx with g := [(2, 0x40000000), (5, 0xFFFFFFFFD)], psw := 0x900000000 } }) [] (id) with mem := memOf [] }), (3 : Fin 8), ((Alu2.short 2 5) : Alu2), by repeat' first | decide +kernel | rfl | exact True.intro | apply And.intro | constructor | (apply loads_all; decide +kernel) | (apply sram_all; decide +kernel) | (apply loads_two; decide +kernel) | exact fun _ h => nomatch h⟩,
   ⟨({ tk 3 (fun k => { k with ctx := { k.ctx with g := [(2, 0x40000000), (5, 0xFFFFFFFFD)], psw := 0x900000000 } }) [] (id) with mem := memOf [] }), (3 : Fin 8), ((Alu2.short 2 5) : Alu2), by repeat' first | decide +kernel | rfl | exact True.intro | apply And.intro | constructor | (apply loads_all; decide +kernel) | (apply sram_all; decide +kernel) | (apply loads_two; decide +kernel) | exact fun _ h => nomatch h⟩,
   ⟨({ tk 3 (fun k => { k with ctx := { k.ctx with g := [(2, 0x40000000), (5, 0xFFFFFFFFD)], psw := 0x900000000 } }) [] (id) with mem := memOf [] }), (3 : Fin 8), ((Alu2.short 2 5) : Alu2), by repeat' first | decide +kernel | rfl | exact True.intro | apply And.intro | constructor | (apply loads_all; decide +kernel) | (apply sram_all; decide +kernel) | (apply loads_two; decide +kernel) | exact fun _ h => nomatch h⟩,
   ⟨({ tk 3 (fun k => { k with ctx := { k.ctx with g := [(2, 0x40000000), (5, 0xFFFFFFFFD)], psw := 0x900000000 } }) [] (id) with mem := memOf [] }), (3 : Fin 8), ((Alu2.short 2 5) : Alu2), by repeat' first | decide +kernel | rfl | exact True.intro | apply And.intro | constructor | (apply loads_all; decide +kernel) | (apply sram_all; decide +kernel) | (apply loads_two; decide +kernel) | exact fun _ h => nomatch h⟩,
   ⟨({ tk 3 (fun k => { k with ctx := { k.ctx with g := [(2, 0x40000000), (5, 0xFFFFFFFFD)], psw := 0x900000000 } }) [] (id) with mem := memOf [] }), (3 : Fin 8), by repeat' first | decide +kernel | rfl | exact True.intro | apply And.intro | constructor | (apply loads_all; decide +kernel) | (apply sram_all; decide +kernel) | (apply loads_two; decide +kernel) | exact fun _ h => nomatch h⟩,
   ⟨({ tk 3 (fun k => { k with f := [(5, 0x7FC12345)], ctx := { k.ctx with g := [(2, 0x40000000), (5, 0xFFFFFFFFD)], psw := 0x900000000 } }) [] (id) with mem := memOf [] }), (3 : Fin 8), (5 : Fin 16), by repeat' first | decide +kernel | rfl | exact True.intro | apply And.intro | constructor | (apply loads_all; decide +kernel) | (apply sram_all; decide +kernel) | (apply loads_two; decide +kernel) | exact fun _ h => nomatch h⟩,
   ⟨({ tk 3 (fun k => { k with ctx := { k.ctx with g := [(2, 0x40000000), (5, 0xFFFFFFFFD)], psw := 0x900000000 } }) [] (id) with mem := memOf [] }), (3 : Fin 8), (5 : Fin 16), by repeat' first | decide +kernel | rfl | exact True.intro | apply And.intro | constructor | (apply loads_all; decide +kernel) | (apply sram_all; decide +kernel) | (apply loads_two; decide +kernel) | exact fun _ h => nomatch h⟩,
   ⟨({ tk 3 (fun k => { k with ctx := { k.ctx with g := [(2, 0x40000000), (5, 0xFFFFFFFFD)], psw := 0x900000000 } }) [] (id) with mem := memOf [] }), (3 : Fin 8), by repeat' first | decide +kernel | rfl | exact True.intro | apply And.intro | constructor | (apply loads_all; decide +kernel) | (apply sram_all; decide +kernel) | (apply loads_two; decide +kernel) | exact fun _ h => nomatch h⟩,
   ⟨({ tk 3 (fun k => { k with ctx := { k.ctx with g := [(2, 0x40000000), (5, 0xFFFFFFFFD)], psw := 0x900000000 } }) [] (id) with mem := memOf [] }), (3 : Fin 8), by repeat' first | decide +kernel | rfl | exact True.intro | apply And.intro | constructor | (apply loads_all; decide +kernel) | (apply sram_all; decide +kernel) | (apply loads_two; decide +kernel) | exact fun _ h => nomatch h⟩,
   ⟨({ tk 3 (fun k => { k with ctx := { k.ctx with g := [(2, 0x40000000), (5, 0xFFFFFFFFD)], psw := 0x900000000 } }) [] (id) with mem := memOf [] }), (3 : Fin 8), by repeat' first | decide +kernel | rfl | exact True.intro | apply And.intro | constructor | (apply loads_all; decide +kernel) | (apply sram_all; decide +kernel) | (apply loads_two; decide +kernel) | exact fun _ h => nomatch h⟩,
   ⟨({ tk 3 (fun k => { k with ctx := { k.ctx with g := [(2, 0x40000000), (5, 0xFFFFFFFFD)], psw := 0x900000000 } }) [] (id) with mem := memOf [] }), (3 : Fin 8), by repeat' first | decide +kernel | rfl | exact True.intro | apply And.intro | constructor | (apply loads_all; decide +kernel) | (apply sram_all; decide +kernel) | (apply loads_two; decide +kernel) | exact fun _ h => nomatch h⟩,
   ⟨({ tk 3 (fun k => { k with ctx := { k.ctx with g := [(2, 0x40000000), (5, 0xFFFFFFFFD)], psw := 0x900000000 } }) [] (id) with mem := memOf [] }), (3 : Fin 8), by repeat' first | decide +kernel | rfl | exact True.intro | apply And.intro | constructor | (apply loads_all; decide +kernel) | (apply sram_all; decide +kernel) | (apply loads_two; decide +kernel) | exact fun _ h => nomatch h⟩,
   ⟨({ tk 3 (fun k => { k with ctx := { k.ctx with g := [(2, 0x40000000), (5, 0xFFFFFFFFD)], psw := 0x900000000 } }) [] (id) with mem := memOf [] }), (3 : Fin 8), by repeat' first | decide +kernel | rfl | exact True.intro | apply And.intro | constructor | (apply loads_all; decide +kernel) | (apply sram_all; decide +kernel) | (apply loads_two; decide +kernel) | exact fun _ h => nomatch h⟩,
   ⟨({ tk 3 (fun k => { k with f := [(2, 0x3F800000), (5, 0x3F800000)], ctx := { k.ctx with g := [(2, 0x40000000), (5, 0xFFFFFFFFD)], psw := 0x900000000 } }) [] (id) with mem := memOf [] }), (3 : Fin 8), ((Alu2.short 2 5) : Alu2), (f32In (fpMode (coreOfDev (({ tk 3 (fun k => { k with f := [(2, 0x3F800000), (5, 0x3F800000)], ctx := { k.ctx with g := [(2, 0x40000000), (5, 0xFFFFFFFFD)], psw := 0x900000000 } }) [] (id) with mem := memOf [] })).dev 3).fpsr) (fpA (coreOfDev (({ tk 3 (fun k => { k with f := [(2, 0x3F800000), (5, 0x3F800000)], ctx := { k.ctx with g := [(2, 0x40000000), (5, 0xFFFFFFFFD)], psw := 0x900000000 } }) [] (id) with mem := memOf [] })).dev 3) ((Alu2.short 2 5) : Alu2)) : F32), (f32In (fpMode (coreOfDev (({ tk 3 (fun k => { k with f := [(2, 0x3F800000), (5, 0x3F800000)], ctx := { k.ctx with g := [(2, 0x40000000), (5, 0xFFFFFFFFD)], psw := 0x900000000 } }) [] (id) with mem := memOf [] })).dev 3).fpsr) (fpB (coreOfDev (({ tk 3 (fun k => { k with f := [(2, 0x3F800000), (5, 0x3F800000)], ctx := { k.ctx with g := [(2, 0x40000000), (5, 0xFFFFFFFFD)], psw := 0x900000000 } }) [] (id) with mem := memOf [] })).dev 3) ((Alu2.short 2 5) : Alu2)) : F32), by repeat' first | decide +kernel | rfl | exact True.intro | apply And.intro | constructor | (apply loads_all; decide +kernel) | (apply sram_all; decide +kernel) | (apply loads_two; decide +kernel) | exact fun _ h => nomatch h⟩,
   ⟨({ tk 3 (fun k => { k with f := [(2, 0x3F800000), (5, 0x40800000)], ctx := { k.ctx with g := [(2, 0x40000000), (5, 0xFFFFFFFFD)], psw := 0x900000000 } }) [] (id) with mem := memOf [] }), (3 : Fin 8), ((Alu2.short 2 5) : Alu2), (f32In (fpMode (coreOfDev (({ tk 3 (fun k => { k with f := [(2, 0x3F800000), (5, 0x40800000)], ctx := { k.ctx with g := [(2, 0x40000000), (5, 0xFFFFFFFFD)], psw := 0x900000000 } }) [] (id) with mem := memOf [] })).dev 3).fpsr) (fpA (coreOfDev (({ tk 3 (fun k => { k with f := [(2, 0x3F800000), (5, 0x40800000)], ctx := { k.ctx with g := [(2, 0x40000000), (5, 0xFFFFFFFFD)], psw := 0x900000000 } }) [] (id) with mem := memOf [] })).dev 3) ((Alu2.short 2 5) : Alu2)) : F32), (f32In (fpMode (coreOfDev (({ tk 3 (fun k => { k with f := [(2, 0x3F800000), (5, 0x40800000)], ctx := { k.ctx with g := [(2, 0x40000000), (5, 0xFFFFFFFFD)], psw := 0x900000000 } }) [] (id) with mem := memOf [] })).dev 3).fpsr) (fpB (coreOfDev (({ tk 3 (fun k => { k with f := [(2, 0x3F800000), (5, 0x40800000)], ctx := { k.ctx with g := [(2, 0x40000000), (5, 0xFFFFFFFFD)], psw := 0x900000000 } }) [] (id) with mem := memOf [] })).dev 3) ((Alu2.short 2 5) : Alu2)) : F32), by repeat' first | decide +kernel | rfl | exact True.intro | apply And.intro | constructor | (apply loads_all; decide +kernel) | (apply sram_all; decide +kernel) | (apply loads_two; decide +kernel) | exact fun _ h => nomatch h⟩,
   ⟨({ tk 3 (fun k => { k with f := [(2, 0x3F800000), (5, 0xBF800000)], ctx := { k.ctx with g := [(2, 0x40000000), (5, 0xFFFFFFFFD)], psw := 0x900000000 } }) [] (id) with mem := memOf [] }), (3 : Fin 8), ((Alu2.short 2 5) : Alu2), (f32In (fpMode (coreOfDev (({ tk 3 (fun k => { k with f := [(2, 0x3F800000), (5, 0xBF800000)], ctx := { k.ctx with g := [(2, 0x40000000), (5, 0xFFFFFFFFD)], psw := 0x900000000 } }) [] (id) with mem := memOf [] })).dev 3).fpsr) (fpA (coreOfDev (({ tk 3 (fun k => { k with f := [(2, 0x3F800000), (5, 0xBF800000)], ctx := { k.ctx with g := [(2, 0x40000000), (5, 0xFFFFFFFFD)], psw := 0x900000000 } }) [] (id) with mem := memOf [] })).dev 3) ((Alu2.short 2 5) : Alu2)) : F32), (f32In (fpMode (coreOfDev (({ tk 3 (fun k => { k with f := [(2, 0x3F800000), (5, 0xBF800000)], ctx := { k.ctx with g := [(2, 0x40000000), (5, 0xFFFFFFFFD)], psw := 0x900000000 } }) [] (id) with mem := memOf [] })).dev 3).fpsr) (fpB (coreOfDev (({ tk 3 (fun k => { k with f := [(2, 0x3F800000), (5, 0xBF800000)], ctx := { k.ctx with g := [(2, 0x40000000), (5, 0xFFFFFFFFD)], psw := 0x900000000 } }) [] (id) with mem := memOf [] })).dev 3) ((Alu2.short 2 5) : Alu2)) : F32), by repeat' first | decide +kernel | rfl | exact True.intro | apply And.intro | constructor | (apply loads_all; decide +kernel) | (apply sram_all; decide +kernel) | (apply loads_two; decide +kernel) | exact fun _ h => nomatch h⟩,
   ⟨({ tk 3 (fun k => { k with f := [(2, 0x3F800000), (5, 0x7FC00000)], ctx := { k.ctx with g := [(2, 0x40000000), (5, 0xFFFFFFFFD)], psw := 0x900000000 } }) [] (id) with mem := memOf [] }), (3 : Fin 8), ((Alu2.short 2 5) : Alu2), (f32In (fpMode (coreOfDev (({ tk 3 (fun k => { k with f := [(2, 0x3F800000), (5, 0x7FC00000)], ctx := { k.ctx with g := [(2, 0x40000000), (5, 0xFFFFFFFFD)], psw := 0x900000000 } }) [] (id) with mem := memOf [] })).dev 3).fpsr) (fpA (coreOfDev (({ tk 3 (fun k => { k with f := [(2, 0x3F800000), (5, 0x7FC00000)], ctx := { k.ctx with g := [(2, 0x40000000), (5, 0xFFFFFFFFD)], psw := 0x900000000 } }) [] (id) with mem := memOf [] })).dev 3) ((Alu2.short 2 5) : Alu2)) : F32), (f32In (fpMode (coreOfDev (({ tk 3 (fun k => { k with f := [(2, 0x3F800000), (5, 0x7FC00000)], ctx := { k.ctx with g := [(2, 0x40000000), (5, 0xFFFFFFFFD)], psw := 0x900000000 } }) [] (id) with mem := memOf [] })).dev 3).fpsr) (fpB (coreOfDev (({ tk 3 (fun k => { k with f := [(2, 0x3F800000), (5, 0x7FC00000)], ctx := { k.ctx with g := [(2, 0x40000000), (5, 0xFFFFFFFFD)], psw := 0x900000000 } }) [] (id) with mem := memOf [] })).dev 3) ((Alu2.short 2 5) : Alu2)) : F32), by repeat' first | decide +kernel | rfl | exact True.intro | apply And.intro | constructor | (apply loads_all; decide +kernel) | (apply sram_all; decide +kernel) | (apply loads_two; decide +kernel) | exact fun _ h => nomatch h⟩⟩

theorem witness_ControlFlow :
    (∃ (s : State) (c : Fin 8) (o : Disp), Calm s ∧ Executable c (dispLen o) s) ∧
    (∃ (s : State) (c : Fin 8), Calm s ∧ Executable c 2 s) ∧
    (∃ (s : State) (c : Fin 8), Calm s ∧ Executable c 2 s) ∧
    (∃ (s : State) (c : Fin 8) (rs : Fin 16), let d := s.dev; let k := coreOfDev d c; Calm s ∧ Executable c 1 s ∧ (k.gr rs).toNat < 2 ^ 29) ∧
    (∃ (s : State) (c : Fin 8) (rs : Fin 16), let d := s.dev; let k := coreOfDev d c; Calm s ∧ Executable c 1 s ∧ (k.gr rs).toNat < 2 ^ 29 ∧ rs.val ≠ 15) ∧
    (∃ (s : State) (c : Fin 8) (rs : Fin 16), let d := s.dev; let k := coreOfDev d c; Calm s ∧ Executable c 1 s ∧ 2 ^ 29 ≤ (k.gr rs).toNat ∧ k.stepping = false) ∧
    (∃ (s : State) (c : Fin 8), let d := s.dev; let k := coreOfDev d c; Calm s ∧ Executable c 1 s ∧ (k.gr 15).toNat < 2 ^ 29) ∧
    (∃ (s : State) (c : Fin 8), Calm s ∧ Executable c 1 s) ∧
    (∃ (s : State) (c : Fin 8), let d := s.dev; let k := coreOfDev d c; Calm s ∧ Executable c 1 s ∧ k.stepping = false) ∧
    (∃ (s : State) (c : Fin 8), let d := s.dev; let k := coreOfDev d c; Calm s ∧ Executable c 1 s ∧ pendingStores k = []) ∧
    (∃ (s : State) (c : Fin 8), let d := s.dev; let k := coreOfDev d c; Calm s ∧ Executable c 1 s ∧ pendingStores k = [] ∧ arithPending k = false) ∧
    (∃ (s : State) (c : Fin 8), let d := s.dev; let k := coreOfDev d c; Calm s ∧ Executable c 1 s ∧ pendingStores k ≠ []) ∧
    (∃ (s : State) (c : Fin 8), let d := s.dev; let k := coreOfDev d c; Calm s ∧ Executable c 1 s ∧ pendingStores k = []) ∧
    (∃ (s : State) (c : Fin 8), let d := s.dev; let k := coreOfDev d c; Calm s ∧ Executable c 1 s ∧ k.depth = 0 ∧ k.ready = [] ∧ slotEn d c k.run = true) ∧
    (∃ (s : State) (c : Fin 8), let d := s.dev; let k := coreOfDev d c; Calm s ∧ Executable c 1 s ∧ k.depth = 0 ∧ k.run ∈ k.pend) ∧
    (∃ (s : State) (c : Fin 8), let d := s.dev; let k := coreOfDev d c; Calm s ∧ Executable c 1 s ∧ k.depth = 0 ∧ k.run ∉ k.pend ∧ k.ready = []) ∧
    (∃ (s : State) (c : Fin 8), let d := s.dev; let k := coreOfDev d c; Calm s ∧ Executable c 1 s ∧ 1 ≤ k.depth ∧ k.stepping = false) ∧
    (∃ (s : State) (c : Fin 8), let d := s.dev; let k := coreOfDev d c; Calm s ∧ Executable c 1 s ∧ k.sup = true ∧ 1 ≤ k.depth ∧ compatOf d = true ∧ (bit (tabGet 0 k.savePsw (k.depth - 1)) pswMode = true → (tabGet (false, 0) k.latch (k.depth - 1)).1 = true)) ∧
    (∃ (s : State) (c : Fin 8), let d := s.dev; let k := coreOfDev d c; Calm s ∧ Executable c 1 s ∧ k.sup = true ∧ k.depth = 0 ∧ k.stepping = false) ∧
    (∃ (s : State) (c : Fin 8), let d := s.dev; let k := coreOfDev d c; Calm s ∧ Executable c 1 s ∧ k.sup = false ∧ k.stepping = false) :=
  ⟨⟨({ tk 3 (fun k => { k with ctx := { k.ctx with g := [(2, 0x40000000), (5, 0xFFFFFFFFD)], psw := 0x800000000 } }) [] (id) with mem := memOf [] }), (3 : Fin 8), ((Disp.short (-5)) : Disp), by repeat' first | decide +kernel | rfl | exact True.intro | apply And.intro | constructor | (apply loads_all; decide +kernel) | (apply sram_all; decide +kernel) | (apply loads_two; decide +kernel) | exact fun _ h => nomatch h⟩,
   ⟨({ tk 3 (fun k => { k with ctx := { k.ctx with g := [(2, 0x40000000), (5, 0xFFFFFFFFD)], psw := 0x800000000 } }) [] (id) with mem := memOf [] }), (3 : Fin 8), by repeat' first | decide +kernel | rfl | exact True.intro | apply And.intro | constructor | (apply loads_all; decide +kernel) | (apply sram_all; decide +kernel) | (apply loads_two; decide +kernel) | exact fun _ h => nomatch h⟩,
   ⟨({ tk 3 (fun k => { k with ctx := { k.ctx with g := [(2, 0x40000000), (5, 0xFFFFFFFFD)], psw := 0x800000000 } }) [] (id) with mem := memOf [] }), (3 : Fin 8), by repeat' first | decide +kernel | rfl | exact True.intro | apply And.intro | constructor | (apply loads_all; decide +kernel) | (apply sram_all; decide +kernel) | (apply loads_two; decide +kernel) | exact fun _ h => nomatch h⟩,
   ⟨({ tk 3 (fun k => { k with ctx := { k.ctx with g := [(2, 0x40000000), (5, 0xFFFFFFFFD), (7, 0x400)], psw := 0x800000000 } }) [] (id) with mem := memOf [] }), (3 : Fin 8), (7 : Fin 16), by repeat' first | decide +kernel | rfl | exact True.intro | apply And.intro | constructor | (apply loads_all; decide +kernel) | (apply sram_all; decide +kernel) | (apply loads_two; decide +kernel) | exact fun _ h => nomatch h⟩,
   ⟨({ tk 3 (fun k => { k with ctx := { k.ctx with g := [(2, 0x40000000), (5, 0xFFFFFFFFD), (7, 0x400)], psw := 0x800000000 } }) [] (id) with mem := memOf [] }), (3 : Fin 8), (7 : Fin 16), by repeat' first | decide +kernel | rfl | exact True.intro | apply And.intro | constructor | (apply loads_all; decide +kernel) | (apply sram_all; decide +kernel) | (apply loads_two; decide +kernel) | exact fun _ h => nomatch h⟩,
   ⟨({ tk 3 (fun k => { k with ctx := { k.ctx with g := [(2, 0x40000000), (5, 0xFFFFFFFFD), (7, 0x40000400)], psw := 0x800000000 } }) [] (id) with mem := memOf [] }), (3 : Fin 8), (7 : Fin 16), by repeat' first | decide +kernel | rfl | exact True.intro | apply And.intro | constructor | (apply loads_all; decide +kernel) | (apply sram_all; decide +kernel) | (apply loads_two; decide +kernel) | exact fun _ h => nomatch h⟩,
   ⟨({ tk 3 (fun k => { k with ctx := { k.ctx with g := [(2, 0x40000000), (5, 0xFFFFFFFFD), (15, 0x400)], psw := 0x800000000 } }) [] (id) with mem := memOf [] }), (3 : Fin 8), by repeat' first | decide +kernel | rfl | exact True.intro | apply And.intro | constructor | (apply loads_all; decide +kernel) | (apply sram_all; decide +kernel) | (apply loads_two; decide +kernel) | exact fun _ h => nomatch h⟩,
   ⟨({ tk 3 (fun k => { k with ctx := { k.ctx with g := [(2, 0x40000000), (5, 0xFFFFFFFFD)], psw := 0x800000000 } }) [] (id) with mem := memOf [] }), (3 : Fin 8), by repeat' first | decide +kernel | rfl | exact True.intro | apply And.intro | constructor | (apply loads_all; decide +kernel) | (apply sram_all; decide +kernel) | (apply loads_two; decide +kernel) | exact fun _ h => nomatch h⟩,
   ⟨({ tk 3 (fun k => { k with ctx := { k.ctx with g := [(2, 0x40000000), (5, 0xFFFFFFFFD)], psw := 0x800000000 } }) [] (id) with mem := memOf [] }), (3 : Fin 8), by repeat' first | decide +kernel | rfl | exact True.intro | apply And.intro | constructor | (apply loads_all; decide +kernel) | (apply sram_all; decide +kernel) | (apply loads_two; decide +kernel) | exact fun _ h => nomatch h⟩,
   ⟨({ tk 3 (fun k => { k with ctx := { k.ctx with g := [(2, 0x40000000), (5, 0xFFFFFFFFD)], psw := 0x800000000 } }) [] (id) with mem := memOf [] }), (3 : Fin 8), by repeat' first | decide +kernel | rfl | exact True.intro | apply And.intro | constructor | (apply loads_all; decide +kernel) | (apply sram_all; decide +kernel) | (apply loads_two; decide +kernel) | exact fun _ h => nomatch h⟩,
   ⟨({ tk 3 (fun k => { k with ctx := { k.ctx with g := [(2, 0x40000000), (5, 0xFFFFFFFFD)], psw := 0x800000000 } }) [] (id) with mem := memOf [] }), (3 : Fin 8), by repeat' first | decide +kernel | rfl | exact True.intro | apply And.intro | constructor | (apply loads_all; decide +kernel) | (apply sram_all; decide +kernel) | (apply loads_two; decide +kernel) | exact fun _ h => nomatch h⟩,
   ⟨({ tk 3 (fun k => { k with wbuf := [⟨0x4001234, BitVec.allOnes 36, 55, none, false, false, 0, 1, false, none, false⟩], ctx := { k.ctx with g := [(2, 0x40000000), (5, 0xFFFFFFFFD)], psw := 0x800000000 } }) [] (id) with mem := memOf [] }), (3 : Fin 8), by repeat' first | decide +kernel | rfl | exact True.intro | apply And.intro | constructor | (apply loads_all; decide +kernel) | (apply sram_all; decide +kernel) | (apply loads_two; decide +kernel) | exact fun _ h => nomatch h⟩,
   ⟨({ tk 3 (fun k => { k with ctx := { k.ctx with g := [(2, 0x40000000), (5, 0xFFFFFFFFD)], psw := 0x800000000 } }) [] (id) with mem := memOf [] }), (3 : Fin 8), by repeat' first | decide +kernel | rfl | exact True.intro | apply And.intro | constructor | (apply loads_all; decide +kernel) | (apply sram_all; decide +kernel) | (apply loads_two; decide +kernel) | exact fun _ h => nomatch h⟩,
   ⟨({ tk 3 (fun k => { k with ctx := { k.ctx with g := [(2, 0x40000000), (5, 0xFFFFFFFFD)], psw := 0x800000000 } }) [(TSC_SLOTCFG.EN 3 0, 1)] (id) with mem := memOf [] }), (3 : Fin 8), by repeat' first | decide +kernel | rfl | exact True.intro | apply And.intro | constructor | (apply loads_all; decide +kernel) | (apply sram_all; decide +kernel) | (apply loads_two; decide +kernel) | exact fun _ h => nomatch h⟩,
   ⟨({ tk 3 (fun k => { k with pend := [4, 0], ctx := { k.ctx with g := [(2, 0x40000000), (5, 0xFFFFFFFFD)], psw := 0x800000000 } }) [] (id) with mem := memOf [] }), (3 : Fin 8), by repeat' first | decide +kernel | rfl | exact True.intro | apply And.intro | constructor | (apply loads_all; decide +kernel) | (apply sram_all; decide +kernel) | (apply loads_two; decide +kernel) | exact fun _ h => nomatch h⟩,
   ⟨({ tk 3 (fun k => { k with ctx := { k.ctx with g := [(2, 0x40000000), (5, 0xFFFFFFFFD)], psw := 0x800000000 } }) [] (id) with mem := memOf [] }), (3 : Fin 8), by repeat' first | decide +kernel | rfl | exact True.intro | apply And.intro | constructor | (apply loads_all; decide +kernel) | (apply sram_all; decide +kernel) | (apply loads_two; decide +kernel) | exact fun _ h => nomatch h⟩,
   ⟨({ tk 3 (fun k => { k with depth := 1, ctx := { k.ctx with g := [(2, 0x40000000), (5, 0xFFFFFFFFD)], psw := 0x800000000 } }) [] (id) with mem := memOf [] }), (3 : Fin 8), by repeat' first | decide +kernel | rfl | exact True.intro | apply And.intro | constructor | (apply loads_all; decide +kernel) | (apply sram_all; decide +kernel) | (apply loads_two; decide +kernel) | exact fun _ h => nomatch h⟩,
   ⟨({ tk 3 (fun k => { k with depth := 1, saveIp := [(0, 0x123)], savePsw := [(0, 0x800000003)], latch := [(0, (true, 2))], ctx := { k.ctx with g := [(2, 0x40000000), (5, 0xFFFFFFFFD)], psw := 0x800000000 } }) [] (fun d => { d with latch := [(16, 8)] }) with mem := memOf [] }), (3 : Fin 8), by repeat' first | decide +kernel | rfl | exact True.intro | apply And.intro | constructor | (apply loads_all; decide +kernel) | (apply sram_all; decide +kernel) | (apply loads_two; decide +kernel) | exact fun _ h => nomatch h⟩,
   ⟨({ tk 3 (fun k => { k with ctx := { k.ctx with g := [(2, 0x40000000), (5, 0xFFFFFFFFD)], psw := 0x800000000 } }) [] (id) with mem := memOf [] }), (3 : Fin 8), by repeat' first | decide +kernel | rfl | exact True.intro | apply And.intro | constructor | (apply loads_all; decide +kernel) | (apply sram_all; decide +kernel) | (apply loads_two; decide +kernel) | exact fun _ h => nomatch h⟩,
   ⟨({ tk 3 (fun k => { k with ctx := { k.ctx with g := [(2, 0x40000000), (5, 0xFFFFFFFFD)], psw := 0 } }) [] (id) with mem := memOf [] }), (3 : Fin 8), by repeat' first | decide +kernel | rfl | exact True.intro | apply And.intro | constructor | (apply loads_all; decide +kernel) | (apply sram_all; decide +kernel) | (apply loads_two; decide +kernel) | exact fun _ h => nomatch h⟩⟩

theorem witness_ControlRegisters :
    (∃ (s : State) (c : Fin 8) (cn : Fin 64), Calm s ∧ Executable c 1 s ∧ cn.val < 4) ∧
    (∃ (s : State) (c : Fin 8), let d := s.dev; let k := coreOfDev d c; Calm s ∧ Executable c 1 s ∧ bit k.psw pswFpa = true) ∧
    (∃ (s : State) (c : Fin 8) (cn : Fin 64), let d := s.dev; let k := coreOfDev d c; Calm s ∧ Executable c 1 s ∧ k.sup = true ∧ 5 ≤ cn.val ∧ cn.val < 16) ∧
    (∃ (s : State) (c : Fin 8) (cn : Fin 64), Calm s ∧ Executable c 1 s ∧ 16 ≤ cn.val ∧ cn.val < 32) ∧
    (∃ (s : State) (c : Fin 8) (cn : Fin 64), let d := s.dev; let k := coreOfDev d c; Calm s ∧ Executable c 1 s ∧ 32 ≤ cn.val ∧ k.stepping = false) ∧
    (∃ (s : State) (c : Fin 8) (cn : Fin 64), let d := s.dev; let k := coreOfDev d c; Calm s ∧ Executable c 1 s ∧ k.sup = false ∧ 5 ≤ cn.val ∧ cn.val < 16 ∧ k.stepping = false) ∧
    (∃ (s : State) (c : Fin 8), let d := s.dev; let k := coreOfDev d c; Calm s ∧ Executable c 1 s ∧ k.sup = true ∧ arithPending k = false) ∧
    (∃ (s : State) (c : Fin 8), let d := s.dev; let k := coreOfDev d c; Calm s ∧ Executable c 1 s ∧ k.sup = false ∧ arithPending k = false) ∧
    (∃ (s : State) (c : Fin 8) (rd : Fin 16), let d := s.dev; let k := coreOfDev d c; Calm s ∧ Executable c 1 s ∧ k.sup = true ∧ 0x110000 ≤ (k.gr rd).toNat ∧ (k.gr rd).toNat < 0x118000 ∧ (k.gr rd).toNat % 64 = 0) ∧
    (∃ (s : State) (c : Fin 8), let d := s.dev; let k := coreOfDev d c; Calm s ∧ Executable c 1 s ∧ k.sup = true) ∧
    (∃ (s : State) (c : Fin 8), let d := s.dev; let k := coreOfDev d c; Calm s ∧ Executable c 1 s ∧ bit k.psw pswFpa = true ∧ arithPending k = false) ∧
    (∃ (s : State) (c : Fin 8) (cn : Fin 64), let d := s.dev; let k := coreOfDev d c; Calm s ∧ Executable c 1 s ∧ k.sup = true ∧ 8 ≤ cn.val ∧ cn.val < 12) ∧
    (∃ (s : State) (c : Fin 8) (cn : Fin 64), let d := s.dev; let k := coreOfDev d c; Calm s ∧ Executable c 1 s ∧ k.sup = true ∧ 12 ≤ cn.val ∧ cn.val < 16) ∧
    (∃ (s : State) (c : Fin 8) (cn : Fin 64), let d := s.dev; let k := coreOfDev d c; Calm s ∧ Executable c 1 s ∧ k.sup = true ∧ 16 ≤ cn.val ∧ cn.val < 32) ∧
    (∃ (s : State) (c : Fin 8) (cn : Fin 64), let d := s.dev; let k := coreOfDev d c; Calm s ∧ Executable c 1 s ∧ k.sup = false ∧ (cn.val = 2 ∨ cn.val = 3 ∨ (5 ≤ cn.val ∧ cn.val < 32)) ∧ k.stepping = false) ∧
    (∃ (s : State) (c : Fin 8) (cn : Fin 64), let d := s.dev; let k := coreOfDev d c; Calm s ∧ Executable c 1 s ∧ (cn.val = 1 ∨ 32 ≤ cn.val) ∧ k.stepping = false) :=
  ⟨⟨({ tk 3 (fun k => { k with ctx := { k.ctx with g := [(2, 0x40000000), (5, 0xFFFFFFFFD)], psw := 0x800000000 } }) [] (id) with mem := memOf [] }), (3 : Fin 8), (0 : Fin 64), by repeat' first | decide +kernel | rfl | exact True.intro | apply And.intro | constructor | (apply loads_all; decide +kernel) | (apply sram_all; decide +kernel) | (apply loads_two; decide +kernel) | exact fun _ h => nomatch h⟩,
   ⟨({ tk 3 (fun k => { k with ctx := { k.ctx with g := [(2, 0x40000000), (5, 0xFFFFFFFFD)], psw := 0x900000000 } }) [] (id) with mem := memOf [] }), (3 : Fin 8), by repeat' first | decide +kernel | rfl | exact True.intro | apply And.intro | constructor | (apply loads_all; decide +kernel) | (apply sram_all; decide +kernel) | (apply loads_two; decide +kernel) | exact fun _ h => nomatch h⟩,
   ⟨({ tk 3 (fun k => { k with saveIp := [(1, 77)], ctx := { k.ctx with g := [(2, 0x40000000), (5, 0xFFFFFFFFD)], psw := 0x800000000 } }) [] (id) with mem := memOf [] }), (3 : Fin 8), (9 : Fin 64), by repeat' first | decide +kernel | rfl | exact True.intro | apply And.intro | constructor | (apply loads_all; decide +kernel) | (apply sram_all; decide +kernel) | (apply loads_two; decide +kernel) | exact fun _ h => nomatch h⟩,
   ⟨({ tk 3 (fun k => { k with maskset := [(1, 77)], ctx := { k.ctx with g := [(2, 0x40000000), (5, 0xFFFFFFFFD)], psw := 0x800000000 } }) [] (id) with mem := memOf [] }), (3 : Fin 8), (17 : Fin 64), by repeat' first | decide +kernel | rfl | exact True.intro | apply And.intro | constructor | (apply loads_all; decide +kernel) | (apply sram_all; decide +kernel) | (apply loads_two; decide +kernel) | exact fun _ h => nomatch h⟩,
   ⟨({ tk 3 (fun k => { k with ctx := { k.ctx with g := [(2, 0x40000000), (5, 0xFFFFFFFFD)], psw := 0x800000000 } }) [] (id) with mem := memOf [] }), (3 : Fin 8), (40 : Fin 64), by repeat' first | decide +kernel | rfl | exact True.intro | apply And.intro | constructor | (apply loads_all; decide +kernel) | (apply sram_all; decide +kernel) | (apply loads_two; decide +kernel) | exact fun _ h => nomatch h⟩,
   ⟨({ tk 3 (fun k => { k with ctx := { k.ctx with g := [(2, 0x40000000), (5, 0xFFFFFFFFD)], psw := 0 } }) [] (id) with mem := memOf [] }), (3 : Fin 8), (9 : Fin 64), by repeat' first | decide +kernel | rfl | exact True.intro | apply And.intro | constructor | (apply loads_all; decide +kernel) | (apply sram_all; decide +kernel) | (apply loads_two; decide +kernel) | exact fun _ h => nomatch h⟩,
   ⟨({ tk 3 (fun k => { k with ctx := { k.ctx with g := [(2, 0x40000000), (5, 0xFFFFFFFFD), (7, 0x40000000F)], psw := 0x800000000 } }) [] (id) with mem := memOf [] }), (3 : Fin 8), by repeat' first | decide +kernel | rfl | exact True.intro | apply And.intro | constructor | (apply loads_all; decide +kernel) | (apply sram_all; decide +kernel) | (apply loads_two; decide +kernel) | exact fun _ h => nomatch h⟩,
   ⟨({ tk 3 (fun k => { k with ctx := { k.ctx with g := [(2, 0x40000000), (5, 0xFFFFFFFFD), (7, 0xC0000000F)], psw := 0 } }) [] (id) with mem := memOf [] }), (3 : Fin 8), by repeat' first | decide +kernel | rfl | exact True.intro | apply And.intro | constructor | (apply loads_all; decide +kernel) | (apply sram_all; decide +kernel) | (apply loads_two; decide +kernel) | exact fun _ h => nomatch h⟩,
   ⟨({ tk 3 (fun k => { k with ctx := { k.ctx with g := [(2, 0x40000000), (5, 0xFFFFFFFFD), (7, 0x110040)], psw := 0x800000000 } }) [] (id) with mem := memOf [] }), (3 : Fin 8), (7 : Fin 16), by repeat' first | decide +kernel | rfl | exact True.intro | apply And.intro | constructor | (apply loads_all; decide +kernel) | (apply sram_all; decide +kernel) | (apply loads_two; decide +kernel) | exact fun _ h => nomatch h⟩,
   ⟨({ tk 3 (fun k => { k with ctx := { k.ctx with g := [(2, 0x40000000), (5, 0xFFFFFFFFD), (7, 0x110040)], psw := 0x800000000 } }) [] (id) with mem := memOf [] }), (3 : Fin 8), by repeat' first | decide +kernel | rfl | exact True.intro | apply And.intro | constructor | (apply loads_all; decide +kernel) | (apply sram_all; decide +kernel) | (apply loads_two; decide +kernel) | exact fun _ h => nomatch h⟩,
   ⟨({ tk 3 (fun k => { k with ctx := { k.ctx with g := [(2, 0x40000000), (5, 0xFFFFFFFFD), (7, 0x110047)], psw := 0x900000000 } }) [] (id) with mem := memOf [] }), (3 : Fin 8), by repeat' first | decide +kernel | rfl | exact True.intro | apply And.intro | constructor | (apply loads_all; decide +kernel) | (apply sram_all; decide +kernel) | (apply loads_two; decide +kernel) | exact fun _ h => nomatch h⟩,
   ⟨({ tk 3 (fun k => { k with ctx := { k.ctx with g := [(2, 0x40000000), (5, 0xFFFFFFFFD), (7, 0x110040)], psw := 0x800000000 } }) [] (id) with mem := memOf [] }), (3 : Fin 8), (9 : Fin 64), by repeat' first | decide +kernel | rfl | exact True.intro | apply And.intro | constructor | (apply loads_all; decide +kernel) | (apply sram_all; decide +kernel) | (apply loads_two; decide +kernel) | exact fun _ h => nomatch h⟩,
   ⟨({ tk 3 (fun k => { k with ctx := { k.ctx with g := [(2, 0x40000000), (5, 0xFFFFFFFFD), (7, 0x110040)], psw := 0x800000000 } }) [] (id) with mem := memOf [] }), (3 : Fin 8), (13 : Fin 64), by repeat' first | decide +kernel | rfl | exact True.intro | apply And.intro | constructor | (apply loads_all; decide +kernel) | (apply sram_all; decide +kernel) | (apply loads_two; decide +kernel) | exact fun _ h => nomatch h⟩,
   ⟨({ tk 3 (fun k => { k with ctx := { k.ctx with g := [(2, 0x40000000), (5, 0xFFFFFFFFD), (7, 0x110040)], psw := 0x800000000 } }) [] (id) with mem := memOf [] }), (3 : Fin 8), (17 : Fin 64), by repeat' first | decide +kernel | rfl | exact True.intro | apply And.intro | constructor | (apply loads_all; decide +kernel) | (apply sram_all; decide +kernel) | (apply loads_two; decide +kernel) | exact fun _ h => nomatch h⟩,
   ⟨({ tk 3 (fun k => { k with ctx := { k.ctx with g := [(2, 0x40000000), (5, 0xFFFFFFFFD)], psw := 0 } }) [] (id) with mem := memOf [] }), (3 : Fin 8), (17 : Fin 64), by repeat' first | decide +kernel | rfl | exact True.intro | apply And.intro | constructor | (apply loads_all; decide +kernel) | (apply sram_all; decide +kernel) | (apply loads_two; decide +kernel) | exact fun _ h => nomatch h⟩,
   ⟨({ tk 3 (fun k => { k with ctx := { k.ctx with g := [(2, 0x40000000), (5, 0xFFFFFFFFD)], psw := 0 } }) [] (id) with mem := memOf [] }), (3 : Fin 8), (33 : Fin 64), by repeat' first | decide +kernel | rfl | exact True.intro | apply And.intro | constructor | (apply loads_all; decide +kernel) | (apply sram_all; decide +kernel) | (apply loads_two; decide +kernel) | exact fun _ h => nomatch h⟩⟩

theorem witness_MemoryLoads :
    (∃ (s : State) (c : Fin 8) (rs : Fin 16) (fn : Fin 16) (w : Word), let d := s.dev; let k := coreOfDev d c; Calm s ∧ Executable c 1 s ∧ Loads c (((k.gr rs).toNat + fn.val) % 2 ^ 36) w s) ∧
    (∃ (s : State) (c : Fin 8) (rs : Fin 16) (imm : BitVec 21) (w : Word), let d := s.dev; let k := coreOfDev d c; Calm s ∧ Executable c 2 s ∧ Loads c ((k.gr rs + imm.signExtend 36).toNat) w s) ∧
    (∃ (s : State) (c : Fin 8) (imm : BitVec 8) (w : Word), let d := s.dev; let k := coreOfDev d c; Calm s ∧ Executable c 1 s ∧ Loads c (((k.gr 14).toNat + imm.toNat) % 2 ^ 36) w s) ∧
    (∃ (s : State) (c : Fin 8) (rs : Fin 16) (imm : BitVec 21) (w : Word) (h : Half), let d := s.dev; let k := coreOfDev d c; Calm s ∧ Executable c 2 s ∧ Loads c ((k.gr rs + imm.signExtend 36).toNat / 2) w s ∧ (h = (if (k.gr rs + imm.signExtend 36).toNat % 2 = 0 then w.extractLsb' 18 18 else w.extractLsb' 0 18))) ∧
    (∃ (s : State) (c : Fin 8) (rs : Fin 16) (imm : BitVec 21) (w : Word) (h : Half), let d := s.dev; let k := coreOfDev d c; Calm s ∧ Executable c 2 s ∧ Loads c ((k.gr rs + imm.signExtend 36).toNat / 2) w s ∧ (h = (if (k.gr rs + imm.signExtend 36).toNat % 2 = 0 then w.extractLsb' 18 18 else w.extractLsb' 0 18))) ∧
    (∃ (s : State) (c : Fin 8) (rs : Fin 16) (imm : BitVec 21) (w : Word) (h : Half), let d := s.dev; let k := coreOfDev d c; Calm s ∧ Executable c 2 s ∧ Loads c ((k.gr rs + imm.signExtend 36).toNat / 2) w s ∧ (h = (if (k.gr rs + imm.signExtend 36).toNat % 2 = 0 then w.extractLsb' 18 18 else w.extractLsb' 0 18))) ∧
    (∃ (s : State) (c : Fin 8) (rd : Fin 16) (rs : Fin 16) (imm : BitVec 21) (w : Word) (v : Word), let d := s.dev; let k := coreOfDev d c; Calm s ∧ Executable c 2 s ∧ Loads c (k.gr rs + imm.signExtend 36).toNat w s ∧ Loads c ((k.gr rs + imm.signExtend 36).toNat + 1) v s ∧ rd.val % 2 = 0 ∧ (k.gr rs + imm.signExtend 36).toNat % 2 = 0) ∧
    (∃ (s : State) (c : Fin 8) (rd : Fin 16) (rs : Fin 16) (imm : BitVec 21) (w : Word) (v : Word), let d := s.dev; let k := coreOfDev d c; Calm s ∧ Executable c 2 s ∧ Loads c (k.gr rs + imm.signExtend 36).toNat w s ∧ Loads c ((k.gr rs + imm.signExtend 36).toNat + 1) v s ∧ rd.val % 2 = 0 ∧ (k.gr rs + imm.signExtend 36).toNat % 2 = 1 ∧ splitBad c (k.gr rs + imm.signExtend 36).toNat = none) ∧
    (∃ (s : State) (c : Fin 8) (rd : Fin 16) (rs : Fin 16) (imm : BitVec 21) (b : Nat), let d := s.dev; let k := coreOfDev d c; Calm s ∧ Executable c 2 s ∧ rd.val % 2 = 0 ∧ (k.gr rs + imm.signExtend 36).toNat % 2 = 1 ∧ splitBad c (k.gr rs + imm.signExtend 36).toNat = some b ∧ k.stepping = false) ∧
    (∃ (s : State) (c : Fin 8) (rd : Fin 16), let d := s.dev; let k := coreOfDev d c; Calm s ∧ Executable c 2 s ∧ rd.val % 2 = 1 ∧ k.stepping = false) ∧
    (∃ (s : State) (c : Fin 8) (rs : Fin 16) (imm : BitVec 21) (w : Word), let d := s.dev; let k := coreOfDev d c; Calm s ∧ Executable c 2 s ∧ Loads c ((k.gr rs + imm.signExtend 36).toNat) w s ∧ bit k.psw pswFpa = true) ∧
    (∃ (s : State) (c : Fin 8) (w : Word), let d := s.dev; let k := coreOfDev d c; Calm s ∧ Executable c 1 s ∧ Loads c ((k.gr 14).toNat) w s) ∧
    (∃ (s : State) (c : Fin 8) (w : Word), let d := s.dev; let k := coreOfDev d c; Calm s ∧ Executable c 1 s ∧ Loads c ((k.gr 14).toNat) w s ∧ bit k.psw pswFpa = true) ∧
    (∃ (s : State) (c : Fin 8) (rs : Fin 16) (imm : BitVec 21), let d := s.dev; let k := coreOfDev d c; Calm s ∧ Executable c 2 s ∧ 2 ^ 28 ≤ (k.gr rs + imm.signExtend 36).toNat ∧ k.stepping = false) ∧
    (∃ (s : State) (c : Fin 8) (rs : Fin 16) (imm : BitVec 21), let d := s.dev; let k := coreOfDev d c; Calm s ∧ Executable c 2 s ∧ (k.gr rs + imm.signExtend 36).toNat < 2 ^ 28 ∧ k.sup = false ∧ (regionOf (some c.val) (k.gr rs + imm.signExtend 36).toNat = .colophon ∨ regionOf (some c.val) (k.gr rs + imm.signExtend 36).toNat = .rom) ∧ k.stepping = false) :=
  ⟨⟨({ tk 3 (fun k => { k with ctx := { k.ctx with g := [(7, 0x4001200), (5, 0xFFFFFFFFD), (2, 0x40000000), (14, 0x4001200)], psw := 0x800000000 } }) [] (id) with mem := memOf [(0x4001200, 0xABCDE1234), (0x4001205, 0x812345678), (0x4001201, 0x600000055), (0x40011FE, 77)] }), (3 : Fin 8), (7 : Fin 16), (0 : Fin 16), (0xABCDE1234 : Word), by repeat' first | decide +kernel | rfl | exact True.intro | apply And.intro | constructor | (apply loads_all; decide +kernel) | (apply sram_all; decide +kernel) | (apply loads_two; decide +kernel) | exact fun _ h => nomatch h⟩,
   ⟨({ tk 3 (fun k => { k with ctx := { k.ctx with g := [(7, 0x4001200), (5, 0xFFFFFFFFD), (2, 0x40000000), (14, 0x4001200)], psw := 0x800000000 } }) [] (id) with mem := memOf [(0x4001200, 0xABCDE1234), (0x4001205, 0x812345678), (0x4001201, 0x600000055), (0x40011FE, 77)] }), (3 : Fin 8), (7 : Fin 16), (0 : BitVec 21), (0xABCDE1234 : Word), by repeat' first | decide +kernel | rfl | exact True.intro | apply And.intro | constructor | (apply loads_all; decide +kernel) | (apply sram_all; decide +kernel) | (apply loads_two; decide +kernel) | exact fun _ h => nomatch h⟩,
   ⟨({ tk 3 (fun k => { k with ctx := { k.ctx with g := [(7, 0x4001200), (5, 0xFFFFFFFFD), (2, 0x40000000), (14, 0x4001200)], psw := 0x800000000 } }) [] (id) with mem := memOf [(0x4001200, 0xABCDE1234), (0x4001205, 0x812345678), (0x4001201, 0x600000055), (0x40011FE, 77)] }), (3 : Fin 8), (0 : BitVec 8), (0xABCDE1234 : Word), by repeat' first | decide +kernel | rfl | exact True.intro | apply And.intro | constructor | (apply loads_all; decide +kernel) | (apply sram_all; decide +kernel) | (apply loads_two; decide +kernel) | exact fun _ h => nomatch h⟩,
   ⟨({ tk 3 (fun k => { k with ctx := { k.ctx with g := [(7, 0x8002400), (5, 0xFFFFFFFFD), (2, 0x40000000), (14, 0x4001200)], psw := 0x800000000 } }) [] (id) with mem := memOf [(0x4001200, 0xABCDE1234), (0x4001205, 0x812345678), (0x4001201, 0x600000055), (0x40011FE, 77)] }), (3 : Fin 8), (7 : Fin 16), (1 : BitVec 21), (0xABCDE1234 : Word), ((0xABCDE1234 : Word).extractLsb' 0 18 : Half), by repeat' first | decide +kernel | rfl | exact True.intro | apply And.intro | constructor | (apply loads_all; decide +kernel) | (apply sram_all; decide +kernel) | (apply loads_two; decide +kernel) | exact fun _ h => nomatch h⟩,
   ⟨({ tk 3 (fun k => { k with ctx := { k.ctx with g := [(7, 0x8002400), (5, 0xFFFFFFFFD), (2, 0x40000000), (14, 0x4001200)], psw := 0x800000000 } }) [] (id) with mem := memOf [(0x4001200, 0xABCDE1234), (0x4001205, 0x812345678), (0x4001201, 0x600000055), (0x40011FE, 77)] }), (3 : Fin 8), (7 : Fin 16), (1 : BitVec 21), (0xABCDE1234 : Word), ((0xABCDE1234 : Word).extractLsb' 0 18 : Half), by repeat' first | decide +kernel | rfl | exact True.intro | apply And.intro | constructor | (apply loads_all; decide +kernel) | (apply sram_all; decide +kernel) | (apply loads_two; decide +kernel) | exact fun _ h => nomatch h⟩,
   ⟨({ tk 3 (fun k => { k with ctx := { k.ctx with g := [(7, 0x8002400), (5, 0xFFFFFFFFD), (2, 0x40000000), (14, 0x4001200)], psw := 0x800000000 } }) [] (id) with mem := memOf [(0x4001200, 0xABCDE1234), (0x4001205, 0x812345678), (0x4001201, 0x600000055), (0x40011FE, 77)] }), (3 : Fin 8), (7 : Fin 16), (1 : BitVec 21), (0xABCDE1234 : Word), ((0xABCDE1234 : Word).extractLsb' 0 18 : Half), by repeat' first | decide +kernel | rfl | exact True.intro | apply And.intro | constructor | (apply loads_all; decide +kernel) | (apply sram_all; decide +kernel) | (apply loads_two; decide +kernel) | exact fun _ h => nomatch h⟩,
   ⟨({ tk 3 (fun k => { k with ctx := { k.ctx with g := [(7, 0x4001200), (5, 0xFFFFFFFFD), (2, 0x40000000), (14, 0x4001200)], psw := 0x800000000 } }) [] (id) with mem := memOf [(0x4001200, 0xABCDE1234), (0x4001205, 0x812345678), (0x4001201, 0x600000055), (0x40011FE, 77)] }), (3 : Fin 8), (4 : Fin 16), (7 : Fin 16), (0 : BitVec 21), (0xABCDE1234 : Word), (0x600000055 : Word), by repeat' first | decide +kernel | rfl | exact True.intro | apply And.intro | constructor | (apply loads_all; decide +kernel) | (apply sram_all; decide +kernel) | (apply loads_two; decide +kernel) | exact fun _ h => nomatch h⟩,
   ⟨({ tk 3 (fun k => { k with ctx := { k.ctx with g := [(7, 0x4001200), (5, 0xFFFFFFFFD), (2, 0x40000000), (14, 0x4001200)], psw := 0x800000000 } }) [] (id) with mem := memOf [(0x4001201, 5), (0x4001202, 0x600000055)] }), (3 : Fin 8), (4 : Fin 16), (7 : Fin 16), (1 : BitVec 21), (5 : Word), (0x600000055 : Word), by repeat' first | decide +kernel | rfl | exact True.intro | apply And.intro | constructor | (apply loads_all; decide +kernel) | (apply sram_all; decide +kernel) | (apply loads_two; decide +kernel) | exact fun _ h => nomatch h⟩,
   ⟨({ tk 3 (fun k => { k with ctx := { k.ctx with g := [(7, 0x40FFFFF)], psw := 0x800000000 } }) [] (id) with mem := memOf [] }), (3 : Fin 8), (4 : Fin 16), (7 : Fin 16), (0 : BitVec 21), (1 : Nat), by repeat' first | decide +kernel | rfl | exact True.intro | apply And.intro | constructor | (apply loads_all; decide +kernel) | (apply sram_all; decide +kernel) | (apply loads_two; decide +kernel) | exact fun _ h => nomatch h⟩,
   ⟨({ tk 3 (fun k => { k with ctx := { k.ctx with g := [(7, 0x40FFFFF)], psw := 0x800000000 } }) [] (id) with mem := memOf [] }), (3 : Fin 8), (5 : Fin 16), by repeat' first | decide +kernel | rfl | exact True.intro | apply And.intro | constructor | (apply loads_all; decide +kernel) | (apply sram_all; decide +kernel) | (apply loads_two; decide +kernel) | exact fun _ h => nomatch h⟩,
   ⟨({ tk 3 (fun k => { k with ctx := { k.ctx with g := [(7, 0x4001200), (5, 0xFFFFFFFFD), (2, 0x40000000), (14, 0x4001200)], psw := 0x900000000 } }) [] (id) with mem := memOf [(0x4001200, 0xABCDE1234), (0x4001205, 0x812345678), (0x4001201, 0x600000055), (0x40011FE, 77)] }), (3 : Fin 8), (7 : Fin 16), (0 : BitVec 21), (0xABCDE1234 : Word), by repeat' first | decide +kernel | rfl | exact True.intro | apply And.intro | constructor | (apply loads_all; decide +kernel) | (apply sram_all; decide +kernel) | (apply loads_two; decide +kernel) | exact fun _ h => nomatch h⟩,
   ⟨({ tk 3 (fun k => { k with ctx := { k.ctx with g := [(7, 0x4001200), (5, 0xFFFFFFFFD), (2, 0x40000000), (14, 0x4001200)], psw := 0x800000000 } }) [] (id) with mem := memOf [(0x4001200, 0xABCDE1234), (0x4001205, 0x812345678), (0x4001201, 0x600000055), (0x40011FE, 77)] }), (3 : Fin 8), (0xABCDE1234 : Word), by repeat' first | decide +kernel | rfl | exact True.intro | apply And.intro | constructor | (apply loads_all; decide +kernel) | (apply sram_all; decide +kernel) | (apply loads_two; decide +kernel) | exact fun _ h => nomatch h⟩,
   ⟨({ tk 3 (fun k => { k with ctx := { k.ctx with g := [(7, 0x4001200), (5, 0xFFFFFFFFD), (2, 0x40000000), (14, 0x4001200)], psw := 0x900000000 } }) [] (id) with mem := memOf [(0x4001200, 0xABCDE1234), (0x4001205, 0x812345678), (0x4001201, 0x600000055), (0x40011FE, 77)] }), (3 : Fin 8), (0xABCDE1234 : Word), by repeat' first | decide +kernel | rfl | exact True.intro | apply And.intro | constructor | (apply loads_all; decide +kernel) | (apply sram_all; decide +kernel) | (apply loads_two; decide +kernel) | exact fun _ h => nomatch h⟩,
   ⟨({ tk 3 (fun k => { k with ctx := { k.ctx with g := [(7, 0x70FFFFFFF)], psw := 0x800000000 } }) [] (id) with mem := memOf [] }), (3 : Fin 8), (7 : Fin 16), (2 : BitVec 21), by repeat' first | decide +kernel | rfl | exact True.intro | apply And.intro | constructor | (apply loads_all; decide +kernel) | (apply sram_all; decide +kernel) | (apply loads_two; decide +kernel) | exact fun _ h => nomatch h⟩,
   ⟨({ tk 3 (fun k => { k with ctx := { k.ctx with g := [(7, 0x8400000)], psw := 0 } }) [] (id) with mem := memOf [] }), (3 : Fin 8), (7 : Fin 16), (2 : BitVec 21), by repeat' first | decide +kernel | rfl | exact True.intro | apply And.intro | constructor | (apply loads_all; decide +kernel) | (apply sram_all; decide +kernel) | (apply loads_two; decide +kernel) | exact fun _ h => nomatch h⟩⟩

theorem witness_MemoryStores :
    (∃ (s : State) (c : Fin 8) (rs : Fin 16) (fn : Fin 16), let d := s.dev; let k := coreOfDev d c; Calm s ∧ Executable c 1 s ∧ k.wbuf.length < 4 ∧ (k.sup = true ∨ regionOf (some c.val) (((k.gr rs).toNat + fn.val) % 2 ^ 36) ≠ .folio)) ∧
    (∃ (s : State) (c : Fin 8) (rs : Fin 16) (imm : BitVec 21), let d := s.dev; let k := coreOfDev d c; Calm s ∧ Executable c 2 s ∧ k.wbuf.length < 4 ∧ (k.sup = true ∨ regionOf (some c.val) ((k.gr rs + imm.signExtend 36).toNat) ≠ .folio)) ∧
    (∃ (s : State) (c : Fin 8) (imm : BitVec 8), let d := s.dev; let k := coreOfDev d c; Calm s ∧ Executable c 1 s ∧ k.wbuf.length < 4 ∧ (k.sup = true ∨ regionOf (some c.val) (((k.gr 14).toNat + imm.toNat) % 2 ^ 36) ≠ .folio)) ∧
    (∃ (s : State) (c : Fin 8) (rs : Fin 16) (imm : BitVec 21), let d := s.dev; let k := coreOfDev d c; Calm s ∧ Executable c 2 s ∧ k.wbuf.length < 4 ∧ (k.sup = true ∨ regionOf (some c.val) ((k.gr rs + imm.signExtend 36).toNat / 2) ≠ .folio) ∧ (k.gr rs + imm.signExtend 36).toNat % 2 = 0) ∧
    (∃ (s : State) (c : Fin 8) (rs : Fin 16) (imm : BitVec 21), let d := s.dev; let k := coreOfDev d c; Calm s ∧ Executable c 2 s ∧ k.wbuf.length < 4 ∧ (k.sup = true ∨ regionOf (some c.val) ((k.gr rs + imm.signExtend 36).toNat / 2) ≠ .folio) ∧ (k.gr rs + imm.signExtend 36).toNat % 2 = 1) ∧
    (∃ (s : State) (c : Fin 8) (rd : Fin 16) (rs : Fin 16) (imm : BitVec 21) (y : Int) (h : Half) (o : Bool), let d := s.dev; let k := coreOfDev d c; Calm s ∧ Executable c 2 s ∧ k.wbuf.length < 4 ∧ (k.sup = true ∨ regionOf (some c.val) ((k.gr rs + imm.signExtend 36).toNat / 2) ≠ .folio) ∧ Rounds k.rnd (k.gr rd).toInt 14 y ∧ h = BitVec.ofInt 18 (max (-(2 ^ 17)) (min (2 ^ 17 - 1) y)) ∧ (o = decide (y < -(2 ^ 17) ∨ 2 ^ 17 ≤ y))) ∧
    (∃ (s : State) (c : Fin 8) (rd : Fin 16) (rs : Fin 16) (imm : BitVec 21), let d := s.dev; let k := coreOfDev d c; Calm s ∧ Executable c 2 s ∧ k.wbuf.length < 4 ∧ (k.sup = true ∨ regionOf (some c.val) ((k.gr rs + imm.signExtend 36).toNat) ≠ .folio) ∧ rd.val % 2 = 0 ∧ (k.gr rs + imm.signExtend 36).toNat % 2 = 0) ∧
    (∃ (s : State) (c : Fin 8) (rd : Fin 16) (rs : Fin 16) (imm : BitVec 21), let d := s.dev; let k := coreOfDev d c; Calm s ∧ Executable c 2 s ∧ k.wbuf.length < 3 ∧ rd.val % 2 = 0 ∧ (k.gr rs + imm.signExtend 36).toNat % 2 = 1 ∧ splitBad c (k.gr rs + imm.signExtend 36).toNat = none) ∧
    (∃ (s : State) (c : Fin 8) (rd : Fin 16) (rs : Fin 16) (imm : BitVec 21) (b : Nat), let d := s.dev; let k := coreOfDev d c; Calm s ∧ Executable c 2 s ∧ rd.val % 2 = 0 ∧ (k.gr rs + imm.signExtend 36).toNat % 2 = 1 ∧ splitBad c (k.gr rs + imm.signExtend 36).toNat = some b ∧ k.stepping = false) ∧
    (∃ (s : State) (c : Fin 8) (rs : Fin 16) (imm : BitVec 21), let d := s.dev; let k := coreOfDev d c; Calm s ∧ Executable c 2 s ∧ k.wbuf.length < 4 ∧ (k.sup = true ∨ regionOf (some c.val) ((k.gr rs + imm.signExtend 36).toNat) ≠ .folio) ∧ bit k.psw pswFpa = true) ∧
    (∃ (s : State) (c : Fin 8), let d := s.dev; let k := coreOfDev d c; Calm s ∧ Executable c 1 s ∧ k.wbuf.length < 4 ∧ (k.sup = true ∨ regionOf (some c.val) ((k.gr 14 - 1).toNat) ≠ .folio) ∧ stackLimit k ≤ ((k.gr 14).toNat : Int) - 1) ∧
    (∃ (s : State) (c : Fin 8), let d := s.dev; let k := coreOfDev d c; Calm s ∧ Executable c 1 s ∧ k.wbuf.length < 4 ∧ (k.sup = true ∨ regionOf (some c.val) ((k.gr 14 - 1).toNat) ≠ .folio) ∧ stackLimit k ≤ ((k.gr 14).toNat : Int) - 1 ∧ bit k.psw pswFpa = true) ∧
    (∃ (s : State) (c : Fin 8), let d := s.dev; let k := coreOfDev d c; Calm s ∧ Executable c 1 s ∧ ((k.gr 14).toNat : Int) - 1 < stackLimit k ∧ k.stepping = false) ∧
    (∃ (s : State) (c : Fin 8) (rs : Fin 16) (imm : BitVec 21), let d := s.dev; let k := coreOfDev d c; Calm s ∧ Executable c 2 s ∧ k.sup = false ∧ (k.gr rs + imm.signExtend 36).toNat < 2 ^ 28 ∧ regionOf (some c.val) (k.gr rs + imm.signExtend 36).toNat = .folio ∧ k.stepping = false) :=
  ⟨⟨({ tk 3 (fun k => { k with ctx := { k.ctx with g := [(7, 0x4001200), (5, 0xFFFFFFFFD), (2, 0x40000000), (14, 0x4001200)], psw := 0x800000000 } }) [] (id) with mem := memOf [] }), (3 : Fin 8), (7 : Fin 16), (3 : Fin 16), by repeat' first | decide +kernel | rfl | exact True.intro | apply And.intro | constructor | (apply loads_all; decide +kernel) | (apply sram_all; decide +kernel) | (apply loads_two; decide +kernel) | exact fun _ h => nomatch h⟩,
   ⟨({ tk 3 (fun k => { k with ctx := { k.ctx with g := [(7, 0x4001200), (5, 0xFFFFFFFFD), (2, 0x40000000), (14, 0x4001200)], psw := 0x800000000 } }) [] (id) with mem := memOf [] }), (3 : Fin 8), (7 : Fin 16), (3 : BitVec 21), by repeat' first | decide +kernel | rfl | exact True.intro | apply And.intro | constructor | (apply loads_all; decide +kernel) | (apply sram_all; decide +kernel) | (apply loads_two; decide +kernel) | exact fun _ h => nomatch h⟩,
   ⟨({ tk 3 (fun k => { k with ctx := { k.ctx with g := [(7, 0x4001200), (5, 0xFFFFFFFFD), (2, 0x40000000), (14, 0x4001200)], psw := 0x800000000 } }) [] (id) with mem := memOf [] }), (3 : Fin 8), (3 : BitVec 8), by repeat' first | decide +kernel | rfl | exact True.intro | apply And.intro | constructor | (apply loads_all; decide +kernel) | (apply sram_all; decide +kernel) | (apply loads_two; decide +kernel) | exact fun _ h => nomatch h⟩,
   ⟨({ tk 3 (fun k => { k with ctx := { k.ctx with g := [(7, 0x8002400), (5, 0xFFFFFFFFD), (2, 0x40000000), (14, 0x4001200)], psw := 0x800000000 } }) [] (id) with mem := memOf [] }), (3 : Fin 8), (7 : Fin 16), (0 : BitVec 21), by repeat' first | decide +kernel | rfl | exact True.intro | apply And.intro | constructor | (apply loads_all; decide +kernel) | (apply sram_all; decide +kernel) | (apply loads_two; decide +kernel) | exact fun _ h => nomatch h⟩,
   ⟨({ tk 3 (fun k => { k with ctx := { k.ctx with g := [(7, 0x8002400), (5, 0xFFFFFFFFD), (2, 0x40000000), (14, 0x4001200)], psw := 0x800000000 } }) [] (id) with mem := memOf [] }), (3 : Fin 8), (7 : Fin 16), (1 : BitVec 21), by repeat' first | decide +kernel | rfl | exact True.intro | apply And.intro | constructor | (apply loads_all; decide +kernel) | (apply sram_all; decide +kernel) | (apply loads_two; decide +kernel) | exact fun _ h => nomatch h⟩,
   ⟨({ tk 3 (fun k => { k with ctx := { k.ctx with g := [(7, 0x8002400), (5, 0xFFFFFFFFD), (2, 0x40000000), (14, 0x4001200)], psw := 0x800000000 } }) [] (id) with mem := memOf [] }), (3 : Fin 8), (5 : Fin 16), (7 : Fin 16), (1 : BitVec 21), (rndShift (coreOfDev (({ tk 3 (fun k => { k with ctx := { k.ctx with g := [(7, 0x8002400), (5, 0xFFFFFFFFD), (2, 0x40000000), (14, 0x4001200)], psw := 0x800000000 } }) [] (id) with mem := memOf [] })).dev 3).rnd ((coreOfDev (({ tk 3 (fun k => { k with ctx := { k.ctx with g := [(7, 0x8002400), (5, 0xFFFFFFFFD), (2, 0x40000000), (14, 0x4001200)], psw := 0x800000000 } }) [] (id) with mem := memOf [] })).dev 3).gr (5 : Fin 16)).toInt 14 : Int), (BitVec.ofInt 18 (max (-(2 ^ 17)) (min (2 ^ 17 - 1) (rndShift (coreOfDev (({ tk 3 (fun k => { k with ctx := { k.ctx with g := [(7, 0x8002400), (5, 0xFFFFFFFFD), (2, 0x40000000), (14, 0x4001200)], psw := 0x800000000 } }) [] (id) with mem := memOf [] })).dev 3).rnd ((coreOfDev (({ tk 3 (fun k => { k with ctx := { k.ctx with g := [(7, 0x8002400), (5, 0xFFFFFFFFD), (2, 0x40000000), (14, 0x4001200)], psw := 0x800000000 } }) [] (id) with mem := memOf [] })).dev 3).gr (5 : Fin 16)).toInt 14 : Int))) : Half), (decide ((rndShift (coreOfDev (({ tk 3 (fun k => { k with ctx := { k.ctx with g := [(7, 0x8002400), (5, 0xFFFFFFFFD), (2, 0x40000000), (14, 0x4001200)], psw := 0x800000000 } }) [] (id) with mem := memOf [] })).dev 3).rnd ((coreOfDev (({ tk 3 (fun k => { k with ctx := { k.ctx with g := [(7, 0x8002400), (5, 0xFFFFFFFFD), (2, 0x40000000), (14, 0x4001200)], psw := 0x800000000 } }) [] (id) with mem := memOf [] })).dev 3).gr (5 : Fin 16)).toInt 14 : Int) < -(2 ^ 17) ∨ 2 ^ 17 ≤ (rndShift (coreOfDev (({ tk 3 (fun k => { k with ctx := { k.ctx with g := [(7, 0x8002400), (5, 0xFFFFFFFFD), (2, 0x40000000), (14, 0x4001200)], psw := 0x800000000 } }) [] (id) with mem := memOf [] })).dev 3).rnd ((coreOfDev (({ tk 3 (fun k => { k with ctx := { k.ctx with g := [(7, 0x8002400), (5, 0xFFFFFFFFD), (2, 0x40000000), (14, 0x4001200)], psw := 0x800000000 } }) [] (id) with mem := memOf [] })).dev 3).gr (5 : Fin 16)).toInt 14 : Int)) : Bool), by repeat' first | decide +kernel | rfl | exact True.intro | apply And.intro | constructor | (apply loads_all; decide +kernel) | (apply sram_all; decide +kernel) | (apply loads_two; decide +kernel) | exact fun _ h => nomatch h⟩,
   ⟨({ tk 3 (fun k => { k with ctx := { k.ctx with g := [(7, 0x4001200), (5, 0xFFFFFFFFD), (2, 0x40000000), (14, 0x4001200)], psw := 0x800000000 } }) [] (id) with mem := memOf [] }), (3 : Fin 8), (2 : Fin 16), (7 : Fin 16), (4 : BitVec 21), by repeat' first | decide +kernel | rfl | exact True.intro | apply And.intro | constructor | (apply loads_all; decide +kernel) | (apply sram_all; decide +kernel) | (apply loads_two; decide +kernel) | exact fun _ h => nomatch h⟩,
   ⟨({ tk 3 (fun k => { k with ctx := { k.ctx with g := [(7, 0x4001200), (5, 0xFFFFFFFFD), (2, 0x40000000), (14, 0x4001200)], psw := 0x800000000 } }) [] (id) with mem := memOf [] }), (3 : Fin 8), (2 : Fin 16), (7 : Fin 16), (5 : BitVec 21), by repeat' first | decide +kernel | rfl | exact True.intro | apply And.intro | constructor | (apply loads_all; decide +kernel) | (apply sram_all; decide +kernel) | (apply loads_two; decide +kernel) | exact fun _ h => nomatch h⟩,
   ⟨({ tk 3 (fun k => { k with ctx := { k.ctx with g := [(7, 0x40FFFFF)], psw := 0x800000000 } }) [] (id) with mem := memOf [] }), (3 : Fin 8), (4 : Fin 16), (7 : Fin 16), (0 : BitVec 21), (1 : Nat), by repeat' first | decide +kernel | rfl | exact True.intro | apply And.intro | constructor | (apply loads_all; decide +kernel) | (apply sram_all; decide +kernel) | (apply loads_two; decide +kernel) | exact fun _ h => nomatch h⟩,
   ⟨({ tk 3 (fun k => { k with ctx := { k.ctx with g := [(7, 0x4001200), (5, 0xFFFFFFFFD), (2, 0x40000000), (14, 0x4001200)], psw := 0x900000000 } }) [] (id) with mem := memOf [] }), (3 : Fin 8), (7 : Fin 16), (3 : BitVec 21), by repeat' first | decide +kernel | rfl | exact True.intro | apply And.intro | constructor | (apply loads_all; decide +kernel) | (apply sram_all; decide +kernel) | (apply loads_two; decide +kernel) | exact fun _ h => nomatch h⟩,
   ⟨({ tk 3 (fun k => { k with ctx := { k.ctx with g := [(7, 0x4001200), (5, 0xFFFFFFFFD), (2, 0x40000000), (14, 0x4001200)], psw := 0x800000000 } }) [] (id) with mem := memOf [] }), (3 : Fin 8), by repeat' first | decide +kernel | rfl | exact True.intro | apply And.intro | constructor | (apply loads_all; decide +kernel) | (apply sram_all; decide +kernel) | (apply loads_two; decide +kernel) | exact fun _ h => nomatch h⟩,
   ⟨({ tk 3 (fun k => { k with ctx := { k.ctx with g := [(7, 0x4001200), (5, 0xFFFFFFFFD), (2, 0x40000000), (14, 0x4001200)], psw := 0x900000000 } }) [] (id) with mem := memOf [] }), (3 : Fin 8), by repeat' first | decide +kernel | rfl | exact True.intro | apply And.intro | constructor | (apply loads_all; decide +kernel) | (apply sram_all; decide +kernel) | (apply loads_two; decide +kernel) | exact fun _ h => nomatch h⟩,
   ⟨({ tk 3 (fun k => { k with slim := 0x100, ctx := { k.ctx with g := [(14, 0x100)], psw := 0x800000000 } }) [] (id) with mem := memOf [] }), (3 : Fin 8), by repeat' first | decide +kernel | rfl | exact True.intro | apply And.intro | constructor | (apply loads_all; decide +kernel) | (apply sram_all; decide +kernel) | (apply loads_two; decide +kernel) | exact fun _ h => nomatch h⟩,
   ⟨({ tk 3 (fun k => { k with ctx := { k.ctx with g := [(7, 0xF000300)], psw := 0 } }) [] (id) with mem := memOf [] }), (3 : Fin 8), (7 : Fin 16), (4 : BitVec 21), by repeat' first | decide +kernel | rfl | exact True.intro | apply And.intro | constructor | (apply loads_all; decide +kernel) | (apply sram_all; decide +kernel) | (apply loads_two; decide +kernel) | exact fun _ h => nomatch h⟩⟩

theorem witness_MaskedAndBlock :
    (∃ (s : State) (c : Fin 8) (mask : BitVec 16), let d := s.dev; let k := coreOfDev d c; Calm s ∧ Executable c 2 s ∧ CanSave c (mask.setWidth 36) s ∧ k.stepping = false) ∧
    (∃ (s : State) (c : Fin 8) (mask : BitVec 16) (rs : Fin 16), let d := s.dev; let k := coreOfDev d c; Calm s ∧ Executable c 2 s ∧ CanSave c (mask.setWidth 36) s ∧ k.stepping = false ∧ rs.val ≠ 14 ∧ rs.val ≠ 15 ∧ (k.gr rs).toNat < 2 ^ 29) ∧
    (∃ (s : State) (c : Fin 8) (q : Fin 16) (rs : Fin 16), let d := s.dev; let k := coreOfDev d c; Calm s ∧ Executable c 1 s ∧ CanSave c (tabGet 0 k.maskset q) s ∧ k.stepping = false ∧ rs.val ≠ 14 ∧ rs.val ≠ 15 ∧ (k.gr rs).toNat < 2 ^ 29) ∧
    (∃ (s : State) (c : Fin 8) (mask : BitVec 16), let d := s.dev; let k := coreOfDev d c; Calm s ∧ Executable c 2 s ∧ CanSave c (mask.setWidth 36) s ∧ k.stepping = false) ∧
    (∃ (s : State) (c : Fin 8) (mask : BitVec 16), let d := s.dev; let k := coreOfDev d c; Calm s ∧ Executable c 2 s ∧ CanSave c (mask.setWidth 36) s ∧ k.resume = false ∧ k.prog = none ∧ k.stepping = true) ∧
    (∃ (s : State) (c : Fin 8) (mask : BitVec 16), let d := s.dev; let k := coreOfDev d c; Calm s ∧ Executable c 2 s ∧ k.resume = false ∧ k.prog = none ∧ ((k.gr 14).toNat : Int) - (maskRegs (mask.setWidth 36)).length < stackLimit k ∧ k.stepping = false) ∧
    (∃ (s : State) (c : Fin 8) (mask : BitVec 16) (w : Nat → Word), let d := s.dev; let k := coreOfDev d c; Calm s ∧ Executable c 2 s ∧ CanRestore c (mask.setWidth 36) w s ∧ k.stepping = false) ∧
    (∃ (s : State) (c : Fin 8) (q : BitVec 4) (w : Nat → Word), let d := s.dev; let k := coreOfDev d c; Calm s ∧ Executable c 1 s ∧ CanRestore c (tabGet 0 k.maskset q.toNat) w s ∧ k.stepping = false) ∧
    (∃ (s : State) (c : Fin 8) (disp : BitVec 13), let d := s.dev; let k := coreOfDev d c; Calm s ∧ Executable c 2 s ∧ disp ≠ 0 ∧ k.stepping = false) ∧
    (∃ (s : State) (c : Fin 8) (rd : Fin 16) (rs : Fin 16) (rt : Fin 16) (w : Word), let d := s.dev; let k := coreOfDev d c; Calm s ∧ Executable c 2 s ∧ Loads c (k.gr rs).toNat w s ∧ 1 < (k.gr rt).toNat ∧ k.stepping = false ∧ (k.sup = true ∨ regionOf (some c.val) ((k.gr rd).toNat) ≠ .folio) ∧ rd ≠ rs ∧ rs ≠ rt ∧ rd ≠ rt) ∧
    (∃ (s : State) (c : Fin 8) (rd : Fin 16) (rs : Fin 16) (rt : Fin 16) (w : Word), let d := s.dev; let k := coreOfDev d c; Calm s ∧ Executable c 2 s ∧ Loads c (k.gr rs).toNat w s ∧ 1 < (k.gr rt).toNat ∧ k.stepping = true ∧ (k.sup = true ∨ regionOf (some c.val) ((k.gr rd).toNat) ≠ .folio) ∧ rd ≠ rs ∧ rs ≠ rt ∧ rd ≠ rt) ∧
    (∃ (s : State) (c : Fin 8) (rd : Fin 16) (rs : Fin 16) (rt : Fin 16) (w : Word), let d := s.dev; let k := coreOfDev d c; Calm s ∧ Executable c 2 s ∧ Loads c (k.gr rs).toNat w s ∧ k.gr rt = 1 ∧ k.stepping = false ∧ (k.sup = true ∨ regionOf (some c.val) ((k.gr rd).toNat) ≠ .folio) ∧ rd ≠ rs ∧ rs ≠ rt ∧ rd ≠ rt) ∧
    (∃ (s : State) (c : Fin 8) (rt : Fin 16), let d := s.dev; let k := coreOfDev d c; Calm s ∧ Executable c 2 s ∧ k.gr rt = 0) ∧
    (∃ (s : State) (c : Fin 8) (a : Fin 2) (rd : Fin 16) (rs : Fin 16) (rt : Fin 16) (x : Nat → Word) (y : Nat → Word), let d := s.dev; let k := coreOfDev d c; Calm s ∧ Executable c 2 s ∧ k.stepping = false ∧ (∀ i ∈ upTo (k.gr rd).toNat, Loads c (k.gr rs + BitVec.ofNat 36 i).toNat (x i) s) ∧ (∀ i ∈ upTo (k.gr rd).toNat, Loads c (k.gr rt + BitVec.ofNat 36 i).toNat (y i) s) ∧ (∀ i ∈ upTo (k.gr rd).toNat, -(2 ^ 79) ≤ (k.acc a).toInt + dot x y (i + 1)) ∧ (∀ i ∈ upTo (k.gr rd).toNat, (k.acc a).toInt + dot x y (i + 1) < 2 ^ 79) ∧ rd ≠ rs ∧ rs ≠ rt ∧ rd ≠ rt) :=
  ⟨⟨({ tk 3 (fun k => { k with ctx := { k.ctx with g := [(14, 0x111200), (15, 0x5000), (2, 11), (3, 12), (4, 13), (6, 14), (7, 15), (9, 16)], psw := 0x800000000 } }) [] (id) with mem := memOf [] }), (3 : Fin 8), (0xC2DC : BitVec 16), by repeat' first | decide +kernel | rfl | exact True.intro | apply And.intro | constructor | (apply loads_all; decide +kernel) | (apply sram_all; decide +kernel) | (apply loads_two; decide +kernel) | exact fun _ h => nomatch h⟩,
   ⟨({ tk 3 (fun k => { k with ctx := { k.ctx with g := [(14, 0x111200), (15, 0x5000), (2, 11), (3, 12), (4, 13), (6, 14), (7, 15), (9, 16)], psw := 0x800000000 } }) [] (id) with mem := memOf [] }), (3 : Fin 8), (0x4204 : BitVec 16), (6 : Fin 16), by repeat' first | decide +kernel | rfl | exact True.intro | apply And.intro | constructor | (apply loads_all; decide +kernel) | (apply sram_all; decide +kernel) | (apply loads_two; decide +kernel) | exact fun _ h => nomatch h⟩,
   ⟨({ tk 3 (fun k => { k with maskset := [(3, 0x8254)], ctx := { k.ctx with g := [(14, 0x111200), (15, 0x5000), (2, 11), (3, 12), (4, 13), (6, 14), (7, 15), (9, 16)], psw := 0x800000000 } }) [] (id) with mem := memOf [] }), (3 : Fin 8), (3 : Fin 16), (6 : Fin 16), by repeat' first | decide +kernel | rfl | exact True.intro | apply And.intro | constructor | (apply loads_all; decide +kernel) | (apply sram_all; decide +kernel) | (apply loads_two; decide +kernel) | exact fun _ h => nomatch h⟩,
   ⟨({ tk 3 (fun k => { k with ctx := { k.ctx with g := [(14, 0x111200), (15, 0x5000), (2, 11), (3, 12), (4, 13), (6, 14), (7, 15), (9, 16)], psw := 0x800000000 } }) [] (id) with mem := memOf [] }), (3 : Fin 8), (0xC2DC : BitVec 16), by repeat' first | decide +kernel | rfl | exact True.intro | apply And.intro | constructor | (apply loads_all; decide +kernel) | (apply sram_all; decide +kernel) | (apply loads_two; decide +kernel) | exact fun _ h => nomatch h⟩,
   ⟨({ tk 3 (fun k => { k with stepping := true, ctx := { k.ctx with g := [(14, 0x111200), (15, 0x5000), (2, 11), (3, 12), (4, 13), (6, 14), (7, 15), (9, 16)], psw := 0x800000000 } }) [] (id) with mem := memOf [] }), (3 : Fin 8), (0xC2DC : BitVec 16), by repeat' first | decide +kernel | rfl | exact True.intro | apply And.intro | constructor | (apply loads_all; decide +kernel) | (apply sram_all; decide +kernel) | (apply loads_two; decide +kernel) | exact fun _ h => nomatch h⟩,
   ⟨({ tk 3 (fun k => { k with slim := 0x1111FF, ctx := { k.ctx with g := [(14, 0x111200), (15, 0x5000), (2, 11), (3, 12), (4, 13), (6, 14), (7, 15), (9, 16)], psw := 0x800000000 } }) [] (id) with mem := memOf [] }), (3 : Fin 8), (0xC2DC : BitVec 16), by repeat' first | decide +kernel | rfl | exact True.intro | apply And.intro | constructor | (apply loads_all; decide +kernel) | (apply sram_all; decide +kernel) | (apply loads_two; decide +kernel) | exact fun _ h => nomatch h⟩,
   ⟨({ tk 3 (fun k => { k with ctx := { k.ctx with g := [(14, 0x4001200), (15, 0x5000), (2, 11)], psw := 0x800000000 } }) [] (id) with mem := memOf [(0x4001200, 0xABCDE1234), (0x4001201, 77), (0x4001202, 99)] }), (3 : Fin 8), (0xC014 : BitVec 16), (fun r => if r = 2 then 0xABCDE1234 else if r = 4 then 77 else if r = 15 then 99 else 0 : Nat → Word), by repeat' first | decide +kernel | rfl | exact True.intro | apply And.intro | constructor | (apply loads_all; decide +kernel) | (apply sram_all; decide +kernel) | (apply loads_two; decide +kernel) | exact fun _ h => nomatch h⟩,
   ⟨({ tk 3 (fun k => { k with maskset := [(3, 0xC014)], ctx := { k.ctx with g := [(14, 0x4001200), (15, 0x5000), (2, 11)], psw := 0x800000000 } }) [] (id) with mem := memOf [(0x4001200, 0xABCDE1234), (0x4001201, 77), (0x4001202, 99)] }), (3 : Fin 8), (3 : BitVec 4), (fun r => if r = 2 then 0xABCDE1234 else if r = 4 then 77 else if r = 15 then 99 else 0 : Nat → Word), by repeat' first | decide +kernel | rfl | exact True.intro | apply And.intro | constructor | (apply loads_all; decide +kernel) | (apply sram_all; decide +kernel) | (apply loads_two; decide +kernel) | exact fun _ h => nomatch h⟩,
   ⟨({ tk 3 (fun k => { k with ctx := { k.ctx with g := [(14, 0x4001200), (15, 0x5000), (2, 11)], psw := 0x800000000 } }) [] (id) with mem := memOf [] }), (3 : Fin 8), (5 : BitVec 13), by repeat' first | decide +kernel | rfl | exact True.intro | apply And.intro | constructor | (apply loads_all; decide +kernel) | (apply sram_all; decide +kernel) | (apply loads_two; decide +kernel) | exact fun _ h => nomatch h⟩,
   ⟨({ tk 3 (fun k => { k with ctx := { k.ctx with g := [(7, 0x4001200), (5, 0x4001300), (2, 4)], psw := 0x800000000 } }) [] (id) with mem := memOf [(0x4001200, 0xABCDE1234), (0x4001205, 0x812345678), (0x4001201, 0x600000055), (0x40011FE, 77)] }), (3 : Fin 8), (5 : Fin 16), (7 : Fin 16), (2 : Fin 16), (0xABCDE1234 : Word), by repeat' first | decide +kernel | rfl | exact True.intro | apply And.intro | constructor | (apply loads_all; decide +kernel) | (apply sram_all; decide +kernel) | (apply loads_two; decide +kernel) | exact fun _ h => nomatch h⟩,
   ⟨({ tk 3 (fun k => { k with stepping := true, ctx := { k.ctx with g := [(7, 0x4001200), (5, 0x4001300), (2, 4)], psw := 0x800000000 } }) [] (id) with mem := memOf [(0x4001200, 0xABCDE1234), (0x4001205, 0x812345678), (0x4001201, 0x600000055), (0x40011FE, 77)] }), (3 : Fin 8), (5 : Fin 16), (7 : Fin 16), (2 : Fin 16), (0xABCDE1234 : Word), by repeat' first | decide +kernel | rfl | exact True.intro | apply And.intro | constructor | (apply loads_all; decide +kernel) | (apply sram_all; decide +kernel) | (apply loads_two; decide +kernel) | exact fun _ h => nomatch h⟩,
   ⟨({ tk 3 (fun k => { k with ctx := { k.ctx with g := [(7, 0x4001200), (5, 0x4001300), (2, 1)], psw := 0x800000000 } }) [] (id) with mem := memOf [(0x4001200, 0xABCDE1234), (0x4001205, 0x812345678), (0x4001201, 0x600000055), (0x40011FE, 77)] }), (3 : Fin 8), (5 : Fin 16), (7 : Fin 16), (2 : Fin 16), (0xABCDE1234 : Word), by repeat' first | decide +kernel | rfl | exact True.intro | apply And.intro | constructor | (apply loads_all; decide +kernel) | (apply sram_all; decide +kernel) | (apply loads_two; decide +kernel) | exact fun _ h => nomatch h⟩,
   ⟨({ tk 3 (fun k => { k with ctx := { k.ctx with g := [(7, 0x4001200), (5, 0x4001300)], psw := 0x800000000 } }) [] (id) with mem := memOf [(0x4001200, 0xABCDE1234), (0x4001205, 0x812345678), (0x4001201, 0x600000055), (0x40011FE, 77)] }), (3 : Fin 8), (2 : Fin 16), by repeat' first | decide +kernel | rfl | exact True.intro | apply And.intro | constructor | (apply loads_all; decide +kernel) | (apply sram_all; decide +kernel) | (apply loads_two; decide +kernel) | exact fun _ h => nomatch h⟩,
   ⟨({ tk 3 (fun k => { k with ctx := { k.ctx with g := [(7, 0x4001200), (5, 0x4001201), (2, 2)], psw := 0x800000000 } }) [] (id) with mem := memOf [(0x4001200, 3), (0x4001201, 0xFFFFFFFFE), (0x4001202, 9)] }), (3 : Fin 8), (1 : Fin 2), (2 : Fin 16), (7 : Fin 16), (5 : Fin 16), (fun i => if i = 0 then 3 else 0xFFFFFFFFE : Nat → Word), (fun i => if i = 0 then 0xFFFFFFFFE else 9 : Nat → Word), by repeat' first | decide +kernel | rfl | exact True.intro | apply And.intro | constructor | (apply loads_all; decide +kernel) | (apply sram_all; decide +kernel) | (apply loads_two; decide +kernel) | exact fun _ h => nomatch h⟩⟩

theorem witness_QueueInstructions :
    (∃ (s : State) (c : Fin 8) (rs : Fin 16) (x : QDesc), let d := s.dev; let k := coreOfDev d c; Calm s ∧ Executable c 1 s ∧ pendingStores k = [] ∧ (k.gr rs).toNat < 2 ^ 15 ∧ Serving s (k.gr rs).toNat x ∧ d.galley.posted = [] ∧ d.galley.parked = [] ∧ d.galley.cmds = [] ∧ x.fill < x.size) ∧
    (∃ (s : State) (c : Fin 8) (rs : Fin 16) (x : QDesc), let d := s.dev; let k := coreOfDev d c; Calm s ∧ Executable c 1 s ∧ pendingStores k = [] ∧ (k.gr rs).toNat < 2 ^ 15 ∧ Serving s (k.gr rs).toNat x ∧ d.galley.posted = [] ∧ d.galley.parked = [] ∧ d.galley.cmds = [] ∧ x.fill = x.size ∧ x.pol = 0) ∧
    (∃ (s : State) (c : Fin 8), let d := s.dev; let k := coreOfDev d c; Calm s ∧ Executable c 1 s ∧ pendingStores k ≠ []) ∧
    (∃ (s : State) (c : Fin 8) (rs : Fin 16) (x : QDesc), let d := s.dev; let k := coreOfDev d c; Calm s ∧ Executable c 1 s ∧ (k.gr rs).toNat < 2 ^ 15 ∧ Serving s (k.gr rs).toNat x ∧ d.galley.posted = [] ∧ d.galley.parked = [] ∧ d.galley.cmds = [] ∧ x.fill ≠ 0) ∧
    (∃ (s : State) (c : Fin 8) (rs : Fin 16) (x : QDesc), let d := s.dev; let k := coreOfDev d c; Calm s ∧ Executable c 1 s ∧ (k.gr rs).toNat < 2 ^ 15 ∧ Serving s (k.gr rs).toNat x ∧ d.galley.posted = [] ∧ d.galley.parked = [] ∧ d.galley.cmds = [] ∧ x.fill = 0) ∧
    (∃ (s : State) (c : Fin 8) (rs : Fin 16), let d := s.dev; let k := coreOfDev d c; Calm s ∧ Executable c 1 s ∧ pendingStores k = [] ∧ 2 ^ 15 ≤ (k.gr rs).toNat ∧ k.stepping = false) ∧
    (∃ (s : State) (c : Fin 8) (rs : Fin 16), let d := s.dev; let k := coreOfDev d c; Calm s ∧ Executable c 1 s ∧ 2 ^ 15 ≤ (k.gr rs).toNat ∧ k.stepping = false) :=
  ⟨⟨({ tk 3 (fun k => { k with ctx := { k.ctx with g := [(7, 5), (2, 0x123456789)], psw := 0x80000000F } }) [] with mem := memOf (descAt 5 ((⟨0x820000100, 0x120007, 0, 0⟩ : QDesc).fixPar)) }), (3 : Fin 8), (7 : Fin 16), ((⟨0x820000100, 0x120007, 0, 0⟩ : QDesc).fixPar : QDesc), by repeat' first | decide +kernel | rfl | exact True.intro | apply And.intro | constructor | (apply loads_all; decide +kernel) | (apply sram_all; decide +kernel) | (apply loads_two; decide +kernel) | exact fun _ h => nomatch h⟩,
   ⟨({ tk 3 (fun k => { k with ctx := { k.ctx with g := [(7, 5), (2, 0x123456789)], psw := 0x80000000F } }) [] with mem := memOf (descAt 5 ((⟨0x820000100, 0x2E0007, 0, 0⟩ : QDesc).fixPar)) }), (3 : Fin 8), (7 : Fin 16), ((⟨0x820000100, 0x2E0007, 0, 0⟩ : QDesc).fixPar : QDesc), by repeat' first | decide +kernel | rfl | exact True.intro | apply And.intro | constructor | (apply loads_all; decide +kernel) | (apply sram_all; decide +kernel) | (apply loads_two; decide +kernel) | exact fun _ h => nomatch h⟩,
   ⟨({ tk 3 (fun k => { k with wbuf := [⟨0x4001234, BitVec.allOnes 36, 55, none, false, false, 0, 1, false, none, false⟩], ctx := { k.ctx with g := [(2, 0x40000000), (5, 0xFFFFFFFFD)], psw := 0x800000000 } }) [] (id) with mem := memOf [] }), (3 : Fin 8), by repeat' first | decide +kernel | rfl | exact True.intro | apply And.intro | constructor | (apply loads_all; decide +kernel) | (apply sram_all; decide +kernel) | (apply loads_two; decide +kernel) | exact fun _ h => nomatch h⟩,
   ⟨({ tk 3 (fun k => { k with ctx := { k.ctx with g := [(7, 5), (2, 0x123456789)], psw := 0x80000000F } }) [] with mem := memOf (descAt 5 ((⟨0x820000100, 0x120007, 0, 0⟩ : QDesc).fixPar) ++ [(0x4000107, 77)]) }), (3 : Fin 8), (7 : Fin 16), ((⟨0x820000100, 0x120007, 0, 0⟩ : QDesc).fixPar : QDesc), by repeat' first | decide +kernel | rfl | exact True.intro | apply And.intro | constructor | (apply loads_all; decide +kernel) | (apply sram_all; decide +kernel) | (apply loads_two; decide +kernel) | exact fun _ h => nomatch h⟩,
   ⟨({ tk 3 (fun k => { k with ctx := { k.ctx with g := [(7, 5), (2, 0x123456789)], psw := 0x80000000F } }) [] with mem := memOf (descAt 5 ((⟨0x820000100, 0x0E0007, 0, 0⟩ : QDesc).fixPar)) }), (3 : Fin 8), (7 : Fin 16), ((⟨0x820000100, 0x0E0007, 0, 0⟩ : QDesc).fixPar : QDesc), by repeat' first | decide +kernel | rfl | exact True.intro | apply And.intro | constructor | (apply loads_all; decide +kernel) | (apply sram_all; decide +kernel) | (apply loads_two; decide +kernel) | exact fun _ h => nomatch h⟩,
   ⟨({ tk 3 (fun k => { k with ctx := { k.ctx with g := [(7, 0x8000)], psw := 0x800000000 } }) [] (id) with mem := memOf [] }), (3 : Fin 8), (7 : Fin 16), by repeat' first | decide +kernel | rfl | exact True.intro | apply And.intro | constructor | (apply loads_all; decide +kernel) | (apply sram_all; decide +kernel) | (apply loads_two; decide +kernel) | exact fun _ h => nomatch h⟩,
   ⟨({ tk 3 (fun k => { k with ctx := { k.ctx with g := [(7, 0x8000)], psw := 0x800000000 } }) [] (id) with mem := memOf [] }), (3 : Fin 8), (7 : Fin 16), by repeat' first | decide +kernel | rfl | exact True.intro | apply And.intro | constructor | (apply loads_all; decide +kernel) | (apply sram_all; decide +kernel) | (apply loads_two; decide +kernel) | exact fun _ h => nomatch h⟩⟩

theorem witness_TrapsAndIllegalForms :
    (∃ (s : State) (c : Fin 8) (rt : Fin 16), let d := s.dev; let k := coreOfDev d c; Calm s ∧ Executable c 2 s ∧ k.gr rt = 0 ∧ k.stepping = false) ∧
    (∃ (s : State) (c : Fin 8) (rt : Fin 16), let d := s.dev; let k := coreOfDev d c; Calm s ∧ Executable c 2 s ∧ k.gr rt = 0 ∧ k.stepping = false) ∧
    (∃ (s : State) (c : Fin 8) (rt : Fin 16), let d := s.dev; let k := coreOfDev d c; Calm s ∧ Executable c 2 s ∧ k.gr rt = 0 ∧ k.stepping = false) ∧
    (∃ (s : State) (c : Fin 8) (rt : Fin 16), let d := s.dev; let k := coreOfDev d c; Calm s ∧ Executable c 2 s ∧ k.gr rt = 0 ∧ k.stepping = false) ∧
    (∃ (s : State) (c : Fin 8) (rs : Fin 16) (rt : Fin 16), let d := s.dev; let k := coreOfDev d c; Calm s ∧ Executable c 2 s ∧ (k.gr rs).toInt = -(2 ^ 35) ∧ (k.gr rt).toInt = -1 ∧ k.stepping = false) ∧
    (∃ (s : State) (c : Fin 8) (rs : Fin 16) (rt : Fin 16), let d := s.dev; let k := coreOfDev d c; Calm s ∧ Executable c 2 s ∧ (k.gr rs).toInt = -(2 ^ 35) ∧ (k.gr rt).toInt = -1 ∧ k.stepping = false) ∧
    (∃ (s : State) (c : Fin 8) (arg : BitVec 8), let d := s.dev; let k := coreOfDev d c; Calm s ∧ Executable c 1 s ∧ arg ≠ 0 ∧ k.stepping = false) ∧
    (∃ (s : State) (c : Fin 8) (arg : BitVec 8), let d := s.dev; let k := coreOfDev d c; Calm s ∧ Executable c 1 s ∧ arg ≠ 0 ∧ k.stepping = false) ∧
    (∃ (s : State) (c : Fin 8) (rs : Fin 16), let d := s.dev; let k := coreOfDev d c; Calm s ∧ Executable c 1 s ∧ rs ≠ 0 ∧ k.stepping = false) ∧
    (∃ (s : State) (c : Fin 8) (rd : Fin 16), let d := s.dev; let k := coreOfDev d c; Calm s ∧ Executable c 1 s ∧ rd ≠ 0 ∧ k.stepping = false) ∧
    (∃ (s : State) (c : Fin 8) (a : Fin 16), let d := s.dev; let k := coreOfDev d c; Calm s ∧ Executable c 1 s ∧ 2 ≤ a.val ∧ k.stepping = false) ∧
    (∃ (s : State) (c : Fin 8) (rd : Fin 16), let d := s.dev; let k := coreOfDev d c; Calm s ∧ Executable c 1 s ∧ rd.val % 2 = 1 ∧ k.stepping = false) ∧
    (∃ (s : State) (c : Fin 8) (rd : Fin 16), let d := s.dev; let k := coreOfDev d c; Calm s ∧ Executable c 2 s ∧ rd ≠ 0 ∧ k.stepping = false) ∧
    (∃ (s : State) (c : Fin 8) (rd : Fin 16), let d := s.dev; let k := coreOfDev d c; Calm s ∧ Executable c 2 s ∧ rd ≠ 0 ∧ k.stepping = false) ∧
    (∃ (s : State) (c : Fin 8) (rt : Fin 16), let d := s.dev; let k := coreOfDev d c; Calm s ∧ Executable c 2 s ∧ rt ≠ 0 ∧ k.stepping = false) :=
  ⟨⟨({ tk 3 (fun k => { k with ctx := { k.ctx with g := [(5, 77)], psw := 0x800000000 } }) [] (id) with mem := memOf [] }), (3 : Fin 8), (6 : Fin 16), by repeat' first | decide +kernel | rfl | exact True.intro | apply And.intro | constructor | (apply loads_all; decide +kernel) | (apply sram_all; decide +kernel) | (apply loads_two; decide +kernel) | exact fun _ h => nomatch h⟩,
   ⟨({ tk 3 (fun k => { k with ctx := { k.ctx with g := [(5, 77)], psw := 0x800000000 } }) [] (id) with mem := memOf [] }), (3 : Fin 8), (6 : Fin 16), by repeat' first | decide +kernel | rfl | exact True.intro | apply And.intro | constructor | (apply loads_all; decide +kernel) | (apply sram_all; decide +kernel) | (apply loads_two; decide +kernel) | exact fun _ h => nomatch h⟩,
   ⟨({ tk 3 (fun k => { k with ctx := { k.ctx with g := [(5, 77)], psw := 0x800000000 } }) [] (id) with mem := memOf [] }), (3 : Fin 8), (6 : Fin 16), by repeat' first | decide +kernel | rfl | exact True.intro | apply And.intro | constructor | (apply loads_all; decide +kernel) | (apply sram_all; decide +kernel) | (apply loads_two; decide +kernel) | exact fun _ h => nomatch h⟩,
   ⟨({ tk 3 (fun k => { k with ctx := { k.ctx with g := [(5, 77)], psw := 0x800000000 } }) [] (id) with mem := memOf [] }), (3 : Fin 8), (6 : Fin 16), by repeat' first | decide +kernel | rfl | exact True.intro | apply And.intro | constructor | (apply loads_all; decide +kernel) | (apply sram_all; decide +kernel) | (apply loads_two; decide +kernel) | exact fun _ h => nomatch h⟩,
   ⟨({ tk 3 (fun k => { k with ctx := { k.ctx with g := [(5, 0x800000000), (6, 0xFFFFFFFFF)], psw := 0x800000000 } }) [] (id) with mem := memOf [] }), (3 : Fin 8), (5 : Fin 16), (6 : Fin 16), by repeat' first | decide +kernel | rfl | exact True.intro | apply And.intro | constructor | (apply loads_all; decide +kernel) | (apply sram_all; decide +kernel) | (apply loads_two; decide +kernel) | exact fun _ h => nomatch h⟩,
   ⟨({ tk 3 (fun k => { k with ctx := { k.ctx with g := [(5, 0x800000000), (6, 0xFFFFFFFFF)], psw := 0x800000000 } }) [] (id) with mem := memOf [] }), (3 : Fin 8), (5 : Fin 16), (6 : Fin 16), by repeat' first | decide +kernel | rfl | exact True.intro | apply And.intro | constructor | (apply loads_all; decide +kernel) | (apply sram_all; decide +kernel) | (apply loads_two; decide +kernel) | exact fun _ h => nomatch h⟩,
   ⟨({ tk 3 (fun k => { k with ctx := { k.ctx with g := [(2, 0x40000000), (5, 0xFFFFFFFFD)], psw := 0x800000000 } }) [] (id) with mem := memOf [] }), (3 : Fin 8), (1 : BitVec 8), by repeat' first | decide +kernel | rfl | exact True.intro | apply And.intro | constructor | (apply loads_all; decide +kernel) | (apply sram_all; decide +kernel) | (apply loads_two; decide +kernel) | exact fun _ h => nomatch h⟩,
   ⟨({ tk 3 (fun k => { k with ctx := { k.ctx with g := [(2, 0x40000000), (5, 0xFFFFFFFFD)], psw := 0x800000000 } }) [] (id) with mem := memOf [] }), (3 : Fin 8), (1 : BitVec 8), by repeat' first | decide +kernel | rfl | exact True.intro | apply And.intro | constructor | (apply loads_all; decide +kernel) | (apply sram_all; decide +kernel) | (apply loads_two; decide +kernel) | exact fun _ h => nomatch h⟩,
   ⟨({ tk 3 (fun k => { k with ctx := { k.ctx with g := [(2, 0x40000000), (5, 0xFFFFFFFFD)], psw := 0x800000000 } }) [] (id) with mem := memOf [] }), (3 : Fin 8), (3 : Fin 16), by repeat' first | decide +kernel | rfl | exact True.intro | apply And.intro | constructor | (apply loads_all; decide +kernel) | (apply sram_all; decide +kernel) | (apply loads_two; decide +kernel) | exact fun _ h => nomatch h⟩,
   ⟨({ tk 3 (fun k => { k with ctx := { k.ctx with g := [(2, 0x40000000), (5, 0xFFFFFFFFD)], psw := 0x800000000 } }) [] (id) with mem := memOf [] }), (3 : Fin 8), (1 : Fin 16), by repeat' first | decide +kernel | rfl | exact True.intro | apply And.intro | constructor | (apply loads_all; decide +kernel) | (apply sram_all; decide +kernel) | (apply loads_two; decide +kernel) | exact fun _ h => nomatch h⟩,
   ⟨({ tk 3 (fun k => { k with ctx := { k.ctx with g := [(2, 0x40000000), (5, 0xFFFFFFFFD)], psw := 0x800000000 } }) [] (id) with mem := memOf [] }), (3 : Fin 8), (2 : Fin 16), by repeat' first | decide +kernel | rfl | exact True.intro | apply And.intro | constructor | (apply loads_all; decide +kernel) | (apply sram_all; decide +kernel) | (apply loads_two; decide +kernel) | exact fun _ h => nomatch h⟩,
   ⟨({ tk 3 (fun k => { k with ctx := { k.ctx with g := [(2, 0x40000000), (5, 0xFFFFFFFFD)], psw := 0x800000000 } }) [] (id) with mem := memOf [] }), (3 : Fin 8), (1 : Fin 16), by repeat' first | decide +kernel | rfl | exact True.intro | apply And.intro | constructor | (apply loads_all; decide +kernel) | (apply sram_all; decide +kernel) | (apply loads_two; decide +kernel) | exact fun _ h => nomatch h⟩,
   ⟨({ tk 3 (fun k => { k with ctx := { k.ctx with g := [(2, 0x40000000), (5, 0xFFFFFFFFD)], psw := 0x800000000 } }) [] (id) with mem := memOf [] }), (3 : Fin 8), (1 : Fin 16), by repeat' first | decide +kernel | rfl | exact True.intro | apply And.intro | constructor | (apply loads_all; decide +kernel) | (apply sram_all; decide +kernel) | (apply loads_two; decide +kernel) | exact fun _ h => nomatch h⟩,
   ⟨({ tk 3 (fun k => { k with ctx := { k.ctx with g := [(2, 0x40000000), (5, 0xFFFFFFFFD)], psw := 0x800000000 } }) [] (id) with mem := memOf [] }), (3 : Fin 8), (1 : Fin 16), by repeat' first | decide +kernel | rfl | exact True.intro | apply And.intro | constructor | (apply loads_all; decide +kernel) | (apply sram_all; decide +kernel) | (apply loads_two; decide +kernel) | exact fun _ h => nomatch h⟩,
   ⟨({ tk 3 (fun k => { k with ctx := { k.ctx with g := [(2, 0x40000000), (5, 0xFFFFFFFFD)], psw := 0x800000000 } }) [] (id) with mem := memOf [] }), (3 : Fin 8), (3 : Fin 16), by repeat' first | decide +kernel | rfl | exact True.intro | apply And.intro | constructor | (apply loads_all; decide +kernel) | (apply sram_all; decide +kernel) | (apply loads_two; decide +kernel) | exact fun _ h => nomatch h⟩⟩

theorem witness_TimeBase :
    (∃ (s : State), let d := s.dev; Calm s ∧ gb d MERID_STAT.REF_OK = true ∧ gb d MERID_STAT.LOCK = false ∧ d.merid.goodFrom + 100000 ≤ d.now) ∧
    (∃ (s : State), let d := s.dev; Calm s ∧ gb d MERID_STAT.REF_OK = false) ∧
    (∃ (s : State), let d := s.dev; Calm s ∧ gb d MERID_STAT.LOCK = true ∧ mode d ≠ mPark) ∧
    (∃ (s : State), let d := s.dev; Calm s ∧ gb d MERID_STAT.LOCK = true ∧ gb d MERID_STAT.CAL_OK = false ∧ mode d ≠ mPark ∧ d.merid.calFrom + 50000 ≤ d.now ∧ (∀ k ∈ upTo 128, k ∈ d.merid.linesDone)) ∧
    (∃ (s : State), let d := s.dev; Calm s ∧ d.merid.peerFollow = true) ∧
    (∃ (s : State), let d := s.dev; Calm s ∧ gb d MERID_STAT.LOCK = true ∧ mode d ≠ mRun) ∧
    (∃ (s : State), let d := s.dev; Calm s ∧ gb d MERID_STAT.LOCK = true ∧ mode d = mRun ∧ d.rstc.modeFrom = none) ∧
    (∃ (s : State), let d := s.dev; Calm s ∧ gb d MERID_STAT.LOCK = false) ∧
    (∃ (s : State), let d := s.dev; Calm s ∧ gb d MERID_STAT.REF_OK = true ∧ mode d = mRun ∧ d.rstc.modeFrom = none) ∧
    (∃ (s : State), let d := s.dev; Calm s ∧ gb d MERID_STAT.REF_OK = true ∧ mode d ≠ mRun) ∧
    (∃ (s : State) (ini : Initiator), let d := s.dev; Calm s ∧ iniServed d ini = true ∧ debugShut d ini = false) ∧
    (∃ (s : State) (ini : Initiator), let d := s.dev; Calm s ∧ Open ini 3 s ∧ mode d = mConfig) ∧
    (∃ (s : State) (ini : Initiator), Calm s ∧ Open ini 3 s) ∧
    (∃ (s : State) (n : Fin 16), let d := s.dev; Calm s ∧ gbit d MERID_ALMEN.EN n = true ∧ bit (shortTs d - rd d (MERID_ALM.at n)) 35 = false ∧ tabFind d.merid.late n = none ∧ d.folio.fires = [] ∧ NoGroupOffers d ∧ (∀ g ∈ upTo 16, fld (strobeSrc d g) 11 9 ≠ 3) ∧ (∀ f ∈ upTo 16, boundaryDue d f = false ∧ midDue d f = false) ∧ (∀ f ∈ upTo 16, gf d (FORME_SYNC.SSRC f) ≠ 2)) ∧
    (∃ (s : State) (ini : Initiator) (v : Word), let d := s.dev; Calm s ∧ Open ini 3 s ∧ (mode d = mStart ∨ mode d = mConfig) ∧ 10 ≤ fld v 23 18 ∧ fld v 23 18 ≤ 50 ∧ fld v 9 8 ≠ 3 ∧ gb d PACE_STAT.REG = false) ∧
    (∃ (s : State), let d := s.dev; Calm s ∧ gf d MERID_CTL.DISC ≠ 0 ∧ gf d MERID_CTL.REFSEL < 2) :=
  ⟨⟨(tst [(MERID_STAT.REF_OK, 1)]), by repeat' first | decide +kernel | rfl | exact True.intro | apply And.intro | constructor | (apply loads_all; decide +kernel) | (apply sram_all; decide +kernel) | (apply loads_two; decide +kernel) | exact fun _ h => nomatch h⟩,
   ⟨(tst []), by repeat' first | decide +kernel | rfl | exact True.intro | apply And.intro | constructor | (apply loads_all; decide +kernel) | (apply sram_all; decide +kernel) | (apply loads_two; decide +kernel) | exact fun _ h => nomatch h⟩,
   ⟨(tst [(MERID_STAT.LOCK, 1)]), by repeat' first | decide +kernel | rfl | exact True.intro | apply And.intro | constructor | (apply loads_all; decide +kernel) | (apply sram_all; decide +kernel) | (apply loads_two; decide +kernel) | exact fun _ h => nomatch h⟩,
   ⟨(tst [(MERID_STAT.LOCK, 1)] fun d => withMerid d fun m => { m with linesDone := upTo 128 }), by repeat' first | decide +kernel | rfl | exact True.intro | apply And.intro | constructor | (apply loads_all; decide +kernel) | (apply sram_all; decide +kernel) | (apply loads_two; decide +kernel) | exact fun _ h => nomatch h⟩,
   ⟨(tst [(MERID_STAT.SLAVE_OK, 1), (MERID_CTL.REFSEL, 3)] fun d => withMerid d fun m => { m with peerFollow := true }), by repeat' first | decide +kernel | rfl | exact True.intro | apply And.intro | constructor | (apply loads_all; decide +kernel) | (apply sram_all; decide +kernel) | (apply loads_two; decide +kernel) | exact fun _ h => nomatch h⟩,
   ⟨(tst [(MERID_STAT.LOCK, 1), (SYS_MODE.MODE, 1)]), by repeat' first | decide +kernel | rfl | exact True.intro | apply And.intro | constructor | (apply loads_all; decide +kernel) | (apply sram_all; decide +kernel) | (apply loads_two; decide +kernel) | exact fun _ h => nomatch h⟩,
   ⟨(tst [(MERID_STAT.LOCK, 1), (SYS_MODE.MODE, 2)]), by repeat' first | decide +kernel | rfl | exact True.intro | apply And.intro | constructor | (apply loads_all; decide +kernel) | (apply sram_all; decide +kernel) | (apply loads_two; decide +kernel) | exact fun _ h => nomatch h⟩,
   ⟨(tst [(MERID_STAT.LOCK, 0)]), by repeat' first | decide +kernel | rfl | exact True.intro | apply And.intro | constructor | (apply loads_all; decide +kernel) | (apply sram_all; decide +kernel) | (apply loads_two; decide +kernel) | exact fun _ h => nomatch h⟩,
   ⟨(tst [(MERID_STAT.LOCK, 1), (MERID_STAT.REF_OK, 1), (SYS_MODE.MODE, 2)]), by repeat' first | decide +kernel | rfl | exact True.intro | apply And.intro | constructor | (apply loads_all; decide +kernel) | (apply sram_all; decide +kernel) | (apply loads_two; decide +kernel) | exact fun _ h => nomatch h⟩,
   ⟨(tst [(MERID_STAT.LOCK, 1), (MERID_STAT.REF_OK, 1), (SYS_MODE.MODE, 1)]), by repeat' first | decide +kernel | rfl | exact True.intro | apply And.intro | constructor | (apply loads_all; decide +kernel) | (apply sram_all; decide +kernel) | (apply loads_two; decide +kernel) | exact fun _ h => nomatch h⟩,
   ⟨(tst [] fun d => withMerid d fun m => { m with counter := 0x123456789AB }), (.pcie : Initiator), by repeat' first | decide +kernel | rfl | exact True.intro | apply And.intro | constructor | (apply loads_all; decide +kernel) | (apply sram_all; decide +kernel) | (apply loads_two; decide +kernel) | exact fun _ h => nomatch h⟩,
   ⟨(tst [(SYS_MODE.MODE, 1)]), (.pcie : Initiator), by repeat' first | decide +kernel | rfl | exact True.intro | apply And.intro | constructor | (apply loads_all; decide +kernel) | (apply sram_all; decide +kernel) | (apply loads_two; decide +kernel) | exact fun _ h => nomatch h⟩,
   ⟨(tst [(MERID_ALMEN.EN, 8)]), (.pcie : Initiator), by repeat' first | decide +kernel | rfl | exact True.intro | apply And.intro | constructor | (apply loads_all; decide +kernel) | (apply sram_all; decide +kernel) | (apply loads_two; decide +kernel) | exact fun _ h => nomatch h⟩,
   ⟨(tst [(MERID_ALMEN.EN, 8), (MERID_ALMP.PER 3, 100)]), (3 : Fin 16), by repeat' first | decide +kernel | rfl | exact True.intro | apply And.intro | constructor | (apply loads_all; decide +kernel) | (apply sram_all; decide +kernel) | (apply loads_two; decide +kernel) | exact fun _ h => nomatch h⟩,
   ⟨(tst [(SYS_MODE.MODE, 1), (MERID_STAT.LOCK, 1)]), (.pcie : Initiator), (0x640500 : Word), by repeat' first | decide +kernel | rfl | exact True.intro | apply And.intro | constructor | (apply loads_all; decide +kernel) | (apply sram_all; decide +kernel) | (apply loads_two; decide +kernel) | exact fun _ h => nomatch h⟩,
   ⟨(tst [(MERID_CTL.DISC, 1), (MERID_STAT.DISC_OK, 1)]), by repeat' first | decide +kernel | rfl | exact True.intro | apply And.intro | constructor | (apply loads_all; decide +kernel) | (apply sram_all; decide +kernel) | (apply loads_two; decide +kernel) | exact fun _ h => nomatch h⟩⟩

theorem witness_PaceAndBudget :
    (∃ (s : State), let d := s.dev; Calm s ∧ d.pace.sampling = false ∧ d.rstc.phase = .started ∧ mode d ≠ mPark ∧ (gb d MERID_STAT.LOCK = true ∨ d.rstc.booted = true)) ∧
    (∃ (s : State) (ms : List Nat), let d := s.dev; Calm s ∧ d.pace.sampling = true ∧ d.pace.nextSample ≤ d.now ∧ d.pace.samples < 16 ∧ d.pace.lowV = 0 ∧ ms.length = 16 ∧ (∀ m ∈ ms, m < 4096)) ∧
    (∃ (s : State) (v : Nat), let d := s.dev; Calm s ∧ d.pace.sampling = true ∧ 17 ≤ d.pace.samples ∧ d.pace.target + max 1 (gf d PACE_CTL.DROOP) < v ∧ gb d PACE_CTL.MODE = true ∧ gb d PACE_STAT.SHORT = true) ∧
    (∃ (s : State) (v : Nat), let d := s.dev; Calm s ∧ d.pace.sampling = true ∧ 17 ≤ d.pace.samples ∧ d.pace.target + max 1 (gf d PACE_CTL.DROOP) < v ∧ gb d PACE_CTL.MODE = false ∧ gb d PACE_STAT.SHORT = false ∧ d.pace.raised ≤ 20 ∧ gf d PACE_VCMD.VCMD + 20 ≤ gf d PACE_VMAX.VMAX) ∧
    (∃ (s : State), Calm s) ∧
    (∃ (s : State), Calm s) ∧
    (∃ (s : State) (ini : Initiator) (v : Word), Calm s ∧ Open ini 4 s ∧ 32 ≤ fld v 6 0 ∧ fld v 6 0 ≤ 80) ∧
    (∃ (s : State) (ini : Initiator) (up : Bool) (v : Word), let d := s.dev; Calm s ∧ Open ini 4 s ∧ fld v 9 0 % 5 = 0 ∧ (if up then fld v 9 0 ≤ 950 ∧ gf d PACE_VMIN.VMIN ≤ fld v 9 0 else 700 ≤ fld v 9 0 ∧ fld v 9 0 ≤ gf d PACE_VMAX.VMAX)) ∧
    (∃ (s : State) (ini : Initiator), let d := s.dev; Calm s ∧ Open ini 4 s ∧ mode d = mConfig) ∧
    (∃ (s : State), Calm s) ∧
    (∃ (s : State) (ini : Initiator) (v : Word), Calm s ∧ Open ini 5 s ∧ 200 ≤ fld v 9 0 ∧ fld v 9 0 ≤ 1000) :=
  ⟨⟨(tst [(MERID_STAT.LOCK, 1)]), by repeat' first | decide +kernel | rfl | exact True.intro | apply And.intro | constructor | (apply loads_all; decide +kernel) | (apply sram_all; decide +kernel) | (apply loads_two; decide +kernel) | exact fun _ h => nomatch h⟩,
   ⟨(tst [(PACE_TARGET.TARGET, 48)] fun d => withPace d fun p => { p with sampling := true }), ((upTo 16).map (40 + ·) : List Nat), by repeat' first | decide +kernel | rfl | exact True.intro | apply And.intro | constructor | (apply loads_all; decide +kernel) | (apply sram_all; decide +kernel) | (apply loads_two; decide +kernel) | exact fun _ h => nomatch h⟩,
   ⟨(tst [(PACE_CTL.MODE, 1), (PACE_STAT.SHORT, 1)] fun d => withPace d fun p => { p with sampling := true, samples := 17 }), (90 : Nat), by repeat' first | decide +kernel | rfl | exact True.intro | apply And.intro | constructor | (apply loads_all; decide +kernel) | (apply sram_all; decide +kernel) | (apply loads_two; decide +kernel) | exact fun _ h => nomatch h⟩,
   ⟨(tst [(PACE_VCMD.VCMD, 750), (PACE_VMAX.VMAX, 800)] fun d => withPace d fun p => { p with sampling := true, samples := 17 }), (90 : Nat), by repeat' first | decide +kernel | rfl | exact True.intro | apply And.intro | constructor | (apply loads_all; decide +kernel) | (apply sram_all; decide +kernel) | (apply loads_two; decide +kernel) | exact fun _ h => nomatch h⟩,
   ⟨(tst [(PACE_STAT.AVS_FAIL, 1)]), by repeat' first | decide +kernel | rfl | exact True.intro | apply And.intro | constructor | (apply loads_all; decide +kernel) | (apply sram_all; decide +kernel) | (apply loads_two; decide +kernel) | exact fun _ h => nomatch h⟩,
   ⟨(tst [] fun d => withPace d fun p => { p with avsFails := 2 }), by repeat' first | decide +kernel | rfl | exact True.intro | apply And.intro | constructor | (apply loads_all; decide +kernel) | (apply sram_all; decide +kernel) | (apply loads_two; decide +kernel) | exact fun _ h => nomatch h⟩,
   ⟨(tst [(PACE_STAT.HELD, 1)]), (.pcie : Initiator), (60 : Word), by repeat' first | decide +kernel | rfl | exact True.intro | apply And.intro | constructor | (apply loads_all; decide +kernel) | (apply sram_all; decide +kernel) | (apply loads_two; decide +kernel) | exact fun _ h => nomatch h⟩,
   ⟨(tst [(PACE_VMIN.VMIN, 700), (PACE_VMAX.VMAX, 800)]), (.pcie : Initiator), (true : Bool), (900 : Word), by repeat' first | decide +kernel | rfl | exact True.intro | apply And.intro | constructor | (apply loads_all; decide +kernel) | (apply sram_all; decide +kernel) | (apply loads_two; decide +kernel) | exact fun _ h => nomatch h⟩,
   ⟨(tst [(SYS_MODE.MODE, 1)]), (.pcie : Initiator), by repeat' first | decide +kernel | rfl | exact True.intro | apply And.intro | constructor | (apply loads_all; decide +kernel) | (apply sram_all; decide +kernel) | (apply loads_two; decide +kernel) | exact fun _ h => nomatch h⟩,
   ⟨(tst [(CBA_WEIGHT.W 2, 3), (CBA_WEIGHT.W 5, 1), (CBA_CEILING.CEIL, 600)] fun d => withCba d fun c => { c with window := 20 }), by repeat' first | decide +kernel | rfl | exact True.intro | apply And.intro | constructor | (apply loads_all; decide +kernel) | (apply sram_all; decide +kernel) | (apply loads_two; decide +kernel) | exact fun _ h => nomatch h⟩,
   ⟨(tst []), (.pcie : Initiator), (600 : Word), by repeat' first | decide +kernel | rfl | exact True.intro | apply And.intro | constructor | (apply loads_all; decide +kernel) | (apply sram_all; decide +kernel) | (apply loads_two; decide +kernel) | exact fun _ h => nomatch h⟩⟩

theorem witness_RegisterWrites :
    (∃ (s : State) (ini : Initiator) (page : Nat) (off : Nat) (v : Word) (b : Blk) (i : Nat) (r : RegDef) (j : Nat), let d := s.dev; Calm s ∧ Open ini page s ∧ blockOf page = some (b, i) ∧ b ∈ plainBlocks ∧ 16 ≤ off ∧ off < 128 ∧ regAt page off = some (r, j) ∧ r.guarded = false ∧ r.staged = false ∧ verdict ini b i off (rd d (page * 256 + off)) (v &&& (r.mask .rw ||| r.mask .wo ||| r.mask .w1c)) s = .ok) ∧
    (∃ (s : State) (ini : Initiator) (page : Nat) (off : Nat) (v : Word) (b : Blk) (i : Nat) (r : RegDef) (j : Nat), let d := s.dev; Calm s ∧ Open ini page s ∧ blockOf page = some (b, i) ∧ b ≠ .flashc ∧ 8 ≤ off ∧ off < 128 ∧ regAt page off = some (r, j) ∧ r.guarded = false ∧ r.staged = true ∧ (groupOf d (page * 256 + off)).isSome = true ∧ verdict ini b i off ((shadowVal d (page * 256 + off)).getD (rd d (page * 256 + off))) (v &&& (r.mask .rw ||| r.mask .wo ||| r.mask .w1c)) s = .ok) ∧
    (∃ (s : State) (ini : Initiator) (page : Nat) (off : Nat) (v : Word) (b : Blk) (i : Nat) (r : RegDef) (j : Nat), let d := s.dev; Calm s ∧ Open ini page s ∧ blockOf page = some (b, i) ∧ b ≠ .flashc ∧ b ≠ .dbg ∧ 8 ≤ off ∧ off < 128 ∧ regAt page off = some (r, j) ∧ r.guarded = false ∧ (verdict ini b i off (if r.staged then (shadowVal d (page * 256 + off)).getD (rd d (page * 256 + off)) else rd d (page * 256 + off)) (v &&& (r.mask .rw ||| r.mask .wo ||| r.mask .w1c)) s = .lock)) ∧
    (∃ (s : State) (ini : Initiator) (page : Nat) (off : Nat) (b : Blk) (i : Nat), let d := s.dev; Calm s ∧ iniServed d ini = true ∧ debugShut d ini = false ∧ blockOf page = some (b, i) ∧ 8 ≤ off ∧ off < 128 ∧ readClears b off = true ∧ (regAt page off).isSome = true ∧ gb d (FOLIO_GROUP.SHV page) = false) ∧
    (∃ (s : State) (ini : Initiator) (page : Nat) (off : Nat) (b : Blk) (i : Nat), Calm s ∧ Open ini page s ∧ blockOf page = some (b, i) ∧ b ≠ .flashc ∧ b ≠ .dbg ∧ (guardedAt page (off % 128)).isSome = true) ∧
    (∃ (s : State) (ini : Initiator) (page : Nat) (off : Nat) (v : Word) (b : Blk) (i : Nat) (r : RegDef) (t : Nat), let d := s.dev; Calm s ∧ iniServed d ini = true ∧ hostBarred d ini = false ∧ debugShut d ini = false ∧ gb d (FOLIO_STAT.BRST_PEND page) = false ∧ d.galley.cmds = [] ∧ blockOf page = some (b, i) ∧ b ∈ plainBlocks ∧ 16 ≤ off ∧ off < 128 ∧ guardedAt page off = some r ∧ r.staged = false ∧ quoinOf d page ini = some ⟨page, off, ini, v, t⟩ ∧ d.now < t + 4096 ∧ verdict ini b i off (rd d (page * 256 + off)) (v &&& (r.mask .rw ||| r.mask .wo ||| r.mask .w1c)) s = .ok) ∧
    (∃ (s : State) (ini : Initiator) (page : Nat) (off : Nat) (v : Word) (w : Word) (b : Blk) (i : Nat) (t : Nat), let d := s.dev; Calm s ∧ iniServed d ini = true ∧ hostBarred d ini = false ∧ debugShut d ini = false ∧ gb d (FOLIO_STAT.BRST_PEND page) = false ∧ d.galley.cmds = [] ∧ blockOf page = some (b, i) ∧ b ≠ .flashc ∧ b ≠ .dbg ∧ off < 128 ∧ (guardedAt page off).isSome = true ∧ quoinOf d page ini = some ⟨page, off, ini, v, t⟩ ∧ d.now < t + 4096 ∧ w ≠ ~~~v) ∧
    (∃ (s : State) (ini : Initiator) (page : Nat) (q : QuoinPend), let d := s.dev; Calm s ∧ quoinOf d page ini = some q ∧ q.tick + 4096 ≤ d.now) :=
  ⟨⟨(tst []), (.pcie : Initiator), (0x110 : Nat), (0x10 : Nat), (0xABC010203 : Word), (.uart : Blk), (0 : Nat), (regOf 0x110 0x10 : RegDef), (0 : Nat), by repeat' first | decide +kernel | rfl | exact True.intro | apply And.intro | constructor | (apply loads_all; decide +kernel) | (apply sram_all; decide +kernel) | (apply loads_two; decide +kernel) | exact fun _ h => nomatch h⟩,
   ⟨(tst [(SYS_MODE.MODE, 1), (FOLIO_GROUP.GRP 0x60, 2)]), (.pcie : Initiator), (0x60 : Nat), (0x50 : Nat), (0x3F800000 : Word), (.surv : Blk), (0 : Nat), (regOf 0x60 0x50 : RegDef), (0 : Nat), by repeat' first | decide +kernel | rfl | exact True.intro | apply And.intro | constructor | (apply loads_all; decide +kernel) | (apply sram_all; decide +kernel) | (apply loads_two; decide +kernel) | exact fun _ h => nomatch h⟩,
   ⟨(tst [(SYS_MODE.MODE, 2)]), (.pcie : Initiator), (3 : Nat), (0x10 : Nat), (0x640A00 : Word), (.merid : Blk), (0 : Nat), (regOf 3 0x10 : RegDef), (0 : Nat), by repeat' first | decide +kernel | rfl | exact True.intro | apply And.intro | constructor | (apply loads_all; decide +kernel) | (apply sram_all; decide +kernel) | (apply loads_two; decide +kernel) | exact fun _ h => nomatch h⟩,
   ⟨(tst [(SURV_CNT.LOST 0, 7)]), (.pcie : Initiator), (0x60 : Nat), (0x0B : Nat), (.surv : Blk), (0 : Nat), by repeat' first | decide +kernel | rfl | exact True.intro | apply And.intro | constructor | (apply loads_all; decide +kernel) | (apply sram_all; decide +kernel) | (apply loads_two; decide +kernel) | exact fun _ h => nomatch h⟩,
   ⟨(tst []), (.pcie : Initiator), (5 : Nat), (0x11 : Nat), (.cba : Blk), (0 : Nat), by repeat' first | decide +kernel | rfl | exact True.intro | apply And.intro | constructor | (apply loads_all; decide +kernel) | (apply sram_all; decide +kernel) | (apply loads_two; decide +kernel) | exact fun _ h => nomatch h⟩,
   ⟨(tst [] fun d => withFolio d fun f => { f with quoin := [⟨5, 0x10, .pcie, 0x15, 999000⟩] }), (.pcie : Initiator), (5 : Nat), (0x10 : Nat), (0x15 : Word), (.cba : Blk), (0 : Nat), (regOf 5 0x10 : RegDef), (999000 : Nat), by repeat' first | decide +kernel | rfl | exact True.intro | apply And.intro | constructor | (apply loads_all; decide +kernel) | (apply sram_all; decide +kernel) | (apply loads_two; decide +kernel) | exact fun _ h => nomatch h⟩,
   ⟨(tst [] fun d => withFolio d fun f => { f with quoin := [⟨5, 0x10, .pcie, 0x15, 999000⟩] }), (.pcie : Initiator), (5 : Nat), (0x10 : Nat), (0x15 : Word), (7 : Word), (.cba : Blk), (0 : Nat), (999000 : Nat), by repeat' first | decide +kernel | rfl | exact True.intro | apply And.intro | constructor | (apply loads_all; decide +kernel) | (apply sram_all; decide +kernel) | (apply loads_two; decide +kernel) | exact fun _ h => nomatch h⟩,
   ⟨(tst [] fun d => withFolio d fun f => { f with quoin := [⟨2, 0x10, .pcie, 0x5, 900000⟩] }), (.pcie : Initiator), (2 : Nat), (⟨2, 0x10, .pcie, 0x5, 900000⟩ : QuoinPend), by repeat' first | decide +kernel | rfl | exact True.intro | apply And.intro | constructor | (apply loads_all; decide +kernel) | (apply sram_all; decide +kernel) | (apply loads_two; decide +kernel) | exact fun _ h => nomatch h⟩⟩

theorem witness_HeadersAndGroups :
    (∃ (s : State) (ini : Initiator) (page : Nat) (b : Blk) (i : Nat), Calm s ∧ Open ini page s ∧ blockOf page = some (b, i) ∧ b ∈ [.eth, .canf, .uart, .spi, .i2c, .avs, .gpio, .tsc]) ∧
    (∃ (s : State) (ini : Initiator) (u : Fin 24), let d := s.dev; Calm s ∧ Open ini (0x60 + u) s ∧ gb d (FOLIO_CTL.EN (0x60 + u)) = false) ∧
    (∃ (s : State) (ini : Initiator) (page : Nat) (b : Blk) (i : Nat), Calm s ∧ Open ini page s ∧ blockOf page = some (b, i) ∧ b ∈ [.eth, .canf, .uart, .spi, .i2c]) ∧
    (∃ (s : State) (page : Nat) (t : Nat), let d := s.dev; Calm s ∧ tabFind d.folio.brst page = some (some t) ∧ t ≤ d.now ∧ page / 16 ≠ 1) ∧
    (∃ (s : State) (ini : Initiator) (page : Nat) (v : Word) (b : Blk) (i : Nat), let d := s.dev; Calm s ∧ Open ini page s ∧ blockOf page = some (b, i) ∧ (fld v 4 0 ≠ 31 ∨ gf d (FOLIO_GROUP.GRP page) = 31)) ∧
    (∃ (s : State) (ini : Initiator), Calm s ∧ Open ini 0 s) ∧
    (∃ (s : State) (ini : Initiator) (v : Word), Calm s ∧ Open ini 0 s ∧ fld v 11 9 ≤ 4 ∧ (1 ≤ fld v 11 9 → fld v 11 9 ≤ 3 → fld v 5 0 ≤ 15)) ∧
    (∃ (s : State) (g : Fin 16) (u : Fin 24) (k : Fin 16) (w : Word) (a : Nat) (n : Nat), let d := s.dev; Calm s ∧ d.folio.fires = [(g.val, a)] ∧ a ≤ d.now ∧ d.folio.shadows = [(SURV_GAIN.at u k, ⟨[(n, ⟨w, w, w⟩)]⟩)] ∧ n + 2 ≤ a ∧ gf d (FOLIO_GROUP.CGRP (0x60 + u)) = g ∧ (∀ f ∈ upTo 16, gf d (FORME_SYNC.SSRC f) ≠ 1)) :=
  ⟨⟨(tst []), (.pcie : Initiator), (0x110 : Nat), (.uart : Blk), (0 : Nat), by repeat' first | decide +kernel | rfl | exact True.intro | apply And.intro | constructor | (apply loads_all; decide +kernel) | (apply sram_all; decide +kernel) | (apply loads_two; decide +kernel) | exact fun _ h => nomatch h⟩,
   ⟨(tst [(SYS_MODE.MODE, 1)]), (.pcie : Initiator), (3 : Fin 24), by repeat' first | decide +kernel | rfl | exact True.intro | apply And.intro | constructor | (apply loads_all; decide +kernel) | (apply sram_all; decide +kernel) | (apply loads_two; decide +kernel) | exact fun _ h => nomatch h⟩,
   ⟨(tst [(FOLIO_EVTEN.BLK 0x110, 9)]), (.pcie : Initiator), (0x110 : Nat), (.uart : Blk), (0 : Nat), by repeat' first | decide +kernel | rfl | exact True.intro | apply And.intro | constructor | (apply loads_all; decide +kernel) | (apply sram_all; decide +kernel) | (apply loads_two; decide +kernel) | exact fun _ h => nomatch h⟩,
   ⟨(tst [(FOLIO_STAT.BRST_PEND 0x110, 1)] fun d => withFolio d fun f => { f with brst := [(0x110, some 900000)] }), (0x110 : Nat), (900000 : Nat), by repeat' first | decide +kernel | rfl | exact True.intro | apply And.intro | constructor | (apply loads_all; decide +kernel) | (apply sram_all; decide +kernel) | (apply loads_two; decide +kernel) | exact fun _ h => nomatch h⟩,
   ⟨(tst []), (.pcie : Initiator), (0x40 : Nat), (0x385 : Word), (.forme : Blk), (0 : Nat), by repeat' first | decide +kernel | rfl | exact True.intro | apply And.intro | constructor | (apply loads_all; decide +kernel) | (apply sram_all; decide +kernel) | (apply loads_two; decide +kernel) | exact fun _ h => nomatch h⟩,
   ⟨(tst []), (.pcie : Initiator), by repeat' first | decide +kernel | rfl | exact True.intro | apply And.intro | constructor | (apply loads_all; decide +kernel) | (apply sram_all; decide +kernel) | (apply loads_two; decide +kernel) | exact fun _ h => nomatch h⟩,
   ⟨(tst []), (.pcie : Initiator), (0x203 : Word), by repeat' first | decide +kernel | rfl | exact True.intro | apply And.intro | constructor | (apply loads_all; decide +kernel) | (apply sram_all; decide +kernel) | (apply loads_two; decide +kernel) | exact fun _ h => nomatch h⟩,
   ⟨(tst [(FOLIO_GROUP.CGRP 0x62, 5)] fun d => withFolio d fun f => { f with fires := [(5, 999990)], shadows := [(SURV_GAIN.at 2 7, ⟨[(999980, ⟨0x40000000, 0x40000000, 0x40000000⟩)]⟩)] }), (5 : Fin 16), (2 : Fin 24), (7 : Fin 16), (0x40000000 : Word), (999990 : Nat), (999980 : Nat), by repeat' first | decide +kernel | rfl | exact True.intro | apply And.intro | constructor | (apply loads_all; decide +kernel) | (apply sram_all; decide +kernel) | (apply loads_two; decide +kernel) | exact fun _ h => nomatch h⟩⟩

theorem witness_SurveyUnits :
    (∃ (s : State) (u : Fin 24) (k : Fin 16) (t : Nat), let d := s.dev; Calm s ∧ d.trigRaw = [] ∧ (d.trigDue.find? (fun x => decide (x.1 = 16 * u.val + k.val)) = some (16 * u.val + k.val, t)) ∧ gbit d (SURV_SHEETEN.EN u) k = true ∧ gb d (SURV_STAT.RDY u) = true ∧ gb d (SURV_STAT.CALBUSY u) = false ∧ slotBusy (survOf d u) k t = false ∧ gf d (SURV_TRIG.TSRC u k) ≠ 7) ∧
    (∃ (s : State) (u : Fin 24) (k : Fin 16) (t : Nat), let d := s.dev; Calm s ∧ d.trigRaw = [] ∧ (d.trigDue.find? (fun x => decide (x.1 = 16 * u.val + k.val)) = some (16 * u.val + k.val, t)) ∧ gbit d (SURV_SHEETEN.EN u) k = true ∧ gb d (SURV_STAT.RDY u) = true ∧ gb d (SURV_STAT.CALBUSY u) = false ∧ slotBusy (survOf d u) k t = true) ∧
    (∃ (s : State) (ini : Initiator) (u : Fin 24), Calm s ∧ Open ini (0x60 + u) s) ∧
    (∃ (s : State) (u : Fin 24) (k : Fin 16) (m : Nat) (t : Nat), let d := s.dev; Calm s ∧ d.trigRaw = [⟨swSurvCode, u.val, m, t⟩] ∧ d.trigDue = [] ∧ bit (BitVec.ofNat 36 m) k = true ∧ gf d (SURV_TRIG.TSRC u k) = 6 ∧ gbit d (SURV_SHEETEN.EN u) k = true ∧ gb d (SURV_STAT.RDY u) = true ∧ gb d (SURV_STAT.CALBUSY u) = false ∧ slotBusy (survOf d u) k t = false) ∧
    (∃ (s : State) (u : Fin 24) (r : SurvReq), let d := s.dev; Calm s ∧ (survOf d u).reqs = [r] ∧ r.late = false ∧ d.now + acqOf r.cfg = r.req ∧ unitOpen (survOf d u) d.now = true ∧ freeAt (survOf d u) r ≤ r.req ∧ (∀ v ∈ (survOf d u).convs, v.taken = nOf v.r.cfg ∨ d.now < v.ts + v.taken * deltaOf v.r.cfg)) ∧
    (∃ (s : State) (u : Fin 24) (r : SurvReq), let d := s.dev; Calm s ∧ (survOf d u).reqs = [r] ∧ r.late = false ∧ r.req < d.now + acqOf r.cfg ∧ unitOpen (survOf d u) d.now = true ∧ freeAt (survOf d u) r ≤ d.now + acqOf r.cfg ∧ (∀ v ∈ (survOf d u).convs, v.taken = nOf v.r.cfg ∨ d.now < v.ts + v.taken * deltaOf v.r.cfg)) ∧
    (∃ (s : State) (u : Fin 24) (v : SurvConv), let d := s.dev; Calm s ∧ (survOf d u).convs = [v] ∧ v.taken < nOf v.r.cfg ∧ v.ts + v.taken * deltaOf v.r.cfg ≤ d.now ∧ gf d (SURV_TRIG.TSRC u ((v.r.slot + 1) % 16)) ≠ 7) ∧
    (∃ (s : State) (u : Fin 24) (outs : List Nat) (v : SurvConv) (rest : List SurvConv), let d := s.dev; Calm s ∧ (survOf d u).convs = v :: rest ∧ v.r.slot < 16 ∧ v.taken = nOf v.r.cfg ∧ v.lastInstant + tconvOf v.r.cfg + 2 ≤ d.now ∧ d.now < v.lastInstant + tconvOf v.r.cfg + 12 ∧ d.landings = [] ∧ v.quiet = false ∧ outs.length = nOf v.r.cfg ∧ (∀ x ∈ outs, x < if bit v.r.cfg 24 then 4096 else 65536)) ∧
    (∃ (s : State) (u : Fin 24) (v : SurvConv) (rest : List SurvConv), let d := s.dev; Calm s ∧ (survOf d u).convs = v :: rest ∧ v.taken = nOf v.r.cfg ∧ v.lastInstant + tconvOf v.r.cfg ≤ d.now ∧ d.now < v.lastInstant + tconvOf v.r.cfg + 2 ∧ (∀ l ∈ d.landings, d.now < l.tick) ∧ v.quiet = false) ∧
    (∃ (s : State) (ini : Initiator), let d := s.dev; Calm s ∧ iniServed d ini = true ∧ debugShut d ini = false) ∧
    (∃ (s : State) (ini : Initiator) (u : Fin 24), let d := s.dev; Calm s ∧ Open ini (0x60 + u) s ∧ (mode d = mConfig ∨ mode d = mStandby ∨ mode d = mRecovery)) ∧
    (∃ (s : State) (u : Fin 24), let d := s.dev; Calm s ∧ gb d (SURV_STAT.CALBUSY u) = true) ∧
    (∃ (s : State), Calm s) ∧
    (∃ (s : State) (u : Fin 24), let d := s.dev; Calm s ∧ gb d (FOLIO_CTL.EN (0x60 + u)) = true ∧ mode d ≠ mStart ∧ mode d ≠ mPark ∧ gb d (SURV_STAT.RDY u) = false ∧ (survOf d u).readyFrom + 20000 ≤ d.now) :=
  ⟨⟨(tst [(SURV_SHEETEN.EN 2, 8), (SURV_STAT.RDY 2, 1), (SURV_STAT.CALBUSY 2, 0), (SURV_TRIG.DLY 2 3, 40), (SURV_TRIG.TSRC 2 3, 1)] fun d => { d with trigDue := [(35, 999998)] }), (2 : Fin 24), (3 : Fin 16), (999998 : Nat), by repeat' first | decide +kernel | rfl | exact True.intro | apply And.intro | constructor | (apply loads_all; decide +kernel) | (apply sram_all; decide +kernel) | (apply loads_two; decide +kernel) | exact fun _ h => nomatch h⟩,
   ⟨(tst [(SURV_SHEETEN.EN 2, 8), (SURV_STAT.RDY 2, 1), (SURV_STAT.CALBUSY 2, 0)] fun d => withSurv { d with trigDue := [(35, 999998)] } 2 fun x => { x with reqs := [⟨3, 1000100, false, 0, 0, 0, 0⟩] }), (2 : Fin 24), (3 : Fin 16), (999998 : Nat), by repeat' first | decide +kernel | rfl | exact True.intro | apply And.intro | constructor | (apply loads_all; decide +kernel) | (apply sram_all; decide +kernel) | (apply loads_two; decide +kernel) | exact fun _ h => nomatch h⟩,
   ⟨(tst [(SYS_MODE.MODE, 1), (SURV_SHEETEN.EN 2, 0xFF), (SURV_STAT.RDY 2, 1), (SURV_STAT.CALBUSY 2, 0), (SURV_TRIG.TSRC 2 3, 6), (SURV_TRIG.TSRC 2 5, 6)]), (.pcie : Initiator), (2 : Fin 24), by repeat' first | decide +kernel | rfl | exact True.intro | apply And.intro | constructor | (apply loads_all; decide +kernel) | (apply sram_all; decide +kernel) | (apply loads_two; decide +kernel) | exact fun _ h => nomatch h⟩,
   ⟨(tst [(SURV_SHEETEN.EN 2, 0xFF), (SURV_STAT.RDY 2, 1), (SURV_STAT.CALBUSY 2, 0), (SURV_TRIG.TSRC 2 3, 6), (SURV_TRIG.TSRC 2 5, 6)] fun d => { d with trigRaw := [⟨16, 2, 0x28, 1000000⟩] }), (2 : Fin 24), (3 : Fin 16), (0x28 : Nat), (1000000 : Nat), by repeat' first | decide +kernel | rfl | exact True.intro | apply And.intro | constructor | (apply loads_all; decide +kernel) | (apply sram_all; decide +kernel) | (apply loads_two; decide +kernel) | exact fun _ h => nomatch h⟩,
   ⟨(tst [] fun d => withSurv d 2 fun x => { x with reqs := [⟨3, 1000016, false, 0, 0, 0, 0⟩] }), (2 : Fin 24), (⟨3, 1000016, false, 0, 0, 0, 0⟩ : SurvReq), by repeat' first | decide +kernel | rfl | exact True.intro | apply And.intro | constructor | (apply loads_all; decide +kernel) | (apply sram_all; decide +kernel) | (apply loads_two; decide +kernel) | exact fun _ h => nomatch h⟩,
   ⟨(tst [] fun d => withSurv d 2 fun x => { x with reqs := [⟨3, 1000015, false, 0, 0, 0, 0⟩] }), (2 : Fin 24), (⟨3, 1000015, false, 0, 0, 0, 0⟩ : SurvReq), by repeat' first | decide +kernel | rfl | exact True.intro | apply And.intro | constructor | (apply loads_all; decide +kernel) | (apply sram_all; decide +kernel) | (apply loads_two; decide +kernel) | exact fun _ h => nomatch h⟩,
   ⟨(tst [] fun d => withSurv d 2 fun x => { x with convs := [⟨⟨3, 1000000, false, 0, 0, 0, 0⟩, 1000000, 0, 0, false, false⟩] }), (2 : Fin 24), (⟨⟨3, 1000000, false, 0, 0, 0, 0⟩, 1000000, 0, 0, false, false⟩ : SurvConv), by repeat' first | decide +kernel | rfl | exact True.intro | apply And.intro | constructor | (apply loads_all; decide +kernel) | (apply sram_all; decide +kernel) | (apply loads_two; decide +kernel) | exact fun _ h => nomatch h⟩,
   ⟨(tst [] fun d => withSurv d 2 fun x => { x with convs := [⟨⟨3, 999815, false, 0, 0xC00000000, 0x3F800000, 0⟩, 999815, 1, 5, false, false⟩] }), (2 : Fin 24), ([1000] : List Nat), (⟨⟨3, 999815, false, 0, 0xC00000000, 0x3F800000, 0⟩, 999815, 1, 5, false, false⟩ : SurvConv), ([] : List SurvConv), by repeat' first | decide +kernel | rfl | exact True.intro | apply And.intro | constructor | (apply loads_all; decide +kernel) | (apply sram_all; decide +kernel) | (apply loads_two; decide +kernel) | exact fun _ h => nomatch h⟩,
   ⟨(tst [] fun d => withSurv d 2 fun x => { x with convs := [⟨⟨3, 999820, false, 0, 0xC00000000, 0x3F800000, 0⟩, 999820, 1, 5, false, false⟩] }), (2 : Fin 24), (⟨⟨3, 999820, false, 0, 0xC00000000, 0x3F800000, 0⟩, 999820, 1, 5, false, false⟩ : SurvConv), ([] : List SurvConv), by repeat' first | decide +kernel | rfl | exact True.intro | apply And.intro | constructor | (apply loads_all; decide +kernel) | (apply sram_all; decide +kernel) | (apply loads_two; decide +kernel) | exact fun _ h => nomatch h⟩,
   ⟨(tst [] fun d => withSurv (wr d (SURV_RES.at 2 3) 0x812345678) 2 fun x => { x with stamps := [(3, 77)] }), (.pcie : Initiator), by repeat' first | decide +kernel | rfl | exact True.intro | apply And.intro | constructor | (apply loads_all; decide +kernel) | (apply sram_all; decide +kernel) | (apply loads_two; decide +kernel) | exact fun _ h => nomatch h⟩,
   ⟨(tst [(SYS_MODE.MODE, 1)]), (.pcie : Initiator), (2 : Fin 24), by repeat' first | decide +kernel | rfl | exact True.intro | apply And.intro | constructor | (apply loads_all; decide +kernel) | (apply sram_all; decide +kernel) | (apply loads_two; decide +kernel) | exact fun _ h => nomatch h⟩,
   ⟨(tst [(SURV_STAT.CALBUSY 2, 1)]), (2 : Fin 24), by repeat' first | decide +kernel | rfl | exact True.intro | apply And.intro | constructor | (apply loads_all; decide +kernel) | (apply sram_all; decide +kernel) | (apply loads_two; decide +kernel) | exact fun _ h => nomatch h⟩,
   ⟨(tst [(SURV_CTL.VREF 3, 1)]), by repeat' first | decide +kernel | rfl | exact True.intro | apply And.intro | constructor | (apply loads_all; decide +kernel) | (apply sram_all; decide +kernel) | (apply loads_two; decide +kernel) | exact fun _ h => nomatch h⟩,
   ⟨(tst [(FOLIO_CTL.EN 0x62, 1), (SYS_MODE.MODE, 1), (SURV_STAT.RDY 2, 0)]), (2 : Fin 24), by repeat' first | decide +kernel | rfl | exact True.intro | apply And.intro | constructor | (apply loads_all; decide +kernel) | (apply sram_all; decide +kernel) | (apply loads_two; decide +kernel) | exact fun _ h => nomatch h⟩⟩

theorem witness_SigmaDelta :
    (∃ (s : State) (n : Fin 16), let d := s.dev; Calm s ∧ gb d (FOLIO_CTL.EN (0x78 + n / 4)) = true ∧ (gb d (SDF_CTL.EN (n / 4) (n % 4)) || gb d (SDF_FDCTL.EN (n / 4) (n % 4))) = true ∧ mode d ≠ mStart ∧ mode d ≠ mPark ∧ gb d (SDF_CTL.CKOUT (n / 4) (n % 4)) = false ∧ sdfLoss d n = false ∧ (sdfOf d n).edgeAt + 400 ≤ d.now) ∧
    (∃ (s : State) (n : Fin 16), let d := s.dev; Calm s ∧ sdfLoss d n = true) ∧
    (∃ (s : State) (n : Fin 16) (t : Nat), let d := s.dev; Calm s ∧ gb d (FOLIO_CTL.EN (0x78 + n / 4)) = true ∧ gb d (SDF_CTL.EN (n / 4) (n % 4)) = true ∧ mode d ≠ mStart ∧ mode d ≠ mPark ∧ (sdfOf d n).readyFrom + 20000 ≤ d.now ∧ d.trigRaw = [] ∧ gb d (SDF_CTL.SYNC (n / 4) (n % 4)) = true ∧ (d.trigDue.find? (fun x => decide (x.1 = 0x1000 + n.val)) = some (0x1000 + n.val, t))) ∧
    (∃ (s : State) (n : Fin 16) (t : Nat), let d := s.dev; Calm s ∧ gb d (FOLIO_CTL.EN (0x78 + n / 4)) = true ∧ gb d (SDF_CTL.EN (n / 4) (n % 4)) = true ∧ mode d ≠ mStart ∧ mode d ≠ mPark ∧ (sdfOf d n).readyFrom + 20000 ≤ d.now ∧ d.trigRaw = [⟨swSdfCode, n.val, 0, t⟩] ∧ d.trigDue = [] ∧ gf d (SDF_TRIG.TSRC (n / 4) (n % 4)) = 6 ∧ gb d (SDF_CTL.SYNC (n / 4) (n % 4)) = true) ∧
    (∃ (s : State) (ini : Initiator) (n : Fin 16), Calm s ∧ Open ini (0x78 + n / 4) s) ∧
    (∃ (s : State) (n : Fin 16) (age : Nat), let d := s.dev; Calm s ∧ gb d (FOLIO_CTL.EN (0x78 + n / 4)) = true ∧ gb d (SDF_CTL.EN (n / 4) (n % 4)) = true ∧ mode d ≠ mStart ∧ mode d ≠ mPark ∧ (sdfOf d n).readyFrom + 20000 ≤ d.now ∧ sdfLoss d n = false ∧ gb d (SDF_CTL.SYNC (n / 4) (n % 4)) = false ∧ (sdfOf d n).sync = [] ∧ sdEdgeAt d n (d.now - age) = true ∧ d.landings = [] ∧ 9 ≤ age ∧ age < 16 ∧ age ≤ d.now ∧ gf d (SDF_CTL.OSRM1 (n / 4) (n % 4)) ≤ (sdfOf d n).count ∧ gf d (SDF_CTL.ORD (n / 4) (n % 4)) * (gf d (SDF_CTL.OSRM1 (n / 4) (n % 4)) + 1) ≤ (sdfOf d n).bits.length + 1) ∧
    (∃ (s : State) (n : Fin 16) (age : Nat), let d := s.dev; Calm s ∧ gb d (FOLIO_CTL.EN (0x78 + n / 4)) = true ∧ gb d (SDF_CTL.EN (n / 4) (n % 4)) = true ∧ mode d ≠ mStart ∧ mode d ≠ mPark ∧ (sdfOf d n).readyFrom + 20000 ≤ d.now ∧ sdfLoss d n = false ∧ gb d (SDF_CTL.SYNC (n / 4) (n % 4)) = false ∧ (sdfOf d n).sync = [] ∧ sdEdgeAt d n (d.now - age) = true ∧ (∀ l ∈ d.landings, d.now < l.tick) ∧ (sdfOf d n).count < gf d (SDF_CTL.OSRM1 (n / 4) (n % 4))) ∧
    (∃ (s : State) (ini : Initiator), let d := s.dev; Calm s ∧ iniServed d ini = true ∧ debugShut d ini = false) :=
  ⟨⟨(tst [(FOLIO_CTL.EN 0x79, 1), (SDF_CTL.EN 1 2, 1), (SYS_MODE.MODE, 1), (SDF_CTL.ORD 1 2, 3), (SDF_CTL.OSRM1 1 2, 63), (SDF_CTL.CKOUT 1 2, 0), (SDF_STAT.CLKLOSS 1, 0)]), (6 : Fin 16), by repeat' first | decide +kernel | rfl | exact True.intro | apply And.intro | constructor | (apply loads_all; decide +kernel) | (apply sram_all; decide +kernel) | (apply loads_two; decide +kernel) | exact fun _ h => nomatch h⟩,
   ⟨(tst [(FOLIO_CTL.EN 0x79, 1), (SDF_CTL.EN 1 2, 1), (SYS_MODE.MODE, 1), (SDF_CTL.ORD 1 2, 3), (SDF_CTL.OSRM1 1 2, 63), (SDF_STAT.CLKLOSS 1, 4)]), (6 : Fin 16), by repeat' first | decide +kernel | rfl | exact True.intro | apply And.intro | constructor | (apply loads_all; decide +kernel) | (apply sram_all; decide +kernel) | (apply loads_two; decide +kernel) | exact fun _ h => nomatch h⟩,
   ⟨(tst [(FOLIO_CTL.EN 0x79, 1), (SDF_CTL.EN 1 2, 1), (SYS_MODE.MODE, 1), (SDF_CTL.ORD 1 2, 3), (SDF_CTL.OSRM1 1 2, 63), (SDF_CTL.SYNC 1 2, 1)] fun d => { d with trigDue := [(4102, 999990)] }), (6 : Fin 16), (999990 : Nat), by repeat' first | decide +kernel | rfl | exact True.intro | apply And.intro | constructor | (apply loads_all; decide +kernel) | (apply sram_all; decide +kernel) | (apply loads_two; decide +kernel) | exact fun _ h => nomatch h⟩,
   ⟨(tst [(FOLIO_CTL.EN 0x79, 1), (SDF_CTL.EN 1 2, 1), (SYS_MODE.MODE, 1), (SDF_CTL.ORD 1 2, 3), (SDF_CTL.OSRM1 1 2, 63), (SDF_CTL.SYNC 1 2, 1), (SDF_TRIG.TSRC 1 2, 6)] fun d => { d with trigRaw := [⟨17, 6, 0, 999990⟩] }), (6 : Fin 16), (999990 : Nat), by repeat' first | decide +kernel | rfl | exact True.intro | apply And.intro | constructor | (apply loads_all; decide +kernel) | (apply sram_all; decide +kernel) | (apply loads_two; decide +kernel) | exact fun _ h => nomatch h⟩,
   ⟨(tst [(FOLIO_CTL.EN 0x79, 1), (SDF_CTL.EN 1 2, 1), (SYS_MODE.MODE, 1), (SDF_CTL.ORD 1 2, 3), (SDF_CTL.OSRM1 1 2, 63), (SDF_CTL.SYNC 1 2, 1), (SDF_TRIG.TSRC 1 2, 6)]), (.pcie : Initiator), (6 : Fin 16), by repeat' first | decide +kernel | rfl | exact True.intro | apply And.intro | constructor | (apply loads_all; decide +kernel) | (apply sram_all; decide +kernel) | (apply loads_two; decide +kernel) | exact fun _ h => nomatch h⟩,
   ⟨(tst [(FOLIO_CTL.EN 0x79, 1), (SDF_CTL.EN 1 2, 1), (SYS_MODE.MODE, 1), (SDF_CTL.ORD 1 2, 3), (SDF_CTL.OSRM1 1 2, 63), (SDF_STAT.CLKLOSS 1, 0)] fun d => withSdf d 6 fun x => { x with bits := (upTo 200).map fun i => (i % 3 == 0, 999980 - i), count := 63 }), (6 : Fin 16), (10 : Nat), by repeat' first | decide +kernel | rfl | exact True.intro | apply And.intro | constructor | (apply loads_all; decide +kernel) | (apply sram_all; decide +kernel) | (apply loads_two; decide +kernel) | exact fun _ h => nomatch h⟩,
   ⟨(tst [(FOLIO_CTL.EN 0x79, 1), (SDF_CTL.EN 1 2, 1), (SYS_MODE.MODE, 1), (SDF_CTL.ORD 1 2, 3), (SDF_CTL.OSRM1 1 2, 63), (SDF_STAT.CLKLOSS 1, 0)] fun d => withSdf d 6 fun x => { x with count := 3 }), (6 : Fin 16), (10 : Nat), by repeat' first | decide +kernel | rfl | exact True.intro | apply And.intro | constructor | (apply loads_all; decide +kernel) | (apply sram_all; decide +kernel) | (apply loads_two; decide +kernel) | exact fun _ h => nomatch h⟩,
   ⟨(tst [] fun d => withSdf (wr d (SDF_RES.at 1 2) 0x812345678) 6 fun x => { x with stamp := 77 }), (.pcie : Initiator), by repeat' first | decide +kernel | rfl | exact True.intro | apply And.intro | constructor | (apply loads_all; decide +kernel) | (apply sram_all; decide +kernel) | (apply loads_two; decide +kernel) | exact fun _ h => nomatch h⟩⟩

theorem witness_Comparators :
    (∃ (s : State) (k : Fin 64), let d := s.dev; Calm s ∧ (compOf d k).hLoads = [] ∧ (compOf d k).lLoads = [] ∧ (compOf d k).meas = none) ∧
    (∃ (s : State) (k : Fin 64), let d := s.dev; Calm s ∧ contBlanked d k = true ∧ (compOf d k).blankTo ≤ d.now) ∧
    (∃ (s : State) (k : Fin 64) (t0 : Nat) (slope : Nat) (r : Nat), let d := s.dev; Calm s ∧ (compOf d k).ramp = some (t0, slope, r) ∧ (d.now - t0) % 4 = 0 ∧ (compOf d k).loadAt ≠ some d.now ∧ (compOf d k).hLoads = [] ∧ (compOf d k).lLoads = [] ∧ (compOf d k).meas = none) ∧
    (∃ (s : State) (g : Fin 4), let d := s.dev; Calm s ∧ gb d (FOLIO_CTL.EN (0x7C + g)) = true ∧ mode d ≠ mStart ∧ mode d ≠ mPark ∧ gb d (CONT_STAT.RDY g) = false ∧ tabGet 0 d.contFrom g + 10000 ≤ d.now) ∧
    (∃ (s : State) (n : Fin 16) (edges : List SdEdge), let d := s.dev; Calm s ∧ sdfLoss d n = false ∧ (∀ x ∈ edges, sdEdgeAt d n (d.now - x.age) = true) ∧ gb d (SDF_FDCTL.EN (n / 4) (n % 4)) = true ∧ gb d (FOLIO_CTL.EN (0x78 + n / 4)) = true ∧ mode d ≠ mStart ∧ mode d ≠ mPark ∧ gf d (SDF_FDCTL.FM (n / 4) (n % 4)) ≤ 32 ∧ (gf d (SDF_FDCTL.PERS (n / 4) (n % 4)) < (edges.filter fun x => x.falling == gb d (SDF_CTL.CKEDGE (n / 4) (n % 4))).length) ∧ (gf d (SDF_FDCTL.FM (n / 4) (n % 4)) + gf d (SDF_FDCTL.PERS (n / 4) (n % 4)) ≤ (edges.filter fun x => x.falling == gb d (SDF_CTL.CKEDGE (n / 4) (n % 4))).length + (fdOf d n).bits.length)) :=
  ⟨⟨(tst [(CONT_CFG.EN 1 3, 1), (CONT_STAT.RDY 1, 1), (CONT_CFG.TRIPSEL 1 3, 1), (CONT_CFG.MODE 1 3, 0), (CONT_STAT.BLANKED 1, 0)]), (19 : Fin 64), by repeat' first | decide +kernel | rfl | exact True.intro | apply And.intro | constructor | (apply loads_all; decide +kernel) | (apply sram_all; decide +kernel) | (apply loads_two; decide +kernel) | exact fun _ h => nomatch h⟩,
   ⟨(tst [(CONT_STAT.BLANKED 1, 8)]), (19 : Fin 64), by repeat' first | decide +kernel | rfl | exact True.intro | apply And.intro | constructor | (apply loads_all; decide +kernel) | (apply sram_all; decide +kernel) | (apply loads_two; decide +kernel) | exact fun _ h => nomatch h⟩,
   ⟨(tst [(CONT_THR.THRH 1 3, 3000)] fun d => withComp d 19 fun c => { c with ramp := some (999900, 65536, 1) }), (19 : Fin 64), (999900 : Nat), (65536 : Nat), (1 : Nat), by repeat' first | decide +kernel | rfl | exact True.intro | apply And.intro | constructor | (apply loads_all; decide +kernel) | (apply sram_all; decide +kernel) | (apply loads_two; decide +kernel) | exact fun _ h => nomatch h⟩,
   ⟨(tst [(FOLIO_CTL.EN 0x7D, 1), (SYS_MODE.MODE, 1), (CONT_STAT.RDY 1, 0)]), (1 : Fin 4), by repeat' first | decide +kernel | rfl | exact True.intro | apply And.intro | constructor | (apply loads_all; decide +kernel) | (apply sram_all; decide +kernel) | (apply loads_two; decide +kernel) | exact fun _ h => nomatch h⟩,
   ⟨(tst [(SYS_MODE.MODE, 1), (SDF_STAT.CLKLOSS 1, 0), (SDF_FDCTL.EN 1 2, 1), (FOLIO_CTL.EN 0x79, 1), (SDF_FDCTL.FM 1 2, 8), (SDF_CTL.CKEDGE 1 2, 0), (SDF_FDTHR.FDHI 1 2, 6), (SDF_FDCTL.PERS 1 2, 1), (SDF_FDCTL.TRIPSEL 1 2, 1)] fun d => withFd d 6 fun x => { x with bits := [true, true, false, true, true, true, true] }), (6 : Fin 16), ([⟨30, false, true⟩, ⟨20, true, true⟩, ⟨10, false, true⟩] : List SdEdge), by repeat' first | decide +kernel | rfl | exact True.intro | apply And.intro | constructor | (apply loads_all; decide +kernel) | (apply sram_all; decide +kernel) | (apply loads_two; decide +kernel) | exact fun _ h => nomatch h⟩⟩

theorem witness_TripNetwork :
    (∃ (s : State) (p : Fin 32) (lv : Bool), let d := s.dev; Calm s ∧ tabGet false d.trip.pins p ≠ lv) ∧
    (∃ (s : State) (p : Fin 32), let d := s.dev; Calm s ∧ tabGet false d.trip.pins p ≠ gbit d TRIPNET_INPOL.POL p ∧ live d (80 + p) = false ∧ tabGet 0 d.trip.pinFrom p + inFilt d p ≤ d.now) ∧
    (∃ (s : State) (x : Fin 179), let d := s.dev; Calm s ∧ (d.trip.due.any (fun u => decide (u.1 = x.val ∧ u.2 ≤ d.now)) = true) ∧ x.val ≠ 176 ∧ mode d ≠ mPark ∧ d.rstc.phase = .started) ∧
    (∃ (s : State) (u : Nat), let d := s.dev; Calm s ∧ d.trip.swDue = [(u, true)] ∧ u ≤ d.now ∧ live d 176 = false ∧ mode d ≠ mPark ∧ d.rstc.phase = .started) ∧
    (∃ (s : State) (ini : Initiator), Calm s ∧ Open ini 0x51 s) ∧
    (∃ (s : State) (ini : Initiator), Calm s ∧ Open ini 0x51 s) ∧
    (∃ (s : State) (ini : Initiator), Calm s ∧ Open ini 0x51 s) ∧
    (∃ (s : State) (ini : Initiator), Calm s ∧ Open ini 0x51 s) ∧
    (∃ (s : State) (ini : Initiator), Calm s ∧ Open ini 0x51 s) ∧
    (∃ (s : State) (ini : Initiator) (x : Fin 179), Calm s ∧ Open ini (routeKey x / 256) s) :=
  ⟨⟨(tst []), (7 : Fin 32), (true : Bool), by repeat' first | decide +kernel | rfl | exact True.intro | apply And.intro | constructor | (apply loads_all; decide +kernel) | (apply sram_all; decide +kernel) | (apply loads_two; decide +kernel) | exact fun _ h => nomatch h⟩,
   ⟨(tst [(TRIPNET_INPOL.POL, 0), (TRIPNET_LIVE.LIVE 2, 0)] fun d => withTrip d fun t => { t with pins := [(7, true)] }), (7 : Fin 32), by repeat' first | decide +kernel | rfl | exact True.intro | apply And.intro | constructor | (apply loads_all; decide +kernel) | (apply sram_all; decide +kernel) | (apply loads_two; decide +kernel) | exact fun _ h => nomatch h⟩,
   ⟨(tst [(⟨routeKey 85, 35, 0⟩, 0x8), (TRIPNET_LIVE.LIVE 2, 0x200000), (SYS_MODE.MODE, 2)] fun d => withTrip (withPair d 3 1 fun p => { p with oa := { p.oa with on := true } }) fun t => { t with due := [(85, 1000000)] }), (85 : Fin 179), by repeat' first | decide +kernel | rfl | exact True.intro | apply And.intro | constructor | (apply loads_all; decide +kernel) | (apply sram_all; decide +kernel) | (apply loads_two; decide +kernel) | exact fun _ h => nomatch h⟩,
   ⟨(tst [(⟨routeKey 176, 35, 0⟩, 0x8), (TRIPNET_LIVE.LIVE 5, 0), (SYS_MODE.MODE, 2)] fun d => withTrip (withPair d 3 1 fun p => { p with oa := { p.oa with on := true } }) fun t => { t with swDue := [(1000000, true)] }), (1000000 : Nat), by repeat' first | decide +kernel | rfl | exact True.intro | apply And.intro | constructor | (apply loads_all; decide +kernel) | (apply sram_all; decide +kernel) | (apply loads_two; decide +kernel) | exact fun _ h => nomatch h⟩,
   ⟨(tst [(TRIPNET_FSTAT.A 3, 1), (TRIPNET_FSTAT.A 2, 1)]), (.pcie : Initiator), by repeat' first | decide +kernel | rfl | exact True.intro | apply And.intro | constructor | (apply loads_all; decide +kernel) | (apply sram_all; decide +kernel) | (apply loads_two; decide +kernel) | exact fun _ h => nomatch h⟩,
   ⟨(tst [(TRIPNET_FSTAT.BSEEN 3, 1), (TRIPNET_FSTAT.BACT 3, 1)]), (.pcie : Initiator), by repeat' first | decide +kernel | rfl | exact True.intro | apply And.intro | constructor | (apply loads_all; decide +kernel) | (apply sram_all; decide +kernel) | (apply loads_two; decide +kernel) | exact fun _ h => nomatch h⟩,
   ⟨(tst [(TRIPNET_FSTAT.C 3, 1), (TRIPNET_FSTAT.C 2, 1)]), (.pcie : Initiator), by repeat' first | decide +kernel | rfl | exact True.intro | apply And.intro | constructor | (apply loads_all; decide +kernel) | (apply sram_all; decide +kernel) | (apply loads_two; decide +kernel) | exact fun _ h => nomatch h⟩,
   ⟨(tst [(TRIPNET_FSTAT.D 3, 1), (TRIPNET_FSTAT.D 2, 1)]), (.pcie : Initiator), by repeat' first | decide +kernel | rfl | exact True.intro | apply And.intro | constructor | (apply loads_all; decide +kernel) | (apply sram_all; decide +kernel) | (apply loads_two; decide +kernel) | exact fun _ h => nomatch h⟩,
   ⟨(tst []), (.pcie : Initiator), by repeat' first | decide +kernel | rfl | exact True.intro | apply And.intro | constructor | (apply loads_all; decide +kernel) | (apply sram_all; decide +kernel) | (apply loads_two; decide +kernel) | exact fun _ h => nomatch h⟩,
   ⟨(tst []), (.pcie : Initiator), (85 : Fin 179), by repeat' first | decide +kernel | rfl | exact True.intro | apply And.intro | constructor | (apply loads_all; decide +kernel) | (apply sram_all; decide +kernel) | (apply loads_two; decide +kernel) | exact fun _ h => nomatch h⟩⟩

theorem witness_FormeCounters :
    (∃ (s : State) (ini : Initiator) (f : Fin 16), let d := s.dev; Calm s ∧ Open ini (0x40 + f) s ∧ mode d ≠ mStart ∧ mode d ≠ mPark) ∧
    (∃ (s : State) (ini : Initiator) (f : Fin 16), Calm s ∧ Open ini (0x40 + f) s) ∧
    (∃ (s : State) (f : Fin 16) (a : Nat), let d := s.dev; Calm s ∧ cst d f = 1 ∧ (formeOf d f).startAt = some a ∧ a ≤ d.now ∧ gb d MERID_STAT.CAL_OK = true ∧ 100 ≤ regP d f ∧ QuietGroups d) ∧
    (∃ (s : State) (f : Fin 16) (a : Nat), let d := s.dev; Calm s ∧ cst d f = 1 ∧ (formeOf d f).startAt = some a ∧ a ≤ d.now ∧ gb d MERID_STAT.CAL_OK = false ∧ gb d (FORME_STAT.CALWAIT f) = false ∧ QuietGroups d) ∧
    (∃ (s : State) (f : Fin 16), let d := s.dev; Calm s ∧ cst d f = 2 ∧ (formeOf d f).nextB ≤ d.now ∧ QuietGroups d) ∧
    (∃ (s : State) (f : Fin 16), let d := s.dev; Calm s ∧ cst d f = 3 ∧ (formeOf d f).nextB ≤ d.now) ∧
    (∃ (s : State) (f : Fin 16), let d := s.dev; Calm s ∧ 2 ≤ cst d f ∧ (formeOf d f).midDone = false ∧ (formeOf d f).p / 2 * (formeOf d f).k ≤ formePos (formeOf d f) d.now ∧ QuietGroups d) ∧
    (∃ (s : State) (f : Fin 16) (pk : Bool), let d := s.dev; Calm s ∧ carrierDue d f pk = true) :=
  ⟨⟨(tst [(SYS_MODE.MODE, 2), (FORME_STAT.CST 3, 0)]), (.pcie : Initiator), (3 : Fin 16), by repeat' first | decide +kernel | rfl | exact True.intro | apply And.intro | constructor | (apply loads_all; decide +kernel) | (apply sram_all; decide +kernel) | (apply loads_two; decide +kernel) | exact fun _ h => nomatch h⟩,
   ⟨(tst [(SYS_MODE.MODE, 2), (FORME_STAT.CST 3, 2)]), (.pcie : Initiator), (3 : Fin 16), by repeat' first | decide +kernel | rfl | exact True.intro | apply And.intro | constructor | (apply loads_all; decide +kernel) | (apply sram_all; decide +kernel) | (apply loads_two; decide +kernel) | exact fun _ h => nomatch h⟩,
   ⟨(tst [(SYS_MODE.MODE, 2), (MERID_STAT.CAL_OK, 1), (FORME_PERIOD.PERIOD 3, 5000), (FORME_MODE.CMODE 3, 0), (FORME_MODE.PRE 3, 0), (FORME_STAT.CST 3, 1)] fun d => withForme d 3 fun x => { x with startAt := some 1000000 }), (3 : Fin 16), (1000000 : Nat), by repeat' first | decide +kernel | rfl | exact True.intro | apply And.intro | constructor | (apply loads_all; decide +kernel) | (apply sram_all; decide +kernel) | (apply loads_two; decide +kernel) | exact fun _ h => nomatch h⟩,
   ⟨(tst [(SYS_MODE.MODE, 2), (MERID_STAT.CAL_OK, 0), (FORME_STAT.CST 3, 1), (FORME_STAT.CALWAIT 3, 0)] fun d => withForme d 3 fun x => { x with startAt := some 1000000 }), (3 : Fin 16), (1000000 : Nat), by repeat' first | decide +kernel | rfl | exact True.intro | apply And.intro | constructor | (apply loads_all; decide +kernel) | (apply sram_all; decide +kernel) | (apply loads_two; decide +kernel) | exact fun _ h => nomatch h⟩,
   ⟨(tst [(SYS_MODE.MODE, 2), (MERID_STAT.CAL_OK, 1), (FORME_PERIOD.PERIOD 3, 5000), (FORME_MODE.CMODE 3, 0), (FORME_MODE.PRE 3, 0), (FORME_STAT.CST 3, 2), (FORME_STAT.PEND 3, 5)] fun d => withForme d 3 fun x => { x with p := 5000, k := 1, nextB := 1000000, t0 := 990000 }), (3 : Fin 16), by repeat' first | decide +kernel | rfl | exact True.intro | apply And.intro | constructor | (apply loads_all; decide +kernel) | (apply sram_all; decide +kernel) | (apply loads_two; decide +kernel) | exact fun _ h => nomatch h⟩,
   ⟨(tst [(SYS_MODE.MODE, 2), (MERID_STAT.CAL_OK, 1), (FORME_PERIOD.PERIOD 3, 5000), (FORME_MODE.CMODE 3, 0), (FORME_MODE.PRE 3, 0), (FORME_STAT.CST 3, 3)] fun d => withPair (withForme d 3 fun x => { x with p := 5000, k := 1, nextB := 1000000, t0 := 990000 }) 3 1 fun p => { p with ref := true, oa := { p.oa with on := true } }), (3 : Fin 16), by repeat' first | decide +kernel | rfl | exact True.intro | apply And.intro | constructor | (apply loads_all; decide +kernel) | (apply sram_all; decide +kernel) | (apply loads_two; decide +kernel) | exact fun _ h => nomatch h⟩,
   ⟨(tst [(SYS_MODE.MODE, 2), (MERID_STAT.CAL_OK, 1), (FORME_PERIOD.PERIOD 3, 5000), (FORME_MODE.CMODE 3, 0), (FORME_MODE.PRE 3, 0), (FORME_STAT.CST 3, 2)] fun d => withForme d 3 fun x => { x with p := 5000, k := 1, nextB := 1000000, t0 := 990000 }), (3 : Fin 16), by repeat' first | decide +kernel | rfl | exact True.intro | apply And.intro | constructor | (apply loads_all; decide +kernel) | (apply sram_all; decide +kernel) | (apply loads_two; decide +kernel) | exact fun _ h => nomatch h⟩,
   ⟨(tst [(SYS_MODE.MODE, 2), (MERID_STAT.CAL_OK, 1), (FORME_PERIOD.PERIOD 3, 5000), (FORME_MODE.CMODE 3, 0), (FORME_MODE.PRE 3, 0), (FORME_STAT.CST 3, 2), (FORME_EVCZ.OFS 3, 0)] fun d => withForme (withForme d 3 fun x => { x with p := 5000, k := 1, nextB := 1000000, t0 := 990000 }) 3 fun x => { x with points := [⟨false, 1000000, 5000, false, false⟩] }), (3 : Fin 16), (false : Bool), by repeat' first | decide +kernel | rfl | exact True.intro | apply And.intro | constructor | (apply loads_all; decide +kernel) | (apply sram_all; decide +kernel) | (apply loads_two; decide +kernel) | exact fun _ h => nomatch h⟩⟩

theorem witness_FormeEdges :
    (∃ (s : State) (f : Fin 16) (n : Fin 4) (r : Bool) (u : Nat), let d := s.dev; Calm s ∧ nextEdge d f n = some (r, u)) ∧
    (∃ (s : State) (f : Fin 16) (n : Fin 4) (r : Bool) (u : Nat), let d := s.dev; Calm s ∧ nextEdge d f n = some (r, u) ∧ (pairOf d f n).ref ≠ r ∧ (pairOf d f n).held = false ∧ (pairOf d f n).resumedAt ≠ some d.now ∧ tripOff d f = false ∧ gf d (FORME_PCFG.PMODE f n) = 0 ∧ gf d (FORME_MINP.MIN f) = 0 ∧ ((pairOf d f n).out (!r)).on = false) ∧
    (∃ (s : State) (f : Fin 16) (n : Fin 4), let d := s.dev; Calm s ∧ ((pairOf d f n).edgeDue.any (fun u => decide (u ≤ d.now)) = true)) ∧
    (∃ (s : State) (ini : Initiator) (f : Fin 16), Calm s ∧ Open ini (0x40 + f) s) ∧
    (∃ (s : State) (f : Fin 16) (n : Fin 4) (u : Nat) (h : Word) (rest : List LateOffer), let d := s.dev; Calm s ∧ 2 ≤ cst d f ∧ (pairOf d f n).lates = ⟨u, 0x1FFFFFFF, 0x1FFFFFFF, h⟩ :: rest ∧ u + 4 ≤ d.now) ∧
    (∃ (s : State) (f : Fin 16) (n : Fin 4) (u : Nat) (x : Nat) (a : Word) (b : Word) (h : Word) (rest : List LateOffer), let d := s.dev; Calm s ∧ 2 ≤ cst d f ∧ (pairOf d f n).lates = ⟨u, a, b, h⟩ :: rest ∧ u + 4 ≤ d.now ∧ (pairOf d f n).firedA = false ∧ edgeTime (formeOf d f) a true (pairOf d f n).carryA = some x ∧ 32 * (formeOf d f).nextB + x < 32 * (u + max 8 (gf d (FORME_LATEG.GUARD f))) + 32 * formeD (formeOf d f) ∧ rd d (FORME_CMPA.at f n) = 0x1FFFFFFF) ∧
    (∃ (s : State) (f : Fin 16) (n : Fin 4) (b : Bool) (u : Nat), let d := s.dev; Calm s ∧ firstOut (turnOnDue d f n false) (turnOnDue d f n true) = some (b, u) ∧ gf d (FORME_MINP.MIN f) = 0 ∧ ilkOn d f n = false) ∧
    (∃ (s : State) (f : Fin 16) (n : Fin 4) (b : Bool) (u : Nat), let d := s.dev; Calm s ∧ firstOut (releaseDue d f n false) (releaseDue d f n true) = some (b, u)) ∧
    (∃ (s : State) (f : Fin 16) (n : Fin 4) (b : Bool) (u : Nat), let d := s.dev; Calm s ∧ firstOut (turnOffDue d f n false) (turnOffDue d f n true) = some (b, u) ∧ ((pairOf d f n).out b).onAt + 32 * gf d (FORME_MINP.MIN f) ≤ u) :=
  ⟨⟨(tst [(SYS_MODE.MODE, 2), (MERID_STAT.CAL_OK, 1), (FORME_PERIOD.PERIOD 3, 5000), (FORME_MODE.CMODE 3, 0), (FORME_MODE.PRE 3, 0), (FORME_STAT.CST 3, 2), (⟨FORME_CMPA.at 3 1, 35, 0⟩, 320)] fun d => withForme d 3 fun x => { x with p := 5000, k := 1, nextB := 1004980, t0 := 990000 }), (3 : Fin 16), (1 : Fin 4), (true : Bool), (320 : Nat), by repeat' first | decide +kernel | rfl | exact True.intro | apply And.intro | constructor | (apply loads_all; decide +kernel) | (apply sram_all; decide +kernel) | (apply loads_two; decide +kernel) | exact fun _ h => nomatch h⟩,
   ⟨(tst [(SYS_MODE.MODE, 2), (MERID_STAT.CAL_OK, 1), (FORME_PERIOD.PERIOD 3, 5000), (FORME_MODE.CMODE 3, 0), (FORME_MODE.PRE 3, 0), (FORME_STAT.CST 3, 2), (⟨FORME_CMPA.at 3 1, 35, 0⟩, 320), (FORME_MINP.MIN 3, 0), (FORME_PCFG.PMODE 3 1, 0), (TRIPNET_FSTAT.A 3, 0), (TRIPNET_FSTAT.BACT 3, 0)] fun d => withPair (withForme d 3 fun x => { x with p := 5000, k := 1, nextB := 1004980, t0 := 990000 }) 3 1 fun p => { p with first := false, ob := { p.ob with on := true } }), (3 : Fin 16), (1 : Fin 4), (true : Bool), (320 : Nat), by repeat' first | decide +kernel | rfl | exact True.intro | apply And.intro | constructor | (apply loads_all; decide +kernel) | (apply sram_all; decide +kernel) | (apply loads_two; decide +kernel) | exact fun _ h => nomatch h⟩,
   ⟨(tst [] fun d => withPair d 3 1 fun p => { p with edgeDue := [999999, 1000001] }), (3 : Fin 16), (1 : Fin 4), by repeat' first | decide +kernel | rfl | exact True.intro | apply And.intro | constructor | (apply loads_all; decide +kernel) | (apply sram_all; decide +kernel) | (apply loads_two; decide +kernel) | exact fun _ h => nomatch h⟩,
   ⟨(tst []), (.pcie : Initiator), (3 : Fin 16), by repeat' first | decide +kernel | rfl | exact True.intro | apply And.intro | constructor | (apply loads_all; decide +kernel) | (apply sram_all; decide +kernel) | (apply loads_two; decide +kernel) | exact fun _ h => nomatch h⟩,
   ⟨(tst [(SYS_MODE.MODE, 2), (MERID_STAT.CAL_OK, 1), (FORME_PERIOD.PERIOD 3, 5000), (FORME_MODE.CMODE 3, 0), (FORME_MODE.PRE 3, 0), (FORME_STAT.CST 3, 2)] fun d => withPair (withForme d 3 fun x => { x with p := 5000, k := 1, nextB := 1000000, t0 := 990000 }) 3 1 fun p => { p with lates := [⟨999990, 0x1FFFFFFF, 0x1FFFFFFF, 7⟩] }), (3 : Fin 16), (1 : Fin 4), (999990 : Nat), (7 : Word), ([] : List LateOffer), by repeat' first | decide +kernel | rfl | exact True.intro | apply And.intro | constructor | (apply loads_all; decide +kernel) | (apply sram_all; decide +kernel) | (apply loads_two; decide +kernel) | exact fun _ h => nomatch h⟩,
   ⟨(tst [(SYS_MODE.MODE, 2), (MERID_STAT.CAL_OK, 1), (FORME_PERIOD.PERIOD 3, 5000), (FORME_MODE.CMODE 3, 0), (FORME_MODE.PRE 3, 0), (FORME_STAT.CST 3, 2), (⟨FORME_CMPA.at 3 1, 35, 0⟩, 0x1FFFFFFF), (FORME_LATEG.GUARD 3, 20)] fun d => withPair (withForme d 3 fun x => { x with p := 5000, k := 1, nextB := 1004980, t0 := 990000 }) 3 1 fun p => { p with lates := [⟨999996, 0x320, 0x640, 0⟩] }), (3 : Fin 16), (1 : Fin 4), (999996 : Nat), (0x320 : Nat), (0x320 : Word), (0x640 : Word), (0 : Word), ([] : List LateOffer), by repeat' first | decide +kernel | rfl | exact True.intro | apply And.intro | constructor | (apply loads_all; decide +kernel) | (apply sram_all; decide +kernel) | (apply loads_two; decide +kernel) | exact fun _ h => nomatch h⟩,
   ⟨(tst [(FORME_MINP.MIN 3, 0), (FORME_ILK.DIS 3, 15)] fun d => withPair d 3 1 fun p => { p with first := false, ob := { p.ob with turnOn := some (32000005, false) } }), (3 : Fin 16), (1 : Fin 4), (true : Bool), (32000005 : Nat), by repeat' first | decide +kernel | rfl | exact True.intro | apply And.intro | constructor | (apply loads_all; decide +kernel) | (apply sram_all; decide +kernel) | (apply loads_two; decide +kernel) | exact fun _ h => nomatch h⟩,
   ⟨(tst [(FORME_ILK.DIS 3, 0), (FORME_ILK.FLOOR 3, 20)] fun d => withPair d 3 1 fun p => { p with first := false, oa := { p.oa with offAt := 31999000 }, ob := { p.ob with turnOn := some (31999100, true) } }), (3 : Fin 16), (1 : Fin 4), (true : Bool), (31999640 : Nat), by repeat' first | decide +kernel | rfl | exact True.intro | apply And.intro | constructor | (apply loads_all; decide +kernel) | (apply sram_all; decide +kernel) | (apply loads_two; decide +kernel) | exact fun _ h => nomatch h⟩,
   ⟨(tst [(FORME_MINP.MIN 3, 10)] fun d => withPair d 3 1 fun p => { p with first := false, oa := { p.oa with on := true, onAt := 31999000, turnOff := some 32000010, after := some 640 } }), (3 : Fin 16), (1 : Fin 4), (false : Bool), (32000010 : Nat), by repeat' first | decide +kernel | rfl | exact True.intro | apply And.intro | constructor | (apply loads_all; decide +kernel) | (apply sram_all; decide +kernel) | (apply loads_two; decide +kernel) | exact fun _ h => nomatch h⟩⟩

theorem witness_Bearing :
    (∃ (s : State) (u : Fin 16) (a : Bool) (b : Bool) (n : Int), let d := s.dev; Calm s ∧ brngOn d u = true ∧ brngMode d u ≤ 2 ∧ (a = lvlA d u ∨ ((brngOf d u).pinA.take a d.now).since + gf d (BRNG_CFG.FILT u) ≤ d.now) ∧ (b = lvlB d u ∨ ((brngOf d u).pinB.take b d.now).since + gf d (BRNG_CFG.FILT u) ≤ d.now) ∧ (brngOf d u).setAt ≠ some d.now ∧ (brngOf d u).idxAt ≠ some d.now ∧ countOf (brngMode d u) (lvlA d u) (lvlB d u) a b = some n) ∧
    (∃ (s : State) (u : Fin 16) (a : Bool) (b : Bool), let d := s.dev; Calm s ∧ (a = lvlA d u ∨ d.now < ((brngOf d u).pinA.take a d.now).since + gf d (BRNG_CFG.FILT u)) ∧ (b = lvlB d u ∨ d.now < ((brngOf d u).pinB.take b d.now).since + gf d (BRNG_CFG.FILT u))) ∧
    (∃ (s : State) (u : Fin 16) (a : Bool) (b : Bool), let d := s.dev; Calm s ∧ brngOn d u = true ∧ brngMode d u = 0 ∧ lvlA d u ≠ a ∧ lvlB d u ≠ b ∧ (a = lvlA d u ∨ ((brngOf d u).pinA.take a d.now).since + gf d (BRNG_CFG.FILT u) ≤ d.now) ∧ (b = lvlB d u ∨ ((brngOf d u).pinB.take b d.now).since + gf d (BRNG_CFG.FILT u) ≤ d.now)) ∧
    (∃ (s : State) (u : Fin 16), let d := s.dev; Calm s ∧ brngOn d u = true ∧ lvlZ d u = false ∧ gf d (BRNG_CFG.ZMODE u) ≠ 0 ∧ ((brngOf d u).pinZ.take true d.now).since + gf d (BRNG_CFG.FILT u) ≤ d.now) ∧
    (∃ (s : State) (ini : Initiator) (u : Fin 16), Calm s ∧ Open ini (0xC0 + u) s) ∧
    (∃ (s : State) (u : Fin 16) (x : Nat), let d := s.dev; Calm s ∧ d.trigRaw = [] ∧ sampleDue d u = some x ∧ brngMode d u ≠ 3) ∧
    (∃ (s : State) (u : Fin 16) (x : Nat), let d := s.dev; Calm s ∧ d.trigRaw = [] ∧ sampleDue d u = some x ∧ brngMode d u = 3 ∧ gb d (BRNG_STAT.SSIBUSY u) = false) ∧
    (∃ (s : State) (u : Fin 16) (x : SsiFrame) (h : Nat), let d := s.dev; Calm s ∧ brngLive d u = true ∧ brngMode d u = 3 ∧ (brngOf d u).frame = some x ∧ x.startHigh = true ∧ x.low = some true ∧ x.checkAt = some h ∧ lvlB d u = true ∧ h < d.now ∧ d.now ≤ h + gf d (BRNG_SSI.TMONO u) * 128) ∧
    (∃ (s : State) (u : Fin 16), let d := s.dev; Calm s ∧ brngLive d u = true ∧ brngMode d u = 3 ∧ ssiOver d u = some false) ∧
    (∃ (s : State) (u : Fin 16) (level : Bool) (t0 : Word) (k : Nat), let d := s.dev; Calm s ∧ brngLive d u = true ∧ brngMode d u = 4 ∧ lvlA d u ≠ level ∧ ((brngOf d u).pinA.take level d.now).since + gf d (BRNG_CFG.FILT u) ≤ d.now ∧ (bit (rd d (BRNG_PCFG.at u)) (if level then 16 else 17) = true) ∧ (brngOf d u).per = some (t0, k)) ∧
    (∃ (s : State) (u : Fin 16), let d := s.dev; Calm s ∧ perLostDue d u = true) :=
  ⟨⟨(tst [(SYS_MODE.MODE, 2), (FOLIO_CTL.EN 0xC5, 1), (BRNG_CFG.MODE 5, 0), (⟨BRNG_POS.at 5, 35, 0⟩, 77), (⟨BRNG_STAT.at 5, 7, 6⟩, 0), (BRNG_CFG.FILT 5, 0), (BRNG_CPR.CPR 5, 4000)]), (5 : Fin 16), (true : Bool), (false : Bool), (1 : Int), by repeat' first | decide +kernel | rfl | exact True.intro | apply And.intro | constructor | (apply loads_all; decide +kernel) | (apply sram_all; decide +kernel) | (apply loads_two; decide +kernel) | exact fun _ h => nomatch h⟩,
   ⟨(tst [(SYS_MODE.MODE, 2), (FOLIO_CTL.EN 0xC5, 1), (BRNG_CFG.MODE 5, 0), (⟨BRNG_STAT.at 5, 7, 6⟩, 0), (BRNG_CFG.FILT 5, 7)]), (5 : Fin 16), (true : Bool), (false : Bool), by repeat' first | decide +kernel | rfl | exact True.intro | apply And.intro | constructor | (apply loads_all; decide +kernel) | (apply sram_all; decide +kernel) | (apply loads_two; decide +kernel) | exact fun _ h => nomatch h⟩,
   ⟨(tst [(SYS_MODE.MODE, 2), (FOLIO_CTL.EN 0xC5, 1), (BRNG_CFG.MODE 5, 0), (⟨BRNG_STAT.at 5, 7, 6⟩, 0), (BRNG_CFG.FILT 5, 0), (BRNG_CPR.CPR 5, 4000)]), (5 : Fin 16), (true : Bool), (true : Bool), by repeat' first | decide +kernel | rfl | exact True.intro | apply And.intro | constructor | (apply loads_all; decide +kernel) | (apply sram_all; decide +kernel) | (apply loads_two; decide +kernel) | exact fun _ h => nomatch h⟩,
   ⟨(tst [(SYS_MODE.MODE, 2), (FOLIO_CTL.EN 0xC5, 1), (BRNG_CFG.MODE 5, 0), (⟨BRNG_POS.at 5, 35, 0⟩, 77), (⟨BRNG_STAT.at 5, 5, 5⟩, 0), (BRNG_CFG.ZMODE 5, 2), (BRNG_CFG.FILT 5, 0), (BRNG_CPR.CPR 5, 4000)]), (5 : Fin 16), by repeat' first | decide +kernel | rfl | exact True.intro | apply And.intro | constructor | (apply loads_all; decide +kernel) | (apply sram_all; decide +kernel) | (apply loads_two; decide +kernel) | exact fun _ h => nomatch h⟩,
   ⟨(tst [(SYS_MODE.MODE, 1), (BRNG_CPR.CPR 5, 4000)]), (.pcie : Initiator), (5 : Fin 16), by repeat' first | decide +kernel | rfl | exact True.intro | apply And.intro | constructor | (apply loads_all; decide +kernel) | (apply sram_all; decide +kernel) | (apply loads_two; decide +kernel) | exact fun _ h => nomatch h⟩,
   ⟨(tst [(SYS_MODE.MODE, 2), (FOLIO_CTL.EN 0xC5, 1), (BRNG_CFG.MODE 5, 0), (⟨BRNG_POS.at 5, 35, 0⟩, 77), (⟨BRNG_SMP.at 5, 15, 12⟩, 1), (⟨BRNG_SMP.at 5, 35, 20⟩, 8)] fun d => { d with trigDue := [(0x2005, 999990)] }), (5 : Fin 16), (999998 : Nat), by repeat' first | decide +kernel | rfl | exact True.intro | apply And.intro | constructor | (apply loads_all; decide +kernel) | (apply sram_all; decide +kernel) | (apply loads_two; decide +kernel) | exact fun _ h => nomatch h⟩,
   ⟨(tst [(SYS_MODE.MODE, 2), (FOLIO_CTL.EN 0xC5, 1), (BRNG_CFG.MODE 5, 3), (BRNG_STAT.SSIBUSY 5, 0), (BRNG_SSI.LISTEN 5, 0), (⟨BRNG_SMP.at 5, 15, 12⟩, 1), (⟨BRNG_SMP.at 5, 35, 20⟩, 8)] fun d => { d with trigDue := [(0x2005, 999990)] }), (5 : Fin 16), (999998 : Nat), by repeat' first | decide +kernel | rfl | exact True.intro | apply And.intro | constructor | (apply loads_all; decide +kernel) | (apply sram_all; decide +kernel) | (apply loads_two; decide +kernel) | exact fun _ h => nomatch h⟩,
   ⟨(tst [(SYS_MODE.MODE, 2), (FOLIO_CTL.EN 0xC5, 1), (BRNG_CFG.MODE 5, 3), (⟨BRNG_STAT.at 5, 6, 6⟩, 1), (BRNG_SSI.LISTEN 5, 0), (BRNG_SSI.NBITS 5, 12), (BRNG_SSI.GRAY 5, 1), (BRNG_SSI.TMONO 5, 80)] fun d => withBrng d 5 fun x => { x with frame := some ⟨900000, 77, true, 13, 999000, [], 12, 0xABC, some 999900, some true⟩ }), (5 : Fin 16), (⟨900000, 77, true, 13, 999000, [], 12, 0xABC, some 999900, some true⟩ : SsiFrame), (999900 : Nat), by repeat' first | decide +kernel | rfl | exact True.intro | apply And.intro | constructor | (apply loads_all; decide +kernel) | (apply sram_all; decide +kernel) | (apply loads_two; decide +kernel) | exact fun _ h => nomatch h⟩,
   ⟨(tst [(SYS_MODE.MODE, 2), (FOLIO_CTL.EN 0xC5, 1), (BRNG_CFG.MODE 5, 3), (BRNG_SSI.LISTEN 5, 1), (BRNG_SSI.NBITS 5, 12)] fun d => withBrng d 5 fun x => { x with frame := some ⟨900000, 77, true, 13, 999000, [], 12, 0xABC, some 999900, some false⟩ }), (5 : Fin 16), by repeat' first | decide +kernel | rfl | exact True.intro | apply And.intro | constructor | (apply loads_all; decide +kernel) | (apply sram_all; decide +kernel) | (apply loads_two; decide +kernel) | exact fun _ h => nomatch h⟩,
   ⟨(tst [(SYS_MODE.MODE, 2), (FOLIO_CTL.EN 0xC5, 1), (BRNG_CFG.MODE 5, 4), (BRNG_CFG.FILT 5, 0), (⟨BRNG_STAT.at 5, 7, 6⟩, 0), (⟨BRNG_PCFG.at 5, 17, 16⟩, 1)] fun d => withBrng d 5 fun x => { x with per := some (900, 900) }), (5 : Fin 16), (true : Bool), (900 : Word), (900 : Nat), by repeat' first | decide +kernel | rfl | exact True.intro | apply And.intro | constructor | (apply loads_all; decide +kernel) | (apply sram_all; decide +kernel) | (apply loads_two; decide +kernel) | exact fun _ h => nomatch h⟩,
   ⟨(tst [(SYS_MODE.MODE, 2), (FOLIO_CTL.EN 0xC5, 1), (BRNG_CFG.MODE 5, 4), (BRNG_STAT.PER_VALID 5, 1), (BRNG_PCFG.PTO 5, 3)] fun d => withBrng d 5 fun x => { x with per := some (900, 900) }), (5 : Fin 16), by repeat' first | decide +kernel | rfl | exact True.intro | apply And.intro | constructor | (apply loads_all; decide +kernel) | (apply sram_all; decide +kernel) | (apply loads_two; decide +kernel) | exact fun _ h => nomatch h⟩⟩

theorem witness_EngineInputs :
    (∃ (s : State) (e : Fin 64) (n : Fin 4) (a : Arrival), let d := s.dev; Calm s ∧ d.arrivals = [a] ∧ a.eng = e.val ∧ a.lat = n.val ∧ a.tick ≤ d.now) ∧
    (∃ (s : State) (ini : Initiator) (e : Fin 64) (v : Word), Calm s ∧ Open ini (0x80 + e) s ∧ f32Ok (v.setWidth 32) = true) ∧
    (∃ (s : State) (ini : Initiator) (e : Fin 64), Calm s ∧ Open ini (0x80 + e) s) ∧
    (∃ (s : State) (e : Fin 64) (w : Word), let d := s.dev; Calm s ∧ d.galley.setp = [(e.val, w)]) ∧
    (∃ (s : State) (ini : Initiator) (e : Fin 64), Calm s ∧ Open ini (0x80 + e) s) :=
  ⟨⟨(tst [(TRAV_INCFG.REQ 9, 4), (TRAV_STAT.FRESH 9, 4)] fun d => { d with arrivals := [⟨9, 2, 0x3F800000, 77, 1000000, 3⟩] }), (9 : Fin 64), (2 : Fin 4), (⟨9, 2, 0x3F800000, 77, 1000000, 3⟩ : Arrival), by repeat' first | decide +kernel | rfl | exact True.intro | apply And.intro | constructor | (apply loads_all; decide +kernel) | (apply sram_all; decide +kernel) | (apply loads_two; decide +kernel) | exact fun _ h => nomatch h⟩,
   ⟨(tst [(SYS_MODE.MODE, 1), (TRAV_STAT.FRESH 9, 4)]), (.pcie : Initiator), (9 : Fin 64), (0x3F800000 : Word), by repeat' first | decide +kernel | rfl | exact True.intro | apply And.intro | constructor | (apply loads_all; decide +kernel) | (apply sram_all; decide +kernel) | (apply loads_two; decide +kernel) | exact fun _ h => nomatch h⟩,
   ⟨(tst [(SYS_MODE.MODE, 1), (TRAV_STAT.FRESH 9, 2)]), (.pcie : Initiator), (9 : Fin 64), by repeat' first | decide +kernel | rfl | exact True.intro | apply And.intro | constructor | (apply loads_all; decide +kernel) | (apply sram_all; decide +kernel) | (apply loads_two; decide +kernel) | exact fun _ h => nomatch h⟩,
   ⟨(tst [] fun d => withGalley d fun g => { g with setp := [(9, 0x7F800000)] }), (9 : Fin 64), (0x7F800000 : Word), by repeat' first | decide +kernel | rfl | exact True.intro | apply And.intro | constructor | (apply loads_all; decide +kernel) | (apply sram_all; decide +kernel) | (apply loads_two; decide +kernel) | exact fun _ h => nomatch h⟩,
   ⟨(tst [(SYS_MODE.MODE, 1), (TRAV_FESTAT.FET 9, 1), (TRAV_FECNT.CNT 9, 55), (TRAV_FESTAT.COND 9, 1)]), (.pcie : Initiator), (9 : Fin 64), by repeat' first | decide +kernel | rfl | exact True.intro | apply And.intro | constructor | (apply loads_all; decide +kernel) | (apply sram_all; decide +kernel) | (apply loads_two; decide +kernel) | exact fun _ h => nomatch h⟩⟩

theorem witness_EngineUpdates :
    (∃ (s : State) (e : Fin 64) (er : F32) (ist : F32) (w : F32), let d := s.dev; Calm s ∧ travReady d e = true ∧ travState d e = 1 ∧ (travOf d e).stateReq = none ∧ gb d (TRAV_STAT.FIRST e) = false ∧ gb d (TRAV_CFG.DEN e) = false ∧ gf d (TRAV_CFG.FFEN e) = 0 ∧ gb d (TRAV_CFG.NORM e) = false ∧ gb d (TRAV_CFG.AW e) = false ∧ ovst d e = 0 ∧ gf d (TRAV_SPCFG.SRC e) = 0 ∧ f32Lt 0 (coefOf d (TRAV_RATE.at e)) = false ∧ xSub (some (stF d e sUprev)) (some (coefOf d (TRAV_RATE.at e))) ≠ none ∧ xAdd (some (stF d e sUprev)) (some (coefOf d (TRAV_RATE.at e))) ≠ none ∧ gb d (TRAV_OUTCFG.EDGE e) = false ∧ gb d (TRAV_OUTCFG.CASC e) = false ∧ gb d (TRAV_OUTCFG.QEN e) = false ∧ (travOf d e).prevAct = false ∧ xSub (xIn (coefOf d (TRAV_SP.at e))) (xIn (latVal d e (gf d (TRAV_INCFG.YSEL e)))) = some er ∧ ((xAdd (some (stF d e sI)) (xMul (some (coefOf d (TRAV_KI.at e))) (some er))).map (fun x => f32Clamp x (coefOf d (TRAV_IMIN.at e)) (coefOf d (TRAV_IMAX.at e))) = some ist) ∧ xAdd (xAdd (xAdd (xAdd (xAdd (xMul (some (coefOf d (TRAV_KP.at e))) (some er)) (some ist)) (some 0)) (some 0)) (some 0)) (some (coefOf d (TRAV_BIAS.at e))) = some w) ∧
    (∃ (s : State) (e : Fin 64), let d := s.dev; Calm s ∧ travReady d e = true ∧ (travOf d e).stateReq = none ∧ ovst d e = 0 ∧ gf d (TRAV_SPCFG.SRC e) = 0 ∧ f32Finite (latVal d e (gf d (TRAV_INCFG.YSEL e))) = false) ∧
    (∃ (s : State) (e : Fin 64) (u : Upd), let d := s.dev; Calm s ∧ (travOf d e).upd = some u ∧ u.abandoned = false ∧ u.learn = false ∧ d.twin.engPend = [] ∧ d.folio.defer = []) ∧
    (∃ (s : State) (e : Fin 64) (u : Upd), let d := s.dev; Calm s ∧ (travOf d e).upd = some u ∧ u.abandoned = true ∧ d.twin.engPend = [] ∧ d.folio.defer = []) ∧
    (∃ (s : State) (e : Fin 64), let d := s.dev; Calm s ∧ forcedDue d e = true) ∧
    (∃ (s : State) (e : Fin 64), let d := s.dev; Calm s ∧ starveDue d e = true) ∧
    (∃ (s : State) (e : Fin 64), let d := s.dev; Calm s ∧ (travOf d e).zeroFill = true ∧ initWait d .overlay = false) ∧
    (∃ (s : State) (e : Fin 64), let d := s.dev; Calm s ∧ feTripDue d e = true) ∧
    (∃ (s : State) (e : Fin 64), let d := s.dev; Calm s ∧ safeDue d e = true) :=
  ⟨⟨(tst [(SYS_MODE.MODE, 2), (FOLIO_CTL.EN 0x89, 1), (TRAV_STAT.STATE 9, 1), (TRAV_STAT.FIRST 9, 0), (TRAV_CFG.DEN 9, 0), (TRAV_CFG.FFEN 9, 0), (TRAV_CFG.NORM 9, 0), (TRAV_CFG.AW 9, 0), (TRAV_OVSTAT.OVST 9, 0),
      (TRAV_SPCFG.SRC 9, 0), (TRAV_INCFG.REQ 9, 4), (TRAV_INCFG.YSEL 9, 2), (TRAV_STAT.FRESH 9, 4), (⟨TRAV_SP.at 9, 31, 0⟩, 0x40400000), (⟨TRAV_LAT.at 9 2, 31, 0⟩, 0x3F800000), (⟨TRAV_KP.at 9, 31, 0⟩, 0x3F000000), (⟨TRAV_KI.at 9, 31, 0⟩, 0x3E800000),
      (⟨TRAV_IMAX.at 9, 31, 0⟩, 0x42000000), (⟨TRAV_OMAX.at 9, 31, 0⟩, 0x42000000), (⟨TRAV_BIAS.at 9, 31, 0⟩, 0x3F800000), (⟨TRAV_RATE.at 9, 31, 0⟩, 0), (⟨TRAV_IMIN.at 9, 31, 0⟩, 0), (⟨TRAV_OMIN.at 9, 31, 0⟩, 0), (⟨TRAV_STW.at 9 0, 31, 0⟩, 0x3F800000), (⟨TRAV_STW.at 9 3, 31, 0⟩, 0x3F800000),
      (TRAV_OUTCFG.EDGE 9, 0), (TRAV_OUTCFG.CASC 9, 0), (TRAV_OUTCFG.QEN 9, 0)]), (9 : Fin 64), (0x40000000 : F32), (0x3FC00000 : F32), (0x40600000 : F32), by repeat' first | decide +kernel | rfl | exact True.intro | apply And.intro | constructor | (apply loads_all; decide +kernel) | (apply sram_all; decide +kernel) | (apply loads_two; decide +kernel) | exact fun _ h => nomatch h⟩,
   ⟨(tst [(SYS_MODE.MODE, 2), (FOLIO_CTL.EN 0x89, 1), (TRAV_STAT.STATE 9, 1), (TRAV_STAT.FIRST 9, 0), (TRAV_CFG.DEN 9, 0), (TRAV_CFG.FFEN 9, 0), (TRAV_CFG.NORM 9, 0), (TRAV_CFG.AW 9, 0), (TRAV_OVSTAT.OVST 9, 0),
      (TRAV_SPCFG.SRC 9, 0), (TRAV_INCFG.REQ 9, 4), (TRAV_INCFG.YSEL 9, 2), (TRAV_STAT.FRESH 9, 4), (⟨TRAV_SP.at 9, 31, 0⟩, 0x40400000), (⟨TRAV_LAT.at 9 2, 31, 0⟩, 0x7F800000), (⟨TRAV_KP.at 9, 31, 0⟩, 0x3F000000), (⟨TRAV_KI.at 9, 31, 0⟩, 0x3E800000),
      (⟨TRAV_IMAX.at 9, 31, 0⟩, 0x42000000), (⟨TRAV_OMAX.at 9, 31, 0⟩, 0x42000000), (⟨TRAV_BIAS.at 9, 31, 0⟩, 0x3F800000), (⟨TRAV_RATE.at 9, 31, 0⟩, 0), (⟨TRAV_IMIN.at 9, 31, 0⟩, 0), (⟨TRAV_OMIN.at 9, 31, 0⟩, 0), (⟨TRAV_STW.at 9 0, 31, 0⟩, 0x3F800000), (⟨TRAV_STW.at 9 3, 31, 0⟩, 0x3F800000),
      (TRAV_OUTCFG.EDGE 9, 0), (TRAV_OUTCFG.CASC 9, 0), (TRAV_OUTCFG.QEN 9, 0)]), (9 : Fin 64), by repeat' first | decide +kernel | rfl | exact True.intro | apply And.intro | constructor | (apply loads_all; decide +kernel) | (apply sram_all; decide +kernel) | (apply loads_two; decide +kernel) | exact fun _ h => nomatch h⟩,
   ⟨(tst [(TRAV_FECFG.EN 9, 1), (TRAV_STAT.STATE 9, 1)] fun d => withTrav d 9 fun t => { t with upd := some ⟨0x40000000, 0x40600000, false, 0, true, false⟩ }), (9 : Fin 64), (⟨0x40000000, 0x40600000, false, 0, true, false⟩ : Upd), by repeat' first | decide +kernel | rfl | exact True.intro | apply And.intro | constructor | (apply loads_all; decide +kernel) | (apply sram_all; decide +kernel) | (apply loads_two; decide +kernel) | exact fun _ h => nomatch h⟩,
   ⟨(tst [] fun d => withTrav d 9 fun t => { t with upd := some ⟨0, 0, false, 0, false, true⟩ }), (9 : Fin 64), (⟨0, 0, false, 0, false, true⟩ : Upd), by repeat' first | decide +kernel | rfl | exact True.intro | apply And.intro | constructor | (apply loads_all; decide +kernel) | (apply sram_all; decide +kernel) | (apply loads_two; decide +kernel) | exact fun _ h => nomatch h⟩,
   ⟨(tst [(TRAV_STAT.STATE 9, 1), (TRAV_CFG.ALRT 9, 1)] fun d => withTrav d 9 fun t => { t with fAlert := true }), (9 : Fin 64), by repeat' first | decide +kernel | rfl | exact True.intro | apply And.intro | constructor | (apply loads_all; decide +kernel) | (apply sram_all; decide +kernel) | (apply loads_two; decide +kernel) | exact fun _ h => nomatch h⟩,
   ⟨(tst [(TRAV_STAT.STATE 9, 1), (TRAV_STARVE.LIM 9, 3), (TRAV_STAT.STARVED 9, 0)]), (9 : Fin 64), by repeat' first | decide +kernel | rfl | exact True.intro | apply And.intro | constructor | (apply loads_all; decide +kernel) | (apply sram_all; decide +kernel) | (apply loads_two; decide +kernel) | exact fun _ h => nomatch h⟩,
   ⟨(tst [(⟨MEMP_INIT.at, 35, 0⟩, 0xFFFFFFFFF), (TRAV_OVCFG.NM1 9, 3)] fun d => withTrav d 9 fun t => { t with zeroFill := true }), (9 : Fin 64), by repeat' first | decide +kernel | rfl | exact True.intro | apply And.intro | constructor | (apply loads_all; decide +kernel) | (apply sram_all; decide +kernel) | (apply loads_two; decide +kernel) | exact fun _ h => nomatch h⟩,
   ⟨(tst [(TRAV_STAT.STATE 9, 1), (TRAV_FECFG.EN 9, 1), (TRAV_FECFG.TRIP 9, 1), (TRAV_FESTAT.FET 9, 0), (TRAV_FESTAT.COND 9, 1), (TRAV_FETIME.TIME 9, 30)] fun d => withTrav d 9 fun t => { t with feAt := 999000 }), (9 : Fin 64), by repeat' first | decide +kernel | rfl | exact True.intro | apply And.intro | constructor | (apply loads_all; decide +kernel) | (apply sram_all; decide +kernel) | (apply loads_two; decide +kernel) | exact fun _ h => nomatch h⟩,
   ⟨(tst [(TRAV_STAT.STATE 9, 1), (⟨TRAV_SAFEOUT.at 9, 31, 0⟩, 0x3F000000)] fun d => withTrav d 9 fun t => { t with fSafe := true }), (9 : Fin 64), by repeat' first | decide +kernel | rfl | exact True.intro | apply And.intro | constructor | (apply loads_all; decide +kernel) | (apply sram_all; decide +kernel) | (apply loads_two; decide +kernel) | exact fun _ h => nomatch h⟩⟩

theorem witness_EventSources :
    (∃ (s : State) (k : Fin 2048), let d := s.dev; Calm s ∧ mode d ≠ mPark ∧ tabFind d.evc.pulses k = none ∧ filtered d k = true ∧ tabGet false d.evc.prev k = false ∧ (senseOf (srcWord d k) = 1 ∨ senseOf (srcWord d k) = 3 ∨ senseOf (srcWord d k) = 5) ∧ kindOf (srcWord d k) ≠ 0 ∧ evcPend d k = false ∧ evcInsv d k = false) ∧
    (∃ (s : State) (k : Fin 2048), let d := s.dev; Calm s ∧ mode d ≠ mPark ∧ tabFind d.evc.pulses k = none ∧ filtered d k = true ∧ tabGet false d.evc.prev k = false ∧ (senseOf (srcWord d k) = 3 ∨ senseOf (srcWord d k) = 5) ∧ kindOf (srcWord d k) ≠ 0 ∧ evcPend d k = true) ∧
    (∃ (s : State) (k : Fin 2048), let d := s.dev; Calm s ∧ mode d ≠ mPark ∧ tabFind d.evc.pulses k = none ∧ filtered d k = true ∧ tabGet false d.evc.prev k = false ∧ (senseOf (srcWord d k) = 3 ∨ senseOf (srcWord d k) = 5) ∧ kindOf (srcWord d k) ≠ 0 ∧ evcPend d k = false ∧ evcInsv d k = true) ∧
    (∃ (s : State) (k : Fin 2048), let d := s.dev; Calm s ∧ mode d ≠ mPark ∧ tabFind d.evc.pulses k = some d.now ∧ k.val ∉ d.evc.sensed ∧ (filtOn d k = false ∨ filtLen d = 1) ∧ (senseOf (srcWord d k) = 3 ∨ senseOf (srcWord d k) = 5 ∨ senseOf (srcWord d k) = 1) ∧ kindOf (srcWord d k) ≠ 0 ∧ evcPend d k = false ∧ evcInsv d k = false) ∧
    (∃ (s : State) (k : Fin 2048), let d := s.dev; Calm s ∧ filtOn d k = true ∧ mode d ≠ mPark ∧ max (tabGet 0 d.evc.rawSince k) d.evc.filtFrom + filtLen d ≤ d.now + 1) ∧
    (∃ (s : State) (k : Fin 2048), let d := s.dev; Calm s ∧ eventDeliverable d k = true ∧ kindOf (srcWord d k) = 1 ∧ fld (srcWord d k) 5 0 < 48) ∧
    (∃ (s : State) (k : Fin 2048), let d := s.dev; Calm s ∧ eventDeliverable d k = true ∧ kindOf (srcWord d k) = 2 ∧ slotEn d (fld (srcWord d k) 14 12) (fld (srcWord d k) 4 0) = true ∧ fld (srcWord d k) 4 0 ≠ (coreOfDev d (fld (srcWord d k) 14 12)).run ∧ fld (srcWord d k) 4 0 ∉ (coreOfDev d (fld (srcWord d k) 14 12)).ready) ∧
    (∃ (s : State) (k : Fin 2048), let d := s.dev; Calm s ∧ eventDeliverable d k = true ∧ kindOf (srcWord d k) = 4) ∧
    (∃ (s : State) (ini : Initiator) (q : Fin 8) (w : Word), Calm s ∧ Open ini (6 + q) s ∧ badSrcWord w = false) ∧
    (∃ (s : State) (ini : Initiator), let d := s.dev; Calm s ∧ iniServed d ini = true ∧ debugShut d ini = false) ∧
    (∃ (s : State) (ini : Initiator), Calm s ∧ Open ini 0x06 s) ∧
    (∃ (s : State) (ini : Initiator), Calm s ∧ Open ini 0x06 s) ∧
    (∃ (s : State) (ini : Initiator) (q : Fin 8), Calm s ∧ Open ini (6 + q) s) ∧
    (∃ (s : State) (k : Fin 64) (lv : Bool), let d := s.dev; Calm s ∧ mode d = mPark ∧ gbit d (EVC_WAKEEN.EN (k / 32)) (k % 32) = true ∧ gbit d (EVC_WAKEFLG.FLG (k / 32)) (k % 32) = false ∧ tabGet false d.evc.wakePins k ≠ lv ∧ (bit (rd d (EVC_WAKEEDG.at (k / 16))) (2 * (k % 16) + if lv then 0 else 1) = true)) ∧
    (∃ (s : State) (k : Fin 64) (lv : Bool), let d := s.dev; Calm s ∧ mode d = mPark ∧ gb d (EVC_WAKESRC.EN (k % 8)) = true ∧ tabGet false d.evc.wakeLatch (k % 8) = false ∧ (if lv then senseOf (srcWord d (gf d (EVC_WAKESRC.SRC (k % 8)))) ∈ [1, 3, 5] else senseOf (srcWord d (gf d (EVC_WAKESRC.SRC (k % 8)))) ∈ [2, 4, 5])) ∧
    (∃ (s : State), let d := s.dev; Calm s ∧ mode d = mPark ∧ d.rstc.wakeReq = true ∧ d.rstc.phase = .started ∧ d.folio.shadows = [] ∧ d.flash.latchCopies = [] ∧ (d.pace.lowV = 0 ∨ 660 ≤ gf d PACE_TELEM.VMEAS ∨ gb d PACE_STAT.AVS_FAIL = true)) :=
  ⟨⟨(tst [(SYS_MODE.MODE, 2), (TWIN_TEST.GEN, 0), (TWIN_TEST.CHK, 0), (TWIN_INJ.KIND, 0), (SEC_STAT.DBGUNL, 0), (EVC_PEND.PEND 2 3, 0), (EVC_INSV.INSV 2 3, 0)] fun d => withEvc d fun e => { e with words := [(617, 0x620001003)], raw := [(617, true)] }), (617 : Fin 2048), by repeat' first | decide +kernel | rfl | exact True.intro | apply And.intro | constructor | (apply loads_all; decide +kernel) | (apply sram_all; decide +kernel) | (apply loads_two; decide +kernel) | exact fun _ h => nomatch h⟩,
   ⟨(tst [(SYS_MODE.MODE, 2), (TWIN_TEST.GEN, 0), (TWIN_TEST.CHK, 0), (TWIN_INJ.KIND, 0), (SEC_STAT.DBGUNL, 0), (EVC_PEND.PEND 2 3, 512)] fun d => withEvc d fun e => { e with words := [(617, 0x620001003)], raw := [(617, true)] }), (617 : Fin 2048), by repeat' first | decide +kernel | rfl | exact True.intro | apply And.intro | constructor | (apply loads_all; decide +kernel) | (apply sram_all; decide +kernel) | (apply loads_two; decide +kernel) | exact fun _ h => nomatch h⟩,
   ⟨(tst [(SYS_MODE.MODE, 2), (TWIN_TEST.GEN, 0), (TWIN_TEST.CHK, 0), (TWIN_INJ.KIND, 0), (SEC_STAT.DBGUNL, 0), (EVC_PEND.PEND 2 3, 0), (EVC_INSV.INSV 2 3, 512)] fun d => withEvc d fun e => { e with words := [(617, 0x620001003)], raw := [(617, true)] }), (617 : Fin 2048), by repeat' first | decide +kernel | rfl | exact True.intro | apply And.intro | constructor | (apply loads_all; decide +kernel) | (apply sram_all; decide +kernel) | (apply loads_two; decide +kernel) | exact fun _ h => nomatch h⟩,
   ⟨(tst [(SYS_MODE.MODE, 2), (TWIN_TEST.GEN, 0), (TWIN_TEST.CHK, 0), (TWIN_INJ.KIND, 0), (SEC_STAT.DBGUNL, 0), (EVC_PEND.PEND 2 3, 0), (EVC_INSV.INSV 2 3, 0)] fun d => withEvc d fun e => { e with words := [(617, 0x620001003)], pulses := [(617, 1000000)] }), (617 : Fin 2048), by repeat' first | decide +kernel | rfl | exact True.intro | apply And.intro | constructor | (apply loads_all; decide +kernel) | (apply sram_all; decide +kernel) | (apply loads_two; decide +kernel) | exact fun _ h => nomatch h⟩,
   ⟨(tst [(SYS_MODE.MODE, 2), (EVC_GFILT.LEN, 9)] fun d => withEvc d fun e => { e with words := [(617, 0x720001003)], raw := [(617, true)], rawSince := [(617, 999992)] }), (617 : Fin 2048), by repeat' first | decide +kernel | rfl | exact True.intro | apply And.intro | constructor | (apply loads_all; decide +kernel) | (apply sram_all; decide +kernel) | (apply loads_two; decide +kernel) | exact fun _ h => nomatch h⟩,
   ⟨(tst [(SYS_MODE.MODE, 2), (EVC_GATE.GATE, 0), (EVC_PEND.PEND 2 3, 512)] fun d => withEvc d fun e => { e with words := [(617, 0x620001003)] }), (617 : Fin 2048), by repeat' first | decide +kernel | rfl | exact True.intro | apply And.intro | constructor | (apply loads_all; decide +kernel) | (apply sram_all; decide +kernel) | (apply loads_two; decide +kernel) | exact fun _ h => nomatch h⟩,
   ⟨(tst [(SYS_MODE.MODE, 2), (EVC_GATE.GATE, 0), (EVC_PEND.PEND 2 3, 512), (TSC_SLOTCFG.EN 3 7, 1)] fun d => withEvc d fun e => { e with words := [(617, 0x640003007)] }), (617 : Fin 2048), by repeat' first | decide +kernel | rfl | exact True.intro | apply And.intro | constructor | (apply loads_all; decide +kernel) | (apply sram_all; decide +kernel) | (apply loads_two; decide +kernel) | exact fun _ h => nomatch h⟩,
   ⟨(tst [(SYS_MODE.MODE, 2), (EVC_PEND.PEND 2 3, 512)] fun d => withEvc d fun e => { e with words := [(617, 0x680000009)] }), (617 : Fin 2048), by repeat' first | decide +kernel | rfl | exact True.intro | apply And.intro | constructor | (apply loads_all; decide +kernel) | (apply sram_all; decide +kernel) | (apply loads_two; decide +kernel) | exact fun _ h => nomatch h⟩,
   ⟨(tst [(EVC_IDX.INDEX 2, 105), (EVC_IDX.AINC 2, 1), (EVC_PEND.PEND 2 3, 512)]), (.pcie : Initiator), (2 : Fin 8), (0x620001003 : Word), by repeat' first | decide +kernel | rfl | exact True.intro | apply And.intro | constructor | (apply loads_all; decide +kernel) | (apply sram_all; decide +kernel) | (apply loads_two; decide +kernel) | exact fun _ h => nomatch h⟩,
   ⟨(tst [(EVC_IDX.INDEX 2, 255), (EVC_IDX.AINC 2, 1)]), (.pcie : Initiator), by repeat' first | decide +kernel | rfl | exact True.intro | apply And.intro | constructor | (apply loads_all; decide +kernel) | (apply sram_all; decide +kernel) | (apply loads_two; decide +kernel) | exact fun _ h => nomatch h⟩,
   ⟨(tst []), (.pcie : Initiator), by repeat' first | decide +kernel | rfl | exact True.intro | apply And.intro | constructor | (apply loads_all; decide +kernel) | (apply sram_all; decide +kernel) | (apply loads_two; decide +kernel) | exact fun _ h => nomatch h⟩,
   ⟨(tst [(EVC_PEND.PEND 2 3, 0), (EVC_INSV.INSV 2 3, 0)] fun d => withEvc d fun e => { e with words := [(617, 0x620001003)] }), (.pcie : Initiator), by repeat' first | decide +kernel | rfl | exact True.intro | apply And.intro | constructor | (apply loads_all; decide +kernel) | (apply sram_all; decide +kernel) | (apply loads_two; decide +kernel) | exact fun _ h => nomatch h⟩,
   ⟨(tst [(EVC_PEND.PEND 2 3, 0xFFF)]), (.pcie : Initiator), (2 : Fin 8), by repeat' first | decide +kernel | rfl | exact True.intro | apply And.intro | constructor | (apply loads_all; decide +kernel) | (apply sram_all; decide +kernel) | (apply loads_two; decide +kernel) | exact fun _ h => nomatch h⟩,
   ⟨(tst [(SYS_MODE.MODE, 5), (EVC_WAKEEN.EN 1, 0x80), (EVC_WAKEFLG.FLG 1, 0), (⟨EVC_WAKEEDG.at 2, 35, 0⟩, 0x4000)]), (39 : Fin 64), (true : Bool), by repeat' first | decide +kernel | rfl | exact True.intro | apply And.intro | constructor | (apply loads_all; decide +kernel) | (apply sram_all; decide +kernel) | (apply loads_two; decide +kernel) | exact fun _ h => nomatch h⟩,
   ⟨(tst [(SYS_MODE.MODE, 5), (EVC_WAKESRC.EN 3, 1), (EVC_WAKESRC.SRC 3, 617)] fun d => withEvc d fun e => { e with words := [(617, 0x620001003)] }), (3 : Fin 64), (true : Bool), by repeat' first | decide +kernel | rfl | exact True.intro | apply And.intro | constructor | (apply loads_all; decide +kernel) | (apply sram_all; decide +kernel) | (apply loads_two; decide +kernel) | exact fun _ h => nomatch h⟩,
   ⟨(tst [(SYS_MODE.MODE, 5)] fun d => withRstc d fun r => { r with wakeReq := true }), by repeat' first | decide +kernel | rfl | exact True.intro | apply And.intro | constructor | (apply loads_all; decide +kernel) | (apply sram_all; decide +kernel) | (apply loads_two; decide +kernel) | exact fun _ h => nomatch h⟩⟩

theorem witness_Scrubbing :
    (∃ (s : State) (x : Fin 179) (w : Tri) (v : Word), let d := s.dev; s.dev.rstc.req = [] ∧ s.dev.galley.waiters = [] ∧ mode d ≠ mPark ∧ d.rstc.parkEntry = false ∧ d.folio.copies = [(routeKey x, w)] ∧ vote3 w = some v ∧ d.folio.shadows = [] ∧ d.flash.latchCopies = []) ∧
    (∃ (s : State) (x : Fin 179) (w : Tri), let d := s.dev; s.dev.rstc.req = [] ∧ s.dev.galley.waiters = [] ∧ mode d ≠ mPark ∧ d.rstc.parkEntry = false ∧ d.folio.copies = [(routeKey x, w)] ∧ vote3 w = none ∧ d.folio.shadows = [] ∧ d.flash.latchCopies = []) :=
  ⟨⟨(tst [(SYS_MODE.MODE, 2)] fun d => withFolio d fun f => { f with copies := [(routeKey 85, ⟨5, 7, 5⟩)] }), (85 : Fin 179), (⟨5, 7, 5⟩ : Tri), (5 : Word), by repeat' first | decide +kernel | rfl | exact True.intro | apply And.intro | constructor | (apply loads_all; decide +kernel) | (apply sram_all; decide +kernel) | (apply loads_two; decide +kernel) | exact fun _ h => nomatch h⟩,
   ⟨(tst [(SYS_MODE.MODE, 2)] fun d => withFolio d fun f => { f with copies := [(routeKey 85, ⟨5, 7, 6⟩)] }), (85 : Fin 179), (⟨5, 7, 6⟩ : Tri), by repeat' first | decide +kernel | rfl | exact True.intro | apply And.intro | constructor | (apply loads_all; decide +kernel) | (apply sram_all; decide +kernel) | (apply loads_two; decide +kernel) | exact fun _ h => nomatch h⟩⟩

theorem witness_CoreControl :
    (∃ (s : State) (ini : Initiator) (c : Fin 8), let d := s.dev; Calm s ∧ Open ini (0x20 + c) s ∧ (c.val = 0 ∨ mode d ≠ mStart)) ∧
    (∃ (s : State) (ini : Initiator) (c : Fin 8), Calm s ∧ Open ini (0x20 + c) s) ∧
    (∃ (s : State) (c : Fin 8) (b : Nat), let d := s.dev; Calm s ∧ coreReady d c = true ∧ regionOf (some c.val) ((coreOfDev d c).ip / 2) = .sram b ∧ (((coreOfDev d c).fbuf.any fun l => decide (l.addr = (coreOfDev d c).ip / 2 / 4 * 4)) = false) ∧ d.fab.tags = [] ∧ d.fab.waiting = [] ∧ canTag d (2 * c) = true ∧ gb d (CORE_FBCFG.PREF c) = false ∧ bankOff d (.sram b) = false ∧ initWait d (.sram b) = false ∧ substOf d b = false ∧ flawOf s.mem ((coreOfDev d c).ip / 2) = flawZero) ∧
    (∃ (s : State) (c : Fin 8) (x : StoreEntry) (r : List StoreEntry), let d := s.dev; Calm s ∧ (coreOfDev d c).wbuf = x :: r ∧ direct c x.addr = false ∧ canTag d (2 * c + 1) = true ∧ d.fab.tags = [] ∧ d.fab.waiting = []) ∧
    (∃ (s : State) (c : Fin 8) (x : StoreEntry) (r : List StoreEntry), let d := s.dev; Calm s ∧ (coreOfDev d c).wbuf = x :: r ∧ direct c x.addr = true) ∧
    (∃ (s : State) (c : Fin 8) (x : StoreEntry) (r : List StoreEntry), let d := s.dev; Calm s ∧ (coreOfDev d c).issued = x :: r ∧ x.tag = none ∧ x.val2 = none ∧ regionOf (some c.val) x.addr = .dtcm c.val ∧ initWait d (.dtcm c) = false ∧ flawOf s.mem (physAddr c x.addr) = flawZero) ∧
    (∃ (s : State) (c : Fin 8) (e : Exc), let d := s.dev; Calm s ∧ coreRuns d c = true ∧ (coreOfDev d c).excs = [e] ∧ (coreOfDev d c).depth < 4 ∧ ((coreOfDev d c).draining = true → e.vec ≠ 11 ∧ e.vec ≠ 12) ∧ compatOf d = true) ∧
    (∃ (s : State) (c : Fin 8) (e : Exc), let d := s.dev; Calm s ∧ coreRuns d c = true ∧ (coreOfDev d c).excs = [e] ∧ (coreOfDev d c).depth < 4 ∧ ((coreOfDev d c).draining = true → e.vec ≠ 11 ∧ e.vec ≠ 12) ∧ compatOf d = false ∧ 0x110000 ≤ (coreOfDev d c).tsbp.toNat ∧ (coreOfDev d c).tsbp.toNat < 0x117FC1 ∧ s.mem.flaws = []) ∧
    (∃ (s : State) (c : Fin 8) (i : Nat) (p : Nat) (k : Nat) (r : List Nat), let d := s.dev; Calm s ∧ coreRuns d c = true ∧ (coreOfDev d c).excs = [] ∧ (coreOfDev d c).depth < 4 ∧ compatOf d = true ∧ (coreOfDev d c).draining = false ∧ bpDue d c = false ∧ dueLine d c (coreOfDev d c).rp = some (i, p) ∧ lineSources d c i = k :: r) ∧
    (∃ (s : State) (ini : Initiator) (c : Fin 8), let d := s.dev; Calm s ∧ Open ini (pageOf .dbg 0) s ∧ gb d SEC_STAT.DBGUNL = true ∧ (coreOfDev d c).halted = false ∧ gb d (DBG_CTL.MON c) = false) ∧
    (∃ (s : State) (ini : Initiator), let d := s.dev; Calm s ∧ Open ini (pageOf .dbg 0) s ∧ gb d SEC_STAT.DBGUNL = true) ∧
    (∃ (s : State) (ini : Initiator) (c : Fin 8), let d := s.dev; Calm s ∧ Open ini (pageOf .dbg 0) s ∧ gb d SEC_STAT.DBGUNL = true ∧ (coreOfDev d c).halted = true) ∧
    (∃ (s : State) (c : Fin 8), let d := s.dev; Calm s ∧ bpDue d c = true ∧ (coreOfDev d c).excs = [] ∧ (coreOfDev d c).draining = false) :=
  ⟨⟨(tst [(SYS_MODE.MODE, 2)]), (.pcie : Initiator), (3 : Fin 8), by repeat' first | decide +kernel | rfl | exact True.intro | apply And.intro | constructor | (apply loads_all; decide +kernel) | (apply sram_all; decide +kernel) | (apply loads_two; decide +kernel) | exact fun _ h => nomatch h⟩,
   ⟨(tst [(SYS_MODE.MODE, 2), (FOLIO_CTL.EN 0x23, 1)]), (.pcie : Initiator), (3 : Fin 8), by repeat' first | decide +kernel | rfl | exact True.intro | apply And.intro | constructor | (apply loads_all; decide +kernel) | (apply sram_all; decide +kernel) | (apply loads_two; decide +kernel) | exact fun _ h => nomatch h⟩,
   ⟨(tst [(SYS_MODE.MODE, 2), (FOLIO_CTL.EN 0x23, 1), (CORE_FBCFG.PREF 3, 0), (MEMP_INIT.DONE, 0x7FFFFFFFF), (FAB_RETIRE.MODE, 0), (FAB_BANKOFF.OFF, 0)] fun d => withCore (withRstc d fun r => { r with booted := true }) 3 fun k => { k with ctx := { k.ctx with ip := 0x8002468 } }), (3 : Fin 8), (0 : Nat), by repeat' first | decide +kernel | rfl | exact True.intro | apply And.intro | constructor | (apply loads_all; decide +kernel) | (apply sram_all; decide +kernel) | (apply loads_two; decide +kernel) | exact fun _ h => nomatch h⟩,
   ⟨(tst [] fun d => withCore d 3 fun k => { k with wbuf := [⟨0x4001234, BitVec.allOnes 36, 55, none, false, false, 0, 1, false, none, false⟩] }), (3 : Fin 8), (⟨0x4001234, BitVec.allOnes 36, 55, none, false, false, 0, 1, false, none, false⟩ : StoreEntry), ([] : List StoreEntry), by repeat' first | decide +kernel | rfl | exact True.intro | apply And.intro | constructor | (apply loads_all; decide +kernel) | (apply sram_all; decide +kernel) | (apply loads_two; decide +kernel) | exact fun _ h => nomatch h⟩,
   ⟨(tst [] fun d => withCore d 3 fun k => { k with wbuf := [⟨0x110234, BitVec.allOnes 36, 55, none, false, false, 0, 1, false, none, false⟩] }), (3 : Fin 8), (⟨0x110234, BitVec.allOnes 36, 55, none, false, false, 0, 1, false, none, false⟩ : StoreEntry), ([] : List StoreEntry), by repeat' first | decide +kernel | rfl | exact True.intro | apply And.intro | constructor | (apply loads_all; decide +kernel) | (apply sram_all; decide +kernel) | (apply loads_two; decide +kernel) | exact fun _ h => nomatch h⟩,
   ⟨(tst [(MEMP_INIT.DONE, 0x7FFFFFFFF)] fun d => withCore d 3 fun k => { k with issued := [⟨0x110234, BitVec.allOnes 36, 55, none, false, false, 0, 1, false, none, false⟩] }), (3 : Fin 8), (⟨0x110234, BitVec.allOnes 36, 55, none, false, false, 0, 1, false, none, false⟩ : StoreEntry), ([] : List StoreEntry), by repeat' first | decide +kernel | rfl | exact True.intro | apply And.intro | constructor | (apply loads_all; decide +kernel) | (apply sram_all; decide +kernel) | (apply loads_two; decide +kernel) | exact fun _ h => nomatch h⟩,
   ⟨(tst [(SYS_MODE.MODE, 2), (FOLIO_CTL.EN 0x23, 1)] fun d => { withCore (withRstc d fun r => { r with booted := true }) 3 fun k => { k with ctx := { k.ctx with ip := 0x8002468, psw := 7 }, excs := [⟨5, 2, some 0x8002468, none, none, 0, false, false, 0, 0, []⟩] } with latch := [(16, 8)] }), (3 : Fin 8), (⟨5, 2, some 0x8002468, none, none, 0, false, false, 0, 0, []⟩ : Exc), by repeat' first | decide +kernel | rfl | exact True.intro | apply And.intro | constructor | (apply loads_all; decide +kernel) | (apply sram_all; decide +kernel) | (apply loads_two; decide +kernel) | exact fun _ h => nomatch h⟩,
   ⟨(tst [(SYS_MODE.MODE, 2), (FOLIO_CTL.EN 0x23, 1)] fun d => { withCore (withRstc d fun r => { r with booted := true }) 3 fun k => { k with ctx := { k.ctx with ip := 0x8002468, psw := 7 }, excs := [⟨5, 2, some 0x8002468, none, none, 0, false, false, 0, 0, []⟩] } with latch := [] }), (3 : Fin 8), (⟨5, 2, some 0x8002468, none, none, 0, false, false, 0, 0, []⟩ : Exc), by repeat' first | decide +kernel | rfl | exact True.intro | apply And.intro | constructor | (apply loads_all; decide +kernel) | (apply sram_all; decide +kernel) | (apply loads_two; decide +kernel) | exact fun _ h => nomatch h⟩,
   ⟨(tst [(SYS_MODE.MODE, 2), (FOLIO_CTL.EN 0x23, 1), (EVC_PEND.PEND 2 3, 512), (EVC_GATE.GATE, 0), (⟨TSC_IPRI.at 3 0, 35, 0⟩, 0x80)] fun d => { withEvc (withCore (withRstc d fun r => { r with booted := true }) 3 fun k => { k with ctx := { k.ctx with ip := 0x8002468 } }) (fun e => { e with lines := [147], words := [(617, 0x620003003)] }) with latch := [(16, 8)] }), (3 : Fin 8), (3 : Nat), (2 : Nat), (617 : Nat), ([] : List Nat), by repeat' first | decide +kernel | rfl | exact True.intro | apply And.intro | constructor | (apply loads_all; decide +kernel) | (apply sram_all; decide +kernel) | (apply loads_two; decide +kernel) | exact fun _ h => nomatch h⟩,
   ⟨(tst [(SEC_STAT.DBGUNL, 1)]), (.debug : Initiator), (3 : Fin 8), by repeat' first | decide +kernel | rfl | exact True.intro | apply And.intro | constructor | (apply loads_all; decide +kernel) | (apply sram_all; decide +kernel) | (apply loads_two; decide +kernel) | exact fun _ h => nomatch h⟩,
   ⟨(tst [(SEC_STAT.DBGUNL, 1)] fun d => withCore d 3 fun k => { k with halted := true }), (.debug : Initiator), by repeat' first | decide +kernel | rfl | exact True.intro | apply And.intro | constructor | (apply loads_all; decide +kernel) | (apply sram_all; decide +kernel) | (apply loads_two; decide +kernel) | exact fun _ h => nomatch h⟩,
   ⟨(tst [(SEC_STAT.DBGUNL, 1)] fun d => withCore d 3 fun k => { k with halted := true }), (.debug : Initiator), (3 : Fin 8), by repeat' first | decide +kernel | rfl | exact True.intro | apply And.intro | constructor | (apply loads_all; decide +kernel) | (apply sram_all; decide +kernel) | (apply loads_two; decide +kernel) | exact fun _ h => nomatch h⟩,
   ⟨(tst [(SYS_MODE.MODE, 2), (FOLIO_CTL.EN 0x23, 1), (SEC_STAT.DBGUNL, 1), (DBG_CTL.BPEN 3, 2), (DBG_BP.IP 13, 0x8002468)] fun d => withCore (withRstc d fun r => { r with booted := true }) 3 fun k => { k with ctx := { k.ctx with ip := 0x8002468 } }), (3 : Fin 8), by repeat' first | decide +kernel | rfl | exact True.intro | apply And.intro | constructor | (apply loads_all; decide +kernel) | (apply sram_all; decide +kernel) | (apply loads_two; decide +kernel) | exact fun _ h => nomatch h⟩⟩

theorem witness_Tasks :
    (∃ (s : State) (c : Fin 8) (x : Fin 32), let d := s.dev; Calm s ∧ slotEn d c x = true ∧ (x.val ≠ (coreOfDev d c).run ∨ (coreOfDev d c).waiting = true ∨ (coreOfDev d c).inPlace = false) ∧ x.val ∉ (coreOfDev d c).ready) ∧
    (∃ (s : State) (c : Fin 8) (x : Fin 32), let d := s.dev; Calm s ∧ slotEn d c x = true ∧ ((x.val = (coreOfDev d c).run ∧ (coreOfDev d c).waiting = false ∧ (coreOfDev d c).inPlace = true) ∨ (x.val ∈ (coreOfDev d c).ready ∧ x.val ∉ (coreOfDev d c).fresh ∧ (x.val ≠ (coreOfDev d c).run ∨ (coreOfDev d c).waiting = true ∨ (coreOfDev d c).inPlace = false))) ∧ x.val ∉ (coreOfDev d c).pend) ∧
    (∃ (s : State) (c : Fin 8) (x : Fin 32), let d := s.dev; Calm s ∧ slotEn d c x = true ∧ x.val = (coreOfDev d c).run ∧ (coreOfDev d c).waiting = false ∧ (coreOfDev d c).inPlace = true ∧ x.val ∈ (coreOfDev d c).pend) ∧
    (∃ (s : State) (c : Fin 8) (x : Fin 32), let d := s.dev; Calm s ∧ slotEn d c x = false) ∧
    (∃ (s : State) (ini : Initiator) (c : Fin 8), Calm s ∧ Open ini (0x28 + c) s) ∧
    (∃ (s : State) (c : Fin 8) (x : Fin 32) (u : Nat), let d := s.dev; Calm s ∧ tabFind (coreOfDev d c).timers x = some u ∧ u ≤ d.now ∧ mode d ≠ mStart ∧ mode d ≠ mPark) ∧
    (∃ (s : State) (ini : Initiator) (c : Fin 8), Calm s ∧ Open ini (0x28 + c) s) ∧
    (∃ (s : State) (ini : Initiator) (c : Fin 8) (x : Fin 32) (v : Word), let d := s.dev; Calm s ∧ Open ini (0x28 + c) s ∧ fld v 23 22 ≠ 3 ∧ (slotEn d c x = false ∨ fld v 8 0 = gf d (TSC_SLOTCFG.TSBIDX c x))) ∧
    (∃ (s : State) (c : Fin 8), let d := s.dev; Calm s ∧ switchDue d c = true ∧ switchFree d c = true ∧ mode d ≠ mStart ∧ bestReady d c = some (coreOfDev d c).run ∧ (coreOfDev d c).inPlace = true ∧ slotEn d c (coreOfDev d c).run = true) ∧
    (∃ (s : State) (c : Fin 8) (y : Nat) (b : Nat) (b2 : Nat) (x : Ctx), let d := s.dev; Calm s ∧ switchDue d c = true ∧ switchFree d c = true ∧ mode d ≠ mStart ∧ bestReady d c = some y ∧ y ≠ (coreOfDev d c).run ∧ (coreOfDev d c).inPlace = true ∧ slotEn d c (coreOfDev d c).run = true ∧ bankOf d c (coreOfDev d c).run = some b ∧ bankOf d c y = some b2 ∧ tabFind (coreOfDev d c).banks b2 = some x ∧ bit x.psw pswMode = false) ∧
    (∃ (s : State) (c : Fin 8) (y : Nat), let d := s.dev; Calm s ∧ switchDue d c = true ∧ switchFree d c = true ∧ mode d ≠ mStart ∧ bestReady d c = some y ∧ y ≠ (coreOfDev d c).run) ∧
    (∃ (s : State) (c : Fin 8), let d := s.dev; Calm s ∧ gb d (TSC_WDOG.EN c) = true ∧ (coreOfDev d c).wdFrom + 1024 * gf d (TSC_WDOG.TIME c) ≤ d.now) ∧
    (∃ (s : State) (ini : Initiator) (c : Fin 8), Calm s ∧ Open ini (0x28 + c) s) ∧
    (∃ (s : State) (ini : Initiator) (c : Fin 8) (v : Word), Calm s ∧ Open ini (0x28 + c) s ∧ v ≠ 0xA5A5) :=
  ⟨⟨(tst [(TSC_SLOTCFG.EN 3 7, 1)]), (3 : Fin 8), (7 : Fin 32), by repeat' first | decide +kernel | rfl | exact True.intro | apply And.intro | constructor | (apply loads_all; decide +kernel) | (apply sram_all; decide +kernel) | (apply loads_two; decide +kernel) | exact fun _ h => nomatch h⟩,
   ⟨(tst [(TSC_SLOTCFG.EN 3 7, 1)] fun d => withCore d 3 fun k => { k with run := 7 }), (3 : Fin 8), (7 : Fin 32), by repeat' first | decide +kernel | rfl | exact True.intro | apply And.intro | constructor | (apply loads_all; decide +kernel) | (apply sram_all; decide +kernel) | (apply loads_two; decide +kernel) | exact fun _ h => nomatch h⟩,
   ⟨(tst [(TSC_SLOTCFG.EN 3 7, 1)] fun d => withCore d 3 fun k => { k with run := 7, pend := [7] }), (3 : Fin 8), (7 : Fin 32), by repeat' first | decide +kernel | rfl | exact True.intro | apply And.intro | constructor | (apply loads_all; decide +kernel) | (apply sram_all; decide +kernel) | (apply loads_two; decide +kernel) | exact fun _ h => nomatch h⟩,
   ⟨(tst [(TSC_SLOTCFG.EN 3 7, 0)]), (3 : Fin 8), (7 : Fin 32), by repeat' first | decide +kernel | rfl | exact True.intro | apply And.intro | constructor | (apply loads_all; decide +kernel) | (apply sram_all; decide +kernel) | (apply loads_two; decide +kernel) | exact fun _ h => nomatch h⟩,
   ⟨(tst [(TSC_SLOTCFG.EN 3 7, 1), (TSC_SLOTCFG.EN 3 9, 1)]), (.pcie : Initiator), (3 : Fin 8), by repeat' first | decide +kernel | rfl | exact True.intro | apply And.intro | constructor | (apply loads_all; decide +kernel) | (apply sram_all; decide +kernel) | (apply loads_two; decide +kernel) | exact fun _ h => nomatch h⟩,
   ⟨(tst [(SYS_MODE.MODE, 2), (TSC_SLOTCFG.EN 3 7, 1), (TSC_SLOTCFG.ASRC 3 7, 2), (TSC_TMR.PER 3 7, 50), (TSC_TMR.PERIODIC 3 7, 1)] fun d => withCore d 3 fun k => { k with timers := [(7, 999999)] }), (3 : Fin 8), (7 : Fin 32), (999999 : Nat), by repeat' first | decide +kernel | rfl | exact True.intro | apply And.intro | constructor | (apply loads_all; decide +kernel) | (apply sram_all; decide +kernel) | (apply loads_two; decide +kernel) | exact fun _ h => nomatch h⟩,
   ⟨(tst []), (.pcie : Initiator), (3 : Fin 8), by repeat' first | decide +kernel | rfl | exact True.intro | apply And.intro | constructor | (apply loads_all; decide +kernel) | (apply sram_all; decide +kernel) | (apply loads_two; decide +kernel) | exact fun _ h => nomatch h⟩,
   ⟨(tst [(TSC_SLOTCFG.EN 3 7, 1), (TSC_SLOTCFG.TSBIDX 3 7, 5)] fun d => withCore d 3 fun k => { k with ready := [7, 9] }), (.pcie : Initiator), (3 : Fin 8), (7 : Fin 32), (0x000000005 : Word), by repeat' first | decide +kernel | rfl | exact True.intro | apply And.intro | constructor | (apply loads_all; decide +kernel) | (apply sram_all; decide +kernel) | (apply loads_two; decide +kernel) | exact fun _ h => nomatch h⟩,
   ⟨(tst [(SYS_MODE.MODE, 2), (FOLIO_CTL.EN 0x23, 1), (TSC_SLOTCFG.EN 3 7, 1)] fun d => withCore (withRstc d fun r => { r with booted := true }) 3 fun k => { k with run := 7, ready := [7], waiting := true }), (3 : Fin 8), by repeat' first | decide +kernel | rfl | exact True.intro | apply And.intro | constructor | (apply loads_all; decide +kernel) | (apply sram_all; decide +kernel) | (apply loads_two; decide +kernel) | exact fun _ h => nomatch h⟩,
   ⟨(tst [(SYS_MODE.MODE, 2), (FOLIO_CTL.EN 0x23, 1), (TSC_SLOTCFG.EN 3 0, 1), (TSC_SLOTCFG.EN 3 7, 1), (TSC_SLOTCFG.PRI 3 7, 4), (TSC_SLOTCFG.PRI 3 0, 0), (⟨TSC_BANK.at 3, 35, 0⟩, 0x20F00)] fun d => withCore (withRstc d fun r => { r with booted := true }) 3 fun k => { k with ready := [7], banks := [(1, { k.ctx with psw := 5, ip := 77 })] }), (3 : Fin 8), (7 : Nat), (0 : Nat), (1 : Nat), ({ (coreInit 3).ctx with psw := 5, ip := 77 } : Ctx), by repeat' first | decide +kernel | rfl | exact True.intro | apply And.intro | constructor | (apply loads_all; decide +kernel) | (apply sram_all; decide +kernel) | (apply loads_two; decide +kernel) | exact fun _ h => nomatch h⟩,
   ⟨(tst [(SYS_MODE.MODE, 2), (FOLIO_CTL.EN 0x23, 1), (TSC_SLOTCFG.EN 3 0, 1), (TSC_SLOTCFG.EN 3 7, 1), (TSC_SLOTCFG.PRI 3 7, 4), (TSC_SLOTCFG.PRI 3 0, 0), (⟨TSC_BANK.at 3, 35, 0⟩, 0)] fun d => withCore (withRstc d fun r => { r with booted := true }) 3 fun k => { k with ready := [7] }), (3 : Fin 8), (7 : Nat), by repeat' first | decide +kernel | rfl | exact True.intro | apply And.intro | constructor | (apply loads_all; decide +kernel) | (apply sram_all; decide +kernel) | (apply loads_two; decide +kernel) | exact fun _ h => nomatch h⟩,
   ⟨(tst [(TSC_WDOG.EN 3, 1), (TSC_WDOG.TIME 3, 7)] fun d => withCore d 3 fun k => { k with wdOnce := true }), (3 : Fin 8), by repeat' first | decide +kernel | rfl | exact True.intro | apply And.intro | constructor | (apply loads_all; decide +kernel) | (apply sram_all; decide +kernel) | (apply loads_two; decide +kernel) | exact fun _ h => nomatch h⟩,
   ⟨(tst [] fun d => withCore d 3 fun k => { k with wdOnce := true }), (.pcie : Initiator), (3 : Fin 8), by repeat' first | decide +kernel | rfl | exact True.intro | apply And.intro | constructor | (apply loads_all; decide +kernel) | (apply sram_all; decide +kernel) | (apply loads_two; decide +kernel) | exact fun _ h => nomatch h⟩,
   ⟨(tst [] fun d => withCore d 3 fun k => { k with wdOnce := true }), (.pcie : Initiator), (3 : Fin 8), (7 : Word), by repeat' first | decide +kernel | rfl | exact True.intro | apply And.intro | constructor | (apply loads_all; decide +kernel) | (apply sram_all; decide +kernel) | (apply loads_two; decide +kernel) | exact fun _ h => nomatch h⟩⟩

theorem witness_Fabric :
    (∃ (s : State) (h : Nat) (a : Nat), let d := s.dev; Calm s ∧ nextWaiting d = some (h, a)) ∧
    (∃ (s : State), let d := s.dev; Calm s ∧ nextWaiting d = none) ∧
    (∃ (s : State) (n : Nat) (g : TagSt) (c : Fin 8) (x : StoreEntry) (r : List StoreEntry), let d := s.dev; Calm s ∧ tabFind d.fab.tags n = some g ∧ g.zombie = none ∧ g.issued + 16 * gf d FAB_TAGTIMEOUT.TO ≤ d.now ∧ storeOfTag d n = some (c.val, 0) ∧ (coreOfDev d c).issued = x :: r ∧ x.tag = some n ∧ x.orphan = false ∧ x.split = false ∧ (∀ y ∈ r, y.tag ≠ some n)) ∧
    (∃ (s : State) (n : Nat) (g : TagSt) (z : Nat), let d := s.dev; Calm s ∧ tabFind d.fab.tags n = some g ∧ g.zombie = some z) ∧
    (∃ (s : State) (n : Nat) (g : TagSt) (z : Nat), let d := s.dev; Calm s ∧ tabFind d.fab.tags n = some g ∧ g.zombie = some z ∧ z + 16 * gf d FAB_TAGTIMEOUT.TO ≤ d.now) :=
  ⟨⟨(tst [] fun d => withFab d fun f => { f with waiting := [(7, 0x4000010), (3, 0x4000020)], lastGrant := 4 }), (7 : Nat), (0x4000010 : Nat), by repeat' first | decide +kernel | rfl | exact True.intro | apply And.intro | constructor | (apply loads_all; decide +kernel) | (apply sram_all; decide +kernel) | (apply loads_two; decide +kernel) | exact fun _ h => nomatch h⟩,
   ⟨(tst []), by repeat' first | decide +kernel | rfl | exact True.intro | apply And.intro | constructor | (apply loads_all; decide +kernel) | (apply sram_all; decide +kernel) | (apply loads_two; decide +kernel) | exact fun _ h => nomatch h⟩,
   ⟨(tst [(FAB_TAGTIMEOUT.TO, 100)] fun d => withCore (withFab d fun f => { f with tags := [(5, ⟨2 * 3 + 1, 0x4001234, 900000, none, false⟩)] }) 3 fun k => { k with issued := [⟨0x4001234, BitVec.allOnes 36, 55, none, false, false, 0, 1, false, some 5, false⟩] }), (5 : Nat), (⟨2 * 3 + 1, 0x4001234, 900000, none, false⟩ : TagSt), (3 : Fin 8), (⟨0x4001234, BitVec.allOnes 36, 55, none, false, false, 0, 1, false, some 5, false⟩ : StoreEntry), ([] : List StoreEntry), by repeat' first | decide +kernel | rfl | exact True.intro | apply And.intro | constructor | (apply loads_all; decide +kernel) | (apply sram_all; decide +kernel) | (apply loads_two; decide +kernel) | exact fun _ h => nomatch h⟩,
   ⟨(tst [(FAB_STAT.ZOMBIE, 1)] fun d => withFab d fun f => { f with tags := [(5, ⟨7, 0x4001234, 900000, some 950000, false⟩)] }), (5 : Nat), (⟨7, 0x4001234, 900000, some 950000, false⟩ : TagSt), (950000 : Nat), by repeat' first | decide +kernel | rfl | exact True.intro | apply And.intro | constructor | (apply loads_all; decide +kernel) | (apply sram_all; decide +kernel) | (apply loads_two; decide +kernel) | exact fun _ h => nomatch h⟩,
   ⟨(tst [(FAB_STAT.ZOMBIE, 1), (FAB_TAGTIMEOUT.TO, 100)] fun d => withFab d fun f => { f with tags := [(5, ⟨7, 0x4001234, 900000, some 950000, false⟩)] }), (5 : Nat), (⟨7, 0x4001234, 900000, some 950000, false⟩ : TagSt), (950000 : Nat), by repeat' first | decide +kernel | rfl | exact True.intro | apply And.intro | constructor | (apply loads_all; decide +kernel) | (apply sram_all; decide +kernel) | (apply loads_two; decide +kernel) | exact fun _ h => nomatch h⟩⟩

theorem witness_StoredData :
    (∃ (s : State) (k : Fin 35), let d := s.dev; Calm s ∧ d.rstc.phase = .started ∧ gbit d MEMP_INIT.DONE k = false) ∧
    (∃ (s : State) (ini : Initiator), let d := s.dev; Calm s ∧ Open ini 0x0E s ∧ gf d FAB_RETIRE.MODE = 0 ∧ gbit d FAB_BANKOFF.OFF 16 = false) ∧
    (∃ (s : State) (ini : Initiator), let d := s.dev; Calm s ∧ Open ini 0x0E s ∧ gf d FAB_RETIRE.MODE = 1) ∧
    (∃ (s : State) (ini : Initiator) (b : Fin 16), let d := s.dev; Calm s ∧ Open ini 0x0E s ∧ gf d FAB_RETIRE.MODE = 1 ∧ gf d FAB_RETIRE.BANK = b.val) ∧
    (∃ (s : State) (ini : Initiator), let d := s.dev; Calm s ∧ Open ini 0x0E s ∧ gf d FAB_RETIRE.MODE = 2) ∧
    (∃ (s : State) (ini : Initiator), Calm s ∧ Open ini 0x0E s) ∧
    (∃ (s : State) (ini : Initiator) (v : Word) (c : Nat), Calm s ∧ Open ini 0x0F s ∧ regionOf none (fld v 27 3 * 8) = .dtcm c) ∧
    (∃ (s : State) (ini : Initiator) (v : Word), let d := s.dev; Calm s ∧ Open ini 0x0F s ∧ (gf d MEMP_STAT.HEAD + 128 - fld v 6 0) % 128 ≤ 64) :=
  ⟨⟨({ tst [(MEMP_INIT.DONE, 1)] with mem := ⟨[(0x20D0203, 5), (0x20D7FC0, 8), (0x4001201, 9)], []⟩ }), (28 : Fin 35), by repeat' first | decide +kernel | rfl | exact True.intro | apply And.intro | constructor | (apply loads_all; decide +kernel) | (apply sram_all; decide +kernel) | (apply loads_two; decide +kernel) | exact fun _ h => nomatch h⟩,
   ⟨(tst [(FAB_RETIRE.MODE, 0), (FAB_BANKOFF.OFF, 0)]), (.pcie : Initiator), by repeat' first | decide +kernel | rfl | exact True.intro | apply And.intro | constructor | (apply loads_all; decide +kernel) | (apply sram_all; decide +kernel) | (apply loads_two; decide +kernel) | exact fun _ h => nomatch h⟩,
   ⟨(tst [(FAB_RETIRE.MODE, 1), (FAB_RETIRE.BANK, 5)]), (.pcie : Initiator), by repeat' first | decide +kernel | rfl | exact True.intro | apply And.intro | constructor | (apply loads_all; decide +kernel) | (apply sram_all; decide +kernel) | (apply loads_two; decide +kernel) | exact fun _ h => nomatch h⟩,
   ⟨(tst [(FAB_RETIRE.MODE, 1), (FAB_RETIRE.BANK, 5)]), (.pcie : Initiator), (5 : Fin 16), by repeat' first | decide +kernel | rfl | exact True.intro | apply And.intro | constructor | (apply loads_all; decide +kernel) | (apply sram_all; decide +kernel) | (apply loads_two; decide +kernel) | exact fun _ h => nomatch h⟩,
   ⟨(tst [(FAB_RETIRE.MODE, 2), (FAB_RETIRE.BANK, 5)]), (.pcie : Initiator), by repeat' first | decide +kernel | rfl | exact True.intro | apply And.intro | constructor | (apply loads_all; decide +kernel) | (apply sram_all; decide +kernel) | (apply loads_two; decide +kernel) | exact fun _ h => nomatch h⟩,
   ⟨(tst [(FAB_RETIRE.MODE, 1), (FAB_RETIRE.BANK, 5)]), (.pcie : Initiator), by repeat' first | decide +kernel | rfl | exact True.intro | apply And.intro | constructor | (apply loads_all; decide +kernel) | (apply sram_all; decide +kernel) | (apply loads_two; decide +kernel) | exact fun _ h => nomatch h⟩,
   ⟨({ tst [] with mem := ⟨[(0x20D0203, 5), (0x20D020B, 8), (0x4001201, 9)], []⟩ }), (.pcie : Initiator), (0x20D0208 : Word), (3 : Nat), by repeat' first | decide +kernel | rfl | exact True.intro | apply And.intro | constructor | (apply loads_all; decide +kernel) | (apply sram_all; decide +kernel) | (apply loads_two; decide +kernel) | exact fun _ h => nomatch h⟩,
   ⟨(tst [(MEMP_STAT.HEAD, 9)]), (.pcie : Initiator), (5 : Word), by repeat' first | decide +kernel | rfl | exact True.intro | apply And.intro | constructor | (apply loads_all; decide +kernel) | (apply sram_all; decide +kernel) | (apply loads_two; decide +kernel) | exact fun _ h => nomatch h⟩⟩

theorem witness_QueueCommands :
    (∃ (s : State) (ini : Initiator) (q : Fin 32768) (x : QDesc), let d := s.dev; Calm s ∧ Open ini 0x10 s ∧ descOf s q = x ∧ initWait d .galley = false ∧ flawOf s.mem (descAddr q 0) = flawZero ∧ canTag d 17 = true ∧ d.fab.waiting = [] ∧ d.galley.posted = [] ∧ mode d ≠ mPark ∧ enableOk x = true) ∧
    (∃ (s : State) (ini : Initiator) (q : Fin 32768) (x : QDesc), let d := s.dev; Calm s ∧ Open ini 0x10 s ∧ descOf s q = x ∧ initWait d .galley = false ∧ flawOf s.mem (descAddr q 0) = flawZero ∧ canTag d 17 = true ∧ d.fab.waiting = [] ∧ d.galley.posted = [] ∧ mode d ≠ mPark ∧ enableOk x = false) ∧
    (∃ (s : State) (ini : Initiator) (q : Fin 32768) (x : QDesc), let d := s.dev; Calm s ∧ Open ini 0x10 s ∧ descOf s q = x ∧ initWait d .galley = false ∧ flawOf s.mem (descAddr q 0) = flawZero ∧ canTag d 17 = true ∧ d.fab.waiting = [] ∧ d.galley.posted = [] ∧ d.galley.parked = [] ∧ mode d ≠ mPark ∧ x.parOk = true) ∧
    (∃ (s : State) (ini : Initiator) (q : Fin 32768) (x : QDesc), let d := s.dev; Calm s ∧ Open ini 0x10 s ∧ descOf s q = x ∧ initWait d .galley = false ∧ flawOf s.mem (descAddr q 0) = flawZero ∧ canTag d 17 = true ∧ d.fab.waiting = [] ∧ d.galley.posted = [] ∧ mode d ≠ mPark ∧ x.parOk = true ∧ x.en = true ∧ x.faulted = false) ∧
    (∃ (s : State) (ini : Initiator) (q : Fin 32768) (x : QDesc), let d := s.dev; Calm s ∧ Open ini 0x10 s ∧ descOf s q = x ∧ initWait d .galley = false ∧ flawOf s.mem (descAddr q 0) = flawZero ∧ canTag d 17 = true ∧ d.fab.waiting = [] ∧ d.galley.posted = [] ∧ mode d ≠ mPark ∧ x.parOk = true) ∧
    (∃ (s : State) (ini : Initiator) (q : Fin 32768), let d := s.dev; Calm s ∧ iniServed d ini = true ∧ debugShut d ini = false ∧ bit (storedWord s.mem (descAddr q 0)) 35 = false ∧ initWait d .galley = false ∧ flawOf s.mem (descAddr q 0) = flawZero) ∧
    (∃ (s : State) (ini : Initiator) (q : Fin 32768), let d := s.dev; Calm s ∧ iniServed d ini = true ∧ debugShut d ini = false ∧ bit (storedWord s.mem (descAddr q 0)) 35 = true ∧ flawOf s.mem (descAddr q 0) = flawZero) :=
  ⟨⟨({ tst [(MEMP_INIT.DONE, 0x7FFFFFFFF), (SYS_MODE.MODE, 2), (FAB_RETIRE.MODE, 0), (FAB_BANKOFF.OFF, 0)] with mem := memOf (descAt 5 ((⟨0x020000100, 0x0E0007, 0, 0x200000⟩ : QDesc).fixPar)) }), (.pcie : Initiator), (5 : Fin 32768), ((⟨0x020000100, 0x0E0007, 0, 0x200000⟩ : QDesc).fixPar : QDesc), by repeat' first | decide +kernel | rfl | exact True.intro | apply And.intro | constructor | (apply loads_all; decide +kernel) | (apply sram_all; decide +kernel) | (apply loads_two; decide +kernel) | exact fun _ h => nomatch h⟩,
   ⟨({ tst [(MEMP_INIT.DONE, 0x7FFFFFFFF), (SYS_MODE.MODE, 2), (FAB_RETIRE.MODE, 0), (FAB_BANKOFF.OFF, 0)] with mem := memOf (descAt 5 ((⟨0x820000100, 0x120007, 0, 0⟩ : QDesc).fixPar)) }), (.pcie : Initiator), (5 : Fin 32768), ((⟨0x820000100, 0x120007, 0, 0⟩ : QDesc).fixPar : QDesc), by repeat' first | decide +kernel | rfl | exact True.intro | apply And.intro | constructor | (apply loads_all; decide +kernel) | (apply sram_all; decide +kernel) | (apply loads_two; decide +kernel) | exact fun _ h => nomatch h⟩,
   ⟨({ tst [(MEMP_INIT.DONE, 0x7FFFFFFFF), (SYS_MODE.MODE, 2), (FAB_RETIRE.MODE, 0), (FAB_BANKOFF.OFF, 0)] with mem := memOf (descAt 5 ((⟨0x820000100, 0x120007, 0, 0⟩ : QDesc).fixPar)) }), (.pcie : Initiator), (5 : Fin 32768), ((⟨0x820000100, 0x120007, 0, 0⟩ : QDesc).fixPar : QDesc), by repeat' first | decide +kernel | rfl | exact True.intro | apply And.intro | constructor | (apply loads_all; decide +kernel) | (apply sram_all; decide +kernel) | (apply loads_two; decide +kernel) | exact fun _ h => nomatch h⟩,
   ⟨({ tst [(MEMP_INIT.DONE, 0x7FFFFFFFF), (SYS_MODE.MODE, 2), (FAB_RETIRE.MODE, 0), (FAB_BANKOFF.OFF, 0)] with mem := memOf (descAt 5 ((⟨0x820000100, 0x120007, 0, 0⟩ : QDesc).fixPar)) }), (.pcie : Initiator), (5 : Fin 32768), ((⟨0x820000100, 0x120007, 0, 0⟩ : QDesc).fixPar : QDesc), by repeat' first | decide +kernel | rfl | exact True.intro | apply And.intro | constructor | (apply loads_all; decide +kernel) | (apply sram_all; decide +kernel) | (apply loads_two; decide +kernel) | exact fun _ h => nomatch h⟩,
   ⟨({ tst [(MEMP_INIT.DONE, 0x7FFFFFFFF), (SYS_MODE.MODE, 2), (FAB_RETIRE.MODE, 0), (FAB_BANKOFF.OFF, 0)] with mem := memOf (descAt 5 ((⟨0x820000100, 0x120007, 0, 0⟩ : QDesc).fixPar)) }), (.pcie : Initiator), (5 : Fin 32768), ((⟨0x820000100, 0x120007, 0, 0⟩ : QDesc).fixPar : QDesc), by repeat' first | decide +kernel | rfl | exact True.intro | apply And.intro | constructor | (apply loads_all; decide +kernel) | (apply sram_all; decide +kernel) | (apply loads_two; decide +kernel) | exact fun _ h => nomatch h⟩,
   ⟨({ tst [(MEMP_INIT.DONE, 0x7FFFFFFFF), (SYS_MODE.MODE, 2), (FAB_RETIRE.MODE, 0), (FAB_BANKOFF.OFF, 0)] with mem := memOf (descAt 5 ((⟨0x020000100, 0x0E0007, 0, 0x200000⟩ : QDesc).fixPar)) }), (.pcie : Initiator), (5 : Fin 32768), by repeat' first | decide +kernel | rfl | exact True.intro | apply And.intro | constructor | (apply loads_all; decide +kernel) | (apply sram_all; decide +kernel) | (apply loads_two; decide +kernel) | exact fun _ h => nomatch h⟩,
   ⟨({ tst [(MEMP_INIT.DONE, 0x7FFFFFFFF), (SYS_MODE.MODE, 2), (FAB_RETIRE.MODE, 0), (FAB_BANKOFF.OFF, 0)] with mem := memOf (descAt 5 ((⟨0x820000100, 0x120007, 0, 0⟩ : QDesc).fixPar)) }), (.pcie : Initiator), (5 : Fin 32768), by repeat' first | decide +kernel | rfl | exact True.intro | apply And.intro | constructor | (apply loads_all; decide +kernel) | (apply sram_all; decide +kernel) | (apply loads_two; decide +kernel) | exact fun _ h => nomatch h⟩⟩

theorem witness_QueueMoves :
    (∃ (s : State) (p : Producer) (o : Offer) (x : QDesc), let d := s.dev; s.dev.rstc.req = [] ∧ s.dev.folio.copies = [] ∧ d.offers = [o] ∧ o.producer = producerKey p ∧ d.galley.posted = [] ∧ Serving s o.queue x ∧ x.fill + o.words.length ≤ x.size ∧ o.queue < 32768 ∧ d.galley.waiters = []) ∧
    (∃ (s : State) (p : Producer) (o : Offer) (x : QDesc), let d := s.dev; s.dev.rstc.req = [] ∧ s.dev.folio.copies = [] ∧ d.offers = [o] ∧ o.producer = producerKey p ∧ d.galley.posted = [] ∧ Serving s o.queue x ∧ x.size < x.fill + o.words.length ∧ x.pol ≠ 1 ∧ o.queue < 32768 ∧ d.galley.waiters = []) ∧
    (∃ (s : State) (q : Fin 32768) (p : QPost) (x : QDesc), let d := s.dev; s.dev.rstc.req = [] ∧ s.dev.folio.copies = [] ∧ d.galley.posted = [p] ∧ p.queue = q.val ∧ d.galley.cmds = [] ∧ Serving s q x ∧ d.galley.waiters = []) ∧
    (∃ (s : State) (e : Fin 64) (q : Nat) (x : QDesc), let d := s.dev; s.dev.rstc.req = [] ∧ s.dev.folio.copies = [] ∧ takerWants d e = some q ∧ canTag d (18 + e / 4) = true ∧ q < 32768 ∧ d.galley.parked = [] ∧ d.galley.posted = [] ∧ Serving s q x ∧ x.fill ≠ 0 ∧ d.galley.waiters = []) ∧
    (∃ (s : State) (k : Taker) (q : Nat) (x : QDesc), let d := s.dev; s.dev.rstc.req = [] ∧ s.dev.folio.copies = [] ∧ takerWants d (takerKey k) = some q ∧ (takerKey k < 64 → canTag d (18 + takerKey k / 4) = true) ∧ q < 32768 ∧ d.galley.parked = [] ∧ d.galley.posted = [] ∧ Serving s q x ∧ x.fill = 0 ∧ d.galley.waiters = []) ∧
    (∃ (s : State) (q : Fin 32768) (e : Nat) (x : QDesc), let d := s.dev; s.dev.rstc.req = [] ∧ s.dev.folio.copies = [] ∧ d.galley.parked = [(e, q.val)] ∧ e < 64 ∧ d.galley.posted = [] ∧ Serving s q x ∧ x.fill ≠ 0 ∧ d.galley.waiters = []) ∧
    (∃ (s : State) (q : Fin 32768) (w : QWait) (x : QDesc), let d := s.dev; s.dev.rstc.req = [] ∧ s.dev.folio.copies = [] ∧ d.galley.waiters = [w] ∧ d.rstc.parkEntry = false ∧ w.who < 8 ∧ w.queue = q.val ∧ waiterValid d w = true ∧ d.galley.posted = [] ∧ d.galley.cmds = [] ∧ Serving s q x ∧ x.fill < x.size) :=
  ⟨⟨({ tst [(MEMP_INIT.DONE, 0x7FFFFFFFF), (SYS_MODE.MODE, 2), (FAB_RETIRE.MODE, 0), (FAB_BANKOFF.OFF, 0)] fun d => { d with offers := [⟨27, 5, [77, 88]⟩] } with mem := memOf (descAt 5 ((⟨0x820000100, 0x120007, 0, 0⟩ : QDesc).fixPar)) }), (.sdf 3 : Producer), (⟨27, 5, [77, 88]⟩ : Offer), ((⟨0x820000100, 0x120007, 0, 0⟩ : QDesc).fixPar : QDesc), by repeat' first | decide +kernel | rfl | exact True.intro | apply And.intro | constructor | (apply loads_all; decide +kernel) | (apply sram_all; decide +kernel) | (apply loads_two; decide +kernel) | exact fun _ h => nomatch h⟩,
   ⟨({ tst [(MEMP_INIT.DONE, 0x7FFFFFFFF), (SYS_MODE.MODE, 2), (FAB_RETIRE.MODE, 0), (FAB_BANKOFF.OFF, 0)] fun d => { d with offers := [⟨27, 5, [77, 88]⟩] } with mem := memOf (descAt 5 ((⟨0x820000100, 0x2E0007, 0, 0⟩ : QDesc).fixPar)) }), (.sdf 3 : Producer), (⟨27, 5, [77, 88]⟩ : Offer), ((⟨0x820000100, 0x2E0007, 0, 0⟩ : QDesc).fixPar : QDesc), by repeat' first | decide +kernel | rfl | exact True.intro | apply And.intro | constructor | (apply loads_all; decide +kernel) | (apply sram_all; decide +kernel) | (apply loads_two; decide +kernel) | exact fun _ h => nomatch h⟩,
   ⟨({ tst [(MEMP_INIT.DONE, 0x7FFFFFFFF), (SYS_MODE.MODE, 2), (FAB_RETIRE.MODE, 0), (FAB_BANKOFF.OFF, 0)] fun d => withGalley d fun g => { g with posted := [⟨5, 2, 2, 40, none⟩] } with mem := memOf (descAt 5 ((⟨0x820000100, 0x120007, 0, 0⟩ : QDesc).fixPar)) }), (5 : Fin 32768), (⟨5, 2, 2, 40, none⟩ : QPost), ((⟨0x820000100, 0x120007, 0, 0⟩ : QDesc).fixPar : QDesc), by repeat' first | decide +kernel | rfl | exact True.intro | apply And.intro | constructor | (apply loads_all; decide +kernel) | (apply sram_all; decide +kernel) | (apply loads_two; decide +kernel) | exact fun _ h => nomatch h⟩,
   ⟨({ tst [(MEMP_INIT.DONE, 0x7FFFFFFFF), (SYS_MODE.MODE, 2), (FAB_RETIRE.MODE, 0), (FAB_BANKOFF.OFF, 0), (FOLIO_CTL.EN 0x89, 1), (TRAV_SPCFG.SRC 9, 2), (TRAV_SPCFG.QUEUE 9, 5)] with mem := memOf (descAt 5 ((⟨0x820000100, 0x120007, 0, 0⟩ : QDesc).fixPar) ++ [(0x4000107, 77)]) }), (9 : Fin 64), (5 : Nat), ((⟨0x820000100, 0x120007, 0, 0⟩ : QDesc).fixPar : QDesc), by repeat' first | decide +kernel | rfl | exact True.intro | apply And.intro | constructor | (apply loads_all; decide +kernel) | (apply sram_all; decide +kernel) | (apply loads_two; decide +kernel) | exact fun _ h => nomatch h⟩,
   ⟨({ tst [(MEMP_INIT.DONE, 0x7FFFFFFFF), (SYS_MODE.MODE, 2), (FAB_RETIRE.MODE, 0), (FAB_BANKOFF.OFF, 0), (FOLIO_CTL.EN 0x89, 1), (TRAV_SPCFG.SRC 9, 2), (TRAV_SPCFG.QUEUE 9, 5)] with mem := memOf (descAt 5 ((⟨0x820000100, 0x0E0007, 0, 0⟩ : QDesc).fixPar)) }), (.trav 9 : Taker), (5 : Nat), ((⟨0x820000100, 0x0E0007, 0, 0⟩ : QDesc).fixPar : QDesc), by repeat' first | decide +kernel | rfl | exact True.intro | apply And.intro | constructor | (apply loads_all; decide +kernel) | (apply sram_all; decide +kernel) | (apply loads_two; decide +kernel) | exact fun _ h => nomatch h⟩,
   ⟨({ tst [(MEMP_INIT.DONE, 0x7FFFFFFFF), (SYS_MODE.MODE, 2), (FAB_RETIRE.MODE, 0), (FAB_BANKOFF.OFF, 0)] fun d => withGalley d fun g => { g with parked := [(9, 5)] } with mem := memOf (descAt 5 ((⟨0x820000100, 0x120007, 0, 0⟩ : QDesc).fixPar) ++ [(0x4000107, 77)]) }), (5 : Fin 32768), (9 : Nat), ((⟨0x820000100, 0x120007, 0, 0⟩ : QDesc).fixPar : QDesc), by repeat' first | decide +kernel | rfl | exact True.intro | apply And.intro | constructor | (apply loads_all; decide +kernel) | (apply sram_all; decide +kernel) | (apply loads_two; decide +kernel) | exact fun _ h => nomatch h⟩,
   ⟨({ tst [(MEMP_INIT.DONE, 0x7FFFFFFFF), (SYS_MODE.MODE, 2), (FAB_RETIRE.MODE, 0), (FAB_BANKOFF.OFF, 0), (FOLIO_CTL.EN 0x23, 1)] fun d => withGalley (withCore (withRstc d fun r => { r with booted := true }) 3 fun k => { k with ctx := { k.ctx with ip := 0x8002468, psw := 2 } }) fun g => { g with waiters := [⟨5, 3, 66, 0x8002468, 0, 0⟩] } with mem := memOf (descAt 5 ((⟨0x820000100, 0x120007, 0, 0⟩ : QDesc).fixPar)) }), (5 : Fin 32768), (⟨5, 3, 66, 0x8002468, 0, 0⟩ : QWait), ((⟨0x820000100, 0x120007, 0, 0⟩ : QDesc).fixPar : QDesc), by repeat' first | decide +kernel | rfl | exact True.intro | apply And.intro | constructor | (apply loads_all; decide +kernel) | (apply sram_all; decide +kernel) | (apply loads_two; decide +kernel) | exact fun _ h => nomatch h⟩⟩

theorem witness_PressChannels :
    (∃ (s : State) (ini : Initiator) (ch : Fin 128), let d := s.dev; Calm s ∧ Open ini (0xD0 + ch / 16) s ∧ (chState d ch = 0 ∨ chState d ch = 4 ∨ chState d ch = 5) ∧ gb d PRESS_HALT.HALT = false ∧ gf d (PRESS_CHPTR.SLIP (ch / 16) (ch % 16)) % 8 = 0) ∧
    (∃ (s : State) (ch : Fin 128), let d := s.dev; Calm s ∧ mode d ≠ mPark ∧ (pressOf d ch).slip ≠ [] ∧ slipMode (pressOf d ch) ≠ 0 ∧ chState d ch = 2) ∧
    (∃ (s : State) (ch : Fin 128), let d := s.dev; Calm s ∧ mode d ≠ mPark ∧ ((pressOf d ch).slip = [] ∨ slipMode (pressOf d ch) ≠ 0) ∧ chState d ch ≠ 2) ∧
    (∃ (s : State) (ini : Initiator) (ch : Fin 128), let d := s.dev; Calm s ∧ Open ini (0xD0 + ch / 16) s ∧ mode d ≠ mPark ∧ (pressOf d ch).slip = [] ∧ chState d ch ≠ 2 ∧ chTpend d ch = false) ∧
    (∃ (s : State) (ini : Initiator) (ch : Fin 128), let d := s.dev; Calm s ∧ Open ini (0xD0 + ch / 16) s ∧ chState d ch < 6) ∧
    (∃ (s : State) (ch : Fin 128), let d := s.dev; Calm s ∧ chState d ch = 3 ∧ (pressOf d ch).slip ≠ [] ∧ slipTotal (pressOf d ch) ≤ (pressOf d ch).moved ∧ pressRuns d = true) ∧
    (∃ (s : State) (c : Nat) (a : Nat), let d := s.dev; Calm s ∧ d.pressErr = some (c, a)) ∧
    (∃ (s : State) (ini : Initiator), Calm s ∧ Open ini 0xD0 s) ∧
    (∃ (s : State) (ch : Fin 128) (ws : List Word), let d := s.dev; Calm s ∧ chState d ch = 1 ∧ pressRuns d = true ∧ SramWord s (gf d (PRESS_CHPTR.SLIP (ch / 16) (ch % 16))) ∧ gf d (PRESS_CHPTR.SLIP (ch / 16) (ch % 16)) % 8 = 0 ∧ s.mem.flaws = [] ∧ d.fab.tags = [] ∧ d.fab.waiting = [] ∧ canTag d 16 = true ∧ (ws = (upTo 8).map (fun i => storedWord s.mem (gf d (PRESS_CHPTR.SLIP (ch / 16) (ch % 16)) + i))) ∧ slipBad ws = false) ∧
    (∃ (s : State) (ch : Fin 128), let d := s.dev; Calm s ∧ chState d ch = 1 ∧ pressRuns d = true ∧ SramWord s (gf d (PRESS_CHPTR.SLIP (ch / 16) (ch % 16))) ∧ gf d (PRESS_CHPTR.SLIP (ch / 16) (ch % 16)) % 8 = 0 ∧ s.mem.flaws = [] ∧ d.fab.tags = [] ∧ d.fab.waiting = [] ∧ canTag d 16 = true ∧ (slipBad ((upTo 8).map (fun i => storedWord s.mem (gf d (PRESS_CHPTR.SLIP (ch / 16) (ch % 16)) + i))) = true)) ∧
    (∃ (s : State) (ch : Fin 128) (a : Nat) (b : Nat), let d := s.dev; Calm s ∧ chState d ch = 3 ∧ pressRuns d = true ∧ (pressOf d ch).slip ≠ [] ∧ (pressOf d ch).hand = [] ∧ (pressOf d ch).moved < (pressOf d ch).credit ∧ bit (slipWord (pressOf d ch) 0) 35 = false ∧ bit (slipWord (pressOf d ch) 1) 35 = false ∧ slipDouble (pressOf d ch) = false ∧ slipAddr (slipWord (pressOf d ch) 0) (slipWord (pressOf d ch) 2) (slipWord (pressOf d ch) 3) (pressOf d ch).moved = a ∧ slipAddr (slipWord (pressOf d ch) 1) (slipWord (pressOf d ch) 4) (slipWord (pressOf d ch) 5) (pressOf d ch).moved = b ∧ SramWord s a ∧ SramWord s b ∧ s.mem.flaws = [] ∧ d.fab.tags = [] ∧ d.fab.waiting = [] ∧ canTag d 16 = true) :=
  ⟨⟨(tst [(SYS_MODE.MODE, 2), (PRESS_HALT.HALT, 0), (MEMP_INIT.DONE, 0x7FFFFFFFF), (FAB_RETIRE.MODE, 0), (FAB_BANKOFF.OFF, 0), (PRESS_CHSTAT.STATE 2 5, 0), (PRESS_CHPTR.SLIP 2 5, 0x4000400)]), (.pcie : Initiator), (37 : Fin 128), by repeat' first | decide +kernel | rfl | exact True.intro | apply And.intro | constructor | (apply loads_all; decide +kernel) | (apply sram_all; decide +kernel) | (apply loads_two; decide +kernel) | exact fun _ h => nomatch h⟩,
   ⟨(tst [(SYS_MODE.MODE, 2), (PRESS_HALT.HALT, 0), (MEMP_INIT.DONE, 0x7FFFFFFFF), (FAB_RETIRE.MODE, 0), (FAB_BANKOFF.OFF, 0), (PRESS_CHSTAT.STATE 2 5, 2)] fun d => withPress d 37 fun _ => ⟨[0x4000200, 0x4000300, 0x100004, 0, 0x100004, 0, 0x800000000, 0x4000408], 4, 4, []⟩), (37 : Fin 128), by repeat' first | decide +kernel | rfl | exact True.intro | apply And.intro | constructor | (apply loads_all; decide +kernel) | (apply sram_all; decide +kernel) | (apply loads_two; decide +kernel) | exact fun _ h => nomatch h⟩,
   ⟨(tst [(SYS_MODE.MODE, 2), (PRESS_HALT.HALT, 0), (MEMP_INIT.DONE, 0x7FFFFFFFF), (FAB_RETIRE.MODE, 0), (FAB_BANKOFF.OFF, 0), (PRESS_CHSTAT.STATE 2 5, 1), (PRESS_CHSTAT.TPEND 2 5, 1)]), (37 : Fin 128), by repeat' first | decide +kernel | rfl | exact True.intro | apply And.intro | constructor | (apply loads_all; decide +kernel) | (apply sram_all; decide +kernel) | (apply loads_two; decide +kernel) | exact fun _ h => nomatch h⟩,
   ⟨(tst [(SYS_MODE.MODE, 2), (PRESS_HALT.HALT, 0), (MEMP_INIT.DONE, 0x7FFFFFFFF), (FAB_RETIRE.MODE, 0), (FAB_BANKOFF.OFF, 0), (PRESS_CHSTAT.STATE 2 5, 1), (PRESS_CHSTAT.TPEND 2 5, 0)]), (.pcie : Initiator), (37 : Fin 128), by repeat' first | decide +kernel | rfl | exact True.intro | apply And.intro | constructor | (apply loads_all; decide +kernel) | (apply sram_all; decide +kernel) | (apply loads_two; decide +kernel) | exact fun _ h => nomatch h⟩,
   ⟨(tst [(SYS_MODE.MODE, 2), (PRESS_HALT.HALT, 0), (MEMP_INIT.DONE, 0x7FFFFFFFF), (FAB_RETIRE.MODE, 0), (FAB_BANKOFF.OFF, 0), (PRESS_CHSTAT.STATE 2 5, 3)] fun d => withPress d 37 fun _ => ⟨[0x4000200, 0x4000300, 0x100004, 0, 0x100004, 0, 0, 0x4000408], 4, 16, []⟩), (.pcie : Initiator), (37 : Fin 128), by repeat' first | decide +kernel | rfl | exact True.intro | apply And.intro | constructor | (apply loads_all; decide +kernel) | (apply sram_all; decide +kernel) | (apply loads_two; decide +kernel) | exact fun _ h => nomatch h⟩,
   ⟨(tst [(SYS_MODE.MODE, 2), (PRESS_HALT.HALT, 0), (MEMP_INIT.DONE, 0x7FFFFFFFF), (FAB_RETIRE.MODE, 0), (FAB_BANKOFF.OFF, 0), (PRESS_CHSTAT.STATE 2 5, 3), (PRESS_CHSTAT.STOPREQ 2 5, 0)] fun d => withPress d 37 fun _ => ⟨[0x4000200, 0x4000300, 0x100004, 0, 0x100004, 0, 0x80000000, 0x4000408], 16, 16, []⟩), (37 : Fin 128), by repeat' first | decide +kernel | rfl | exact True.intro | apply And.intro | constructor | (apply loads_all; decide +kernel) | (apply sram_all; decide +kernel) | (apply loads_two; decide +kernel) | exact fun _ h => nomatch h⟩,
   ⟨(tst [(SYS_MODE.MODE, 2), (PRESS_HALT.HALT, 0), (MEMP_INIT.DONE, 0x7FFFFFFFF), (FAB_RETIRE.MODE, 0), (FAB_BANKOFF.OFF, 0), (PRESS_CHSTAT.STATE 2 5, 3), (PRESS_CHSTAT.STATE 3 0, 4)] fun d => { d with pressErr := some (2, 0x4000777) }), (2 : Nat), (0x4000777 : Nat), by repeat' first | decide +kernel | rfl | exact True.intro | apply And.intro | constructor | (apply loads_all; decide +kernel) | (apply sram_all; decide +kernel) | (apply loads_two; decide +kernel) | exact fun _ h => nomatch h⟩,
   ⟨(tst [(PRESS_HALT.HALT, 1), (PRESS_GCTL.HEN, 1)]), (.pcie : Initiator), by repeat' first | decide +kernel | rfl | exact True.intro | apply And.intro | constructor | (apply loads_all; decide +kernel) | (apply sram_all; decide +kernel) | (apply loads_two; decide +kernel) | exact fun _ h => nomatch h⟩,
   ⟨({ tst [(SYS_MODE.MODE, 2), (PRESS_HALT.HALT, 0), (MEMP_INIT.DONE, 0x7FFFFFFFF), (FAB_RETIRE.MODE, 0), (FAB_BANKOFF.OFF, 0), (PRESS_CHSTAT.STATE 2 5, 1), (PRESS_CHPTR.SLIP 2 5, 0x4000400)] with mem := memOf [(0x4000400, 0x4000200), (0x4000401, 0x4000300), (0x4000402, 0x100004), (0x4000404, 0x100004), (0x4000406, 0x400000000)] }), (37 : Fin 128), ([0x4000200, 0x4000300, 0x100004, 0, 0x100004, 0, 0x400000000, 0] : List Word), by repeat' first | decide +kernel | rfl | exact True.intro | apply And.intro | constructor | (apply loads_all; decide +kernel) | (apply sram_all; decide +kernel) | (apply loads_two; decide +kernel) | exact fun _ h => nomatch h⟩,
   ⟨({ tst [(SYS_MODE.MODE, 2), (PRESS_HALT.HALT, 0), (MEMP_INIT.DONE, 0x7FFFFFFFF), (FAB_RETIRE.MODE, 0), (FAB_BANKOFF.OFF, 0), (PRESS_CHSTAT.STATE 2 5, 1), (PRESS_CHPTR.SLIP 2 5, 0x4000400)] with mem := memOf [(0x4000400, 0x4000200)] }), (37 : Fin 128), by repeat' first | decide +kernel | rfl | exact True.intro | apply And.intro | constructor | (apply loads_all; decide +kernel) | (apply sram_all; decide +kernel) | (apply loads_two; decide +kernel) | exact fun _ h => nomatch h⟩,
   ⟨({ (tst [(SYS_MODE.MODE, 2), (PRESS_HALT.HALT, 0), (MEMP_INIT.DONE, 0x7FFFFFFFF), (FAB_RETIRE.MODE, 0), (FAB_BANKOFF.OFF, 0), (PRESS_CHSTAT.STATE 2 5, 3), (PRESS_CHREM.REM 2 5, 11)] fun d => withPress d 37 fun _ => ⟨[0x4000200, 0x4000300, 0x100004, 0, 0x100004, 0, 0, 0x4000408], 5, 16, []⟩) with mem := memOf [(0x4000201, 99)] }), (37 : Fin 128), (0x4000201 : Nat), (0x4000301 : Nat), by repeat' first | decide +kernel | rfl | exact True.intro | apply And.intro | constructor | (apply loads_all; decide +kernel) | (apply sram_all; decide +kernel) | (apply loads_two; decide +kernel) | exact fun _ h => nomatch h⟩⟩

theorem witness_MaeluLink :
    (∃ (s : State), let d := s.dev; Calm s ∧ gf d TWIN_LSTAT.LST = 2) ∧
    (∃ (s : State), let d := s.dev; Calm s ∧ gf d TWIN_LSTAT.LST ≠ 2) ∧
    (∃ (s : State), let d := s.dev; Calm s ∧ gf d TWIN_LSTAT.LST = 1 ∧ twinOn d = true) ∧
    (∃ (s : State), let d := s.dev; Calm s ∧ linkIsUp d = true ∧ twinOn d = true ∧ d.twin.delayed = [] ∧ d.twin.nakDue = true ∧ d.twin.swap = none) ∧
    (∃ (s : State), let d := s.dev; Calm s ∧ linkIsUp d = true ∧ twinOn d = true ∧ d.twin.delayed = [] ∧ d.twin.nakDue = false ∧ d.twin.ackDue = true ∧ d.twin.cycle = [] ∧ d.twin.fwd = [] ∧ d.twin.swap = none) ∧
    (∃ (s : State), let d := s.dev; Calm s ∧ linkIsUp d = true ∧ twinOn d = true ∧ d.twin.delayed = [] ∧ d.twin.nakDue = false ∧ d.twin.timeDue = false ∧ ((d.twin.replay.find? fun r => r.again) = none) ∧ d.twin.replay.length < 32 ∧ d.twin.fwd ≠ [] ∧ d.twin.fwd.length ≤ 128 ∧ gf d TWIN_INJ.KIND = 0 ∧ d.twin.swap = none) ∧
    (∃ (s : State) (r : ReplayEntry) (l : List ReplayEntry), let d := s.dev; Calm s ∧ linkIsUp d = true ∧ twinOn d = true ∧ d.twin.delayed = [] ∧ d.twin.nakDue = false ∧ d.twin.ackDue = false ∧ d.twin.timeDue = false ∧ d.twin.replay = r :: l ∧ r.again = true ∧ ((∀ x ∈ l, x.seq ≠ r.seq)) ∧ gf d TWIN_INJ.KIND = 0 ∧ d.twin.swap = none) ∧
    (∃ (s : State), let d := s.dev; Calm s ∧ linkIsUp d = true ∧ twinOn d = true) ∧
    (∃ (s : State) (q : BitVec 8) (l1 : List ReplayEntry) (r : ReplayEntry) (l2 : List ReplayEntry), let d := s.dev; Calm s ∧ linkIsUp d = true ∧ twinOn d = true ∧ d.twin.replay = l1 ++ r :: l2 ∧ r.seq = q.toNat ∧ ((∀ x ∈ l1, x.seq ≠ q.toNat))) ∧
    (∃ (s : State) (q : BitVec 8) (l1 : List ReplayEntry) (r : ReplayEntry) (l2 : List ReplayEntry), let d := s.dev; Calm s ∧ linkIsUp d = true ∧ twinOn d = true ∧ d.twin.replay = l1 ++ r :: l2 ∧ r.seq = q.toNat ∧ ((∀ x ∈ l1, x.seq ≠ q.toNat))) ∧
    (∃ (s : State) (r : ReplayEntry) (l : List ReplayEntry), let d := s.dev; Calm s ∧ linkIsUp d = true ∧ d.twin.replay = r :: l ∧ r.again = false ∧ r.sentAt + 750 ≤ d.now ∧ r.tries < 3) ∧
    (∃ (s : State) (r : ReplayEntry) (l : List ReplayEntry), let d := s.dev; Calm s ∧ linkIsUp d = true ∧ d.twin.replay = r :: l ∧ r.again = false ∧ r.sentAt + 750 ≤ d.now ∧ 3 ≤ r.tries) ∧
    (∃ (s : State), let d := s.dev; Calm s ∧ linkIsUp d = true ∧ twinOn d = true ∧ d.twin.nextTime ≤ d.now) ∧
    (∃ (s : State) (w0 : Word) (w1 : Word) (u : Word) (r : List Word), let d := s.dev; Calm s ∧ linkIsUp d = true ∧ twinOn d = true ∧ d.twin.replay = [] ∧ d.merid.peerFollow = false ∧ d.twin.timeSent = u :: r ∧ w1 ≠ 0 ∧ (w0 - w1).toNat ≤ (shortTs d - u).toNat) ∧
    (∃ (s : State) (l : Fin 4), let d := s.dev; Calm s ∧ gbit d TWIN_TEST.CHK l = true) :=
  ⟨⟨(tst [(SYS_MODE.MODE, 3), (FOLIO_CTL.EN 0x13, 1), (TWIN_LSTAT.LST, 2), (TWIN_ROLE.ROLE, 2), (TWIN_STAT.ROLE, 2), (TWIN_STAT.SST, 2)] fun d => withTwin d fun x => { x with replay := [⟨⟨4, 0, [77, 5]⟩, 8, 999000, 0, false⟩] }), by repeat' first | decide +kernel | rfl | exact True.intro | apply And.intro | constructor | (apply loads_all; decide +kernel) | (apply sram_all; decide +kernel) | (apply loads_two; decide +kernel) | exact fun _ h => nomatch h⟩,
   ⟨(tst [(TWIN_LSTAT.LST, 1), (TWIN_LSTAT.LOCK, 7)]), by repeat' first | decide +kernel | rfl | exact True.intro | apply And.intro | constructor | (apply loads_all; decide +kernel) | (apply sram_all; decide +kernel) | (apply loads_two; decide +kernel) | exact fun _ h => nomatch h⟩,
   ⟨(tst [(SYS_MODE.MODE, 2), (FOLIO_CTL.EN 0x13, 1), (TWIN_LSTAT.LST, 1)]), by repeat' first | decide +kernel | rfl | exact True.intro | apply And.intro | constructor | (apply loads_all; decide +kernel) | (apply sram_all; decide +kernel) | (apply loads_two; decide +kernel) | exact fun _ h => nomatch h⟩,
   ⟨(tst [(SYS_MODE.MODE, 3), (FOLIO_CTL.EN 0x13, 1), (TWIN_LSTAT.LST, 2), (TWIN_ROLE.ROLE, 2), (TWIN_STAT.ROLE, 2), (TWIN_STAT.SST, 2)] fun d => withTwin d fun x => { x with nakDue := true, ackDue := true, rxSeq := 7 }), by repeat' first | decide +kernel | rfl | exact True.intro | apply And.intro | constructor | (apply loads_all; decide +kernel) | (apply sram_all; decide +kernel) | (apply loads_two; decide +kernel) | exact fun _ h => nomatch h⟩,
   ⟨(tst [(SYS_MODE.MODE, 3), (FOLIO_CTL.EN 0x13, 1), (TWIN_LSTAT.LST, 2), (TWIN_ROLE.ROLE, 2), (TWIN_STAT.ROLE, 2), (TWIN_STAT.SST, 2)] fun d => withTwin d fun x => { x with ackDue := true, rxSeq := 7 }), by repeat' first | decide +kernel | rfl | exact True.intro | apply And.intro | constructor | (apply loads_all; decide +kernel) | (apply sram_all; decide +kernel) | (apply loads_two; decide +kernel) | exact fun _ h => nomatch h⟩,
   ⟨(tst [(SYS_MODE.MODE, 3), (FOLIO_CTL.EN 0x13, 1), (TWIN_LSTAT.LST, 2), (TWIN_ROLE.ROLE, 2), (TWIN_STAT.ROLE, 2), (TWIN_STAT.SST, 2), (TWIN_INJ.KIND, 0)] fun d => withTwin d fun x => { x with fwd := [(0x8013, 5)], txSeq := 255, replay := [⟨⟨4, 0, [77, 5]⟩, 8, 999000, 0, false⟩] }), by repeat' first | decide +kernel | rfl | exact True.intro | apply And.intro | constructor | (apply loads_all; decide +kernel) | (apply sram_all; decide +kernel) | (apply loads_two; decide +kernel) | exact fun _ h => nomatch h⟩,
   ⟨(tst [(SYS_MODE.MODE, 3), (FOLIO_CTL.EN 0x13, 1), (TWIN_LSTAT.LST, 2), (TWIN_ROLE.ROLE, 2), (TWIN_STAT.ROLE, 2), (TWIN_STAT.SST, 2), (TWIN_INJ.KIND, 0)] fun d => withTwin d fun x => { x with replay := [⟨⟨4, 0, [77, 5]⟩, 8, 999000, 0, true⟩, ⟨⟨3, 0, [1, 2]⟩, 9, 999500, 1, false⟩] }), (⟨⟨4, 0, [77, 5]⟩, 8, 999000, 0, true⟩ : ReplayEntry), ([⟨⟨3, 0, [1, 2]⟩, 9, 999500, 1, false⟩] : List ReplayEntry), by repeat' first | decide +kernel | rfl | exact True.intro | apply And.intro | constructor | (apply loads_all; decide +kernel) | (apply sram_all; decide +kernel) | (apply loads_two; decide +kernel) | exact fun _ h => nomatch h⟩,
   ⟨(tst [(SYS_MODE.MODE, 3), (FOLIO_CTL.EN 0x13, 1), (TWIN_LSTAT.LST, 2), (TWIN_ROLE.ROLE, 2), (TWIN_STAT.ROLE, 2), (TWIN_STAT.SST, 2)]), by repeat' first | decide +kernel | rfl | exact True.intro | apply And.intro | constructor | (apply loads_all; decide +kernel) | (apply sram_all; decide +kernel) | (apply loads_two; decide +kernel) | exact fun _ h => nomatch h⟩,
   ⟨(tst [(SYS_MODE.MODE, 3), (FOLIO_CTL.EN 0x13, 1), (TWIN_LSTAT.LST, 2), (TWIN_ROLE.ROLE, 2), (TWIN_STAT.ROLE, 2), (TWIN_STAT.SST, 2)] fun d => withTwin d fun x => { x with replay := [⟨⟨4, 0, [77, 5]⟩, 8, 999000, 0, false⟩, ⟨⟨3, 0, [1, 2]⟩, 9, 999500, 1, false⟩, ⟨⟨5, 7, []⟩, 10, 999600, 3, false⟩] }), (9 : BitVec 8), ([⟨⟨4, 0, [77, 5]⟩, 8, 999000, 0, false⟩] : List ReplayEntry), (⟨⟨3, 0, [1, 2]⟩, 9, 999500, 1, false⟩ : ReplayEntry), ([⟨⟨5, 7, []⟩, 10, 999600, 3, false⟩] : List ReplayEntry), by repeat' first | decide +kernel | rfl | exact True.intro | apply And.intro | constructor | (apply loads_all; decide +kernel) | (apply sram_all; decide +kernel) | (apply loads_two; decide +kernel) | exact fun _ h => nomatch h⟩,
   ⟨(tst [(SYS_MODE.MODE, 3), (FOLIO_CTL.EN 0x13, 1), (TWIN_LSTAT.LST, 2), (TWIN_ROLE.ROLE, 2), (TWIN_STAT.ROLE, 2), (TWIN_STAT.SST, 2)] fun d => withTwin d fun x => { x with replay := [⟨⟨4, 0, [77, 5]⟩, 8, 999000, 0, false⟩, ⟨⟨3, 0, [1, 2]⟩, 9, 999500, 1, false⟩, ⟨⟨5, 7, []⟩, 10, 999600, 3, false⟩] }), (8 : BitVec 8), ([] : List ReplayEntry), (⟨⟨4, 0, [77, 5]⟩, 8, 999000, 0, false⟩ : ReplayEntry), ([⟨⟨3, 0, [1, 2]⟩, 9, 999500, 1, false⟩, ⟨⟨5, 7, []⟩, 10, 999600, 3, false⟩] : List ReplayEntry), by repeat' first | decide +kernel | rfl | exact True.intro | apply And.intro | constructor | (apply loads_all; decide +kernel) | (apply sram_all; decide +kernel) | (apply loads_two; decide +kernel) | exact fun _ h => nomatch h⟩,
   ⟨(tst [(SYS_MODE.MODE, 3), (FOLIO_CTL.EN 0x13, 1), (TWIN_LSTAT.LST, 2), (TWIN_ROLE.ROLE, 2), (TWIN_STAT.ROLE, 2), (TWIN_STAT.SST, 2)] fun d => withTwin d fun x => { x with replay := [⟨⟨4, 0, [77, 5]⟩, 8, 999000, 0, false⟩, ⟨⟨5, 7, []⟩, 10, 999600, 3, false⟩] }), (⟨⟨4, 0, [77, 5]⟩, 8, 999000, 0, false⟩ : ReplayEntry), ([⟨⟨5, 7, []⟩, 10, 999600, 3, false⟩] : List ReplayEntry), by repeat' first | decide +kernel | rfl | exact True.intro | apply And.intro | constructor | (apply loads_all; decide +kernel) | (apply sram_all; decide +kernel) | (apply loads_two; decide +kernel) | exact fun _ h => nomatch h⟩,
   ⟨(tst [(SYS_MODE.MODE, 3), (FOLIO_CTL.EN 0x13, 1), (TWIN_LSTAT.LST, 2), (TWIN_ROLE.ROLE, 2), (TWIN_STAT.ROLE, 2), (TWIN_STAT.SST, 2)] fun d => withTwin d fun x => { x with replay := [⟨⟨5, 7, []⟩, 10, 999000, 3, false⟩] }), (⟨⟨5, 7, []⟩, 10, 999000, 3, false⟩ : ReplayEntry), ([] : List ReplayEntry), by repeat' first | decide +kernel | rfl | exact True.intro | apply And.intro | constructor | (apply loads_all; decide +kernel) | (apply sram_all; decide +kernel) | (apply loads_two; decide +kernel) | exact fun _ h => nomatch h⟩,
   ⟨(tst [(SYS_MODE.MODE, 3), (FOLIO_CTL.EN 0x13, 1), (TWIN_LSTAT.LST, 2), (TWIN_ROLE.ROLE, 2), (TWIN_STAT.ROLE, 2), (TWIN_STAT.SST, 2)]), by repeat' first | decide +kernel | rfl | exact True.intro | apply And.intro | constructor | (apply loads_all; decide +kernel) | (apply sram_all; decide +kernel) | (apply loads_two; decide +kernel) | exact fun _ h => nomatch h⟩,
   ⟨(tst [(SYS_MODE.MODE, 3), (FOLIO_CTL.EN 0x13, 1), (TWIN_LSTAT.LST, 2), (TWIN_ROLE.ROLE, 2), (TWIN_STAT.ROLE, 2), (TWIN_STAT.SST, 2)] fun d => withTwin d fun x => { x with timeSent := [77] }), (500 : Word), (300 : Word), (77 : Word), ([] : List Word), by repeat' first | decide +kernel | rfl | exact True.intro | apply And.intro | constructor | (apply loads_all; decide +kernel) | (apply sram_all; decide +kernel) | (apply loads_two; decide +kernel) | exact fun _ h => nomatch h⟩,
   ⟨(tst [(TWIN_TEST.CHK, 4), (TWIN_PRBS.SYNC 2, 1)]), (2 : Fin 4), by repeat' first | decide +kernel | rfl | exact True.intro | apply And.intro | constructor | (apply loads_all; decide +kernel) | (apply sram_all; decide +kernel) | (apply loads_two; decide +kernel) | exact fun _ h => nomatch h⟩⟩

theorem witness_MirrorFrames :
    (∃ (s : State) (q : BitVec 8), let d := s.dev; Calm s ∧ linkIsUp d = true ∧ twinOn d = true ∧ q.toNat = (d.twin.rxSeq + 1) % 256 ∧ d.twin.replay = [] ∧ sst d ≠ 4) ∧
    (∃ (s : State) (q : BitVec 8), let d := s.dev; Calm s ∧ linkIsUp d = true ∧ twinOn d = true ∧ q.toNat ≠ (d.twin.rxSeq + 1) % 256 ∧ d.twin.replay = [] ∧ d.twin.gap = false) ∧
    (∃ (s : State) (q : BitVec 8) (e : Fin 64) (v : Word), let d := s.dev; Calm s ∧ linkIsUp d = true ∧ twinOn d = true ∧ q.toNat = (d.twin.rxSeq + 1) % 256 ∧ d.twin.replay = [] ∧ sst d ≠ 4 ∧ roleOf d = 2 ∧ mode d = mStandby ∧ Open .maelu (0x80 + e) s ∧ f32Ok (v.setWidth 32) = true) ∧
    (∃ (s : State) (q : BitVec 8) (e : Fin 64) (v : Word), let d := s.dev; Calm s ∧ linkIsUp d = true ∧ twinOn d = true ∧ q.toNat = (d.twin.rxSeq + 1) % 256 ∧ d.twin.replay = [] ∧ sst d ≠ 4 ∧ roleOf d = 2 ∧ mode d = mStandby ∧ Open .maelu (0x80 + e) s ∧ f32Ok (v.setWidth 32) = false) ∧
    (∃ (s : State) (q : BitVec 8) (e : Fin 64) (ws : List Word), let d := s.dev; Calm s ∧ linkIsUp d = true ∧ twinOn d = true ∧ q.toNat = (d.twin.rxSeq + 1) % 256 ∧ d.twin.replay = [] ∧ sst d ≠ 4 ∧ roleOf d = 2 ∧ mode d = mStandby ∧ ws.length = 32 ∧ (travOf d e).upd = none) ∧
    (∃ (s : State) (q : BitVec 8) (ws : List Word), let d := s.dev; Calm s ∧ linkIsUp d = true ∧ twinOn d = true ∧ q.toNat = (d.twin.rxSeq + 1) % 256 ∧ d.twin.replay = [] ∧ sst d ≠ 4 ∧ roleOf d = 2 ∧ mode d = mStandby ∧ ws.length = 5) ∧
    (∃ (s : State) (q : BitVec 8) (e : Fin 64) (ws : List Word), let d := s.dev; Calm s ∧ linkIsUp d = true ∧ twinOn d = true ∧ q.toNat = (d.twin.rxSeq + 1) % 256 ∧ d.twin.replay = [] ∧ sst d ≠ 4 ∧ roleOf d = 2 ∧ mode d = mStandby ∧ ws.length = 32 ∧ 32 ≤ ovN d e ∧ initWait d .overlay = false ∧ s.mem.flaws = []) ∧
    (∃ (s : State) (q : BitVec 8) (o : BitVec 20) (ws : List Word), let d := s.dev; Calm s ∧ linkIsUp d = true ∧ twinOn d = true ∧ q.toNat = (d.twin.rxSeq + 1) % 256 ∧ d.twin.replay = [] ∧ sst d ≠ 4 ∧ roleOf d = 2 ∧ mode d = mStandby ∧ 1 ≤ ws.length ∧ ws.length ≤ 256 ∧ o.toNat + ws.length ≤ 0x100000 ∧ gf d MEMP_INIT.DONE = 2 ^ 35 - 1 ∧ gf d FAB_RETIRE.MODE = 0 ∧ gf d FAB_BANKOFF.OFF = 0 ∧ s.mem.flaws = []) ∧
    (∃ (s : State) (q : BitVec 8), let d := s.dev; Calm s ∧ linkIsUp d = true ∧ twinOn d = true ∧ q.toNat = (d.twin.rxSeq + 1) % 256 ∧ d.twin.replay = [] ∧ sst d ≠ 4 ∧ roleOf d = 2 ∧ mode d = mStandby) :=
  ⟨⟨(tst [(SYS_MODE.MODE, 3), (FOLIO_CTL.EN 0x13, 1), (TWIN_LSTAT.LST, 2), (TWIN_ROLE.ROLE, 2), (TWIN_STAT.ROLE, 2), (TWIN_STAT.SST, 2), (TWIN_STAT.SST, 1)] fun d => withTwin d fun x => { x with rxSeq := 255 }), (0 : BitVec 8), by repeat' first | decide +kernel | rfl | exact True.intro | apply And.intro | constructor | (apply loads_all; decide +kernel) | (apply sram_all; decide +kernel) | (apply loads_two; decide +kernel) | exact fun _ h => nomatch h⟩,
   ⟨(tst [(SYS_MODE.MODE, 3), (FOLIO_CTL.EN 0x13, 1), (TWIN_LSTAT.LST, 2), (TWIN_ROLE.ROLE, 2), (TWIN_STAT.ROLE, 2), (TWIN_STAT.SST, 2)]), (77 : BitVec 8), by repeat' first | decide +kernel | rfl | exact True.intro | apply And.intro | constructor | (apply loads_all; decide +kernel) | (apply sram_all; decide +kernel) | (apply loads_two; decide +kernel) | exact fun _ h => nomatch h⟩,
   ⟨(tst [(SYS_MODE.MODE, 3), (FOLIO_CTL.EN 0x13, 1), (TWIN_LSTAT.LST, 2), (TWIN_ROLE.ROLE, 2), (TWIN_STAT.ROLE, 2), (TWIN_STAT.SST, 2)] fun d => withTwin d fun x => { x with rxSeq := 4 }), (5 : BitVec 8), (9 : Fin 64), (0x3F800000 : Word), by repeat' first | decide +kernel | rfl | exact True.intro | apply And.intro | constructor | (apply loads_all; decide +kernel) | (apply sram_all; decide +kernel) | (apply loads_two; decide +kernel) | exact fun _ h => nomatch h⟩,
   ⟨(tst [(SYS_MODE.MODE, 3), (FOLIO_CTL.EN 0x13, 1), (TWIN_LSTAT.LST, 2), (TWIN_ROLE.ROLE, 2), (TWIN_STAT.ROLE, 2), (TWIN_STAT.SST, 2)] fun d => withTwin d fun x => { x with rxSeq := 4 }), (5 : BitVec 8), (9 : Fin 64), (0x7F800000 : Word), by repeat' first | decide +kernel | rfl | exact True.intro | apply And.intro | constructor | (apply loads_all; decide +kernel) | (apply sram_all; decide +kernel) | (apply loads_two; decide +kernel) | exact fun _ h => nomatch h⟩,
   ⟨(tst [(SYS_MODE.MODE, 3), (FOLIO_CTL.EN 0x13, 1), (TWIN_LSTAT.LST, 2), (TWIN_ROLE.ROLE, 2), (TWIN_STAT.ROLE, 2), (TWIN_STAT.SST, 2)] fun d => withTwin d fun x => { x with rxSeq := 4 }), (5 : BitVec 8), (9 : Fin 64), ((upTo 32).map fun i => BitVec.ofNat 36 (i * 5 + 1) : List Word), by repeat' first | decide +kernel | rfl | exact True.intro | apply And.intro | constructor | (apply loads_all; decide +kernel) | (apply sram_all; decide +kernel) | (apply loads_two; decide +kernel) | exact fun _ h => nomatch h⟩,
   ⟨(tst [(SYS_MODE.MODE, 3), (FOLIO_CTL.EN 0x13, 1), (TWIN_LSTAT.LST, 2), (TWIN_ROLE.ROLE, 2), (TWIN_STAT.ROLE, 2), (TWIN_STAT.SST, 2)] fun d => withTwin d fun x => { x with rxSeq := 4 }), (5 : BitVec 8), ([7, 1, 2, 3, 4] : List Word), by repeat' first | decide +kernel | rfl | exact True.intro | apply And.intro | constructor | (apply loads_all; decide +kernel) | (apply sram_all; decide +kernel) | (apply loads_two; decide +kernel) | exact fun _ h => nomatch h⟩,
   ⟨(tst [(SYS_MODE.MODE, 3), (FOLIO_CTL.EN 0x13, 1), (TWIN_LSTAT.LST, 2), (TWIN_ROLE.ROLE, 2), (TWIN_STAT.ROLE, 2), (TWIN_STAT.SST, 2), (MEMP_INIT.DONE, 0x7FFFFFFFF), (FAB_RETIRE.MODE, 0), (FAB_BANKOFF.OFF, 0), (TRAV_OVCFG.NM1 9, 40)] fun d => withTwin d fun x => { x with rxSeq := 4 }), (5 : BitVec 8), (9 : Fin 64), ((upTo 32).map fun i => BitVec.ofNat 36 (i * 5 + 1) : List Word), by repeat' first | decide +kernel | rfl | exact True.intro | apply And.intro | constructor | (apply loads_all; decide +kernel) | (apply sram_all; decide +kernel) | (apply loads_two; decide +kernel) | exact fun _ h => nomatch h⟩,
   ⟨(tst [(SYS_MODE.MODE, 3), (FOLIO_CTL.EN 0x13, 1), (TWIN_LSTAT.LST, 2), (TWIN_ROLE.ROLE, 2), (TWIN_STAT.ROLE, 2), (TWIN_STAT.SST, 2), (MEMP_INIT.DONE, 0x7FFFFFFFF), (FAB_RETIRE.MODE, 0), (FAB_BANKOFF.OFF, 0)] fun d => withTwin d fun x => { x with rxSeq := 4 }), (5 : BitVec 8), (0xFFFE : BitVec 20), ([5, 6, 7] : List Word), by repeat' first | decide +kernel | rfl | exact True.intro | apply And.intro | constructor | (apply loads_all; decide +kernel) | (apply sram_all; decide +kernel) | (apply loads_two; decide +kernel) | exact fun _ h => nomatch h⟩,
   ⟨(tst [(SYS_MODE.MODE, 3), (FOLIO_CTL.EN 0x13, 1), (TWIN_LSTAT.LST, 2), (TWIN_ROLE.ROLE, 2), (TWIN_STAT.ROLE, 2), (TWIN_STAT.SST, 2)] fun d => withTwin d fun x => { x with rxSeq := 4, cycOk := true }), (5 : BitVec 8), by repeat' first | decide +kernel | rfl | exact True.intro | apply And.intro | constructor | (apply loads_all; decide +kernel) | (apply sram_all; decide +kernel) | (apply loads_two; decide +kernel) | exact fun _ h => nomatch h⟩⟩

theorem witness_TwinRoles :
    (∃ (s : State) (ini : Initiator), Calm s ∧ Open ini 0x13 s) ∧
    (∃ (s : State) (ini : Initiator), let d := s.dev; Calm s ∧ Open ini 0x13 s ∧ gb d (FOLIO_CTL.EN 0x13) = true ∧ mode d = mConfig) ∧
    (∃ (s : State) (ini : Initiator), let d := s.dev; Calm s ∧ Open ini 0x13 s ∧ gb d (FOLIO_CTL.EN 0x13) = true ∧ mode d = mStandby ∧ roleOf d = 2 ∧ gb d TWIN_STAT.OWNIN = false) ∧
    (∃ (s : State) (ini : Initiator), let d := s.dev; Calm s ∧ Open ini 0x13 s ∧ gb d (FOLIO_CTL.EN 0x13) = true ∧ mode d = mStandby ∧ gb d TWIN_STAT.OWNIN = true) ∧
    (∃ (s : State) (ini : Initiator), let d := s.dev; Calm s ∧ Open ini 0x13 s ∧ gb d (FOLIO_CTL.EN 0x13) = true ∧ mode d = mConfig) ∧
    (∃ (s : State) (ini : Initiator), let d := s.dev; Calm s ∧ Open ini 0x13 s ∧ gb d (FOLIO_CTL.EN 0x13) = true ∧ mode d = mRun) ∧
    (∃ (s : State), let d := s.dev; Calm s ∧ twinOn d = true ∧ (sst d = 1 ∨ sst d = 2) ∧ d.twin.toFrom + 1000 * max 8 d.twin.toUs ≤ d.now) ∧
    (∃ (s : State) (v : Bool), let d := s.dev; Calm s ∧ gb d TWIN_STAT.OWNIN ≠ v) ∧
    (∃ (s : State) (c : Nat), let d := s.dev; Calm s ∧ takeoverDue d = some c ∧ c < 8 ∧ d.rstc.phase = .started) ∧
    (∃ (s : State) (a : Nat), let d := s.dev; Calm s ∧ sst d = 4 ∧ d.twin.completeAt = some a ∧ mode d = mStandby) ∧
    (∃ (s : State), let d := s.dev; Calm s ∧ splitDue d = true) ∧
    (∃ (s : State) (ini : Initiator), Calm s ∧ Open ini 0x13 s) :=
  ⟨⟨(tst [(SYS_MODE.MODE, 3), (FOLIO_CTL.EN 0x13, 1), (TWIN_LSTAT.LST, 2), (TWIN_ROLE.ROLE, 2), (TWIN_STAT.ROLE, 2), (TWIN_STAT.SST, 2)]), (.pcie : Initiator), by repeat' first | decide +kernel | rfl | exact True.intro | apply And.intro | constructor | (apply loads_all; decide +kernel) | (apply sram_all; decide +kernel) | (apply loads_two; decide +kernel) | exact fun _ h => nomatch h⟩,
   ⟨(tst [(SYS_MODE.MODE, 1), (FOLIO_CTL.EN 0x13, 1)]), (.pcie : Initiator), by repeat' first | decide +kernel | rfl | exact True.intro | apply And.intro | constructor | (apply loads_all; decide +kernel) | (apply sram_all; decide +kernel) | (apply loads_two; decide +kernel) | exact fun _ h => nomatch h⟩,
   ⟨(tst [(SYS_MODE.MODE, 3), (FOLIO_CTL.EN 0x13, 1), (TWIN_LSTAT.LST, 2), (TWIN_ROLE.ROLE, 2), (TWIN_STAT.ROLE, 2), (TWIN_STAT.SST, 2), (TWIN_STAT.OWNIN, 0)]), (.pcie : Initiator), by repeat' first | decide +kernel | rfl | exact True.intro | apply And.intro | constructor | (apply loads_all; decide +kernel) | (apply sram_all; decide +kernel) | (apply loads_two; decide +kernel) | exact fun _ h => nomatch h⟩,
   ⟨(tst [(SYS_MODE.MODE, 3), (FOLIO_CTL.EN 0x13, 1), (TWIN_LSTAT.LST, 2), (TWIN_ROLE.ROLE, 2), (TWIN_STAT.ROLE, 2), (TWIN_STAT.SST, 2), (TWIN_STAT.OWNIN, 1)]), (.pcie : Initiator), by repeat' first | decide +kernel | rfl | exact True.intro | apply And.intro | constructor | (apply loads_all; decide +kernel) | (apply sram_all; decide +kernel) | (apply loads_two; decide +kernel) | exact fun _ h => nomatch h⟩,
   ⟨(tst [(SYS_MODE.MODE, 1), (FOLIO_CTL.EN 0x13, 1)]), (.pcie : Initiator), by repeat' first | decide +kernel | rfl | exact True.intro | apply And.intro | constructor | (apply loads_all; decide +kernel) | (apply sram_all; decide +kernel) | (apply loads_two; decide +kernel) | exact fun _ h => nomatch h⟩,
   ⟨(tst [(SYS_MODE.MODE, 2), (FOLIO_CTL.EN 0x13, 1), (TWIN_ROLE.ROLE, 1), (TWIN_STAT.SST, 2)]), (.pcie : Initiator), by repeat' first | decide +kernel | rfl | exact True.intro | apply And.intro | constructor | (apply loads_all; decide +kernel) | (apply sram_all; decide +kernel) | (apply loads_two; decide +kernel) | exact fun _ h => nomatch h⟩,
   ⟨(tst [(SYS_MODE.MODE, 3), (FOLIO_CTL.EN 0x13, 1), (TWIN_LSTAT.LST, 2), (TWIN_ROLE.ROLE, 2), (TWIN_STAT.ROLE, 2), (TWIN_STAT.SST, 2), (TWIN_STAT.OWNIN, 1)]), by repeat' first | decide +kernel | rfl | exact True.intro | apply And.intro | constructor | (apply loads_all; decide +kernel) | (apply sram_all; decide +kernel) | (apply loads_two; decide +kernel) | exact fun _ h => nomatch h⟩,
   ⟨(tst [(SYS_MODE.MODE, 3), (FOLIO_CTL.EN 0x13, 1), (TWIN_LSTAT.LST, 2), (TWIN_ROLE.ROLE, 2), (TWIN_STAT.ROLE, 2), (TWIN_STAT.SST, 2), (TWIN_STAT.OWNIN, 1)]), (false : Bool), by repeat' first | decide +kernel | rfl | exact True.intro | apply And.intro | constructor | (apply loads_all; decide +kernel) | (apply sram_all; decide +kernel) | (apply loads_two; decide +kernel) | exact fun _ h => nomatch h⟩,
   ⟨(tst [(SYS_MODE.MODE, 3), (FOLIO_CTL.EN 0x13, 1), (TWIN_LSTAT.LST, 2), (TWIN_ROLE.ROLE, 2), (TWIN_STAT.ROLE, 2), (TWIN_STAT.SST, 2), (TWIN_STAT.SST, 3), (TWIN_STAT.CAUSE, 1), (TWIN_STAT.OWNIN, 0)] fun d => withTwin d fun x => { x with swReq := true, ownLowFrom := some 900000 }), (5 : Nat), by repeat' first | decide +kernel | rfl | exact True.intro | apply And.intro | constructor | (apply loads_all; decide +kernel) | (apply sram_all; decide +kernel) | (apply loads_two; decide +kernel) | exact fun _ h => nomatch h⟩,
   ⟨(tst [(SYS_MODE.MODE, 3), (FOLIO_CTL.EN 0x13, 1), (TWIN_LSTAT.LST, 2), (TWIN_ROLE.ROLE, 2), (TWIN_STAT.ROLE, 2), (TWIN_STAT.SST, 2), (TWIN_STAT.SST, 4)] fun d => withTwin d fun x => { x with completeAt := some 999999 }), (999999 : Nat), by repeat' first | decide +kernel | rfl | exact True.intro | apply And.intro | constructor | (apply loads_all; decide +kernel) | (apply sram_all; decide +kernel) | (apply loads_two; decide +kernel) | exact fun _ h => nomatch h⟩,
   ⟨(tst [(SYS_MODE.MODE, 3), (FOLIO_CTL.EN 0x13, 1), (TWIN_LSTAT.LST, 2), (TWIN_ROLE.ROLE, 2), (TWIN_STAT.ROLE, 2), (TWIN_STAT.SST, 2)] fun d => withTwin d fun x => { x with splitFrom := some 900000 }), by repeat' first | decide +kernel | rfl | exact True.intro | apply And.intro | constructor | (apply loads_all; decide +kernel) | (apply sram_all; decide +kernel) | (apply loads_two; decide +kernel) | exact fun _ h => nomatch h⟩,
   ⟨(tst [(SYS_MODE.MODE, 3), (FOLIO_CTL.EN 0x13, 1), (TWIN_LSTAT.LST, 2), (TWIN_ROLE.ROLE, 2), (TWIN_STAT.ROLE, 2), (TWIN_STAT.SST, 2), (FOLIO_EVT.BLK 0x13, 0x400)]), (.pcie : Initiator), by repeat' first | decide +kernel | rfl | exact True.intro | apply And.intro | constructor | (apply loads_all; decide +kernel) | (apply sram_all; decide +kernel) | (apply loads_two; decide +kernel) | exact fun _ h => nomatch h⟩⟩

theorem witness_FlashServices :
    (∃ (s : State) (c : Fin 8) (lp : Word), let d := s.dev; Calm s ∧ RomCalled c entryProgram lp s ∧ d.flash.op = none ∧ argOf s c 6 = 0 ∧ inFlash (argOf s c 1) = true ∧ journalSector (sectorOf (argOf s c 1)) = false ∧ suspectSector s (sectorOf (argOf s c 1)) = false ∧ flashSealed d (argOf s c 1) = false ∧ wordProgrammed d (argOf s c 1) = false ∧ selfBank s c (flashBankOf (argOf s c 1)) = false) ∧
    (∃ (s : State) (c : Fin 8) (lp : Word), let d := s.dev; Calm s ∧ RomCalled c entryProgram lp s ∧ d.flash.op = none ∧ argOf s c 6 = 0 ∧ inFlash (argOf s c 1) = true ∧ journalSector (sectorOf (argOf s c 1)) = false ∧ suspectSector s (sectorOf (argOf s c 1)) = false ∧ flashSealed d (argOf s c 1) = false ∧ wordProgrammed d (argOf s c 1) = false ∧ selfBank s c (flashBankOf (argOf s c 1)) = false) ∧
    (∃ (s : State) (c : Fin 8) (lp : Word) (ph : RomPhase) (st : Nat), let d := s.dev; Calm s ∧ RomCalled c entryProgram lp s ∧ d.flash.op = none ∧ argOf s c 6 = 0 ∧ ph ≠ .finish ∧ ((st = 3 ∧ (inFlash (argOf s c 1) = false ∨ journalSector (sectorOf (argOf s c 1)) = true)) ∨
        (inFlash (argOf s c 1) = true ∧ journalSector (sectorOf (argOf s c 1)) = false ∧
          ((st = 6 ∧ suspectSector s (sectorOf (argOf s c 1)) = true) ∨ (suspectSector s (sectorOf (argOf s c 1)) = false ∧
            ((st = 5 ∧ flashSealed d (argOf s c 1) = true) ∨ (st = 4 ∧ flashSealed d (argOf s c 1) = false ∧ wordProgrammed d (argOf s c 1) = true))))))) ∧
    (∃ (s : State) (c : Fin 8) (lp : Word), let d := s.dev; Calm s ∧ RomCalled c entryProgram lp s ∧ d.flash.op.isSome = true ∧ ownOp s c = false) ∧
    (∃ (s : State) (c : Fin 8) (lp : Word), let d := s.dev; Calm s ∧ RomCalled c entryProgram lp s ∧ d.flash.op = none ∧ argOf s c 6 = 0 ∧ inFlash (argOf s c 1) = true ∧ journalSector (sectorOf (argOf s c 1)) = false ∧ suspectSector s (sectorOf (argOf s c 1)) = false ∧ flashSealed d (argOf s c 1) = false ∧ wordProgrammed d (argOf s c 1) = false ∧ selfBank s c (flashBankOf (argOf s c 1)) = true) ∧
    (∃ (s : State) (c : Fin 8) (lp : Word), let d := s.dev; Calm s ∧ RomCalled c entryProgram lp s ∧ d.flash.op = none ∧ argOf s c 6 < 2 ∧ inFlash (argOf s c 1) = true ∧ journalSector (sectorOf (argOf s c 1)) = false ∧ suspectSector s (sectorOf (argOf s c 1)) = false ∧ flashSealed d (argOf s c 1) = false ∧ wordProgrammed d (argOf s c 1) = false ∧ (selfBank s c (flashBankOf (argOf s c 1)) = false ∨ argOf s c 6 = 1)) ∧
    (∃ (s : State) (c : Fin 8) (lp : Word) (o : FlashOp), let d := s.dev; Calm s ∧ RomCalled c entryProgram lp s ∧ d.flash.op = some o ∧ ownOp s c = true ∧ inFlash o.addr = true) ∧
    (∃ (s : State) (c : Fin 8) (lp : Word), let d := s.dev; Calm s ∧ RomCalled c entrySeal lp s ∧ d.flash.op = none ∧ argOf s c 6 = 0 ∧ inFlash (argOf s c 1) = true ∧ journalSector (sectorOf (argOf s c 1)) = false ∧ suspectSector s (sectorOf (argOf s c 1)) = false ∧ flashSealed d (argOf s c 1) = false ∧ argOf s c 1 % 8 = 0 ∧ selfBank s c (flashBankOf (argOf s c 1)) = false) ∧
    (∃ (s : State) (c : Fin 8) (lp : Word), let d := s.dev; Calm s ∧ RomCalled c entrySeal lp s ∧ d.flash.op = none ∧ argOf s c 6 = 0 ∧ argOf s c 1 % 8 ≠ 0) ∧
    (∃ (s : State) (c : Fin 8) (lp : Word), let d := s.dev; Calm s ∧ RomCalled c entryErase lp s ∧ d.flash.op = none ∧ argOf s c 6 = 0 ∧ inFlash (argOf s c 1) = true ∧ argOf s c 1 % 512 = 0 ∧ journalSector (sectorOf (argOf s c 1)) = false ∧ selfBank s c (flashBankOf (argOf s c 1)) = false) ∧
    (∃ (s : State) (c : Fin 8) (lp : Word) (j : Nat), let d := s.dev; Calm s ∧ RomCalled c entryErase lp s ∧ d.flash.op = none ∧ argOf s c 6 = 0 ∧ inFlash (argOf s c 1) = true ∧ argOf s c 1 % 512 = 0 ∧ journalSector (sectorOf (argOf s c 1)) = false ∧ selfBank s c (flashBankOf (argOf s c 1)) = false ∧ activeJournal (sectorOf (argOf s c 1) / 4096) s = some j ∧ journalUsed j s + 2 ≤ 252 ∧ nextSeq (journalRecords j s) + 1 < 2 ^ 36) ∧
    (∃ (s : State) (c : Fin 8) (lp : Word) (j : Nat), let d := s.dev; Calm s ∧ RomCalled c entryErase lp s ∧ d.flash.op = none ∧ argOf s c 6 = 0 ∧ inFlash (argOf s c 1) = true ∧ argOf s c 1 % 512 = 0 ∧ journalSector (sectorOf (argOf s c 1)) = false ∧ selfBank s c (flashBankOf (argOf s c 1)) = false ∧ activeJournal (sectorOf (argOf s c 1) / 4096) s = some j ∧ journalUsed j s + 2 ≤ 252) ∧
    (∃ (s : State) (c : Fin 8) (lp : Word) (x : EraseOutcome) (st : Nat), let d := s.dev; Calm s ∧ RomCalled c entryErase lp s ∧ d.flash.op = none ∧ argOf s c 6 = 0 ∧ ((st = 3 ∧ (inFlash (argOf s c 1) = false ∨ argOf s c 1 % 512 ≠ 0 ∨ journalSector (sectorOf (argOf s c 1)) = true)) ∨ (st = 14 ∧ x = .noJournal ∧ inFlash (argOf s c 1) = true ∧ argOf s c 1 % 512 = 0 ∧ journalSector (sectorOf (argOf s c 1)) = false))) ∧
    (∃ (s : State) (c : Fin 8) (lp : Word) (x : Nat) (q : Nat) (j : Nat), let d := s.dev; Calm s ∧ RomCalled c entryScan lp s ∧ d.flash.op = none ∧ argOf s c 6 = 0 ∧ bankRecords 0 s = [(1, x, q)] ∧ bankRecords 1 s = [] ∧ tabGet 0 d.flash.sealWord x ≠ 1 ∧ activeJournal 0 s = some j ∧ journalUsed j s + 2 ≤ 252 ∧ x < 4094 ∧ q + 1 < 2 ^ 36 ∧ lpBank (coreOfDev d c |>.gr 15) = none ∧ SramWord s (argOf s c 1) ∧ argOf s c 1 ∉ romStack s c ∧ 1 ≤ argOf s c 2) ∧
    (∃ (s : State) (c : Fin 8) (lp : Word) (x : Nat) (q : Nat) (j : Nat), let d := s.dev; Calm s ∧ RomCalled c entryScan lp s ∧ d.flash.op = none ∧ argOf s c 6 = 0 ∧ bankRecords 0 s = [(1, x, q)] ∧ bankRecords 1 s = [] ∧ tabGet 0 d.flash.sealWord x = 1 ∧ activeJournal 0 s = some j ∧ journalUsed j s + 2 ≤ 252 ∧ x < 4094 ∧ q + 1 < 2 ^ 36 ∧ lpBank (coreOfDev d c |>.gr 15) = none) :=
  ⟨⟨({ tk 3 (fun k => { k with fbuf := [⟨0x20/2/4*4, [0, 0, 0, 0]⟩], ctx := { k.ctx with ip := 0x20, psw := 0x800000003, g := [(1, 0x8000013), (2, 0x123456789), (14, 0x4001230), (15, 0x8004000)] } }) [] (fun d => withFlash d fun x => { x with pmask := [(0x8000010/8, 0xF7#8)] }) with mem := memOf [(0x4001230, 77)] }), (3 : Fin 8), (77 : Word), by repeat' first | decide +kernel | rfl | exact True.intro | apply And.intro | constructor | (apply loads_all; decide +kernel) | (apply sram_all; decide +kernel) | (apply loads_two; decide +kernel) | exact fun _ h => nomatch h⟩,
   ⟨({ tk 3 (fun k => { k with fbuf := [⟨0x20/2/4*4, [0, 0, 0, 0]⟩], ctx := { k.ctx with ip := 0x20, psw := 0x800000003, g := [(1, 0x8000013), (2, 0x123456789), (14, 0x4001230), (15, 0x8004000)] } }) [] (id) with mem := memOf [(0x4001230, 77)] }), (3 : Fin 8), (77 : Word), by repeat' first | decide +kernel | rfl | exact True.intro | apply And.intro | constructor | (apply loads_all; decide +kernel) | (apply sram_all; decide +kernel) | (apply loads_two; decide +kernel) | exact fun _ h => nomatch h⟩,
   ⟨({ tk 3 (fun k => { k with fbuf := [⟨0x20/2/4*4, [0, 0, 0, 0]⟩], ctx := { k.ctx with ip := 0x20, psw := 0x800000003, g := [(1, 0x8000013), (2, 0x123456789), (14, 0x4001230), (15, 0x8004000)] } }) [] (fun d => withFlash d fun x => { x with pmask := [(0x8000010/8, 0x08#8)] }) with mem := memOf [(0x4001230, 77)] }), (3 : Fin 8), (77 : Word), (.whole : RomPhase), (4 : Nat), by repeat' first | decide +kernel | rfl | exact True.intro | apply And.intro | constructor | (apply loads_all; decide +kernel) | (apply sram_all; decide +kernel) | (apply loads_two; decide +kernel) | exact fun _ h => nomatch h⟩,
   ⟨({ tk 3 (fun k => { k with fbuf := [⟨0x20/2/4*4, [0, 0, 0, 0]⟩], ctx := { k.ctx with ip := 0x20, psw := 0x800000003, g := [(1, 0x8000013), (2, 0x123456789), (14, 0x4001230), (15, 0x8004000)] } }) [] (fun d => withFlash d fun x => { x with op := some ⟨2, 0x8000400, 0, 5, none, 0, 0⟩ }) with mem := memOf [(0x4001230, 77)] }), (3 : Fin 8), (77 : Word), by repeat' first | decide +kernel | rfl | exact True.intro | apply And.intro | constructor | (apply loads_all; decide +kernel) | (apply sram_all; decide +kernel) | (apply loads_two; decide +kernel) | exact fun _ h => nomatch h⟩,
   ⟨({ tk 3 (fun k => { k with fbuf := [⟨0x20/2/4*4, [0, 0, 0, 0]⟩], ctx := { k.ctx with ip := 0x20, psw := 0x800000003, g := [(1, 0x8000013), (2, 0x123456789), (14, 0x4001230), (15, 0x10000400)] } }) [] (id) with mem := memOf [(0x4001230, 77)] }), (3 : Fin 8), (77 : Word), by repeat' first | decide +kernel | rfl | exact True.intro | apply And.intro | constructor | (apply loads_all; decide +kernel) | (apply sram_all; decide +kernel) | (apply loads_two; decide +kernel) | exact fun _ h => nomatch h⟩,
   ⟨({ tk 3 (fun k => { k with fbuf := [⟨0x20/2/4*4, [0, 0, 0, 0]⟩], ctx := { k.ctx with ip := 0x20, psw := 0x800000003, g := [(1, 0x8000013), (2, 0x123456789), (6, 1), (14, 0x4001230), (15, 0x10000400)] } }) [] (id) with mem := memOf [(0x4001230, 77)] }), (3 : Fin 8), (77 : Word), by repeat' first | decide +kernel | rfl | exact True.intro | apply And.intro | constructor | (apply loads_all; decide +kernel) | (apply sram_all; decide +kernel) | (apply loads_two; decide +kernel) | exact fun _ h => nomatch h⟩,
   ⟨({ tk 3 (fun k => { k with fbuf := [⟨0x20/2/4*4, [0, 0, 0, 0]⟩], ctx := { k.ctx with ip := 0x20, psw := 0x800000003, g := [(1, 0x8000013), (2, 0x123456789), (6, 1), (14, 0x4001230), (15, 0x8004000)] } }) [] (fun d => withFlash d fun x => { x with op := some ⟨1, 0x8000013, 55, 3, none, 0, 0⟩ }) with mem := memOf [(0x4001230, 77)] }), (3 : Fin 8), (77 : Word), (⟨1, 0x8000013, 55, 3, none, 0, 0⟩ : FlashOp), by repeat' first | decide +kernel | rfl | exact True.intro | apply And.intro | constructor | (apply loads_all; decide +kernel) | (apply sram_all; decide +kernel) | (apply loads_two; decide +kernel) | exact fun _ h => nomatch h⟩,
   ⟨({ tk 3 (fun k => { k with fbuf := [⟨0x24/2/4*4, [0, 0, 0, 0]⟩], ctx := { k.ctx with ip := 0x24, psw := 0x800000003, g := [(1, 0x8000010), (14, 0x4001230), (15, 0x8004000)] } }) [] (id) with mem := memOf [(0x4001230, 77)] }), (3 : Fin 8), (77 : Word), by repeat' first | decide +kernel | rfl | exact True.intro | apply And.intro | constructor | (apply loads_all; decide +kernel) | (apply sram_all; decide +kernel) | (apply loads_two; decide +kernel) | exact fun _ h => nomatch h⟩,
   ⟨({ tk 3 (fun k => { k with fbuf := [⟨0x24/2/4*4, [0, 0, 0, 0]⟩], ctx := { k.ctx with ip := 0x24, psw := 0x800000003, g := [(1, 0x8000011), (14, 0x4001230), (15, 0x8004000)] } }) [] (id) with mem := memOf [(0x4001230, 77)] }), (3 : Fin 8), (77 : Word), by repeat' first | decide +kernel | rfl | exact True.intro | apply And.intro | constructor | (apply loads_all; decide +kernel) | (apply sram_all; decide +kernel) | (apply loads_two; decide +kernel) | exact fun _ h => nomatch h⟩,
   ⟨({ tk 3 (fun k => { k with fbuf := [⟨0x22/2/4*4, [0, 0, 0, 0]⟩], ctx := { k.ctx with ip := 0x22, psw := 0x800000003, g := [(1, 0x8000200), (14, 0x4001230), (15, 0x8004000)] } }) [] (fun d => withFlash d fun x => { x with pmask := [(0x8000210/8, 0x08#8)], seals := [(0x8000210/8, true)] }) with mem := memOf [(0x4001230, 77), (0x8000210, 5)] }), (3 : Fin 8), (77 : Word), by repeat' first | decide +kernel | rfl | exact True.intro | apply And.intro | constructor | (apply loads_all; decide +kernel) | (apply sram_all; decide +kernel) | (apply loads_two; decide +kernel) | exact fun _ h => nomatch h⟩,
   ⟨({ tk 3 (fun k => { k with fbuf := [⟨0x22/2/4*4, [0, 0, 0, 0]⟩], ctx := { k.ctx with ip := 0x22, psw := 0x800000003, g := [(1, 0x8000200), (14, 0x4001230), (15, 0x8004000)] } }) [] (fun d => withFlash d fun x => { x with pmask := [((0x8000000+512*4094)/8, 0x01#8)] }) with mem := memOf [(0x4001230, 77), (0x8000000+512*4094, 1)] }), (3 : Fin 8), (77 : Word), (4094 : Nat), by repeat' first | decide +kernel | rfl | exact True.intro | apply And.intro | constructor | (apply loads_all; decide +kernel) | (apply sram_all; decide +kernel) | (apply loads_two; decide +kernel) | exact fun _ h => nomatch h⟩,
   ⟨({ tk 3 (fun k => { k with fbuf := [⟨0x22/2/4*4, [0, 0, 0, 0]⟩], ctx := { k.ctx with ip := 0x22, psw := 0x800000003, g := [(1, 0x8000200), (14, 0x4001230), (15, 0x8004000)] } }) [] (fun d => withFlash d fun x => { x with pmask := [((0x8000000+512*4094)/8, 0x01#8)] }) with mem := memOf [(0x4001230, 77), (0x8000000+512*4094, 1)] }), (3 : Fin 8), (77 : Word), (4094 : Nat), by repeat' first | decide +kernel | rfl | exact True.intro | apply And.intro | constructor | (apply loads_all; decide +kernel) | (apply sram_all; decide +kernel) | (apply loads_two; decide +kernel) | exact fun _ h => nomatch h⟩,
   ⟨({ tk 3 (fun k => { k with fbuf := [⟨0x22/2/4*4, [0, 0, 0, 0]⟩], ctx := { k.ctx with ip := 0x22, psw := 0x800000003, g := [(1, 0x8000201), (14, 0x4001230), (15, 0x8004000)] } }) [] (id) with mem := memOf [(0x4001230, 77)] }), (3 : Fin 8), (77 : Word), (.ok : EraseOutcome), (3 : Nat), by repeat' first | decide +kernel | rfl | exact True.intro | apply And.intro | constructor | (apply loads_all; decide +kernel) | (apply sram_all; decide +kernel) | (apply loads_two; decide +kernel) | exact fun _ h => nomatch h⟩,
   ⟨({ tk 3 (fun k => { k with fbuf := [⟨0x2A/2/4*4, [0, 0, 0, 0]⟩], ctx := { k.ctx with ip := 0x2A, psw := 0x800000003, g := [(1, 0x4003000), (2, 4), (14, 0x4001230), (15, 0x8004000)] } }) [] (fun d => withFlash d fun x => { x with pmask := [((0x8000000+512*4094)/8, 0x01#8), ((0x8000000+512*4094)/8+1, 0x03#8)] }) with mem := memOf [(0x4001230, 77), (0x8000000+512*4094, 1), (0x8000000+512*4094+8, 0x100000005), (0x8000000+512*4094+9, 3)] }), (3 : Fin 8), (77 : Word), (5 : Nat), (3 : Nat), (4094 : Nat), by repeat' first | decide +kernel | rfl | exact True.intro | apply And.intro | constructor | (apply loads_all; decide +kernel) | (apply sram_all; decide +kernel) | (apply loads_two; decide +kernel) | exact fun _ h => nomatch h⟩,
   ⟨({ tk 3 (fun k => { k with fbuf := [⟨0x2A/2/4*4, [0, 0, 0, 0]⟩], ctx := { k.ctx with ip := 0x2A, psw := 0x800000003, g := [(1, 0x4003000), (2, 4), (14, 0x4001230), (15, 0x8004000)] } }) [] (fun d => withFlash d fun x => { x with sealWord := [(5, 1)], pmask := [((0x8000000+512*4094)/8, 0x01#8), ((0x8000000+512*4094)/8+1, 0x03#8)] }) with mem := memOf [(0x4001230, 77), (0x8000000+512*4094, 1), (0x8000000+512*4094+8, 0x100000005), (0x8000000+512*4094+9, 3)] }), (3 : Fin 8), (77 : Word), (5 : Nat), (3 : Nat), (4094 : Nat), by repeat' first | decide +kernel | rfl | exact True.intro | apply And.intro | constructor | (apply loads_all; decide +kernel) | (apply sram_all; decide +kernel) | (apply loads_two; decide +kernel) | exact fun _ h => nomatch h⟩⟩

theorem witness_RomReports :
    (∃ (s : State) (c : Fin 8) (lp : Word) (w : Nat → Word), Calm s ∧ RomCalled c entryVerify lp s ∧ argOf s c 6 = 0 ∧ inFlash (argOf s c 1) = true ∧ 1 ≤ argOf s c 3 ∧ argOf s c 3 ≤ 2 ^ 20 ∧ (∀ i, i < argOf s c 3 → Loads c (argOf s c 1 + i) (w i) s ∧ Loads c (argOf s c 2 + i) (w i) s)) ∧
    (∃ (s : State) (c : Fin 8) (lp : Word) (w : Nat → Word) (j : Nat) (x : Word) (y : Word), Calm s ∧ RomCalled c entryVerify lp s ∧ argOf s c 6 = 0 ∧ inFlash (argOf s c 1) = true ∧ argOf s c 3 ≤ 2 ^ 20 ∧ j < argOf s c 3 ∧ (∀ i, i < j → Loads c (argOf s c 1 + i) (w i) s ∧ Loads c (argOf s c 2 + i) (w i) s) ∧ Loads c (argOf s c 1 + j) x s ∧ Loads c (argOf s c 2 + j) y s ∧ x ≠ y) ∧
    (∃ (s : State) (c : Fin 8) (lp : Word), Calm s ∧ RomCalled c entryStatus lp s ∧ argOf s c 6 = 0) ∧
    (∃ (s : State) (c : Fin 8) (lp : Word) (w : Nat) (v : Word), let d := s.dev; Calm s ∧ RomCalled c entryOtp lp s ∧ d.flash.op = none ∧ argOf s c 6 = 0 ∧ argOf s c 1 = w ∧ 0x20 ≤ w ∧ w < 0xA0 ∧ Loads c (argOf s c 2) v s ∧ fieldLocked d w = false ∧ fieldUsed d w = false ∧ mode d = mConfig ∧ gb d PACE_STAT.HELD = true ∧ 850 ≤ gf d PACE_VCMD.VCMD ∧ gf d PACE_VCMD.VCMD ≤ 950 ∧ lpBank (coreOfDev d c |>.gr 15) = none) ∧
    (∃ (s : State) (c : Fin 8) (lp : Word), let d := s.dev; Calm s ∧ RomCalled c entryOtp lp s ∧ d.flash.op = none ∧ argOf s c 6 = 0 ∧ argOf s c 1 = 10 ∧ rollbackCount (otpWord d) < 64 ∧ (∀ i ∈ upTo 64, rollbackCount (otpWord d) < i → bit (otpWord d (70 + i / 32)) (i % 32) = false) ∧ mode d = mConfig ∧ gb d PACE_STAT.HELD = true ∧ 850 ≤ gf d PACE_VCMD.VCMD ∧ gf d PACE_VCMD.VCMD ≤ 950 ∧ lpBank (coreOfDev d c |>.gr 15) = none) ∧
    (∃ (s : State) (c : Fin 8) (lp : Word) (st : Nat), let d := s.dev; Calm s ∧ RomCalled c entryOtp lp s ∧ d.flash.op = none ∧ argOf s c 6 = 0 ∧ ((argOf s c 1 = 0 ∧ st = 11) ∨ (11 ≤ argOf s c 1 ∧ argOf s c 1 ≤ 16 ∧ ((st = 12 ∧ fieldUsed d (argOf s c 1) = true) ∨ (st = 13 ∧ fieldUsed d (argOf s c 1) = false ∧ mode d ≠ mConfig))))) ∧
    (∃ (s : State) (c : Fin 8) (lp : Word), let d := s.dev; Calm s ∧ RomCalled c entryOtp lp s ∧ argOf s c 6 = 2 ∧ (fieldWords (argOf s c 1)).isSome = true ∧ (d.flash.op = none)) ∧
    (∃ (s : State), let d := s.dev; Calm s ∧ d.flash.winFrom + 1048576 ≤ d.now) ∧
    (∃ (s : State) (ini : Initiator), let d := s.dev; Calm s ∧ Open ini 0x12 s ∧ fromRom d ini = false) ∧
    (∃ (s : State), let d := s.dev; Calm s ∧ d.rstc.phase = .optionLoad ∧ d.flash.otpFlaws = []) ∧
    (∃ (s : State), let d := s.dev; Calm s ∧ d.rstc.phase = .optionLoad) :=
  ⟨⟨({ tk 3 (fun k => { k with fbuf := [⟨0x26/2/4*4, [0, 0, 0, 0]⟩], ctx := { k.ctx with ip := 0x26, psw := 0x800000003, g := [(1, 0x8000013), (2, 0x4002000), (3, 2), (14, 0x4001230), (15, 0x8004000)] } }) [] (id) with mem := memOf [(0x4001230, 77), (0x4002000, 5), (0x4002001, 6), (0x8000013, 5), (0x8000014, 6)] }), (3 : Fin 8), (77 : Word), ((fun i => if i = 0 then 5 else 6) : Nat → Word), by repeat' first | decide +kernel | rfl | exact True.intro | apply And.intro | constructor | (apply loads_all; decide +kernel) | (apply sram_all; decide +kernel) | (apply loads_two; decide +kernel) | exact fun _ h => nomatch h⟩,
   ⟨({ tk 3 (fun k => { k with fbuf := [⟨0x26/2/4*4, [0, 0, 0, 0]⟩], ctx := { k.ctx with ip := 0x26, psw := 0x800000003, g := [(1, 0x8000013), (2, 0x4002000), (3, 2), (14, 0x4001230), (15, 0x8004000)] } }) [] (id) with mem := memOf [(0x4001230, 77), (0x4002000, 5), (0x4002001, 7), (0x8000013, 5), (0x8000014, 6)] }), (3 : Fin 8), (77 : Word), ((fun i => 5) : Nat → Word), (1 : Nat), (6 : Word), (7 : Word), by repeat' first | decide +kernel | rfl | exact True.intro | apply And.intro | constructor | (apply loads_all; decide +kernel) | (apply sram_all; decide +kernel) | (apply loads_two; decide +kernel) | exact fun _ h => nomatch h⟩,
   ⟨({ tk 3 (fun k => { k with fbuf := [⟨0x28/2/4*4, [0, 0, 0, 0]⟩], ctx := { k.ctx with ip := 0x28, psw := 0x800000003, g := [(14, 0x4001230), (15, 0x8004000)] } }) [] (fun d => withFlash d fun x => { x with last := 7 }) with mem := memOf [(0x4001230, 77)] }), (3 : Fin 8), (77 : Word), by repeat' first | decide +kernel | rfl | exact True.intro | apply And.intro | constructor | (apply loads_all; decide +kernel) | (apply sram_all; decide +kernel) | (apply loads_two; decide +kernel) | exact fun _ h => nomatch h⟩,
   ⟨({ tk 3 (fun k => { k with fbuf := [⟨0x2C/2/4*4, [0, 0, 0, 0]⟩], ctx := { k.ctx with ip := 0x2C, psw := 0x800000003, g := [(1, 0x25), (2, 0x4002000), (14, 0x4001230), (15, 0x8004000)] } }) [(SYS_MODE.MODE, 1), (PACE_STAT.HELD, 1), (PACE_VCMD.VCMD, 900)] (id) with mem := memOf [(0x4001230, 77), (0x4002000, 5)] }), (3 : Fin 8), (77 : Word), (0x25 : Nat), (5 : Word), by repeat' first | decide +kernel | rfl | exact True.intro | apply And.intro | constructor | (apply loads_all; decide +kernel) | (apply sram_all; decide +kernel) | (apply loads_two; decide +kernel) | exact fun _ h => nomatch h⟩,
   ⟨({ tk 3 (fun k => { k with fbuf := [⟨0x2C/2/4*4, [0, 0, 0, 0]⟩], ctx := { k.ctx with ip := 0x2C, psw := 0x800000003, g := [(1, 10), (14, 0x4001230), (15, 0x8004000)] } }) [(SYS_MODE.MODE, 1), (PACE_STAT.HELD, 1), (PACE_VCMD.VCMD, 900)] (fun d => withFlash d fun x => { x with otp := [(70, 7)] }) with mem := memOf [(0x4001230, 77)] }), (3 : Fin 8), (77 : Word), by repeat' first | decide +kernel | rfl | exact True.intro | apply And.intro | constructor | (apply loads_all; decide +kernel) | (apply sram_all; decide +kernel) | (apply loads_two; decide +kernel) | exact fun _ h => nomatch h⟩,
   ⟨({ tk 3 (fun k => { k with fbuf := [⟨0x2C/2/4*4, [0, 0, 0, 0]⟩], ctx := { k.ctx with ip := 0x2C, psw := 0x800000003, g := [(1, 12), (14, 0x4001230), (15, 0x8004000)] } }) [] (id) with mem := memOf [(0x4001230, 77)] }), (3 : Fin 8), (77 : Word), (13 : Nat), by repeat' first | decide +kernel | rfl | exact True.intro | apply And.intro | constructor | (apply loads_all; decide +kernel) | (apply sram_all; decide +kernel) | (apply loads_two; decide +kernel) | exact fun _ h => nomatch h⟩,
   ⟨({ tk 3 (fun k => { k with fbuf := [⟨0x2C/2/4*4, [0, 0, 0, 0]⟩], ctx := { k.ctx with ip := 0x2C, psw := 0x800000003, g := [(1, 12), (6, 2), (14, 0x4001230), (15, 0x8004000)] } }) [] (id) with mem := memOf [(0x4001230, 77)] }), (3 : Fin 8), (77 : Word), by repeat' first | decide +kernel | rfl | exact True.intro | apply And.intro | constructor | (apply loads_all; decide +kernel) | (apply sram_all; decide +kernel) | (apply loads_two; decide +kernel) | exact fun _ h => nomatch h⟩,
   ⟨(tst [(FLASHC_MCNT.CUR, 99)] fun d => { d with now := 5000000 }), by repeat' first | decide +kernel | rfl | exact True.intro | apply And.intro | constructor | (apply loads_all; decide +kernel) | (apply sram_all; decide +kernel) | (apply loads_two; decide +kernel) | exact fun _ h => nomatch h⟩,
   ⟨(tst []), (.pcie : Initiator), by repeat' first | decide +kernel | rfl | exact True.intro | apply And.intro | constructor | (apply loads_all; decide +kernel) | (apply sram_all; decide +kernel) | (apply loads_two; decide +kernel) | exact fun _ h => nomatch h⟩,
   ⟨(tst [] fun d => withFlash { d with rstc := { d.rstc with phase := .optionLoad } } fun x => { x with otp := [(16, 1), (17, 905), (18, 77)] }), by repeat' first | decide +kernel | rfl | exact True.intro | apply And.intro | constructor | (apply loads_all; decide +kernel) | (apply sram_all; decide +kernel) | (apply loads_two; decide +kernel) | exact fun _ h => nomatch h⟩,
   ⟨(tst [] fun d => { d with rstc := { d.rstc with phase := .optionLoad, attempts := 3 } }), by repeat' first | decide +kernel | rfl | exact True.intro | apply And.intro | constructor | (apply loads_all; decide +kernel) | (apply sram_all; decide +kernel) | (apply loads_two; decide +kernel) | exact fun _ h => nomatch h⟩⟩

theorem witness_SecureBoot :
    (∃ (s : State), let d := s.dev; Calm s ∧ d.rstc.phase = .started ∧ d.rstc.booted = false ∧ mode d = mStart ∧ ((gb d MERID_STAT.LOCK = true ∧ gbit d MEMP_INIT.DONE 17 = true ∧ gbit d MEMP_INIT.DONE 25 = true) ∨ (gb d MERID_STAT.LOCK = false ∧ d.rstc.loadTick + 5000000 ≤ d.now))) ∧
    (∃ (s : State), let d := s.dev; Calm s ∧ (d.rstc.booted = true ∨ mode d ≠ mStart ∨ (gb d MERID_STAT.LOCK = true ∧ gbit d MEMP_INIT.DONE 17 = false))) ∧
    (∃ (s : State) (h : ImageHdr), let d := s.dev; Calm s ∧ romBoots d = true ∧ d.host.bootWaiting = false ∧ fld (latchWord d 16) 2 0 = 0 ∧ gf d SEC_BOOTST.BANK0 = 0xF ∧ flashBusy d 0 = false ∧ s.mem.flaws = [] ∧ d.sec.raising = none ∧ canTag d 34 = true ∧ d.fab.waiting = [] ∧ (h = ⟨(upTo 128).map fun i => storedWord s.mem (0x8000000 + i)⟩) ∧ headerOk d h 0x8000000 false = false) ∧
    (∃ (s : State) (h : ImageHdr), let d := s.dev; Calm s ∧ romBoots d = true ∧ d.host.bootWaiting = false ∧ fld (latchWord d 16) 2 0 = 0 ∧ gf d SEC_BOOTST.BANK0 = 0xF ∧ flashBusy d 0 = false ∧ s.mem.flaws = [] ∧ d.sec.raising = none ∧ canTag d 34 = true ∧ d.fab.waiting = [] ∧ (h = ⟨(upTo 128).map fun i => storedWord s.mem (0x8000000 + i)⟩) ∧ headerOk d h 0x8000000 false = true ∧ slotSet d 0 = true) ∧
    (∃ (s : State) (h : ImageHdr), let d := s.dev; Calm s ∧ romBoots d = true ∧ d.host.bootWaiting = false ∧ fld (latchWord d 16) 2 0 = 0 ∧ gf d SEC_BOOTST.BANK0 = 0xF ∧ flashBusy d 0 = false ∧ s.mem.flaws = [] ∧ d.sec.raising = none ∧ canTag d 34 = true ∧ d.fab.waiting = [] ∧ (h = ⟨(upTo 128).map fun i => storedWord s.mem (0x8000000 + i)⟩) ∧ headerOk d h 0x8000000 false = true ∧ slotSet d 0 = true) ∧
    (∃ (s : State) (h : ImageHdr), let d := s.dev; Calm s ∧ romBoots d = true ∧ d.host.bootWaiting = false ∧ fld (latchWord d 16) 2 0 = 0 ∧ gf d SEC_BOOTST.BANK0 = 0xF ∧ flashBusy d 0 = false ∧ s.mem.flaws = [] ∧ d.sec.raising = none ∧ canTag d 34 = true ∧ d.fab.waiting = [] ∧ (h = ⟨(upTo 128).map fun i => storedWord s.mem (0x8000000 + i)⟩) ∧ headerOk d h 0x8000000 false = true ∧ slotSet d 0 = true) ∧
    (∃ (s : State) (h : ImageHdr), let d := s.dev; Calm s ∧ romBoots d = true ∧ d.host.bootWaiting = false ∧ fld (latchWord d 16) 2 0 = 0 ∧ gf d SEC_BOOTST.BANK0 = 0xF ∧ flashBusy d 0 = false ∧ s.mem.flaws = [] ∧ d.sec.raising = none ∧ canTag d 34 = true ∧ d.fab.waiting = [] ∧ (h = ⟨(upTo 128).map fun i => storedWord s.mem (0x8000000 + i)⟩) ∧ headerOk d h 0x8000000 false = true ∧ slotSet d 0 = false ∧ slotSet d 1 = false ∧ h.enc = false ∧ h.load = 0 ∧ rollback d ≤ h.ver ∧ h.roll = false) ∧
    (∃ (s : State) (h : ImageHdr), let d := s.dev; Calm s ∧ romBoots d = true ∧ d.host.bootWaiting = true ∧ d.host.bootBusy = false ∧ linkOn d = true ∧ s.mem.flaws = [] ∧ d.sec.raising = none ∧ canTag d 34 = true ∧ d.fab.waiting = [] ∧ (∀ i ∈ upTo 128, SramWord s (d.host.bootBase + i)) ∧ (h = ⟨(upTo 128).map fun i => storedWord s.mem (d.host.bootBase + i)⟩) ∧ headerOk d h d.host.bootBase true = false) ∧
    (∃ (s : State) (v : BitVec 32), Calm s ∧ v ≠ 1) :=
  ⟨⟨(tst [(MERID_STAT.LOCK, 1), (MEMP_INIT.DONE, 0x7FFFFFFFF), (FAB_RETIRE.MODE, 0), (FAB_BANKOFF.OFF, 0)]), by repeat' first | decide +kernel | rfl | exact True.intro | apply And.intro | constructor | (apply loads_all; decide +kernel) | (apply sram_all; decide +kernel) | (apply loads_two; decide +kernel) | exact fun _ h => nomatch h⟩,
   ⟨(tst [(MERID_STAT.LOCK, 1), (MEMP_INIT.DONE, 0)]), by repeat' first | decide +kernel | rfl | exact True.intro | apply And.intro | constructor | (apply loads_all; decide +kernel) | (apply sram_all; decide +kernel) | (apply loads_two; decide +kernel) | exact fun _ h => nomatch h⟩,
   ⟨({ tst [(MEMP_INIT.DONE, 0x7FFFFFFFF), (FAB_RETIRE.MODE, 0), (FAB_BANKOFF.OFF, 0)] (fun d => { d with rstc := { d.rstc with booted := true } }) with mem := memOf ([]) }), (⟨(upTo 128).map fun i => storedWord (memOf []) (0x8000000 + i)⟩ : ImageHdr), by repeat' first | decide +kernel | rfl | exact True.intro | apply And.intro | constructor | (apply loads_all; decide +kernel) | (apply sram_all; decide +kernel) | (apply loads_two; decide +kernel) | exact fun _ h => nomatch h⟩,
   ⟨({ tst [(MEMP_INIT.DONE, 0x7FFFFFFFF), (FAB_RETIRE.MODE, 0), (FAB_BANKOFF.OFF, 0)] (fun d => { { d with rstc := { d.rstc with booted := true } } with latch := ((List.range 11).map fun i => (40 + i, (7 : Word))) }) with mem := memOf ([(0x8000000, 0x0D9601A6E), (0x8000001, 3), (0x8000002, 0), (0x8000003, 2), (0x8000004, 0), (0x8000005, 0x10000100), (0x8000006, 0)] ++ ((List.range 121).map fun i => (0x8000007 + i, (0 : Word))) ++ [(0x8000080, 0x123), (0x8000081, 0x456)]) }), (⟨(upTo 128).map fun i => storedWord (memOf ([(0x8000000, 0x0D9601A6E), (0x8000001, 3), (0x8000002, 0), (0x8000003, 2), (0x8000004, 0), (0x8000005, 0x10000100), (0x8000006, 0)] ++ ((List.range 121).map fun i => (0x8000007 + i, (0 : Word))) ++ [(0x8000080, 0x123), (0x8000081, 0x456)])) (0x8000000 + i)⟩ : ImageHdr), by repeat' first | decide +kernel | rfl | exact True.intro | apply And.intro | constructor | (apply loads_all; decide +kernel) | (apply sram_all; decide +kernel) | (apply loads_two; decide +kernel) | exact fun _ h => nomatch h⟩,
   ⟨({ tst [(MEMP_INIT.DONE, 0x7FFFFFFFF), (FAB_RETIRE.MODE, 0), (FAB_BANKOFF.OFF, 0)] (fun d => { { d with rstc := { d.rstc with booted := true } } with latch := ((List.range 11).map fun i => (40 + i, (7 : Word))) }) with mem := memOf ([(0x8000000, 0x0D9601A6E), (0x8000001, 3), (0x8000002, 0), (0x8000003, 2), (0x8000004, 0), (0x8000005, 0x10000100), (0x8000006, 0)] ++ ((List.range 121).map fun i => (0x8000007 + i, (0 : Word))) ++ [(0x8000080, 0x123), (0x8000081, 0x456)]) }), (⟨(upTo 128).map fun i => storedWord (memOf ([(0x8000000, 0x0D9601A6E), (0x8000001, 3), (0x8000002, 0), (0x8000003, 2), (0x8000004, 0), (0x8000005, 0x10000100), (0x8000006, 0)] ++ ((List.range 121).map fun i => (0x8000007 + i, (0 : Word))) ++ [(0x8000080, 0x123), (0x8000081, 0x456)])) (0x8000000 + i)⟩ : ImageHdr), by repeat' first | decide +kernel | rfl | exact True.intro | apply And.intro | constructor | (apply loads_all; decide +kernel) | (apply sram_all; decide +kernel) | (apply loads_two; decide +kernel) | exact fun _ h => nomatch h⟩,
   ⟨({ tst [(MEMP_INIT.DONE, 0x7FFFFFFFF), (FAB_RETIRE.MODE, 0), (FAB_BANKOFF.OFF, 0)] (fun d => { { d with rstc := { d.rstc with booted := true } } with latch := ((List.range 11).map fun i => (40 + i, (7 : Word))) }) with mem := memOf ([(0x8000000, 0x0D9601A6E), (0x8000001, 3), (0x8000002, 0), (0x8000003, 2), (0x8000004, 0), (0x8000005, 0x10000100), (0x8000006, 0)] ++ ((List.range 121).map fun i => (0x8000007 + i, (0 : Word))) ++ [(0x8000080, 0x123), (0x8000081, 0x456)]) }), (⟨(upTo 128).map fun i => storedWord (memOf ([(0x8000000, 0x0D9601A6E), (0x8000001, 3), (0x8000002, 0), (0x8000003, 2), (0x8000004, 0), (0x8000005, 0x10000100), (0x8000006, 0)] ++ ((List.range 121).map fun i => (0x8000007 + i, (0 : Word))) ++ [(0x8000080, 0x123), (0x8000081, 0x456)])) (0x8000000 + i)⟩ : ImageHdr), by repeat' first | decide +kernel | rfl | exact True.intro | apply And.intro | constructor | (apply loads_all; decide +kernel) | (apply sram_all; decide +kernel) | (apply loads_two; decide +kernel) | exact fun _ h => nomatch h⟩,
   ⟨({ tst [(MEMP_INIT.DONE, 0x7FFFFFFFF), (FAB_RETIRE.MODE, 0), (FAB_BANKOFF.OFF, 0)] (fun d => { d with rstc := { d.rstc with booted := true } }) with mem := memOf ([(0x8000000, 0x0D9601A6E), (0x8000001, 3), (0x8000002, 0), (0x8000003, 2), (0x8000004, 0), (0x8000005, 0x10000100), (0x8000006, 0)] ++ ((List.range 121).map fun i => (0x8000007 + i, (0 : Word))) ++ [(0x8000080, 0x123), (0x8000081, 0x456)]) }), (⟨(upTo 128).map fun i => storedWord (memOf ([(0x8000000, 0x0D9601A6E), (0x8000001, 3), (0x8000002, 0), (0x8000003, 2), (0x8000004, 0), (0x8000005, 0x10000100), (0x8000006, 0)] ++ ((List.range 121).map fun i => (0x8000007 + i, (0 : Word))) ++ [(0x8000080, 0x123), (0x8000081, 0x456)])) (0x8000000 + i)⟩ : ImageHdr), by repeat' first | decide +kernel | rfl | exact True.intro | apply And.intro | constructor | (apply loads_all; decide +kernel) | (apply sram_all; decide +kernel) | (apply loads_two; decide +kernel) | exact fun _ h => nomatch h⟩,
   ⟨({ tst [(MEMP_INIT.DONE, 0x7FFFFFFFF), (FAB_RETIRE.MODE, 0), (FAB_BANKOFF.OFF, 0), (PCIE_STAT.LINK, 2)] (fun d => { { d with rstc := { d.rstc with booted := true } } with host := { d.host with bootWaiting := true, bootBase := 0x4001000 } }) with mem := memOf ([]) }), (⟨(upTo 128).map fun i => storedWord (memOf []) (0x4001000 + i)⟩ : ImageHdr), by repeat' first | decide +kernel | rfl | exact True.intro | apply And.intro | constructor | (apply loads_all; decide +kernel) | (apply sram_all; decide +kernel) | (apply loads_two; decide +kernel) | exact fun _ h => nomatch h⟩,
   ⟨(tst []), (5 : BitVec 32), by repeat' first | decide +kernel | rfl | exact True.intro | apply And.intro | constructor | (apply loads_all; decide +kernel) | (apply sram_all; decide +kernel) | (apply loads_two; decide +kernel) | exact fun _ h => nomatch h⟩⟩

theorem witness_SecurityServices :
    (∃ (s : State) (ini : Initiator), let d := s.dev; Calm s ∧ Heard ini 0x11 s ∧ d.sec.refusals < 4 ∧ gb d SEC_STAT.RNGOK = true) ∧
    (∃ (s : State) (ini : Initiator), let d := s.dev; Calm s ∧ Heard ini 0x11 s ∧ (4 ≤ d.sec.refusals ∨ gb d SEC_STAT.RNGOK = false)) ∧
    (∃ (s : State) (ini : Initiator), let d := s.dev; Calm s ∧ Heard ini 0x11 s ∧ (d.sec.chal = false ∨ mode d = mPark ∨ bit (latchWord d 72) 4 = true ∨ (slotUsable d 0 = false ∧ slotUsable d 1 = false))) ∧
    (∃ (s : State) (ini : Initiator) (key : BitVec 384 × BitVec 384), let d := s.dev; Calm s ∧ Heard ini 0x11 s ∧ d.sec.chal = true ∧ mode d ≠ mPark ∧ bit (latchWord d 72) 4 = false ∧ (key = quantPair ((upTo 22).map fun i => tabGet 0 d.sec.resp i))) ∧
    (∃ (s : State), let d := s.dev; Calm s ∧ frameReady d = true ∧ frameType d = 1 ∧ (d.host.cmdLen ≠ 338 ∨ gb d SEC_CFG.SESSEN = false ∨ gb d SEC_STAT.RNGOK = false ∨ mode d = mStart)) ∧
    (∃ (s : State), let d := s.dev; Calm s ∧ frameReady d = true ∧ frameType d = 1 ∧ d.host.cmdLen = 338 ∧ gb d SEC_CFG.SESSEN = true ∧ gb d SEC_STAT.RNGOK = true ∧ secretSet d = true ∧ mode d ≠ mStart) ∧
    (∃ (s : State), let d := s.dev; Calm s ∧ frameReady d = true ∧ frameType d = 2 ∧ (gb d SEC_STAT.SESS = false ∨ d.host.cmdLen ≠ 26 + 9 * ((frameOctets d).getD 9 0).toNat)) ∧
    (∃ (s : State), let d := s.dev; Calm s ∧ frameReady d = true ∧ frameType d = 2 ∧ gb d SEC_STAT.SESS = true ∧ 1 ≤ ((frameOctets d).getD 9 0).toNat ∧ ((frameOctets d).getD 9 0).toNat ≤ 60 ∧ d.host.cmdLen = 26 + 9 * ((frameOctets d).getD 9 0).toNat ∧ octetsNat (((frameOctets d).drop 1).take 8) < d.sec.lastSeq) ∧
    (∃ (s : State), let d := s.dev; Calm s ∧ frameReady d = true ∧ frameType d = 2 ∧ gb d SEC_STAT.SESS = true ∧ ((frameOctets d).getD 9 0).toNat = 1 ∧ d.host.cmdLen = 35 ∧ d.sec.lastSeq ≤ octetsNat (((frameOctets d).drop 1).take 8) ∧ s.mem.flaws = []) ∧
    (∃ (s : State), let d := s.dev; Calm s ∧ frameReady d = true ∧ frameType d = 3 ∧ d.host.cmdLen = 1 ∧ gb d SEC_STAT.EVAL = evalCond d) ∧
    (∃ (s : State) (ini : Initiator), let d := s.dev; Calm s ∧ iniServed d ini = true ∧ debugShut d ini = false ∧ gb d SEC_STAT.RNGOK = true) ∧
    (∃ (s : State) (ini : Initiator), let d := s.dev; Calm s ∧ iniServed d ini = true ∧ debugShut d ini = false ∧ gb d SEC_STAT.RNGOK = false) ∧
    (∃ (s : State), let d := s.dev; Calm s ∧ gb d SEC_STAT.RNGOK = true) :=
  ⟨⟨(tst [(SEC_STAT.RNGOK, 1)]), (.pcie : Initiator), by repeat' first | decide +kernel | rfl | exact True.intro | apply And.intro | constructor | (apply loads_all; decide +kernel) | (apply sram_all; decide +kernel) | (apply loads_two; decide +kernel) | exact fun _ h => nomatch h⟩,
   ⟨(tst [(SEC_STAT.RNGOK, 1)] fun d => withSec d fun x => { x with refusals := 4 }), (.pcie : Initiator), by repeat' first | decide +kernel | rfl | exact True.intro | apply And.intro | constructor | (apply loads_all; decide +kernel) | (apply sram_all; decide +kernel) | (apply loads_two; decide +kernel) | exact fun _ h => nomatch h⟩,
   ⟨(tst [] fun d => withSec d fun x => { x with chal := true }), (.pcie : Initiator), by repeat' first | decide +kernel | rfl | exact True.intro | apply And.intro | constructor | (apply loads_all; decide +kernel) | (apply sram_all; decide +kernel) | (apply loads_two; decide +kernel) | exact fun _ h => nomatch h⟩,
   ⟨(tst [] fun d => withSec d fun x => { x with chal := true }), (.pcie : Initiator), ((0, 0) : BitVec 384 × BitVec 384), by repeat' first | decide +kernel | rfl | exact True.intro | apply And.intro | constructor | (apply loads_all; decide +kernel) | (apply sram_all; decide +kernel) | (apply loads_two; decide +kernel) | exact fun _ h => nomatch h⟩,
   ⟨(tst [(SYS_MODE.MODE, 2), (MEMP_INIT.DONE, 0x7FFFFFFFF), (FAB_RETIRE.MODE, 0), (FAB_BANKOFF.OFF, 0), (SEC_CFG.SESSEN, 0)] fun d => { d with host := { d.host with held := true, cmdLen := 338, h2d := [(0, 1)] } }), by repeat' first | decide +kernel | rfl | exact True.intro | apply And.intro | constructor | (apply loads_all; decide +kernel) | (apply sram_all; decide +kernel) | (apply loads_two; decide +kernel) | exact fun _ h => nomatch h⟩,
   ⟨(tst [(SYS_MODE.MODE, 2), (MEMP_INIT.DONE, 0x7FFFFFFFF), (FAB_RETIRE.MODE, 0), (FAB_BANKOFF.OFF, 0), (SEC_CFG.SESSEN, 1), (SEC_STAT.RNGOK, 1)] fun d => { d with latch := [(62, 5)], host := { d.host with held := true, cmdLen := 338, h2d := [(0, 1)] } }), by repeat' first | decide +kernel | rfl | exact True.intro | apply And.intro | constructor | (apply loads_all; decide +kernel) | (apply sram_all; decide +kernel) | (apply loads_two; decide +kernel) | exact fun _ h => nomatch h⟩,
   ⟨(tst [(SYS_MODE.MODE, 2), (MEMP_INIT.DONE, 0x7FFFFFFFF), (FAB_RETIRE.MODE, 0), (FAB_BANKOFF.OFF, 0), (SEC_STAT.SESS, 0)] fun d => { d with host := { d.host with held := true, cmdLen := 35, h2d := [(0, 2), (9, 1)] } }), by repeat' first | decide +kernel | rfl | exact True.intro | apply And.intro | constructor | (apply loads_all; decide +kernel) | (apply sram_all; decide +kernel) | (apply loads_two; decide +kernel) | exact fun _ h => nomatch h⟩,
   ⟨(tst [(SYS_MODE.MODE, 2), (MEMP_INIT.DONE, 0x7FFFFFFFF), (FAB_RETIRE.MODE, 0), (FAB_BANKOFF.OFF, 0), (SEC_STAT.SESS, 1)] fun d => { d with sec := { d.sec with lastSeq := 5, key := 7, fails := 2 }, host := { d.host with held := true, cmdLen := 35, h2d := [(0, 2), (9, 1)] } }), by repeat' first | decide +kernel | rfl | exact True.intro | apply And.intro | constructor | (apply loads_all; decide +kernel) | (apply sram_all; decide +kernel) | (apply loads_two; decide +kernel) | exact fun _ h => nomatch h⟩,
   ⟨(tst [(SYS_MODE.MODE, 2), (MEMP_INIT.DONE, 0x7FFFFFFFF), (FAB_RETIRE.MODE, 0), (FAB_BANKOFF.OFF, 0), (SEC_STAT.SESS, 1)] fun d => { d with host := { d.host with held := true, cmdLen := 35, h2d := [(0, 2), (9, 1)] } }), by repeat' first | decide +kernel | rfl | exact True.intro | apply And.intro | constructor | (apply loads_all; decide +kernel) | (apply sram_all; decide +kernel) | (apply loads_two; decide +kernel) | exact fun _ h => nomatch h⟩,
   ⟨(tst [(SYS_MODE.MODE, 2), (MEMP_INIT.DONE, 0x7FFFFFFFF), (FAB_RETIRE.MODE, 0), (FAB_BANKOFF.OFF, 0), (SEC_STAT.SESS, 1)] fun d => { d with host := { d.host with held := true, cmdLen := 1, h2d := [(0, 3)] } }), by repeat' first | decide +kernel | rfl | exact True.intro | apply And.intro | constructor | (apply loads_all; decide +kernel) | (apply sram_all; decide +kernel) | (apply loads_two; decide +kernel) | exact fun _ h => nomatch h⟩,
   ⟨(tst [(SEC_STAT.RNGOK, 1)]), (.pcie : Initiator), by repeat' first | decide +kernel | rfl | exact True.intro | apply And.intro | constructor | (apply loads_all; decide +kernel) | (apply sram_all; decide +kernel) | (apply loads_two; decide +kernel) | exact fun _ h => nomatch h⟩,
   ⟨(tst [(SEC_STAT.RNGOK, 0)]), (.pcie : Initiator), by repeat' first | decide +kernel | rfl | exact True.intro | apply And.intro | constructor | (apply loads_all; decide +kernel) | (apply sram_all; decide +kernel) | (apply loads_two; decide +kernel) | exact fun _ h => nomatch h⟩,
   ⟨(tst [(SEC_STAT.RNGOK, 1)]), by repeat' first | decide +kernel | rfl | exact True.intro | apply And.intro | constructor | (apply loads_all; decide +kernel) | (apply sram_all; decide +kernel) | (apply loads_two; decide +kernel) | exact fun _ h => nomatch h⟩⟩

theorem witness_Resets :
    (∃ (s : State), let d := s.dev; Calm s ∧ d.rstc.phase = .asserted ∧ d.rstc.cold = true) ∧
    (∃ (s : State), let d := s.dev; Calm s ∧ (d.rstc.phase ≠ .asserted ∨ d.rstc.cold = false)) ∧
    (∃ (s : State), let d := s.dev; Calm s ∧ d.flash.op = none ∧ firedNow d = []) ∧
    (∃ (s : State), let d := s.dev; Calm s ∧ d.rstc.nrstLow = false) ∧
    (∃ (s : State), let d := s.dev; Calm s ∧ d.rstc.nrstLow = true ∧ d.rstc.nrstTick + 200 ≤ d.now) ∧
    (∃ (s : State), let d := s.dev; Calm s ∧ d.rstc.nrstLow = true ∧ d.now < d.rstc.nrstTick + 50) ∧
    (∃ (s : State), let d := s.dev; Calm s ∧ d.rstc.nrstLow = true ∧ d.rstc.nrstTick + 50 ≤ d.now) ∧
    (∃ (s : State), let d := s.dev; Calm s ∧ d.rstc.phase = .asserted ∧ d.rstc.cold = false ∧ d.rstc.nrstLow = false ∧ d.rstc.assertTick + 2000 ≤ d.now) ∧
    (∃ (s : State), let d := s.dev; Calm s ∧ (d.rstc.phase ≠ .asserted ∨ d.rstc.nrstLow = true ∨ d.now < d.rstc.assertTick + 2000)) ∧
    (∃ (s : State), let d := s.dev; Calm s ∧ gb d RSTC_SWDOG.EN = true ∧ mode d ≠ mStart ∧ mode d ≠ mPark ∧ 1024 * gf d RSTC_SWDOG.TIME ≤ d.rstc.swdCount) ∧
    (∃ (s : State), let d := s.dev; Calm s ∧ gb d RSTC_SWDOG.EN = true ∧ mode d ≠ mStart ∧ mode d ≠ mPark ∧ d.rstc.swdWarned = false ∧ 1024 * gf d RSTC_SWDOG.TIME ≤ 2 * d.rstc.swdCount) ∧
    (∃ (s : State) (ini : Initiator), Calm s ∧ Open ini 1 s) ∧
    (∃ (s : State) (ini : Initiator) (v : Word), Calm s ∧ Open ini 1 s ∧ v ≠ 0x3C3C) ∧
    (∃ (s : State) (ini : Initiator), Calm s ∧ Open ini 1 s) ∧
    (∃ (s : State) (ini : Initiator), Calm s ∧ Open ini 1 s) :=
  ⟨⟨(tst [] fun d => { d with rstc := { d.rstc with phase := .asserted, cold := true, attempts := 2 } }), by repeat' first | decide +kernel | rfl | exact True.intro | apply And.intro | constructor | (apply loads_all; decide +kernel) | (apply sram_all; decide +kernel) | (apply loads_two; decide +kernel) | exact fun _ h => nomatch h⟩,
   ⟨(tst []), by repeat' first | decide +kernel | rfl | exact True.intro | apply And.intro | constructor | (apply loads_all; decide +kernel) | (apply sram_all; decide +kernel) | (apply loads_two; decide +kernel) | exact fun _ h => nomatch h⟩,
   ⟨(tst [(SYS_MODE.MODE, 2), (RSTC_CAUSE.NRST, 1)] fun d => { d with rstc := { d.rstc with safeCopy := some [1, 2] } }), by repeat' first | decide +kernel | rfl | exact True.intro | apply And.intro | constructor | (apply loads_all; decide +kernel) | (apply sram_all; decide +kernel) | (apply loads_two; decide +kernel) | exact fun _ h => nomatch h⟩,
   ⟨(tst []), by repeat' first | decide +kernel | rfl | exact True.intro | apply And.intro | constructor | (apply loads_all; decide +kernel) | (apply sram_all; decide +kernel) | (apply loads_two; decide +kernel) | exact fun _ h => nomatch h⟩,
   ⟨(tst [] fun d => { d with rstc := { d.rstc with nrstLow := true, nrstTick := 5 } }), by repeat' first | decide +kernel | rfl | exact True.intro | apply And.intro | constructor | (apply loads_all; decide +kernel) | (apply sram_all; decide +kernel) | (apply loads_two; decide +kernel) | exact fun _ h => nomatch h⟩,
   ⟨(tst [] fun d => { d with rstc := { d.rstc with nrstLow := true, nrstTick := 999960 } }), by repeat' first | decide +kernel | rfl | exact True.intro | apply And.intro | constructor | (apply loads_all; decide +kernel) | (apply sram_all; decide +kernel) | (apply loads_two; decide +kernel) | exact fun _ h => nomatch h⟩,
   ⟨(tst [] fun d => { d with rstc := { d.rstc with nrstLow := true, nrstTick := 999900 } }), by repeat' first | decide +kernel | rfl | exact True.intro | apply And.intro | constructor | (apply loads_all; decide +kernel) | (apply sram_all; decide +kernel) | (apply loads_two; decide +kernel) | exact fun _ h => nomatch h⟩,
   ⟨(tst [] fun d => { d with rstc := { d.rstc with phase := .asserted, cold := false } }), by repeat' first | decide +kernel | rfl | exact True.intro | apply And.intro | constructor | (apply loads_all; decide +kernel) | (apply sram_all; decide +kernel) | (apply loads_two; decide +kernel) | exact fun _ h => nomatch h⟩,
   ⟨(tst [] fun d => { d with rstc := { d.rstc with phase := .asserted, cold := false, assertTick := 999999 } }), by repeat' first | decide +kernel | rfl | exact True.intro | apply And.intro | constructor | (apply loads_all; decide +kernel) | (apply sram_all; decide +kernel) | (apply loads_two; decide +kernel) | exact fun _ h => nomatch h⟩,
   ⟨(tst [(SYS_MODE.MODE, 2), (RSTC_SWDOG.EN, 1), (RSTC_SWDOG.TIME, 5)] fun d => { d with rstc := { d.rstc with swdCount := 5120 } }), by repeat' first | decide +kernel | rfl | exact True.intro | apply And.intro | constructor | (apply loads_all; decide +kernel) | (apply sram_all; decide +kernel) | (apply loads_two; decide +kernel) | exact fun _ h => nomatch h⟩,
   ⟨(tst [(SYS_MODE.MODE, 2), (RSTC_SWDOG.EN, 1), (RSTC_SWDOG.TIME, 5)] fun d => { d with rstc := { d.rstc with swdCount := 2560 } }), by repeat' first | decide +kernel | rfl | exact True.intro | apply And.intro | constructor | (apply loads_all; decide +kernel) | (apply sram_all; decide +kernel) | (apply loads_two; decide +kernel) | exact fun _ h => nomatch h⟩,
   ⟨(tst [] fun d => { d with rstc := { d.rstc with swdCount := 2560 } }), (.pcie : Initiator), by repeat' first | decide +kernel | rfl | exact True.intro | apply And.intro | constructor | (apply loads_all; decide +kernel) | (apply sram_all; decide +kernel) | (apply loads_two; decide +kernel) | exact fun _ h => nomatch h⟩,
   ⟨(tst [] fun d => { d with rstc := { d.rstc with swdCount := 2560 } }), (.pcie : Initiator), (5 : Word), by repeat' first | decide +kernel | rfl | exact True.intro | apply And.intro | constructor | (apply loads_all; decide +kernel) | (apply sram_all; decide +kernel) | (apply loads_two; decide +kernel) | exact fun _ h => nomatch h⟩,
   ⟨(tst []), (.pcie : Initiator), by repeat' first | decide +kernel | rfl | exact True.intro | apply And.intro | constructor | (apply loads_all; decide +kernel) | (apply sram_all; decide +kernel) | (apply loads_two; decide +kernel) | exact fun _ h => nomatch h⟩,
   ⟨(tst [(RSTC_HOLD.HOLD, 0x3F)] fun d => { d with rstc := { d.rstc with held := [(200, 1), (230, 1), (327, 0)] } }), (.pcie : Initiator), by repeat' first | decide +kernel | rfl | exact True.intro | apply And.intro | constructor | (apply loads_all; decide +kernel) | (apply sram_all; decide +kernel) | (apply loads_two; decide +kernel) | exact fun _ h => nomatch h⟩⟩

theorem witness_WarmResetAsserts :
    (∃ (s : State), let d := s.dev; s.dev.rstc.req ≠ [] ∧ s.dev.rstc.phase ≠ .asserted ∧ votesAgree d = true ∧ d.flash.op = none ∧ (∀ c ∈ upTo 8, (coreOfDev d c).issued = [])) ∧
    (∃ (s : State), let d := s.dev; s.dev.rstc.req ≠ [] ∧ s.dev.rstc.phase ≠ .asserted ∧ votesAgree d = true ∧ d.flash.op = none ∧ (∀ c ∈ upTo 8, (coreOfDev d c).issued = [])) ∧
    (∃ (s : State), let d := s.dev; s.dev.rstc.req ≠ [] ∧ s.dev.rstc.phase ≠ .asserted ∧ votesAgree d = true ∧ d.flash.op = none ∧ (∀ c ∈ upTo 8, (coreOfDev d c).issued = [])) :=
  ⟨⟨(tst [(SYS_MODE.MODE, 2), (RSTC_CAUSE.POR, 1), (TWIN_ROLE.ROLE, 1), (SEC_STAT.DBGUNL, 1)] fun d => { d with rstc := { d.rstc with req := [.nrst, .vote] }, merid := { d.merid with late := [] } }), by repeat' first | decide +kernel | rfl | exact True.intro | apply And.intro | constructor | (apply loads_all; decide +kernel) | (apply sram_all; decide +kernel) | (apply loads_two; decide +kernel) | exact fun _ h => nomatch h⟩,
   ⟨(tst [(SYS_MODE.MODE, 2), (RSTC_CAUSE.POR, 1), (TWIN_ROLE.ROLE, 1), (SEC_STAT.DBGUNL, 1)] fun d => { d with rstc := { d.rstc with req := [.nrst, .vote] }, merid := { d.merid with late := [] } }), by repeat' first | decide +kernel | rfl | exact True.intro | apply And.intro | constructor | (apply loads_all; decide +kernel) | (apply sram_all; decide +kernel) | (apply loads_two; decide +kernel) | exact fun _ h => nomatch h⟩,
   ⟨(tst [(SYS_MODE.MODE, 2), (RSTC_CAUSE.POR, 1), (TWIN_ROLE.ROLE, 1), (SEC_STAT.DBGUNL, 1)] fun d => { d with rstc := { d.rstc with req := [.nrst, .vote] }, merid := { d.merid with late := [] } }), by repeat' first | decide +kernel | rfl | exact True.intro | apply And.intro | constructor | (apply loads_all; decide +kernel) | (apply sram_all; decide +kernel) | (apply loads_two; decide +kernel) | exact fun _ h => nomatch h⟩⟩

theorem witness_Modes :
    (∃ (s : State) (ini : Initiator), let d := s.dev; Calm s ∧ Open ini 0 s ∧ mode d ≠ mStart ∧ mode d ≠ mPark ∧ mode d ≠ mConfig) ∧
    (∃ (s : State) (ini : Initiator), let d := s.dev; Calm s ∧ Open ini 0 s ∧ (mode d = mConfig ∨ mode d = mRecovery) ∧ gb d MERID_STAT.LOCK = true ∧ gb d MERID_STAT.CAL_OK = true ∧ gb d PACE_STAT.HELD = true ∧ roleOf d ≠ 2) ∧
    (∃ (s : State) (ini : Initiator), let d := s.dev; Calm s ∧ Open ini 0 s ∧ mode d ≠ mStart ∧ mode d ≠ mPark ∧ mode d ≠ mStandby ∧ roleOf d = 2 ∧ (mode d = mConfig → gb d (FOLIO_CTL.EN twinPage) = true)) ∧
    (∃ (s : State) (ini : Initiator), let d := s.dev; Calm s ∧ Open ini 0 s ∧ mode d ≠ mStart ∧ mode d ≠ mPark ∧ mode d ≠ mRecovery) ∧
    (∃ (s : State) (ini : Initiator), let d := s.dev; Calm s ∧ Open ini 0 s ∧ mode d ≠ mStart ∧ mode d ≠ mPark ∧ d.flash.op = none ∧ (∀ c ∈ upTo 8, (coreOfDev d c).wbuf = [] ∧ (coreOfDev d c).issued = []) ∧ d.galley.posted = []) ∧
    (∃ (s : State) (ini : Initiator), let d := s.dev; Calm s ∧ Open ini 0 s ∧ mode d ≠ mStart ∧ mode d ≠ mPark ∧ d.flash.op.isSome = true) ∧
    (∃ (s : State) (ini : Initiator), let d := s.dev; Calm s ∧ Open ini 0 s ∧ mode d ≠ mRun ∧ (mode d = mStart ∨ mode d = mStandby ∨ mode d = mPark ∨ gb d MERID_STAT.LOCK = false ∨ gb d MERID_STAT.CAL_OK = false ∨ gb d PACE_STAT.HELD = false ∨ roleOf d = 2)) ∧
    (∃ (s : State) (ini : Initiator), let d := s.dev; Calm s ∧ Open ini 0 s ∧ mode d = mStart) ∧
    (∃ (s : State) (ini : Initiator), let d := s.dev; Calm s ∧ Open ini 0 s ∧ mode d = mConfig) ∧
    (∃ (s : State) (ini : Initiator) (w : Fin 16) (v : Word), Calm s ∧ Open ini 2 s ∧ w.val < 8 ∧ (∀ i ∈ upTo 16, bit v (2 * i + 1) = false)) ∧
    (∃ (s : State) (ini : Initiator) (v : Word), Calm s ∧ Open ini 2 s ∧ (∀ i ∈ upTo 8, fld v (4 * i + 1) (4 * i) ≠ 3)) :=
  ⟨⟨(tst [(SYS_MODE.MODE, 2)]), (.pcie : Initiator), by repeat' first | decide +kernel | rfl | exact True.intro | apply And.intro | constructor | (apply loads_all; decide +kernel) | (apply sram_all; decide +kernel) | (apply loads_two; decide +kernel) | exact fun _ h => nomatch h⟩,
   ⟨(tst [(SYS_MODE.MODE, 1), (MERID_STAT.LOCK, 1), (MERID_STAT.CAL_OK, 1), (PACE_STAT.HELD, 1)]), (.pcie : Initiator), by repeat' first | decide +kernel | rfl | exact True.intro | apply And.intro | constructor | (apply loads_all; decide +kernel) | (apply sram_all; decide +kernel) | (apply loads_two; decide +kernel) | exact fun _ h => nomatch h⟩,
   ⟨(tst [(SYS_MODE.MODE, 1), (TWIN_ROLE.ROLE, 2), (FOLIO_CTL.EN twinPage, 1)]), (.pcie : Initiator), by repeat' first | decide +kernel | rfl | exact True.intro | apply And.intro | constructor | (apply loads_all; decide +kernel) | (apply sram_all; decide +kernel) | (apply loads_two; decide +kernel) | exact fun _ h => nomatch h⟩,
   ⟨(tst [(SYS_MODE.MODE, 2)]), (.pcie : Initiator), by repeat' first | decide +kernel | rfl | exact True.intro | apply And.intro | constructor | (apply loads_all; decide +kernel) | (apply sram_all; decide +kernel) | (apply loads_two; decide +kernel) | exact fun _ h => nomatch h⟩,
   ⟨(tst [(SYS_MODE.MODE, 2), (MERID_STAT.CAL_OK, 1)]), (.pcie : Initiator), by repeat' first | decide +kernel | rfl | exact True.intro | apply And.intro | constructor | (apply loads_all; decide +kernel) | (apply sram_all; decide +kernel) | (apply loads_two; decide +kernel) | exact fun _ h => nomatch h⟩,
   ⟨(tst [(SYS_MODE.MODE, 2)] fun d => withFlash d fun x => { x with op := some ⟨1, 0x8000013, 55, 3, none, 0, 0⟩ }), (.pcie : Initiator), by repeat' first | decide +kernel | rfl | exact True.intro | apply And.intro | constructor | (apply loads_all; decide +kernel) | (apply sram_all; decide +kernel) | (apply loads_two; decide +kernel) | exact fun _ h => nomatch h⟩,
   ⟨(tst [(SYS_MODE.MODE, 1), (MERID_STAT.LOCK, 0)]), (.pcie : Initiator), by repeat' first | decide +kernel | rfl | exact True.intro | apply And.intro | constructor | (apply loads_all; decide +kernel) | (apply sram_all; decide +kernel) | (apply loads_two; decide +kernel) | exact fun _ h => nomatch h⟩,
   ⟨(tst [(SYS_MODE.MODE, 0)]), (.pcie : Initiator), by repeat' first | decide +kernel | rfl | exact True.intro | apply And.intro | constructor | (apply loads_all; decide +kernel) | (apply sram_all; decide +kernel) | (apply loads_two; decide +kernel) | exact fun _ h => nomatch h⟩,
   ⟨(tst [(SYS_MODE.MODE, 1)]), (.pcie : Initiator), by repeat' first | decide +kernel | rfl | exact True.intro | apply And.intro | constructor | (apply loads_all; decide +kernel) | (apply sram_all; decide +kernel) | (apply loads_two; decide +kernel) | exact fun _ h => nomatch h⟩,
   ⟨(tst [(SYS_MODE.MODE, 1)]), (.pcie : Initiator), (5 : Fin 16), (0x11111 : Word), by repeat' first | decide +kernel | rfl | exact True.intro | apply And.intro | constructor | (apply loads_all; decide +kernel) | (apply sram_all; decide +kernel) | (apply loads_two; decide +kernel) | exact fun _ h => nomatch h⟩,
   ⟨(tst [(SYS_MODE.MODE, 1)]), (.pcie : Initiator), (0x11111 : Word), by repeat' first | decide +kernel | rfl | exact True.intro | apply And.intro | constructor | (apply loads_all; decide +kernel) | (apply sram_all; decide +kernel) | (apply loads_two; decide +kernel) | exact fun _ h => nomatch h⟩⟩

theorem witness_HostAccess :
    (∃ (s : State), let d := s.dev; Calm s ∧ gb d (FOLIO_CTL.EN 0x100) = true) ∧
    (∃ (s : State), let d := s.dev; Calm s ∧ gb d (FOLIO_CTL.EN 0x100) = true) ∧
    (∃ (s : State), let d := s.dev; Calm s ∧ hostServed d = true) ∧
    (∃ (s : State), let d := s.dev; Calm s ∧ hostServed d = true ∧ Open .pcie 0x100 s ∧ gb d SEC_CFG.HOSTAUTH = false ∧ d.fab.waiting = [] ∧ canTag d 35 = true ∧ d.fab.tags = []) ∧
    (∃ (s : State), let d := s.dev; Calm s ∧ hostServed d = true ∧ gb d SEC_CFG.HOSTAUTH = true) ∧
    (∃ (s : State), let d := s.dev; Calm s ∧ hostServed d = true) ∧
    (∃ (s : State), let d := s.dev; Calm s ∧ hostServed d = true) ∧
    (∃ (s : State), let d := s.dev; Calm s ∧ hostServed d = true ∧ d.fab.waiting = [] ∧ canTag d 35 = true ∧ d.fab.tags = []) ∧
    (∃ (s : State), let d := s.dev; Calm s ∧ hostServed d = true) ∧
    (∃ (s : State) (o : Nat), let d := s.dev; Calm s ∧ hostServed d = true ∧ (o = 0 ∨ o = 8 ∨ o = 0x100 ∨ o = 0x104)) ∧
    (∃ (s : State) (j : Nat), let d := s.dev; Calm s ∧ hostServed d = true ∧ SramWord s (barWord d j) ∧ s.mem.flaws = [] ∧ d.fab.waiting = [] ∧ canTag d 35 = true) ∧
    (∃ (s : State) (j : Nat), let d := s.dev; Calm s ∧ hostServed d = true ∧ (∀ i ∈ upTo 8, SramWord s (barWord d (8 * j + i))) ∧ s.mem.flaws = [] ∧ d.fab.waiting = [] ∧ canTag d 35 = true) ∧
    (∃ (s : State) (j : Nat), let d := s.dev; Calm s ∧ hostServed d = true ∧ SramWord s (barWord d j) ∧ s.mem.flaws = [] ∧ d.fab.waiting = [] ∧ canTag d 35 = true) ∧
    (∃ (s : State) (j : Nat), let d := s.dev; Calm s ∧ hostServed d = true ∧ (∀ i ∈ upTo 8, SramWord s (barWord d (8 * j + i))) ∧ s.mem.flaws = [] ∧ d.fab.waiting = [] ∧ canTag d 35 = true) ∧
    (∃ (s : State), let d := s.dev; Calm s ∧ linkOn d = true ∧ mode d = mPark) ∧
    (∃ (s : State) (n : BitVec 32), let d := s.dev; Calm s ∧ hostServed d = true ∧ d.host.held = false ∧ n ≠ 0) ∧
    (∃ (s : State), let d := s.dev; Calm s ∧ hostServed d = true ∧ d.host.held = true) ∧
    (∃ (s : State), let d := s.dev; Calm s ∧ hostServed d = true) ∧
    (∃ (s : State) (v : Fin 64), let d := s.dev; Calm s ∧ v.val ∈ d.host.msixDue ∧ linkOn d = true ∧ d.host.msixOn = true ∧ v.val ∉ d.host.msixMask) :=
  ⟨⟨(tst [(FOLIO_CTL.EN 0x100, 1)]), by repeat' first | decide +kernel | rfl | exact True.intro | apply And.intro | constructor | (apply loads_all; decide +kernel) | (apply sram_all; decide +kernel) | (apply loads_two; decide +kernel) | exact fun _ h => nomatch h⟩,
   ⟨(tst [(FOLIO_CTL.EN 0x100, 1), (PCIE_STAT.LINK, 2)]), by repeat' first | decide +kernel | rfl | exact True.intro | apply And.intro | constructor | (apply loads_all; decide +kernel) | (apply sram_all; decide +kernel) | (apply loads_two; decide +kernel) | exact fun _ h => nomatch h⟩,
   ⟨(tst [(SYS_MODE.MODE, 2), (PCIE_STAT.LINK, 2), (SEC_CFG.HOSTAUTH, 0), (PCIE_W2BASE.WIN, 4), (MEMP_INIT.DONE, 0x7FFFFFFFF), (FAB_RETIRE.MODE, 0), (FAB_BANKOFF.OFF, 0)]), by repeat' first | decide +kernel | rfl | exact True.intro | apply And.intro | constructor | (apply loads_all; decide +kernel) | (apply sram_all; decide +kernel) | (apply loads_two; decide +kernel) | exact fun _ h => nomatch h⟩,
   ⟨(tst [(SYS_MODE.MODE, 2), (PCIE_STAT.LINK, 2), (SEC_CFG.HOSTAUTH, 0), (PCIE_W2BASE.WIN, 4), (MEMP_INIT.DONE, 0x7FFFFFFFF), (FAB_RETIRE.MODE, 0), (FAB_BANKOFF.OFF, 0)] fun d => withHost d fun h => { h with stage := 8 }), by repeat' first | decide +kernel | rfl | exact True.intro | apply And.intro | constructor | (apply loads_all; decide +kernel) | (apply sram_all; decide +kernel) | (apply loads_two; decide +kernel) | exact fun _ h => nomatch h⟩,
   ⟨(tst [(SYS_MODE.MODE, 2), (PCIE_STAT.LINK, 2), (SEC_CFG.HOSTAUTH, 1)]), by repeat' first | decide +kernel | rfl | exact True.intro | apply And.intro | constructor | (apply loads_all; decide +kernel) | (apply sram_all; decide +kernel) | (apply loads_two; decide +kernel) | exact fun _ h => nomatch h⟩,
   ⟨(tst [(SYS_MODE.MODE, 2), (PCIE_STAT.LINK, 2), (SEC_CFG.HOSTAUTH, 0), (PCIE_W2BASE.WIN, 4), (MEMP_INIT.DONE, 0x7FFFFFFFF), (FAB_RETIRE.MODE, 0), (FAB_BANKOFF.OFF, 0)]), by repeat' first | decide +kernel | rfl | exact True.intro | apply And.intro | constructor | (apply loads_all; decide +kernel) | (apply sram_all; decide +kernel) | (apply loads_two; decide +kernel) | exact fun _ h => nomatch h⟩,
   ⟨(tst [(SYS_MODE.MODE, 2), (PCIE_STAT.LINK, 2), (SEC_CFG.HOSTAUTH, 0), (PCIE_W2BASE.WIN, 4), (MEMP_INIT.DONE, 0x7FFFFFFFF), (FAB_RETIRE.MODE, 0), (FAB_BANKOFF.OFF, 0)]), by repeat' first | decide +kernel | rfl | exact True.intro | apply And.intro | constructor | (apply loads_all; decide +kernel) | (apply sram_all; decide +kernel) | (apply loads_two; decide +kernel) | exact fun _ h => nomatch h⟩,
   ⟨(tst [(SYS_MODE.MODE, 2), (PCIE_STAT.LINK, 2), (SEC_CFG.HOSTAUTH, 0), (PCIE_W2BASE.WIN, 4), (MEMP_INIT.DONE, 0x7FFFFFFFF), (FAB_RETIRE.MODE, 0), (FAB_BANKOFF.OFF, 0), (PCIE_MSIXSRC.EN 5, 1), (PCIE_MSIXSRC.SRC 5, 77)]), by repeat' first | decide +kernel | rfl | exact True.intro | apply And.intro | constructor | (apply loads_all; decide +kernel) | (apply sram_all; decide +kernel) | (apply loads_two; decide +kernel) | exact fun _ h => nomatch h⟩,
   ⟨(tst [(SYS_MODE.MODE, 2), (PCIE_STAT.LINK, 2), (SEC_CFG.HOSTAUTH, 0), (PCIE_W2BASE.WIN, 4), (MEMP_INIT.DONE, 0x7FFFFFFFF), (FAB_RETIRE.MODE, 0), (FAB_BANKOFF.OFF, 0)] fun d => withHost d fun h => { h with capture := 8 }), by repeat' first | decide +kernel | rfl | exact True.intro | apply And.intro | constructor | (apply loads_all; decide +kernel) | (apply sram_all; decide +kernel) | (apply loads_two; decide +kernel) | exact fun _ h => nomatch h⟩,
   ⟨(tst [(SYS_MODE.MODE, 2), (PCIE_STAT.LINK, 2), (SEC_CFG.HOSTAUTH, 0), (PCIE_W2BASE.WIN, 4), (MEMP_INIT.DONE, 0x7FFFFFFFF), (FAB_RETIRE.MODE, 0), (FAB_BANKOFF.OFF, 0)] fun d => withHost d fun h => { h with cmdLen := 8 }), (0x100 : Nat), by repeat' first | decide +kernel | rfl | exact True.intro | apply And.intro | constructor | (apply loads_all; decide +kernel) | (apply sram_all; decide +kernel) | (apply loads_two; decide +kernel) | exact fun _ h => nomatch h⟩,
   ⟨({ tst [(SYS_MODE.MODE, 2), (PCIE_STAT.LINK, 2), (SEC_CFG.HOSTAUTH, 0), (PCIE_W2BASE.WIN, 4), (MEMP_INIT.DONE, 0x7FFFFFFFF), (FAB_RETIRE.MODE, 0), (FAB_BANKOFF.OFF, 0)] (fun d => withHost d fun h => { h with stage := 0 }) with mem := memOf [(0x4001234, 0x923456789)] }), (0x1234 : Nat), by repeat' first | decide +kernel | rfl | exact True.intro | apply And.intro | constructor | (apply loads_all; decide +kernel) | (apply sram_all; decide +kernel) | (apply loads_two; decide +kernel) | exact fun _ h => nomatch h⟩,
   ⟨({ tst [(SYS_MODE.MODE, 2), (PCIE_STAT.LINK, 2), (SEC_CFG.HOSTAUTH, 0), (PCIE_W2BASE.WIN, 4), (MEMP_INIT.DONE, 0x7FFFFFFFF), (FAB_RETIRE.MODE, 0), (FAB_BANKOFF.OFF, 0)] (fun d => withHost d fun h => { h with stage := 0 }) with mem := memOf [(0x4001234, 0x923456789)] }), (0x246 : Nat), by repeat' first | decide +kernel | rfl | exact True.intro | apply And.intro | constructor | (apply loads_all; decide +kernel) | (apply sram_all; decide +kernel) | (apply loads_two; decide +kernel) | exact fun _ h => nomatch h⟩,
   ⟨({ tst [(SYS_MODE.MODE, 2), (PCIE_STAT.LINK, 2), (SEC_CFG.HOSTAUTH, 0), (PCIE_W2BASE.WIN, 4), (MEMP_INIT.DONE, 0x7FFFFFFFF), (FAB_RETIRE.MODE, 0), (FAB_BANKOFF.OFF, 0)] (fun d => withHost d fun h => { h with stage := 0 }) with mem := memOf [(0x4001234, 0x923456789)] }), (0x1234 : Nat), by repeat' first | decide +kernel | rfl | exact True.intro | apply And.intro | constructor | (apply loads_all; decide +kernel) | (apply sram_all; decide +kernel) | (apply loads_two; decide +kernel) | exact fun _ h => nomatch h⟩,
   ⟨({ tst [(SYS_MODE.MODE, 2), (PCIE_STAT.LINK, 2), (SEC_CFG.HOSTAUTH, 0), (PCIE_W2BASE.WIN, 4), (MEMP_INIT.DONE, 0x7FFFFFFFF), (FAB_RETIRE.MODE, 0), (FAB_BANKOFF.OFF, 0)] (fun d => withHost d fun h => { h with stage := 0 }) with mem := memOf [(0x4001234, 0x923456789)] }), (0x246 : Nat), by repeat' first | decide +kernel | rfl | exact True.intro | apply And.intro | constructor | (apply loads_all; decide +kernel) | (apply sram_all; decide +kernel) | (apply loads_two; decide +kernel) | exact fun _ h => nomatch h⟩,
   ⟨(tst [(SYS_MODE.MODE, 5), (PCIE_STAT.LINK, 2)] fun d => withHost d fun h => { h with readBack := some 5 }), by repeat' first | decide +kernel | rfl | exact True.intro | apply And.intro | constructor | (apply loads_all; decide +kernel) | (apply sram_all; decide +kernel) | (apply loads_two; decide +kernel) | exact fun _ h => nomatch h⟩,
   ⟨(tst [(SYS_MODE.MODE, 2), (PCIE_STAT.LINK, 2), (SEC_CFG.HOSTAUTH, 0), (PCIE_W2BASE.WIN, 4), (MEMP_INIT.DONE, 0x7FFFFFFFF), (FAB_RETIRE.MODE, 0), (FAB_BANKOFF.OFF, 0)] fun d => withHost d fun h => { h with held := false }), (35 : BitVec 32), by repeat' first | decide +kernel | rfl | exact True.intro | apply And.intro | constructor | (apply loads_all; decide +kernel) | (apply sram_all; decide +kernel) | (apply loads_two; decide +kernel) | exact fun _ h => nomatch h⟩,
   ⟨(tst [(SYS_MODE.MODE, 2), (PCIE_STAT.LINK, 2), (SEC_CFG.HOSTAUTH, 0), (PCIE_W2BASE.WIN, 4), (MEMP_INIT.DONE, 0x7FFFFFFFF), (FAB_RETIRE.MODE, 0), (FAB_BANKOFF.OFF, 0)] fun d => withHost d fun h => { h with held := true }), by repeat' first | decide +kernel | rfl | exact True.intro | apply And.intro | constructor | (apply loads_all; decide +kernel) | (apply sram_all; decide +kernel) | (apply loads_two; decide +kernel) | exact fun _ h => nomatch h⟩,
   ⟨(tst [(SYS_MODE.MODE, 2), (PCIE_STAT.LINK, 2), (SEC_CFG.HOSTAUTH, 0), (PCIE_W2BASE.WIN, 4), (MEMP_INIT.DONE, 0x7FFFFFFFF), (FAB_RETIRE.MODE, 0), (FAB_BANKOFF.OFF, 0)] fun d => withHost d fun h => { h with rspLen := 9 }), by repeat' first | decide +kernel | rfl | exact True.intro | apply And.intro | constructor | (apply loads_all; decide +kernel) | (apply sram_all; decide +kernel) | (apply loads_two; decide +kernel) | exact fun _ h => nomatch h⟩,
   ⟨(tst [(SYS_MODE.MODE, 2), (PCIE_STAT.LINK, 2), (SEC_CFG.HOSTAUTH, 0), (PCIE_W2BASE.WIN, 4), (MEMP_INIT.DONE, 0x7FFFFFFFF), (FAB_RETIRE.MODE, 0), (FAB_BANKOFF.OFF, 0)] fun d => withHost d fun h => { h with msixDue := [3, 5], msix := [9] }), (5 : Fin 64), by repeat' first | decide +kernel | rfl | exact True.intro | apply And.intro | constructor | (apply loads_all; decide +kernel) | (apply sram_all; decide +kernel) | (apply loads_two; decide +kernel) | exact fun _ h => nomatch h⟩⟩

theorem witness_FieldLinks :
    (∃ (s : State) (m : Fin 2) (c : Fin 8) (b : Word) (x : Word), let d := s.dev; Calm s ∧ tabFind d.galley.recs (192 + 8 * m.val + c.val) = some ⟨[b, x], false⟩ ∧ gb d (ETH_CTL.TXEN m) = true ∧ ifMode d = true ∧ 14 ≤ fld x 15 0 ∧ fld x 15 0 ≤ 1514 ∧ (ethOf d m).gclLen = 0 ∧ (ethOf d m).gates.testBit c = true ∧ (ethOf d m).busyTo ≤ d.now ∧ canTag d (36 + m) = true ∧ d.fab.waiting = [] ∧ (∀ i ∈ upTo 379, SramWord s (fld b 27 0 + i)) ∧ s.mem.flaws = [] ∧ ((d.offers.filter fun o => decide (o.producer = 104 + m.val)) = [])) ∧
    (∃ (s : State) (m : Fin 2) (c : Fin 8) (b : Word) (x : Word), let d := s.dev; Calm s ∧ tabFind d.galley.recs (192 + 8 * m.val + c.val) = some ⟨[b, x], false⟩ ∧ gb d (ETH_CTL.TXEN m) = true ∧ ifMode d = true ∧ 14 ≤ fld x 15 0 ∧ fld x 15 0 ≤ 1514 ∧ (ethOf d m).busyTo ≤ d.now ∧ gateHolds m c (frameTime d m (fld x 15 0)) s = false) ∧
    (∃ (s : State) (m : Fin 2) (f : List (BitVec 8)) (q : Nat) (y : QDesc) (w : Word), let d := s.dev; Calm s ∧ gb d (ETH_CTL.RXEN m) = true ∧ ifMode d = true ∧ ethInput d m = true ∧ canTag d (36 + m) = true ∧ q = gf d (ETH_FREEQ.Q m) ∧ Serving s q y ∧ y.fill ≠ 0 ∧ d.galley.posted = [] ∧ d.galley.parked = [] ∧ w = storedWord s.mem (y.slot y.head) ∧ (∀ i ∈ upTo 5, SramWord s (fld w 27 0 + i)) ∧ (∀ i ∈ upTo 5, ∀ k ∈ upTo 4, fld w 27 0 + i ≠ descAddr q k) ∧ f.length = 20 ∧ (f.getD 0 0).getLsbD 0 = true ∧ (f.getD 12 0 ≠ 0x88#8 ∨ f.getD 13 0 ≠ 0xF7#8) ∧ ((d.offers.filter fun o => decide (o.producer = 104 + m.val)) = [])) ∧
    (∃ (s : State) (m : Fin 2) (f : List (BitVec 8)) (q : Nat) (y : QDesc), let d := s.dev; Calm s ∧ gb d (ETH_CTL.RXEN m) = true ∧ ifMode d = true ∧ ethInput d m = true ∧ canTag d (36 + m) = true ∧ q = gf d (ETH_FREEQ.Q m) ∧ Serving s q y ∧ y.fill = 0 ∧ d.galley.posted = [] ∧ d.galley.parked = [] ∧ ethAccepts d m f = true) ∧
    (∃ (s : State) (m : Fin 2) (v : Word) (w : Word) (el : Int), let d := s.dev; Calm s ∧ gclDue m s = true ∧ (ethOf d m).gclLen = 2 ∧ (ethOf d m).gclAnchor < 2 ^ 36 ∧ SramWord s (ethOf d m).gclBase ∧ SramWord s ((ethOf d m).gclBase + 1) ∧ s.mem.flaws = [] ∧ v = storedWord s.mem (ethOf d m).gclBase ∧ w = storedWord s.mem ((ethOf d m).gclBase + 1) ∧ stampAfter (shortTs d).toNat (ethOf d m).gclAnchor = el ∧ (fld v 27 0 : Int) ≤ el ∧ el < fld v 27 0 + fld w 27 0) ∧
    (∃ (s : State) (ini : Initiator) (m : Fin 2), let d := s.dev; Calm s ∧ Open ini (0x101 + m) s ∧ gb d (ETH_MDIO.BUSY m) = false) ∧
    (∃ (s : State) (m : Fin 2) (x : Bool × Nat × Nat × Nat), let d := s.dev; Calm s ∧ (ethOf d m).mdio = some x) ∧
    (∃ (s : State), Calm s) ∧
    (∃ (s : State) (n : Fin 8) (x : IfRec), let d := s.dev; Calm s ∧ tabFind d.galley.recs (208 + n.val) = some x ∧ x.bad = false ∧ recComplete (208 + n.val) x.words = true ∧ canLive d n = true ∧ gb d (CANF_CTL.LOM n) = false ∧ bit (x.words.getD 0 0) 35 = false ∧ pinFunc d (28 + 2 * n.val) = 1 ∧ pinFunc d (29 + 2 * n.val) = 1) ∧
    (∃ (s : State) (n : Fin 8) (ok : Bool) (x : IfRec), let d := s.dev; Calm s ∧ tabFind d.galley.recs (208 + n.val) = some x ∧ x.bad = false ∧ recComplete (208 + n.val) x.words = true ∧ canLive d n = true ∧ gb d (CANF_CTL.LOM n) = false ∧ bit (x.words.getD 0 0) 35 = false ∧ (ok && pinFunc d (28 + 2 * n.val) == 1 && pinFunc d (29 + 2 * n.val) == 1) = false) ∧
    (∃ (s : State) (n : Fin 8) (w0 : Word) (w1 : Word) (f : List (BitVec 8)), let d := s.dev; Calm s ∧ canLive d n = true ∧ pinFunc d (29 + 2 * n.val) = 1 ∧ w0 &&& maskOf 35 29 = 0 ∧ w1 &&& maskOf 35 4 = 0 ∧ 1 ≤ fld w1 3 0 ∧ fld w1 3 0 ≤ 4 ∧ f.length = fld w1 3 0 ∧ gb d (CANF_CTL.LOM n) = false ∧ gf d (CANF_STAT.REC n) ≤ 127 ∧ (∀ k ∈ upTo 8, gb d (CANF_ID.EN n k) = false) ∧ ((d.offers.filter fun o => decide (o.producer = 106 + n.val)) = [])) ∧
    (∃ (s : State) (n : Fin 8) (w0 : Word), let d := s.dev; Calm s ∧ canLive d n = true ∧ pinFunc d (29 + 2 * n.val) = 1 ∧ gb d (CANF_CTL.LOM n) = false ∧ bit w0 35 = false) ∧
    (∃ (s : State) (ini : Initiator) (n : Fin 8), let d := s.dev; Calm s ∧ Open ini (0x108 + n) s ∧ gf d (CANF_STAT.STATE n) = 2) ∧
    (∃ (s : State) (n : Fin 8), let d := s.dev; Calm s ∧ (canOf d n).recovering = true) ∧
    (∃ (s : State) (k : Fin 18) (w0 : Word) (w1 : Word), let d := s.dev; Calm s ∧ tabFind d.galley.recs (216 + k.val) = some ⟨[w0, w1], false⟩ ∧ serOn d k = true ∧ ifMode d = true ∧ 1 ≤ fld w1 2 0 ∧ fld w1 2 0 ≤ 4) ∧
    (∃ (s : State) (k : Fin 18), let d := s.dev; Calm s ∧ serOn d k = true ∧ ifMode d = true ∧ serInput d k = true ∧ (k.val < 16 ∨ gb d (I2C_CTL.TARGET (k - 16)) = false) ∧ ((d.offers.filter fun o => decide (o.producer = 114 + k.val)) = [])) :=
  ⟨⟨({ tst [(SYS_MODE.MODE, 2), (MEMP_INIT.DONE, 0x7FFFFFFFF), (FAB_RETIRE.MODE, 0), (FAB_BANKOFF.OFF, 0), (ETH_CTL.TXEN 1, 1), (ETH_DONEQ.Q 1, 9)] (fun d => withGalley d fun g => { g with recs := [(202, ⟨[0x4001000, 0x10040], false⟩)] }) with mem := memOf [] }), (1 : Fin 2), (2 : Fin 8), (0x4001000 : Word), (0x10040 : Word), by repeat' first | decide +kernel | rfl | exact True.intro | apply And.intro | constructor | (apply loads_all; decide +kernel) | (apply sram_all; decide +kernel) | (apply loads_two; decide +kernel) | exact fun _ h => nomatch h⟩,
   ⟨({ tst [(SYS_MODE.MODE, 2), (MEMP_INIT.DONE, 0x7FFFFFFFF), (FAB_RETIRE.MODE, 0), (FAB_BANKOFF.OFF, 0), (ETH_CTL.TXEN 1, 1), (ETH_DONEQ.Q 1, 9), (ETH_GCLLEN.LEN 1, 1)] (fun d => withEth (withGalley d fun g => { g with recs := [(202, ⟨[0x4001000, 0x10040], false⟩)] }) 1 fun x => { x with gclLen := 1, gates := 255, gclEnd := 1 }) with mem := memOf [] }), (1 : Fin 2), (2 : Fin 8), (0x4001000 : Word), (0x10040 : Word), by repeat' first | decide +kernel | rfl | exact True.intro | apply And.intro | constructor | (apply loads_all; decide +kernel) | (apply sram_all; decide +kernel) | (apply loads_two; decide +kernel) | exact fun _ h => nomatch h⟩,
   ⟨({ tst [(SYS_MODE.MODE, 2), (MEMP_INIT.DONE, 0x7FFFFFFFF), (FAB_RETIRE.MODE, 0), (FAB_BANKOFF.OFF, 0), (ETH_CTL.RXEN 1, 1), (ETH_RXQ.Q 1, 9), (ETH_FREEQ.Q 1, 5), (⟨PINC_FUNC.at 1, 31, 0⟩, 0x55555555)] (fun d => d) with mem := memOf (descAt 5 ((⟨0x820000100, 0x120007, 0, 0⟩ : QDesc).fixPar) ++ [(0x4000107, 0x4002000)]) }), (1 : Fin 2), ((List.range 20).map fun i => BitVec.ofNat 8 (i+1) : List (BitVec 8)), (5 : Nat), ((⟨0x820000100, 0x120007, 0, 0⟩ : QDesc).fixPar : QDesc), (0x4002000 : Word), by repeat' first | decide +kernel | rfl | exact True.intro | apply And.intro | constructor | (apply loads_all; decide +kernel) | (apply sram_all; decide +kernel) | (apply loads_two; decide +kernel) | exact fun _ h => nomatch h⟩,
   ⟨({ tst [(SYS_MODE.MODE, 2), (MEMP_INIT.DONE, 0x7FFFFFFFF), (FAB_RETIRE.MODE, 0), (FAB_BANKOFF.OFF, 0), (ETH_CTL.RXEN 1, 1), (ETH_RXQ.Q 1, 9), (ETH_FREEQ.Q 1, 5), (⟨PINC_FUNC.at 1, 31, 0⟩, 0x55555555)] (fun d => d) with mem := memOf (descAt 5 ((⟨0x820000100, 0xE0007, 0, 0⟩ : QDesc).fixPar)) }), (1 : Fin 2), ((List.range 20).map fun i => BitVec.ofNat 8 (i+1) : List (BitVec 8)), (5 : Nat), ((⟨0x820000100, 0xE0007, 0, 0⟩ : QDesc).fixPar : QDesc), by repeat' first | decide +kernel | rfl | exact True.intro | apply And.intro | constructor | (apply loads_all; decide +kernel) | (apply sram_all; decide +kernel) | (apply loads_two; decide +kernel) | exact fun _ h => nomatch h⟩,
   ⟨({ tst [(SYS_MODE.MODE, 2), (MEMP_INIT.DONE, 0x7FFFFFFFF), (FAB_RETIRE.MODE, 0), (FAB_BANKOFF.OFF, 0)] (fun d => withEth d 1 fun x => { x with gclLen := 2, gclBase := 0x4001000, gclAnchor := 2 ^ 36 - 150, gclIdx := 0, gclFrom := 2 ^ 36 - 150, gclEnd := 2 ^ 36 - 50 }) with mem := memOf [(0x4001000, 0xF00000064), (0x4001001, 0x300000064)] }), (1 : Fin 2), (0xF00000064 : Word), (0x300000064 : Word), (150 : Int), by repeat' first | decide +kernel | rfl | exact True.intro | apply And.intro | constructor | (apply loads_all; decide +kernel) | (apply sram_all; decide +kernel) | (apply loads_two; decide +kernel) | exact fun _ h => nomatch h⟩,
   ⟨(tst [(ETH_MDIO.BUSY 1, 0)]), (.pcie : Initiator), (1 : Fin 2), by repeat' first | decide +kernel | rfl | exact True.intro | apply And.intro | constructor | (apply loads_all; decide +kernel) | (apply sram_all; decide +kernel) | (apply loads_two; decide +kernel) | exact fun _ h => nomatch h⟩,
   ⟨(tst [(ETH_MDIO.BUSY 1, 1)] fun d => withEth d 1 fun x => { x with mdio := some (false, 1, 2, 3) }), (1 : Fin 2), ((false, 1, 2, 3) : Bool × Nat × Nat × Nat), by repeat' first | decide +kernel | rfl | exact True.intro | apply And.intro | constructor | (apply loads_all; decide +kernel) | (apply sram_all; decide +kernel) | (apply loads_two; decide +kernel) | exact fun _ h => nomatch h⟩,
   ⟨(tst [(ETH_CTL.SGAN 1, 1)]), by repeat' first | decide +kernel | rfl | exact True.intro | apply And.intro | constructor | (apply loads_all; decide +kernel) | (apply sram_all; decide +kernel) | (apply loads_two; decide +kernel) | exact fun _ h => nomatch h⟩,
   ⟨({ tst [(SYS_MODE.MODE, 2), (MEMP_INIT.DONE, 0x7FFFFFFFF), (FAB_RETIRE.MODE, 0), (FAB_BANKOFF.OFF, 0), (CANF_CTL.EN 3, 1), (CANF_STAT.TEC 3, 9), (⟨PINC_FUNC.at 2, 31, 0⟩, 0x55555555)] (fun d => withGalley d fun g => { g with recs := [(211, ⟨[0x123, 0, 0], false⟩)] }) with mem := memOf [] }), (3 : Fin 8), (⟨[0x123, 0, 0], false⟩ : IfRec), by repeat' first | decide +kernel | rfl | exact True.intro | apply And.intro | constructor | (apply loads_all; decide +kernel) | (apply sram_all; decide +kernel) | (apply loads_two; decide +kernel) | exact fun _ h => nomatch h⟩,
   ⟨({ tst [(SYS_MODE.MODE, 2), (MEMP_INIT.DONE, 0x7FFFFFFFF), (FAB_RETIRE.MODE, 0), (FAB_BANKOFF.OFF, 0), (CANF_CTL.EN 3, 1), (CANF_STAT.TEC 3, 250)] (fun d => withGalley d fun g => { g with recs := [(211, ⟨[0x123, 0, 0], false⟩)] }) with mem := memOf [] }), (3 : Fin 8), (true : Bool), (⟨[0x123, 0, 0], false⟩ : IfRec), by repeat' first | decide +kernel | rfl | exact True.intro | apply And.intro | constructor | (apply loads_all; decide +kernel) | (apply sram_all; decide +kernel) | (apply loads_two; decide +kernel) | exact fun _ h => nomatch h⟩,
   ⟨({ tst [(SYS_MODE.MODE, 2), (MEMP_INIT.DONE, 0x7FFFFFFFF), (FAB_RETIRE.MODE, 0), (FAB_BANKOFF.OFF, 0), (CANF_CTL.EN 3, 1), (CANF_STAT.REC 3, 9), (CANF_RXQ.Q 3, 7), (⟨PINC_FUNC.at 2, 31, 0⟩, 0x55555555)] (fun d => d) with mem := memOf [] }), (3 : Fin 8), (0x123 : Word), (3 : Word), ([0x11, 0x22, 0x33] : List (BitVec 8)), by repeat' first | decide +kernel | rfl | exact True.intro | apply And.intro | constructor | (apply loads_all; decide +kernel) | (apply sram_all; decide +kernel) | (apply loads_two; decide +kernel) | exact fun _ h => nomatch h⟩,
   ⟨({ tst [(SYS_MODE.MODE, 2), (MEMP_INIT.DONE, 0x7FFFFFFFF), (FAB_RETIRE.MODE, 0), (FAB_BANKOFF.OFF, 0), (CANF_CTL.EN 3, 1), (CANF_STAT.REC 3, 9), (CANF_RXQ.Q 3, 7), (⟨PINC_FUNC.at 2, 31, 0⟩, 0x55555555)] (fun d => d) with mem := memOf [] }), (3 : Fin 8), (0x123 : Word), by repeat' first | decide +kernel | rfl | exact True.intro | apply And.intro | constructor | (apply loads_all; decide +kernel) | (apply sram_all; decide +kernel) | (apply loads_two; decide +kernel) | exact fun _ h => nomatch h⟩,
   ⟨(tst [(CANF_STAT.STATE 3, 2)]), (.pcie : Initiator), (3 : Fin 8), by repeat' first | decide +kernel | rfl | exact True.intro | apply And.intro | constructor | (apply loads_all; decide +kernel) | (apply sram_all; decide +kernel) | (apply loads_two; decide +kernel) | exact fun _ h => nomatch h⟩,
   ⟨(tst [(CANF_STAT.STATE 3, 2)] fun d => withCan d 3 fun x => { x with recovering := true }), (3 : Fin 8), by repeat' first | decide +kernel | rfl | exact True.intro | apply And.intro | constructor | (apply loads_all; decide +kernel) | (apply sram_all; decide +kernel) | (apply loads_two; decide +kernel) | exact fun _ h => nomatch h⟩,
   ⟨({ tst [(SYS_MODE.MODE, 2), (MEMP_INIT.DONE, 0x7FFFFFFFF), (FAB_RETIRE.MODE, 0), (FAB_BANKOFF.OFF, 0), (⟨serCtl 9, 35, 35⟩, 1)] (fun d => withGalley d fun g => { g with recs := [(225, ⟨[0x1234, 2], false⟩)] }) with mem := memOf [] }), (9 : Fin 18), (0x1234 : Word), (2 : Word), by repeat' first | decide +kernel | rfl | exact True.intro | apply And.intro | constructor | (apply loads_all; decide +kernel) | (apply sram_all; decide +kernel) | (apply loads_two; decide +kernel) | exact fun _ h => nomatch h⟩,
   ⟨({ tst [(SYS_MODE.MODE, 2), (MEMP_INIT.DONE, 0x7FFFFFFFF), (FAB_RETIRE.MODE, 0), (FAB_BANKOFF.OFF, 0), (⟨serCtl 9, 35, 35⟩, 1), (⟨PINC_FUNC.at 4, 31, 0⟩, 0x55555555)] (fun d => d) with mem := memOf [] }), (9 : Fin 18), by repeat' first | decide +kernel | rfl | exact True.intro | apply And.intro | constructor | (apply loads_all; decide +kernel) | (apply sram_all; decide +kernel) | (apply loads_two; decide +kernel) | exact fun _ h => nomatch h⟩⟩

theorem witness_PinsAndBoundary :
    (∃ (s : State) (ini : Initiator) (b : Fin 4), Calm s ∧ Open ini (0x130 + b) s) ∧
    (∃ (s : State) (ini : Initiator) (b : Fin 4), Calm s ∧ Open ini (0x130 + b) s) ∧
    (∃ (s : State), Calm s) ∧
    (∃ (s : State) (ini : Initiator), Calm s ∧ Open ini 0x122 s) ∧
    (∃ (s : State), Calm s) ∧
    (∃ (s : State), Calm s) ∧
    (∃ (s : State), Calm s) ∧
    (∃ (s : State), Calm s) ∧
    (∃ (s : State), Calm s) ∧
    (∃ (s : State), Calm s) :=
  ⟨⟨(tst [(GPIO_OUT.OUT 1, 0x70)] fun d => withHost d fun h => { h with gpioClr := [(1, (1000000, 4))] }), (.pcie : Initiator), (1 : Fin 4), by repeat' first | decide +kernel | rfl | exact True.intro | apply And.intro | constructor | (apply loads_all; decide +kernel) | (apply sram_all; decide +kernel) | (apply loads_two; decide +kernel) | exact fun _ h => nomatch h⟩,
   ⟨(tst [(GPIO_OUT.OUT 1, 0x70)]), (.pcie : Initiator), (1 : Fin 4), by repeat' first | decide +kernel | rfl | exact True.intro | apply And.intro | constructor | (apply loads_all; decide +kernel) | (apply sram_all; decide +kernel) | (apply loads_two; decide +kernel) | exact fun _ h => nomatch h⟩,
   ⟨(tst [(⟨GPIO_EDGE.at 1 0, 35, 0⟩, 0xC00)]), by repeat' first | decide +kernel | rfl | exact True.intro | apply And.intro | constructor | (apply loads_all; decide +kernel) | (apply sram_all; decide +kernel) | (apply loads_two; decide +kernel) | exact fun _ h => nomatch h⟩,
   ⟨(tst [(AVS_STAT.FAILS, 9)]), (.pcie : Initiator), by repeat' first | decide +kernel | rfl | exact True.intro | apply And.intro | constructor | (apply loads_all; decide +kernel) | (apply sram_all; decide +kernel) | (apply loads_two; decide +kernel) | exact fun _ h => nomatch h⟩,
   ⟨(tst []), by repeat' first | decide +kernel | rfl | exact True.intro | apply And.intro | constructor | (apply loads_all; decide +kernel) | (apply sram_all; decide +kernel) | (apply loads_two; decide +kernel) | exact fun _ h => nomatch h⟩,
   ⟨(tst [] fun d => { d with latch := [(0, 77)] }), by repeat' first | decide +kernel | rfl | exact True.intro | apply And.intro | constructor | (apply loads_all; decide +kernel) | (apply sram_all; decide +kernel) | (apply loads_two; decide +kernel) | exact fun _ h => nomatch h⟩,
   ⟨(tst []), by repeat' first | decide +kernel | rfl | exact True.intro | apply And.intro | constructor | (apply loads_all; decide +kernel) | (apply sram_all; decide +kernel) | (apply loads_two; decide +kernel) | exact fun _ h => nomatch h⟩,
   ⟨(tst []), by repeat' first | decide +kernel | rfl | exact True.intro | apply And.intro | constructor | (apply loads_all; decide +kernel) | (apply sram_all; decide +kernel) | (apply loads_two; decide +kernel) | exact fun _ h => nomatch h⟩,
   ⟨(tst []), by repeat' first | decide +kernel | rfl | exact True.intro | apply And.intro | constructor | (apply loads_all; decide +kernel) | (apply sram_all; decide +kernel) | (apply loads_two; decide +kernel) | exact fun _ h => nomatch h⟩,
   ⟨(tst []), by repeat' first | decide +kernel | rfl | exact True.intro | apply And.intro | constructor | (apply loads_all; decide +kernel) | (apply sram_all; decide +kernel) | (apply loads_two; decide +kernel) | exact fun _ h => nomatch h⟩⟩

theorem witness_PaceBounds :
    (∃ (s : State) (ini : Initiator) (v : Word), Calm s ∧ Open ini 4 s ∧ (fld v 6 0 < 32 ∨ 80 < fld v 6 0)) ∧
    (∃ (s : State) (ini : Initiator) (v : Word), let d := s.dev; Calm s ∧ Open ini 4 s ∧ (fld v 9 0 % 5 ≠ 0 ∨ fld v 9 0 < 700 ∨ gf d PACE_VMAX.VMAX < fld v 9 0 ∨ 950 < fld v 9 0)) ∧
    (∃ (s : State) (ini : Initiator) (v : Word), let d := s.dev; Calm s ∧ Open ini 4 s ∧ (fld v 9 0 % 5 ≠ 0 ∨ fld v 9 0 < gf d PACE_VMIN.VMIN ∨ fld v 9 0 < 700 ∨ 950 < fld v 9 0)) :=
  ⟨⟨(tst [(PACE_STAT.HELD, 1), (PACE_TARGET.TARGET, 48)]), (.pcie : Initiator), (81 : Word), by repeat' first | decide +kernel | rfl | exact True.intro | apply And.intro | constructor | (apply loads_all; decide +kernel) | (apply sram_all; decide +kernel) | (apply loads_two; decide +kernel) | exact fun _ h => nomatch h⟩,
   ⟨(tst [(PACE_VMIN.VMIN, 700), (PACE_VMAX.VMAX, 800)]), (.pcie : Initiator), (695 : Word), by repeat' first | decide +kernel | rfl | exact True.intro | apply And.intro | constructor | (apply loads_all; decide +kernel) | (apply sram_all; decide +kernel) | (apply loads_two; decide +kernel) | exact fun _ h => nomatch h⟩,
   ⟨(tst [(PACE_VMIN.VMIN, 700), (PACE_VMAX.VMAX, 800)]), (.pcie : Initiator), (951 : Word), by repeat' first | decide +kernel | rfl | exact True.intro | apply And.intro | constructor | (apply loads_all; decide +kernel) | (apply sram_all; decide +kernel) | (apply loads_two; decide +kernel) | exact fun _ h => nomatch h⟩⟩

theorem witness_SoftwareWarmReset :
    (∃ (s : State) (ini : Initiator), Calm s ∧ Open ini 1 s) ∧
    (∃ (s : State) (ini : Initiator), Calm s ∧ Open ini 1 s) :=
  ⟨⟨(tst []), (.pcie : Initiator), by repeat' first | decide +kernel | rfl | exact True.intro | apply And.intro | constructor | (apply loads_all; decide +kernel) | (apply sram_all; decide +kernel) | (apply loads_two; decide +kernel) | exact fun _ h => nomatch h⟩,
   ⟨(tst []), (.pcie : Initiator), by repeat' first | decide +kernel | rfl | exact True.intro | apply And.intro | constructor | (apply loads_all; decide +kernel) | (apply sram_all; decide +kernel) | (apply loads_two; decide +kernel) | exact fun _ h => nomatch h⟩⟩

theorem witness_CoreEscalations :
    (∃ (s : State) (c : Fin 8), let d := s.dev; Calm s ∧ gb d (TSC_WDOG.EN c) = true ∧ (coreOfDev d c).wdFrom + 1024 * gf d (TSC_WDOG.TIME c) ≤ d.now ∧ (coreOfDev d c).wdOnce = true) ∧
    (∃ (s : State) (c : Fin 8), let d := s.dev; Calm s ∧ coreRuns d c = true ∧ (coreOfDev d c).excs ≠ [] ∧ (coreOfDev d c).depth = 4) :=
  ⟨⟨(tst [(TSC_WDOG.EN 3, 1), (TSC_WDOG.TIME 3, 7)] fun d => withCore d 3 fun k => { k with wdOnce := true }), (3 : Fin 8), by repeat' first | decide +kernel | rfl | exact True.intro | apply And.intro | constructor | (apply loads_all; decide +kernel) | (apply sram_all; decide +kernel) | (apply loads_two; decide +kernel) | exact fun _ h => nomatch h⟩,
   ⟨(tst [(SYS_MODE.MODE, 2), (FOLIO_CTL.EN 0x23, 1)] fun d => withCore (withRstc d fun r => { r with booted := true }) 3 fun k => { k with depth := 4, excs := [⟨5, 2, some 0x8002468, none, none, 0, false, false, 0, 0, []⟩] }), (3 : Fin 8), by repeat' first | decide +kernel | rfl | exact True.intro | apply And.intro | constructor | (apply loads_all; decide +kernel) | (apply sram_all; decide +kernel) | (apply loads_two; decide +kernel) | exact fun _ h => nomatch h⟩⟩

end Sys2Proof.Tests
end

namespace Sys2Proof.Machine

/-! ### PACE bounds (R39)

The model compares a new PACE_VMIN with PACE_VMAX and not with 950 mV: it relies on PACE_VMAX never lying above 950 mV.
`Calm` and `Open` do not say so, and a state with PACE_VMAX = 1000 mV takes PACE_VMIN = 955 mV. -/

/-- A frame of a command says of each register outside its list that the next state holds it unchanged. -/
theorem Does.rd_eq {i : Instr} {s t : State} {parts : List Part} {keys : List Nat} {post : Dev → Prop} {k : Nat}
    (h : Does i s parts keys post) (ht : exec i s = .next t) (hk : k ∉ keys) (hp : k / 256 ≠ 0x11) :
    rd t.dev k = rd s.dev k := by
  obtain ⟨u, hu, -, -, ⟨-, hregs⟩, -⟩ := h
  obtain rfl : u = t := by simpa using hu.symm.trans ht
  exact hregs k hk hp

/-- A started machine as reset leaves it, but for PACE_VMAX = 1000 mV. -/
def vmaxAboveLimit : State :=
  { State.reset with
    dev := pf { Dev.reset with rstc := { Dev.reset.rstc with phase := .started } } PACE_VMAX.VMAX 1000 }

theorem calm_vmaxAboveLimit : Calm vmaxAboveLimit where
  noReset := rfl
  settled := rfl
  noWait := rfl
  upright := rfl
  agree := by decide +kernel

theorem open_vmaxAboveLimit : Open (.core 0) 4 vmaxAboveLimit where
  served := by decide +kernel
  notBarred := rfl
  noPair := nofun
  room := by decide
  live := by decide +kernel
  idle := rfl
  unlocked := by decide +kernel
  initiator := rfl

theorem rd_vmin_vmaxAboveLimit : rd vmaxAboveLimit.dev PACE_VMIN.at = 700 := by decide +kernel

/-- PACE_VMIN takes 955 mV, above the 950 mV of R39. -/
theorem vboundWrite_vmaxAboveLimit : ∃ t, exec (.paceVboundWrite (.core 0) false 955) vmaxAboveLimit = .next t ∧
    rd t.dev PACE_VMIN.at = 955 :=
  ⟨_, rfl, by decide +kernel⟩

/-- Refutes O58: with PACE_VMAX = 1000 mV a pair that writes PACE_VMIN = 955 mV is accepted, where R39 discards it. -/
theorem not_paceBounds : ¬ Obligations.PaceBounds := by
  unfold Obligations.PaceBounds
  intro h
  obtain ⟨-, hvmin, -⟩ := h vmaxAboveLimit calm_vmaxAboveLimit
  have hout : 950 < fld 955 9 0 := by decide
  have hdoes := hvmin (.core 0) 955 open_vmaxAboveLimit (.inr (.inr (.inr hout)))
  obtain ⟨t, ht, hlands⟩ := vboundWrite_vmaxAboveLimit
  have hkept : rd t.dev PACE_VMIN.at = 700 :=
    (hdoes.rd_eq ht (by decide) (by decide)).trans rd_vmin_vmaxAboveLimit
  exact absurd (hlands.symm.trans hkept) (by decide)

end Sys2Proof.Machine

namespace Sys2Proof.Machine

/-! ## The reset unit and the blocks

An operation of a block leaves the reset unit as it is. The lemmas stand in the order of the definitions they speak of. -/

@[simp] theorem ite_rstc (c : Prop) [Decidable c] (a b : Dev) :
    (if c then a else b).rstc = if c then a.rstc else b.rstc := apply_ite ..
@[simp] theorem ite_dev (c : Prop) [Decidable c] (a b : State) :
    (if c then a else b).dev = if c then a.dev else b.dev := apply_ite ..
@[simp] theorem ite_fst {α β : Type} (c : Prop) [Decidable c] (a b : α × β) :
    (if c then a else b).1 = if c then a.1 else b.1 := apply_ite ..
@[simp] theorem foldl_rstc {α : Type} {f : Dev → α → Dev} (h : ∀ d x, (f d x).rstc = d.rstc) (l : List α) (d : Dev) :
    (l.foldl f d).rstc = d.rstc := by
  induction l generalizing d with
  | nil => rfl
  | cons x l ih => exact (ih _).trans (h ..)
@[simp] theorem forUpTo_rstc {f : Nat → Dev → Dev} (h : ∀ i d, (f i d).rstc = d.rstc) (n : Nat) (d : Dev) :
    (forUpTo n f d).rstc = d.rstc :=
  foldl_rstc (fun d i => h i d) ..
@[simp] theorem foldl_dev_rstc {α : Type} {f : State → α → State} (h : ∀ s x, (f s x).dev.rstc = s.dev.rstc)
    (l : List α) (s : State) : (l.foldl f s).dev.rstc = s.dev.rstc := by
  induction l generalizing s with
  | nil => rfl
  | cons x l ih => exact (ih _).trans (h ..)
@[simp] theorem forUpTo_dev_rstc {f : Nat → State → State} (h : ∀ i s, (f i s).dev.rstc = s.dev.rstc)
    (n : Nat) (s : State) : (forUpTo n f s).dev.rstc = s.dev.rstc :=
  foldl_dev_rstc (fun s i => h i s) ..

/-! ### Named operations -/

@[simp] theorem takeFree_rstc (d : Dev) : (takeFree d).1.rstc = d.rstc := by
  simp [takeFree]
@[simp] theorem setLevel_rstc (d : Dev) (src : Nat) (b : Bool) : (setLevel d src b).rstc = d.rstc := by
  simp [setLevel]
@[simp] theorem raiseHdr_rstc (d : Dev) (page k : Nat) : (raiseHdr d page k).rstc = d.rstc := by
  simp [raiseHdr]
@[simp] theorem modeLock_rstc (d : Dev) (page : Nat) : (modeLock d page).rstc = d.rstc := by
  simp [modeLock]
@[simp] theorem quoinFail_rstc (d : Dev) (page off cause : Nat) : (quoinFail d page off cause).rstc = d.rstc := by
  simp [quoinFail]
@[simp] theorem cfgErr_rstc (d : Dev) (page off : Nat) : (cfgErr d page off).rstc = d.rstc := by
  unfold cfgErr; dsimp only; repeat' split
  all_goals simp
@[simp] theorem setLive_rstc (d : Dev) (s : Nat) (b : Bool) : (setLive d s b).rstc = d.rstc := by
  simp [setLive]
@[simp] theorem fixStaged_rstc (d : Dev) (page : Nat) : (fixStaged d page).rstc = d.rstc := by
  simp [fixStaged]
@[simp] theorem voteMark_rstc (d : Dev) (key k : Nat) : (voteMark d key k).rstc = d.rstc := by
  simp [voteMark]
@[simp] theorem landShadow_rstc (d : Dev) (key : Nat) (v : Word) : (landShadow d key v).rstc = d.rstc := by
  simp [landShadow]
@[simp] theorem fire_rstc (d : Dev) (g a : Nat) : (fire d g a).rstc = d.rstc := by
  simp [fire]
@[simp] theorem firesPark_rstc (d : Dev) : (firesPark d).rstc = d.rstc := by
  simp [firesPark]
@[simp] theorem sourceEvent_rstc (d : Dev) (src inst a : Nat) : (sourceEvent d src inst a).rstc = d.rstc := by
  simp [sourceEvent]

/-! ### Memory -/

@[simp] theorem fixUnread_rstc (d : Dev) : (fixUnread d).rstc = d.rstc := by
  simp [fixUnread]
@[simp] theorem logAccess_rstc (d : Dev) (f : Flaw) (region a : Nat) : (logAccess d f region a).rstc = d.rstc := by
  simp [logAccess]
@[simp] theorem dropTag_rstc (d : Dev) (id : Nat) : (dropTag d id).rstc = d.rstc := by
  unfold dropTag; split <;> simp
@[simp] theorem storeAt_rstc (s : State) (r : Region) (sp : Bool) (p a : Nat) (mask v : Word) :
    (storeAt s r sp p a mask v).1.dev.rstc = s.dev.rstc := by
  simp [storeAt]
@[simp] theorem memStore_rstc (ini : Initiator) (a : Nat) (mask v : Word) (s : State) :
    (memStore ini a mask v s).1.dev.rstc = s.dev.rstc := by
  unfold memStore; dsimp only; repeat' split
  all_goals simp
@[simp] theorem initNow_rstc (core : Option Nat) (a : Nat) (s : State) : (initNow core a s).dev.rstc = s.dev.rstc := by
  simp [initNow, initDone]

/-! ### Events -/

@[simp] theorem setPend_rstc (d : Dev) (s : Nat) (b : Bool) : (setPend d s b).rstc = d.rstc := by
  simp [setPend]
@[simp] theorem filtRestart_rstc (d : Dev) : (filtRestart d).rstc = d.rstc := by
  simp [filtRestart]
@[simp] theorem evcLose_rstc (d : Dev) (s : Nat) : (evcLose d s).rstc = d.rstc := by
  simp [evcLose]
@[simp] theorem markSensed_rstc (d : Dev) (s : Nat) : (markSensed d s).rstc = d.rstc := by
  simp [markSensed]
@[simp] theorem evcCoreReset_rstc (d : Dev) (c : Nat) : (evcCoreReset d c).rstc = d.rstc := by
  simp [evcCoreReset, evcEndService, setInsv]
@[simp] theorem evcWake_rstc (d0 : Dev) : (evcWake d0).rstc = d0.rstc := by
  simp [evcWake, makeEvent, markFresh]

/-! ### Clock -/

@[simp] theorem chooseRef_rstc (d : Dev) : (chooseRef d).rstc = d.rstc := by
  simp [chooseRef]
@[simp] theorem setSlaveOk_rstc (d : Dev) (b : Bool) : (setSlaveOk d b).rstc = d.rstc := by
  simp [setSlaveOk]
@[simp] theorem discRestart_rstc (d : Dev) : (discRestart d).rstc = d.rstc := by
  simp [discRestart]
@[simp] theorem judgeAlarm_rstc (d : Dev) (n : Nat) : (judgeAlarm d n).rstc = d.rstc := by
  simp [judgeAlarm]
@[simp] theorem onAlmen_rstc (d : Dev) (old : Word) : (onAlmen d old).rstc = d.rstc := by
  simp [onAlmen]
@[simp] theorem stepCounter_rstc (d : Dev) (v : Word) : (stepCounter d v).rstc = d.rstc := by
  simp [stepCounter]

/-! ### Rate -/

@[simp] theorem cbaConflict_rstc (d : Dev) : (cbaConflict d).rstc = d.rstc := by
  simp [cbaConflict]
@[simp] theorem askRaise_rstc (d : Dev) (mv : Nat) : (askRaise d mv).1.rstc = d.rstc := by
  simp [askRaise]
@[simp] theorem raiseBy_rstc (d : Dev) (want : Nat) : (raiseBy d want).rstc = d.rstc := by
  simp [raiseBy]
@[simp] theorem lowerTo_rstc (d : Dev) (v : Nat) : (lowerTo d v).rstc = d.rstc := by
  simp [lowerTo]
@[simp] theorem fixedHold_rstc (d : Dev) : (fixedHold d).rstc = d.rstc := by
  simp [fixedHold]
@[simp] theorem onPaceTarget_rstc (d : Dev) : (onPaceTarget d).rstc = d.rstc := by
  simp [onPaceTarget]
@[simp] theorem onPaceCtl_rstc (d : Dev) : (onPaceCtl d).rstc = d.rstc := by
  simp [onPaceCtl]

/-! ### Survey and Sigma-delta -/

@[simp] theorem publishTrig_rstc (d : Dev) (code inst pair : Nat) : (publishTrig d code inst pair).rstc = d.rstc := by
  simp [publishTrig]
@[simp] theorem landStop_rstc (d : Dev) (unit rank : Nat) : (landStop d unit rank).rstc = d.rstc := by
  simp [landStop]
@[simp] theorem landDrop_rstc (d : Dev) (unit rank : Nat) : (landDrop d unit rank).rstc = d.rstc := by
  simp [landDrop]
@[simp] theorem survStop_rstc (d : Dev) (u : Nat) : (survStop d u).rstc = d.rstc := by
  simp [survStop]
@[simp] theorem setLowA_rstc (d : Dev) (u : Nat) : (setLowA d u).rstc = d.rstc := by
  simp [setLowA]
@[simp] theorem onSurv_rstc (d : Dev) (u off : Nat) (old v : Word) : (onSurv d u off old v).rstc = d.rstc := by
  simp [onSurv, calReq, survSwTrig]
@[simp] theorem sdfWake_rstc (d : Dev) (g : Nat) : (sdfWake d g).rstc = d.rstc := by
  unfold sdfWake
  refine forUpTo_rstc (fun _ _ => ?_) ..
  rw [withSdf_rstc]
@[simp] theorem sdfEnable_rstc (d : Dev) (g : Nat) (en : Bool) : (sdfEnable d g en).rstc = d.rstc := by
  simp [sdfEnable]
@[simp] theorem onSdf_rstc (d : Dev) (g off : Nat) (old v : Word) : (onSdf d g off old v).rstc = d.rstc := by
  simp [onSdf, sdfSwTrig, sdfStart, sdClockStart]

/-! ### Comparators -/

@[simp] theorem contOutputs_rstc (d : Dev) (k : Nat) : (contOutputs d k).rstc = d.rstc := by
  simp [contOutputs]
@[simp] theorem moveThr_rstc (d : Dev) (use : Nat) (loads : List (Nat × Nat)) : (moveThr d use loads).1.rstc = d.rstc := by
  unfold moveThr; dsimp only; repeat' split
  all_goals simp
@[simp] theorem giveMeas_rstc (d : Dev) (k : Nat) (rising : Bool) (m : Nat) : (giveMeas d k rising m).rstc = d.rstc := by
  simp [giveMeas]
@[simp] theorem endMeas_rstc (d : Dev) (k : Nat) : (endMeas d k).rstc = d.rstc := by
  unfold endMeas; split <;> simp [noteMeas]
@[simp] theorem contEval_rstc (d : Dev) (k : Nat) : (contEval d k).rstc = d.rstc := by
  simp [contEval]
@[simp] theorem slopeEvent_rstc (d : Dev) (k e : Nat) : (slopeEvent d k e).rstc = d.rstc := by
  simp [slopeEvent]
@[simp] theorem commTurnOn_rstc (d : Dev) (f n : Nat) (rising : Bool) : (commTurnOn d f n rising).rstc = d.rstc := by
  refine forUpTo_rstc (fun k d => ?_) ..
  split
  · split <;> simp
  · rfl
@[simp] theorem commAbort_rstc (d : Dev) (f n : Nat) : (commAbort d f n).rstc = d.rstc := by
  simp [commAbort]
@[simp] theorem setContLow_rstc (d : Dev) (g : Nat) : (setContLow d g).rstc = d.rstc := by
  simp [setContLow]
@[simp] theorem contGroupEval_rstc (d : Dev) (g : Nat) : (contGroupEval d g).rstc = d.rstc := by
  simp [contGroupEval]
@[simp] theorem contEnable_rstc (d : Dev) (g : Nat) (en : Bool) : (contEnable d g en).rstc = d.rstc := by
  simp [contEnable]
@[simp] theorem onCont_rstc (d : Dev) (g off : Nat) (old v : Word) : (onCont d g off old v).rstc = d.rstc := by
  simp [onCont]
@[simp] theorem contReset_rstc (d : Dev) (g : Nat) : (contReset d g).rstc = d.rstc := by
  rw [contReset, contGroupEval_rstc, forUpTo_rstc]
  intro _ _; rw [withComp_rstc]
@[simp] theorem fdOutputs_rstc (d : Dev) (n : Nat) : (fdOutputs d n).rstc = d.rstc := by
  simp [fdOutputs]
@[simp] theorem fdClock_rstc (d : Dev) (n : Nat) : (fdClock d n).rstc = d.rstc := by
  simp [fdClock]
@[simp] theorem sdfSeen_rstc (before d : Dev) (n : Nat) : (sdfSeen before d n).rstc = d.rstc := by
  simp [sdfSeen]
@[simp] theorem fdGroup_rstc (d : Dev) (g : Nat) : (fdGroup d g).rstc = d.rstc := by
  simp [fdGroup]
@[simp] theorem onFd_rstc (d : Dev) (g off : Nat) (old v : Word) : (onFd d g off old v).rstc = d.rstc := by
  simp [onFd]

/-! ### Output pairs -/

@[simp] theorem withPair_rstc (d : Dev) (f n : Nat) (g : PairSt → PairSt) : (withPair d f n g).rstc = d.rstc := by
  simp [withPair]
@[simp] theorem formeEvt_rstc (d : Dev) (f k : Nat) : (formeEvt d f k).rstc = d.rstc := by
  simp [formeEvt]
@[simp] theorem withOut_rstc (d : Dev) (f n : Nat) (b : Bool) (g : OutSt → OutSt) : (withOut d f n b g).rstc = d.rstc := by
  simp [withOut]
@[simp] theorem gactProg_rstc (d : Dev) (f n : Nat) (rising : Bool) : (gactProg d f n rising).rstc = d.rstc := by
  simp [gactProg]
@[simp] theorem noMeasCheck_rstc (d : Dev) (f n : Nat) : (noMeasCheck d f n).rstc = d.rstc := by
  simp [noMeasCheck]
@[simp] theorem noMeasAll_rstc (d : Dev) : (noMeasAll d).rstc = d.rstc := by
  simp [noMeasAll]
@[simp] theorem guardIn_rstc (d : Dev) (f n : Nat) (g : PairSt → PairSt) : (guardIn d f n g).rstc = d.rstc := by
  simp [guardIn]
@[simp] theorem guardRecovery_rstc (d : Dev) : (guardRecovery d).rstc = d.rstc := by
  simp [guardRecovery]
@[simp] theorem guardVote_rstc (d : Dev) (f n : Nat) (rising : Bool) : (guardVote d f n rising).rstc = d.rstc := by
  simp [guardVote]
@[simp] theorem padCheck_rstc (d : Dev) (f n : Nat) : (padCheck d f n).rstc = d.rstc := by
  simp [padCheck]
@[simp] theorem setOut_rstc (d : Dev) (f n : Nat) (b on : Bool) (t : Nat) : (setOut d f n b on t).rstc = d.rstc := by
  simp [setOut, contPinEdge, blankStart]
@[simp] theorem cutPair_rstc (d : Dev) (f n : Nat) : (cutPair d f n).rstc = d.rstc := by
  simp [cutPair]
@[simp] theorem padsFollow_rstc (d : Dev) (f : Nat) : (padsFollow d f).rstc = d.rstc := by
  simp [padsFollow, padFollow]
@[simp] theorem allPadsFollow_rstc (d : Dev) : (allPadsFollow d).rstc = d.rstc := by
  simp [allPadsFollow]

/-! ### Trip network -/

@[simp] theorem tripSources_rstc (d : Dev) (f : Nat) (old : Word) : (tripSources d f old).rstc = d.rstc := by
  simp [tripSources, tripLevel]
@[simp] theorem tripLevels_rstc (d : Dev) (f : Nat) (old : Word) : (tripLevels d f old).rstc = d.rstc := by
  simp [tripLevels, alertRise]
@[simp] theorem judgeAll_rstc (d : Dev) (t : Nat) (only : Nat → Bool) : (judgeAll d t only).rstc = d.rstc := by
  simp [judgeAll]
@[simp] theorem tripinFollow_rstc (d : Dev) (p : Nat) (restart : Bool) : (tripinFollow d p restart).rstc = d.rstc := by
  simp [tripinFollow]
@[simp] theorem clearForme_rstc (d : Dev) (cls f : Nat) : (clearForme d cls f).rstc = d.rstc := by
  simp [clearForme, clrRefused]
@[simp] theorem onTripnet_rstc (d : Dev) (page off : Nat) (old v : Word) : (onTripnet d page off old v).rstc = d.rstc := by
  simp [onTripnet, tripClear]
@[simp] theorem tripnetReset_rstc (d0 d : Dev) (page : Nat) : (tripnetReset d0 d page).rstc = d.rstc := by
  rw [tripnetReset, judgeAll_rstc, withTrip_rstc]
  split
  · rw [forUpTo_rstc, forUpTo_rstc, setLive_rstc, withTrip_rstc, forUpTo_rstc]
    · intro _ _; rw [wr_rstc]
    · intro _ _; rw [tripLevels_rstc]
    · intro _ _; rw [tripinFollow_rstc]
  · rfl

/-! ### Formes -/

@[simp] theorem edgeWrite_rstc (d : Dev) (f off : Nat) (v : Word) : (edgeWrite d f off v).rstc = d.rstc := by
  simp [edgeWrite, edgeLand]
@[simp] theorem formeRun_rstc (d : Dev) (f : Nat) (run : Bool) : (formeRun d f run).rstc = d.rstc := by
  unfold formeRun; split <;> simp
@[simp] theorem formePark_rstc (d : Dev) (f : Nat) : (formePark d f).rstc = d.rstc := by
  simp [formePark, formeStop, pairStop]
@[simp] theorem onForme_rstc (d : Dev) (f off : Nat) (old v : Word) : (onForme d f off old v).rstc = d.rstc := by
  simp [onForme, onPair, dropTurnOn, offerLate]
@[simp] theorem formeColophon_rstc (d : Dev) (f : Nat) : (formeColophon d f).rstc = d.rstc := by
  rw [formeColophon, pf_rstc, pf_rstc, pf_rstc, forUpTo_rstc]
  intro n d
  simp only [pf_rstc, wr_rstc]
@[simp] theorem formeReset_rstc (d : Dev) (f : Nat) : (formeReset d f).rstc = d.rstc := by
  rw [formeReset, forUpTo_rstc, tripSources_rstc, withForme_rstc, formeColophon_rstc, forUpTo_rstc]
  · intro n d; rw [cutPair_rstc]
  · intro n d; rw [padCheck_rstc, withPair_rstc]

/-! ### Traverse engines -/

@[simp] theorem travEvt_rstc (d : Dev) (e k : Nat) : (travEvt d e k).rstc = d.rstc := by
  simp [travEvt]
@[simp] theorem setStw_rstc (d : Dev) (e k : Nat) (v : Word) : (setStw d e k v).rstc = d.rstc := by
  simp [setStw]
@[simp] theorem setStF_rstc (d : Dev) (e k : Nat) (v : F32) : (setStF d e k v).rstc = d.rstc := by
  simp [setStF]
@[simp] theorem setOvst_rstc (d : Dev) (e n : Nat) : (setOvst d e n).rstc = d.rstc := by
  simp [setOvst]
@[simp] theorem freshCheck_rstc (d : Dev) (e : Nat) : (freshCheck d e).rstc = d.rstc := by
  simp [freshCheck]
@[simp] theorem feSource_rstc (d : Dev) (e : Nat) : (feSource d e).rstc = d.rstc := by
  simp [feSource]
@[simp] theorem setFet_rstc (d : Dev) (e : Nat) : (setFet d e).rstc = d.rstc := by
  simp [setFet]
@[simp] theorem feSyncAs_rstc (d : Dev) (e : Nat) (en : Bool) (time : Nat) (restart : Bool) :
    (feSyncAs d e en time restart).rstc = d.rstc := by
  simp [feSyncAs]
@[simp] theorem feSync_rstc (d : Dev) (e : Nat) (restart : Bool) : (feSync d e restart).rstc = d.rstc := by
  simp [feSync]
@[simp] theorem setCond_rstc (d : Dev) (e : Nat) (b : Bool) : (setCond d e b).rstc = d.rstc := by
  simp [setCond]
@[simp] theorem sendCond_rstc (d : Dev) (e : Nat) (b : Bool) : (sendCond d e b).rstc = d.rstc := by
  simp [sendCond]
@[simp] theorem setState_rstc (d : Dev) (e new : Nat) : (setState d e new).rstc = d.rstc := by
  simp [setState, dropCoefShadows]
@[simp] theorem dropReq_rstc (d : Dev) (e : Nat) : (dropReq d e).rstc = d.rstc := by
  unfold dropReq; split <;> simp
@[simp] theorem ovRead_rstc (e k : Nat) (s : State) : (ovRead e k s).1.dev.rstc = s.dev.rstc := by
  have h := memLoad_rstc (.cluster ⟨e / 4 % 16, Nat.mod_lt _ (by decide)⟩) true (ovAddr e k) (initNow none (ovAddr e k) s)
  unfold ovRead
  split <;> simp_all
@[simp] theorem ovWrite_rstc (e k : Nat) (x : F32) (s : State) : (ovWrite e k x s).dev.rstc = s.dev.rstc := by
  simp [ovWrite]
@[simp] theorem ovFault_rstc (d : Dev) (e : Nat) : (ovFault d e).rstc = d.rstc := by
  simp [ovFault]
@[simp] theorem ovLearn_rstc (e j : Nat) (err : F32) (s : State) : (ovLearn e j err s).dev.rstc = s.dev.rstc := by
  unfold ovLearn; dsimp only; repeat' split
  all_goals simp
@[simp] theorem updateWriteback_rstc (e : Nat) (s : State) : (updateWriteback e s).dev.rstc = s.dev.rstc := by
  unfold updateWriteback; split <;> simp
@[simp] theorem takesAgain_rstc (d : Dev) (e : Nat) : (takesAgain d e).rstc = d.rstc := by
  simp [takesAgain]
@[simp] theorem travPark_rstc (e : Nat) (s : State) : (travPark e s).dev.rstc = s.dev.rstc := by
  simp [travPark]
@[simp] theorem travWake_rstc (d : Dev) (e : Nat) : (travWake d e).rstc = d.rstc := by
  simp [travWake]
@[simp] theorem travRecovery_rstc (d : Dev) (e : Nat) : (travRecovery d e).rstc = d.rstc := by
  simp [travRecovery]
@[simp] theorem onOvcfg_rstc (d : Dev) (e : Nat) : (onOvcfg d e).rstc = d.rstc := by
  rw [onOvcfg]
  split_ifs
  · rw [withTrav_rstc, setOvst_rstc]
  · rw [withTrav_rstc, setStw_rstc, pb_rstc, setOvst_rstc]
  · rw [withTrav_rstc]
@[simp] theorem onTrav_rstc (d : Dev) (e off : Nat) (old v : Word) : (onTrav d e off old v).rstc = d.rstc := by
  unfold onTrav; split <;> simp [feClear, travTrigger]
@[simp] theorem travReset_rstc (d : Dev) (e : Nat) : (travReset d e).rstc = d.rstc := by
  simp [travReset]

/-! ### Cores -/

@[simp] theorem reqTag_rstc (d : Dev) (h a : Nat) : (reqTag d h a).1.rstc = d.rstc := by
  unfold reqTag; split <;> simp [brushTag]

/-! ### Task controllers -/

@[simp] theorem withCore_rstc (d : Dev) (c : Nat) (f : CoreSt → CoreSt) : (withCore d c f).rstc = d.rstc := by
  simp [withCore]
@[simp] theorem activate_rstc (d : Dev) (c s : Nat) : (activate d c s).rstc = d.rstc := by
  simp [activate]
@[simp] theorem onSlotEn_rstc (d : Dev) (c s : Nat) (was : Bool) : (onSlotEn d c s was).rstc = d.rstc := by
  simp [onSlotEn]
@[simp] theorem startTimer_rstc (d : Dev) (c s : Nat) : (startTimer d c s).rstc = d.rstc := by
  simp [startTimer]
@[simp] theorem onTsc_rstc (d : Dev) (c off : Nat) (old v : Word) : (onTsc d c off old v).rstc = d.rstc := by
  simp [onTsc, wdRestart, onBank]
@[simp] theorem tscReset_rstc (d : Dev) (c : Nat) : (tscReset d c).rstc = d.rstc := by
  simp [tscReset]
@[simp] theorem coreReset_rstc (d0 : Dev) (c : Nat) : (coreReset d0 c).rstc = d0.rstc := by
  have h : ∀ x : Dev, (setCore (evcCoreReset { x with flash := { x.flash with op := x.flash.op.map fun o =>
        if o.core = c then { o with core := 8 } else o } } c) c { coreInit c with
      issued := (coreOfDev d0 c).issued.map fun e => { e with orphan := true }, wdFrom := x.now }).rstc = x.rstc := by
    intro x; rw [setCore_rstc, evcCoreReset_rstc]
  rw [coreReset, h, wr_rstc, forUpTo_rstc]
  intro _ _; rw [pb_rstc]

/-! ### Queues -/

@[simp] theorem writeDesc_rstc (q : Nat) (old new : QDesc) (s : State) : (writeDesc q old new s).dev.rstc = s.dev.rstc := by
  simp [writeDesc]
@[simp] theorem galleyErr_rstc (d : Dev) (q code evt : Nat) : (galleyErr d q code evt).rstc = d.rstc := by
  simp [galleyErr]
@[simp] theorem crossEvt_rstc (d : Dev) (q : Nat) (x : QDesc) (f0 f1 : Nat) : (crossEvt d q x f0 f1).rstc = d.rstc := by
  simp [crossEvt, activateQueue]
@[simp] theorem galleyTag_rstc (q : Nat) (s : State) : (galleyTag q s).1.dev.rstc = s.dev.rstc := by
  simp [galleyTag]
@[simp] theorem parityFault_rstc (q : Nat) (x : QDesc) (s : State) : (parityFault q x s).dev.rstc = s.dev.rstc := by
  simp [parityFault]
@[simp] theorem pressFail_rstc (d : Dev) (ch code : Nat) : (pressFail d ch code).rstc = d.rstc := by
  simp [pressFail]
@[simp] theorem cancelTake_rstc (d : Dev) (k q : Nat) : (cancelTake d k q).rstc = d.rstc := by
  simp [cancelTake]
@[simp] theorem refuseWaiter_rstc (d : Dev) (w : QWait) : (refuseWaiter d w).rstc = d.rstc := by
  simp [refuseWaiter, endWaiter, endQput]
@[simp] theorem endQueue_rstc (d : Dev) (q : Nat) : (endQueue d q).rstc = d.rstc := by
  simp [endQueue]
@[simp] theorem onGalley_rstc (d : Dev) (off : Nat) (v : Word) : (onGalley d off v).rstc = d.rstc := by
  simp [onGalley]
@[simp] theorem galleyReset_rstc (d : Dev) : (galleyReset d).rstc = d.rstc := by
  simp [galleyReset]

/-! ### Press channels -/

@[simp] theorem setChState_rstc (d : Dev) (ch n : Nat) : (setChState d ch n).rstc = d.rstc := by
  simp [setChState]
@[simp] theorem chanIdle_rstc (d : Dev) (ch : Nat) : (chanIdle d ch).rstc = d.rstc := by
  simp [chanIdle, pressUnpark]
@[simp] theorem pressStop_rstc (d : Dev) (ch : Nat) : (pressStop d ch).rstc = d.rstc := by
  simp [pressStop]
@[simp] theorem onPress_rstc (d : Dev) (g off : Nat) (v : Word) : (onPress d g off v).rstc = d.rstc := by
  simp [onPress, pressTrig, setTpend, grantTrigger, pressStart]
@[simp] theorem pressReset_rstc (d : Dev) (g : Nat) : (pressReset d g).rstc = d.rstc := by
  simp [pressReset]

/-! ### Security engine -/

@[simp] theorem drawRng_rstc (d : Dev) : (drawRng d).1.rstc = d.rstc := by
  simp [drawRng]
@[simp] theorem dbgChallenge_rstc (d : Dev) : (dbgChallenge d).rstc = d.rstc := by
  unfold dbgChallenge
  dsimp only
  split
  · rw [withSec_rstc]
  · rw [forUpTo_rstc, withSec_rstc, drawRng_rstc, withSec_rstc]
    intro _ _; rw [wr_rstc]
@[simp] theorem onSec_rstc (d : Dev) (off : Nat) (v : Word) : (onSec d off v).rstc = d.rstc := by
  simp [onSec, dbgSubmit, secEvt]

/-! ### Bearings -/

@[simp] theorem updateAngle_rstc (d : Dev) (u : Nat) : (updateAngle d u).rstc = d.rstc := by
  simp [updateAngle]
@[simp] theorem setPos_rstc (d : Dev) (u : Nat) (p : Word) : (setPos d u p).rstc = d.rstc := by
  simp [setPos]
@[simp] theorem brngLoss_rstc (d : Dev) (u : Nat) (keep : Bool) : (brngLoss d u keep).rstc = d.rstc := by
  simp [brngLoss, brngEvt]
@[simp] theorem posSet_rstc (d : Dev) (u : Nat) (v : Word) : (posSet d u v).rstc = d.rstc := by
  rw [posSet, ite_rstc, pb_rstc, ite_self, withBrng_rstc, setPos_rstc]
@[simp] theorem brngDrop_rstc (d : Dev) (u : Nat) : (brngDrop d u).rstc = d.rstc := by
  simp [brngDrop]
@[simp] theorem brngPeriodic_rstc (d : Dev) (u : Nat) : (brngPeriodic d u).rstc = d.rstc := by
  simp [brngPeriodic]
@[simp] theorem brngPark_rstc (d : Dev) (u : Nat) : (brngPark d u).rstc = d.rstc := by
  simp [brngPark]
@[simp] theorem brngReset_rstc (d : Dev) (u : Nat) : (brngReset d u).rstc = d.rstc := by
  simp [brngReset]
@[simp] theorem onBrng_rstc (d : Dev) (u off : Nat) (v : Word) : (onBrng d u off v).rstc = d.rstc := by
  simp [onBrng]

/-! ### Twin link -/

@[simp] theorem twinEvt_rstc (d : Dev) (k : Nat) : (twinEvt d k).rstc = d.rstc := by
  simp [twinEvt]
@[simp] theorem twinTrip_rstc (d : Dev) : (twinTrip d).rstc = d.rstc := by
  simp [twinTrip]
@[simp] theorem ownUpdate_rstc (d : Dev) : (ownUpdate d).rstc = d.rstc := by
  simp [ownUpdate]
@[simp] theorem notReadyCheck_rstc (d : Dev) : (notReadyCheck d).rstc = d.rstc := by
  unfold notReadyCheck; split <;> simp
@[simp] theorem setSst_rstc (d : Dev) (n : Nat) : (setSst d n).rstc = d.rstc := by
  simp [setSst]
@[simp] theorem twinFollow_rstc (d : Dev) : (twinFollow d).rstc = d.rstc := by
  simp [twinFollow, setPeerFollow]
@[simp] theorem linkTrain_rstc (d : Dev) : (linkTrain d).rstc = d.rstc := by
  simp [linkTrain]
@[simp] theorem linkDown_rstc (d : Dev) : (linkDown d).rstc = d.rstc := by
  simp [linkDown, diverge]
@[simp] theorem forwardWrite_go_rstc (d : Dev) (page off : Nat) (v : Word) : (forwardWrite.go d page off v).rstc = d.rstc := by
  unfold forwardWrite.go; split <;> simp
@[simp] theorem forwardWrite_rstc (d : Dev) (ini : Initiator) (page off : Nat) (v : Word) :
    (forwardWrite d ini page off v).rstc = d.rstc := by
  unfold forwardWrite
  repeat' split
  all_goals simp
@[simp] theorem onDiverge_rstc (d : Dev) : (onDiverge d).rstc = d.rstc := by
  simp [onDiverge]
@[simp] theorem twinMode_rstc (d : Dev) (old : Nat) : (twinMode d old).rstc = d.rstc := by
  simp [twinMode]

/-! ### Modes -/

@[simp] theorem modeTake_rstc (d : Dev) (m why : Nat) : (modeTake d m why).rstc = d.rstc := by
  simp [modeTake]
@[simp] theorem blocksResume_rstc (d : Dev) : (blocksResume d).rstc = d.rstc := by
  simp [blocksResume, restartTimers, survWake]
@[simp] theorem enterRecovery_rstc (d : Dev) : (enterRecovery d).rstc = d.rstc := by
  have h : (forUpTo 64 (fun e d => travRecovery d e) (guardRecovery d)).rstc = d.rstc := by simp
  rw [enterRecovery, ite_rstc, twinEvt_rstc, pf_rstc, pf_rstc, ite_self, h]
@[simp] theorem lockShort_rstc (d : Dev) : (lockShort d).rstc = d.rstc := by
  simp [lockShort, setShort]

/-! ### Block resets -/

@[simp] theorem clearPage_rstc (d : Dev) (page : Nat) : (clearPage d page).rstc = d.rstc := by
  simp [clearPage]
@[simp] theorem ifDrop_rstc (d : Dev) (lo n : Nat) : (ifDrop d lo n).rstc = d.rstc := by
  simp [ifDrop]
@[simp] theorem offersDrop_rstc (d : Dev) (lo n : Nat) : (offersDrop d lo n).rstc = d.rstc := by
  simp [offersDrop]

/-! ### Host -/

@[simp] theorem gpioSet_rstc (d : Dev) (b : Nat) (v : Word) : (gpioSet d b v).rstc = d.rstc := by
  simp [gpioSet]
@[simp] theorem gpioClr_rstc (d : Dev) (b : Nat) (v : Word) : (gpioClr d b v).rstc = d.rstc := by
  simp [gpioClr]
@[simp] theorem onEth_rstc (d : Dev) (m off : Nat) (v : Word) : (onEth d m off v).rstc = d.rstc := by
  unfold onEth; split <;> simp [mdioGo, ethSpeed]
@[simp] theorem canRecov_rstc (d : Dev) (n : Nat) : (canRecov d n).rstc = d.rstc := by
  simp [canRecov]
@[simp] theorem avsStatWrite_rstc (d : Dev) : (avsStatWrite d).rstc = d.rstc := by
  simp [avsStatWrite]
@[simp] theorem onDbg_rstc (d : Dev) (off : Nat) (v : Word) : (onDbg d off v).rstc = d.rstc := by
  simp [onDbg, stepReq, resumeReq, haltReq]

/-! ### Twin roles -/

@[simp] theorem setRole_rstc (d : Dev) (r : Nat) : (setRole d r).rstc = d.rstc := by
  simp [setRole]
@[simp] theorem sstFromSolo_rstc (d : Dev) : (sstFromSolo d).rstc = d.rstc := by
  simp [sstFromSolo, sstWait]
@[simp] theorem roleSolo_rstc (d : Dev) : (roleSolo d).rstc = d.rstc := by
  simp [roleSolo]

/-! ### Votes -/

@[simp] theorem voteFallback_rstc (d : Dev) (key : Nat) : (voteFallback d key).rstc = d.rstc := by
  simp [voteFallback, routeFallback]

/-! ### Folio access -/

@[simp] theorem onSys_rstc (d : Dev) (off : Nat) (old v : Word) : (onSys d off old v).rstc = d.rstc := by
  simp [onSys, fireStrobe]
@[simp] theorem onEvc_rstc (d : Dev) (q off : Nat) (old v : Word) : (onEvc d q off old v).rstc = d.rstc := by
  simp [onEvc, onLost, onPend, swSet, onGate, writeSrc, bumpIndex]
@[simp] theorem clearNamed_rstc (v : Word) (s : State) : (clearNamed v s).dev.rstc = s.dev.rstc := by
  unfold clearNamed; dsimp only; repeat' split
  all_goals simp
@[simp] theorem onTwinReg_rstc (d : Dev) (off : Nat) (before : Dev) : (onTwinReg d off before).rstc = d.rstc := by
  simp [onTwinReg, onTwin, onTest]
@[simp] theorem onTravReg_rstc (d : Dev) (e off : Nat) (old v : Word) : (onTravReg d e off old v).rstc = d.rstc := by
  simp [onTravReg, writeStw, arrive]
@[simp] theorem enableHook_rstc (b : Blk) (i : Nat) (en : Bool) (d : Dev) : (enableHook b i en d).rstc = d.rstc := by
  unfold enableHook; split <;> simp [pcieEnable, pcieDown, twinEn, twinEnable, pressEnable, brngEnable, travEnable,
      forcedChange, survEnable]
@[simp] theorem enableWrite_rstc (b : Blk) (i page : Nat) (en : Bool) (d : Dev) :
    (enableWrite b i page en d).rstc = d.rstc := by
  simp [enableWrite, cbaRecheck]
@[simp] theorem refuseWrite_rstc (d : Dev) (page off : Nat) (guarded : Bool) (x : Verdict) :
    (refuseWrite d page off guarded x).rstc = d.rstc := by
  unfold refuseWrite; split <;> simp
@[simp] theorem quoinDrop_rstc (d : Dev) (page : Nat) (ini : Initiator) : (quoinDrop d page ini).rstc = d.rstc := by
  simp [quoinDrop]
@[simp] theorem quoinTimeout_rstc (d : Dev) (page : Nat) (ini : Initiator) : (quoinTimeout d page ini).rstc = d.rstc := by
  unfold quoinTimeout; split <;> simp

/-! ### Stores of a core -/

@[simp] theorem parityErr_rstc (d : Dev) (h a : Nat) (par : Parity) : (parityErr d h a par).rstc = d.rstc := by
  unfold parityErr; split <;> simp
@[simp] theorem storeAnswered_rstc (c idx : Nat) (f : Option (Nat × Nat)) (d : Dev) :
    (storeAnswered c idx f d).rstc = d.rstc := by
  unfold storeAnswered; dsimp only; repeat' split
  all_goals simp

end Sys2Proof.Machine

namespace Sys2Proof.Machine

/-! ## Stores that land keep the request

A warm reset that waits lets the stores of the cores land before it asserts (R465). They may ask for further resets or change
the mode; the source that asked stays among those that wait. -/

/-- A source that asks for a warm reset waits, and the device is not in reset. -/
structure WarmAsked (src : ResetSource) (r : RstcSt) : Prop where
  released : r.phase ≠ .asserted
  asked : src ∈ r.req

section
variable {src : ResetSource}

@[simp] theorem warmAsked_ite {c : Prop} [Decidable c] {a b : RstcSt} :
    WarmAsked src (if c then a else b) ↔ if c then WarmAsked src a else WarmAsked src b := by
  split <;> rfl

/-- Only the phase and the sources count. -/
theorem WarmAsked.of_eq {r r' : RstcSt} (h : WarmAsked src r) (hp : r'.phase = r.phase) (hq : r'.req = r.req) :
    WarmAsked src r' :=
  ⟨hp ▸ h.released, hq ▸ h.asked⟩

theorem foldl_warmAsked {α : Type} {f : Dev → α → Dev} (hf : ∀ d x, WarmAsked src d.rstc → WarmAsked src (f d x).rstc)
    (l : List α) {d : Dev} (h : WarmAsked src d.rstc) : WarmAsked src (l.foldl f d).rstc := by
  induction l generalizing d with
  | nil => exact h
  | cons x l ih => exact ih (hf _ _ h)

theorem foldl_dev_warmAsked {α : Type} {f : State → α → State}
    (hf : ∀ s x, WarmAsked src s.dev.rstc → WarmAsked src (f s x).dev.rstc) (l : List α) {s : State}
    (h : WarmAsked src s.dev.rstc) : WarmAsked src (l.foldl f s).dev.rstc := by
  induction l generalizing s with
  | nil => exact h
  | cons x l ih => exact ih (hf _ _ h)

theorem forUpTo_warmAsked {f : Nat → Dev → Dev} (hf : ∀ i d, WarmAsked src d.rstc → WarmAsked src (f i d).rstc) (n : Nat)
    {d : Dev} (h : WarmAsked src d.rstc) : WarmAsked src (forUpTo n f d).rstc :=
  foldl_warmAsked (fun d i => hf i d) _ h

theorem forUpTo_dev_warmAsked {f : Nat → State → State}
    (hf : ∀ i s, WarmAsked src s.dev.rstc → WarmAsked src (f i s).dev.rstc) (n : Nat) {s : State}
    (h : WarmAsked src s.dev.rstc) : WarmAsked src (forUpTo n f s).dev.rstc :=
  foldl_dev_warmAsked (fun s i => hf i s) _ h

variable {d : Dev} {s : State}

/-! ### The reset unit's own operations -/

theorem warmReq_warmAsked (x : ResetSource) (h : WarmAsked src d.rstc) : WarmAsked src (warmReq d x).rstc := by
  refine ⟨h.released, ?_⟩
  have hq := h.asked
  simp only [warmReq]
  split <;> simp [hq]

theorem critError_warmAsked (k a : Nat) (h : WarmAsked src d.rstc) : WarmAsked src (critError d k a).rstc :=
  warmReq_warmAsked _ (by simpa using h)

theorem swdRestart_warmAsked (h : WarmAsked src d.rstc) : WarmAsked src (swdRestart d).rstc := h.of_eq rfl rfl

theorem holdRelease_warmAsked (v : Word) (h : WarmAsked src d.rstc) : WarmAsked src (holdRelease d v).rstc := h.of_eq rfl rfl

theorem onRstc_warmAsked (ini : Initiator) (off : Nat) (v : Word) (h : WarmAsked src d.rstc) :
    WarmAsked src (onRstc d ini off v).rstc := by
  simp [onRstc, h, warmReq_warmAsked, swdRestart_warmAsked, holdRelease_warmAsked]

theorem lockDown_warmAsked (h : WarmAsked src d.rstc) : WarmAsked src (lockDown d).rstc := by
  have h' : WarmAsked src { d.rstc with wakeReq := true } := h.of_eq rfl rfl
  simp [lockDown, h, h']

theorem onMeridCtl_warmAsked (old : Word) (h : WarmAsked src d.rstc) : WarmAsked src (onMeridCtl d old).rstc := by
  simp [onMeridCtl, h, lockDown_warmAsked]

theorem onMerid_warmAsked (off : Nat) (old v : Word) (h : WarmAsked src d.rstc) : WarmAsked src (onMerid d off old v).rstc := by
  simp [onMerid, h, onMeridCtl_warmAsked]

/-! ### Modes -/

theorem wakeStamp_warmAsked (h : WarmAsked src d.rstc) : WarmAsked src (wakeStamp d).rstc := by
  have h' : WarmAsked src { d.rstc with wakeReq := true } := h.of_eq rfl rfl
  simp [wakeStamp, h']

theorem wakeSource_warmAsked (k : Nat) (level : Bool) (h : WarmAsked src d.rstc) : WarmAsked src (wakeSource d k level).rstc := by
  simp [wakeSource, h, wakeStamp_warmAsked]

theorem leavePark_warmAsked (h : WarmAsked src d.rstc) : WarmAsked src (leavePark d).rstc := by
  simp [leavePark, h.of_eq]

theorem parkBegin_warmAsked (h : WarmAsked src s.dev.rstc) : WarmAsked src (parkBegin s).dev.rstc := by
  simp [parkBegin, h.of_eq]

/-- What the entry into PARK asks for at its end: a wake that has been caught already. -/
theorem wakeCaught_warmAsked (h : WarmAsked src d.rstc) :
    WarmAsked src (if wakeAsked d then { d with rstc := { d.rstc with wakeReq := true } } else d).rstc := by
  split
  · exact h.of_eq rfl rfl
  · exact h

theorem parkTaken_warmAsked (host : HostSt) (evc : EvcSt) (h : WarmAsked src d.rstc) :
    WarmAsked src { d with host := host, rstc := { d.rstc with wakeReq := false, parkEntry := false }, evc := evc }.rstc :=
  h.of_eq rfl rfl

theorem enterPark_warmAsked (h : WarmAsked src s.dev.rstc) : WarmAsked src (enterPark s).dev.rstc := by
  rw [enterPark, setDev_dev]
  refine wakeCaught_warmAsked (forUpTo_warmAsked (fun k d hd => ?_) 8 (parkTaken_warmAsked _ _ ?_))
  · dsimp only
    split
    · exact wakeSource_warmAsked _ _ hd
    · exact hd
  · rw [withCba_rstc, pb_rstc, lowerTo_rstc, withPace_rstc, pb_rstc, withMerid_rstc, pb_rstc, forUpTo_rstc, forUpTo_rstc,
      noMeasAll_rstc, forUpTo_rstc, forUpTo_rstc]
    · exact parkBegin_warmAsked h
    all_goals intro i d; simp

theorem setMode_warmAsked (m why : Nat) (h : WarmAsked src s.dev.rstc) : WarmAsked src (setMode s m why).dev.rstc := by
  simp [setMode, h, leavePark_warmAsked, enterPark_warmAsked]

theorem softMode_warmAsked (m : Nat) (h : WarmAsked src s.dev.rstc) : WarmAsked src (softMode s m).dev.rstc := by
  unfold softMode; dsimp only
  split
  · exact h
  · split
    · exact parkBegin_warmAsked (h.of_eq rfl rfl)
    · exact setMode_warmAsked _ _ (h.of_eq rfl rfl)

/-- Every triplicated field falls back (R122, R173). -/
@[simp] theorem voteFailed_rstc (key : Nat) (s : State) : (voteFailed key s).dev.rstc = s.dev.rstc := by
  have hw (d : Dev) (l : List Nat) : (l.foldl (fun d k => wr d k (fallbackOf d k)) d).rstc = d.rstc :=
    foldl_rstc (fun _ _ => wr_rstc ..) l d
  simp [voteFailed, policyOf, hw]

@[simp] theorem voteAt_rstc (key : Nat) (s : State) : (voteAt key s).dev.rstc = s.dev.rstc := by
  have hw (d : Dev) (l : List (Nat × Word)) : (l.foldl (fun d x => wr d x.1 x.2) d).rstc = d.rstc :=
    foldl_rstc (fun _ _ => wr_rstc ..) l d
  unfold voteAt scrubField
  split
  · split <;> simp [hw]
  · rfl

@[simp] theorem routeUse_rstc (uses : Nat → Bool) (s : State) : (routeUse uses s).dev.rstc = s.dev.rstc := by
  simp [routeUse]

theorem writeRole_warmAsked (r : Nat) (h : WarmAsked src s.dev.rstc) : WarmAsked src (writeRole s r).dev.rstc := by
  simp [writeRole, h, setMode_warmAsked]

/-! ### Folio -/

@[simp] theorem blockCleared_rstc (d0 d : Dev) (b : Blk) (i page : Nat) : (blockCleared d0 d b i page).rstc = d.rstc := by
  unfold blockCleared; split <;> simp

@[simp] theorem blockReset_rstc (d : Dev) (page : Nat) : (blockReset d page).rstc = d.rstc := by
  unfold blockReset; split <;> simp

@[simp] theorem applyCtl_rstc (b : Blk) (i page : Nat) (v : Word) (d : Dev) : (applyCtl b i page v d).rstc = d.rstc := by
  simp [applyCtl]

/-- One word of a descriptor as Galley loads it: an uncorrectable one is a critical error (R361). -/
def descWord (q k : Nat) (s : State) : State × Option Word :=
  match memLoad .galley true (descAddr q k) s with
  | (s1, .ok w) => (s1, some w)
  | (s1, .ecc) => (setDev s1 (critError s1.dev 2 (descAddr q k)), none)
  | (s1, _) => (s1, none)

theorem descWord_warmAsked (q k : Nat) (h : WarmAsked src s.dev.rstc) : WarmAsked src (descWord q k s).1.dev.rstc := by
  have hl : WarmAsked src (memLoad .galley true (descAddr q k) s).1.dev.rstc := by rw [memLoad_rstc]; exact h
  unfold descWord
  rcases hm : memLoad .galley true (descAddr q k) s with ⟨s1, r⟩
  rw [hm] at hl
  cases r with
  | ecc => exact critError_warmAsked (d := s1.dev) _ _ hl
  | ok w | err | wait => exact hl

theorem readDesc_eq (q : Nat) (s : State) : readDesc q s =
    match descWord q 0 s with
    | (s0, none) => (s0, .lost)
    | (s0, some a) =>
      match descWord q 1 s0 with
      | (s1, none) => (s1, .lost)
      | (s1, some b) =>
        match descWord q 2 s1 with
        | (s2, none) => (s2, .lost)
        | (s2, some c) =>
          match descWord q 3 s2 with
          | (s3, none) => (s3, .lost)
          | (s3, some e) => (s3, .desc ⟨a, b, c, e⟩) := by
  unfold readDesc descWord; rfl

theorem readDesc_warmAsked (q : Nat) (h : WarmAsked src s.dev.rstc) : WarmAsked src (readDesc q s).1.dev.rstc := by
  have h0 := descWord_warmAsked q 0 h
  rw [readDesc_eq]
  split <;> rename_i e0 <;> rw [e0] at h0
  · exact h0
  have h1 := descWord_warmAsked q 1 h0
  split <;> rename_i e1 <;> rw [e1] at h1
  · exact h1
  have h2 := descWord_warmAsked q 2 h1
  split <;> rename_i e2 <;> rw [e2] at h2
  · exact h2
  have h3 := descWord_warmAsked q 3 h2
  split <;> rename_i e3 <;> rw [e3] at h3
  · exact h3
  · exact h3

theorem queueCmd_warmAsked (op q : Nat) (h : WarmAsked src s.dev.rstc) : WarmAsked src (queueCmd op q s).dev.rstc := by
  have h1 := readDesc_warmAsked q h
  unfold queueCmd; dsimp only
  split <;> rename_i hd <;> rw [hd] at h1
  · exact h1
  · split_ifs <;> simpa using h1

theorem runCmdList_warmAsked (l : List (Nat × Nat)) (h : WarmAsked src s.dev.rstc) :
    WarmAsked src (runCmdList l s).dev.rstc := by
  induction l generalizing s with
  | nil => exact h
  | cons x t ih =>
    have ht : WarmAsked src (if queueFree s.dev x.2 then galleyTag x.2 s else (s, false)).1.dev.rstc := by simpa using h
    rw [runCmdList]
    generalize (if queueFree s.dev x.2 then galleyTag x.2 s else (s, false)) = tag at ht ⊢
    dsimp only
    split
    · exact ih (queueCmd_warmAsked _ _ ht)
    · exact ih (by simpa using ht)

theorem galleyRun_warmAsked (h : WarmAsked src s.dev.rstc) : WarmAsked src (galleyRun s).dev.rstc := by
  unfold galleyRun
  split
  · exact h
  · exact runCmdList_warmAsked _ (by simpa using h)

theorem folioHook_warmAsked (ini : Initiator) (b : Blk) (i page off : Nat) (old v : Word) (before : Dev)
    (h : WarmAsked src s.dev.rstc) : WarmAsked src (folioHook ini b i page off old v before s).dev.rstc := by
  cases b <;> simp [folioHook, h, softMode_warmAsked, onRstc_warmAsked, onMerid_warmAsked, writeRole_warmAsked]

theorem commitStaged_warmAsked (ini : Initiator) (b : Blk) (i page off : Nat) (v : Word) (h : WarmAsked src s.dev.rstc) :
    WarmAsked src (commitStaged ini b i page off v s).dev.rstc := by
  unfold commitStaged; dsimp only
  split
  · simpa using h
  · exact folioHook_warmAsked _ _ _ _ _ _ _ _ (by simpa using h)

theorem flushDefer_warmAsked (e : Nat) (h : WarmAsked src s.dev.rstc) : WarmAsked src (flushDefer e s).dev.rstc := by
  unfold flushDefer; dsimp only
  exact foldl_dev_warmAsked (fun s x hs => commitStaged_warmAsked _ _ _ _ _ _ hs) _ (by simpa using h)

theorem deferFlush_warmAsked (h : WarmAsked src s.dev.rstc) : WarmAsked src (deferFlush s).dev.rstc := by
  refine foldl_dev_warmAsked (fun s e hs => ?_) _ h
  split
  · exact flushDefer_warmAsked e hs
  · exact hs

theorem applyLoose_warmAsked (page : Nat) (h : WarmAsked src s.dev.rstc) : WarmAsked src (applyLoose page s).dev.rstc := by
  refine foldl_dev_warmAsked (fun s k hs => ?_) _ h
  split
  · exact commitStaged_warmAsked _ _ _ _ _ _ (by simpa using hs)
  · exact hs

theorem headerWrite_warmAsked (b : Blk) (page off : Nat) (r : RegDef) (v : Word) (h : WarmAsked src s.dev.rstc) :
    WarmAsked src (headerWrite b page off r v s).dev.rstc := by
  unfold headerWrite; dsimp only
  split_ifs
  · exact applyLoose_warmAsked _ (by simpa using h)
  all_goals simpa using h

theorem applyWrite_warmAsked (ini : Initiator) (b : Blk) (i page off : Nat) (r : RegDef) (v : Word)
    (h : WarmAsked src s.dev.rstc) : WarmAsked src (applyWrite ini b i page off r v s).dev.rstc := by
  have fwd (s : State) (h : WarmAsked src s.dev.rstc) : WarmAsked src (onD s fun d =>
      if r.guarded then forwardWrite (forwardWrite d ini page off v) ini page (off + 0x80) (~~~v)
      else forwardWrite d ini page off v).dev.rstc := by simpa using h
  unfold applyWrite; dsimp only
  split
  · simpa using h
  split
  · split <;> simpa using h
  split
  · exact fwd _ (headerWrite_warmAsked _ _ _ _ _ h)
  split
  · split
    · split
      · exact fwd _ (by simpa using h)
      · exact fwd _ (commitStaged_warmAsked _ _ _ _ _ _ h)
    · split
      · exact fwd _ (folioHook_warmAsked _ _ _ _ _ _ _ _ h)
      · exact fwd _ (folioHook_warmAsked _ _ _ _ _ _ _ _ (by simpa using h))
  · simpa using h

theorem freshWrite_warmAsked (ini : Initiator) (b : Blk) (i page off : Nat) (v : Word) (h : WarmAsked src s.dev.rstc) :
    WarmAsked src (freshWrite ini b i page off v s).dev.rstc := by
  unfold freshWrite
  split
  · split <;> simpa using h
  · split
    · exact h
    · split
      · split <;> simpa using h
      · exact applyWrite_warmAsked _ _ _ _ _ _ _ h

theorem quoinWrite_warmAsked (ini : Initiator) (b : Blk) (i page off : Nat) (v : Word) (h : WarmAsked src s.dev.rstc) :
    WarmAsked src (quoinWrite ini b i page off v s).dev.rstc := by
  have h0 : WarmAsked src (onD s fun d => quoinTimeout d page ini).dev.rstc := by simpa using h
  unfold quoinWrite; dsimp only
  split
  · exact freshWrite_warmAsked _ _ _ _ _ _ h0
  · split
    · split
      · split
        · exact applyWrite_warmAsked _ _ _ _ _ _ _ (by simpa using h)
        · simpa using h
      · simpa using h
    · exact freshWrite_warmAsked _ _ _ _ _ _ (by simpa using h)

theorem folioStore_warmAsked (ini : Initiator) (page off : Nat) (v : Word) (h : WarmAsked src s.dev.rstc) :
    WarmAsked src (folioStore ini page off v s).1.dev.rstc := by
  unfold folioStore
  split
  · exact h
  · split_ifs
    · exact h
    · exact h
    · exact h
    · simpa using h
    · exact h
    · exact galleyRun_warmAsked (deferFlush_warmAsked (quoinWrite_warmAsked _ _ _ _ _ _ h))

/-! ### Stores of a core -/

theorem galleyStore_warmAsked (ini : Initiator) (a : Nat) (mask v : Word) (h : WarmAsked src s.dev.rstc) :
    WarmAsked src (galleyStore ini a mask v s).1.dev.rstc := by
  simp [galleyStore, h, critError_warmAsked]

theorem fabStore_warmAsked (ini : Initiator) (a : Nat) (mask v : Word) (h : WarmAsked src s.dev.rstc) :
    WarmAsked src (fabStore ini a mask v s).1.dev.rstc := by
  unfold fabStore
  split
  · exact h
  · split
    · split
      · exact folioStore_warmAsked _ _ _ _ h
      · exact h
    · exact galleyStore_warmAsked _ _ _ _ h
    · split <;> simpa using h
    · simpa using h

theorem fabStoreDouble_warmAsked (ini : Initiator) (a : Nat) (v w : Word) (h : WarmAsked src s.dev.rstc) :
    WarmAsked src (fabStoreDouble ini a v w s).1.dev.rstc := by
  unfold fabStoreDouble; dsimp only
  split <;> rename_i e1 <;> replace e1 := congrArg (fun x => x.1.dev.rstc) e1 <;> dsimp only at e1
  · rename_i s1 _
    have h1 : WarmAsked src s1.dev.rstc := by rw [← e1]; split <;> exact fabStore_warmAsked _ _ _ _ h
    split <;> rename_i e2 <;> replace e2 := congrArg (fun x => x.1.dev.rstc) e2 <;> dsimp only at e2
    · split
      · rw [← e2]; split <;> exact fabStore_warmAsked _ _ _ _ h1
      · exact h1
    · rw [← e2]; split <;> exact fabStore_warmAsked _ _ _ _ h1
  · rw [← e1]; split <;> exact fabStore_warmAsked _ _ _ _ h

/-- A folio is shown where the store instruction lies, or no longer (R438). -/
def markStore (c : Nat) (e : StoreEntry) (o : Option Bool) (s : State) : State :=
  if regionOf (some c) e.addr = .folio then onCore c (fun k => { k with romStore := o }) s else s

@[simp] theorem markStore_rstc (c : Nat) (e : StoreEntry) (o : Option Bool) (s : State) :
    (markStore c e o s).dev.rstc = s.dev.rstc := by
  simp [markStore]

/-- The access of a store that is not refused at once: one word or two. -/
def storeBus (c : Nat) (e : StoreEntry) (s : State) : State × BusRes :=
  match e.val2 with
  | none => fabStore (coreIni c) e.addr e.mask e.val (markStore c e (some e.rom) s)
  | some v2 => (match fabStoreDouble (coreIni c) e.addr e.val v2 (markStore c e (some e.rom) s) with
    | (s1, none) => (s1, .ok e.val)
    | (s1, some x) => (s1, x.2))

theorem storeBus_warmAsked (c : Nat) (e : StoreEntry) (h : WarmAsked src s.dev.rstc) :
    WarmAsked src (storeBus c e s).1.dev.rstc := by
  have hm : WarmAsked src (markStore c e (some e.rom) s).dev.rstc := by simpa using h
  unfold storeBus
  split
  · exact fabStore_warmAsked _ _ _ _ hm
  · rename_i v2 _
    have hd := fabStoreDouble_warmAsked (coreIni c) e.addr e.val v2 hm
    split <;> rename_i he <;> rw [he] at hd <;> exact hd

theorem storePerform_fst (c : Nat) (e : StoreEntry) (s : State) : (storePerform c e s).1 =
    if storeRefused c e = none then markStore c e none (storeBus c e s).1 else s := by
  unfold storePerform
  cases hr : storeRefused c e with
  | some f => rfl
  | none =>
    have hb : ∀ x : State × BusRes, (match x.2 with
        | .ok _ => (markStore c e none x.1, some none)
        | .err => (markStore c e none x.1, some (some (7, 2)))
        | .ecc => (markStore c e none x.1, some (some (8, 2)))
        | .wait => (markStore c e none x.1, (none : Option (Option (Nat × Nat))))).1 = markStore c e none x.1 := by
      intro x; cases x.2 <;> rfl
    exact hb (storeBus c e s)

theorem storePerform_warmAsked (c : Nat) (e : StoreEntry) (h : WarmAsked src s.dev.rstc) :
    WarmAsked src (storePerform c e s).1.dev.rstc := by
  rw [storePerform_fst]
  split
  · simpa using storeBus_warmAsked c e h
  · exact h

theorem storeAck_warmAsked (c idx : Nat) (par : Parity) (h : WarmAsked src s.dev.rstc) :
    WarmAsked src (storeAck c idx par s).dev.rstc := by
  unfold storeAck; dsimp only
  split
  · exact h
  · rename_i e _
    have hp := storePerform_warmAsked c e h
    split_ifs
    · exact h
    · exact h
    · simpa using h
    · split <;> rename_i hd <;> rw [hd] at hp
      · exact h
      · simpa using hp
    · split <;> rename_i hd <;> rw [hd] at hp
      · exact h
      · simpa using hp

theorem landStores_warmAsked (h : WarmAsked src s.dev.rstc) : WarmAsked src (landStores s).dev.rstc := by
  unfold landStores
  refine forUpTo_dev_warmAsked (fun c s hs => ?_) 8 h
  exact forUpTo_dev_warmAsked (fun _ s hs => storeAck_warmAsked c 0 .good hs) _ hs

end

end Sys2Proof.Machine

namespace Sys2Proof.Machine

/-! ## Power outputs and engines

What the power outputs and the Traverse engines do for themselves is seen in no register of the system pages. -/

section
variable {d e : Dev}

/-- Of the device only what blocks keep to themselves and registers of the block pages may differ: cores, queues, time, quoin
pairs and shadows stay and, with no copies that differ, so does every register below page 0x12. -/
structure BlockOnly (d e : Dev) : Prop where
  core : e.core = d.core
  galley : e.galley = d.galley
  now : e.now = d.now
  quoin : e.folio.quoin = d.folio.quoin
  shadows : e.folio.shadows = d.folio.shadows
  clean : d.folio.copies = [] → e.folio.copies = []
  low : d.folio.copies = [] → ∀ k < 0x1200, rd e k = rd d k

namespace BlockOnly

theorem refl (d : Dev) : BlockOnly d d := ⟨rfl, rfl, rfl, rfl, rfl, id, fun _ _ _ => rfl⟩

/-- The parts a block keeps to itself may change. -/
theorem of_same {x : Dev} (h : BlockOnly d e) (hc : x.core = e.core := by rfl) (hg : x.galley = e.galley := by rfl)
    (hn : x.now = e.now := by rfl) (hf : x.folio = e.folio := by rfl) (hr : x.regs = e.regs := by rfl) : BlockOnly d x where
  core := hc.trans h.core
  galley := hg.trans h.galley
  now := hn.trans h.now
  quoin := hf ▸ h.quoin
  shadows := hf ▸ h.shadows
  clean hd := hf ▸ h.clean hd
  low hd k hk := by
    have he := h.clean hd
    rw [rd_clean (hf ▸ he), hr, ← rd_clean he, h.low hd k hk]

theorem after_wr {k : Nat} (h : BlockOnly d e) (v : Word) (hk : 0x1200 ≤ k) : BlockOnly d (wr e k v) where
  core := h.core
  galley := h.galley
  now := h.now
  quoin := h.quoin
  shadows := h.shadows
  clean hd := wr_copies (h.clean hd) ..
  low hd j hj := by rw [rd_wr_ne (h.clean hd) v (by omega), h.low hd j hj]

theorem after_pf {f : Fd} (h : BlockOnly d e) (n : Nat) (hk : 0x1200 ≤ f.reg) : BlockOnly d (pf e f n) := h.after_wr _ hk
theorem after_pb {f : Fd} (h : BlockOnly d e) (b : Bool) (hk : 0x1200 ≤ f.reg) : BlockOnly d (pb e f b) := h.after_wr _ hk
theorem after_incF {f : Fd} (h : BlockOnly d e) (n : Nat) (hk : 0x1200 ≤ f.reg) : BlockOnly d (incF e f n) := h.after_wr _ hk

theorem after_pbit {f : Fd} (h : BlockOnly d e) (i : Nat) (b : Bool) (hk : 0x1200 ≤ f.reg) : BlockOnly d (pbit e f i b) := by
  unfold pbit
  split
  · exact h.after_wr _ hk
  · exact h

theorem after_forUpTo {f : Nat → Dev → Dev} (hf : ∀ i e, BlockOnly d e → BlockOnly d (f i e)) (n : Nat)
    (h : BlockOnly d e) : BlockOnly d (forUpTo n f e) := by
  unfold forUpTo
  generalize upTo n = l
  induction l generalizing e with
  | nil => exact h
  | cons i l ih => exact ih (hf i e h)

/-! ### Events and trip sources -/

theorem after_drive (h : BlockOnly d e) (n : Nat) : BlockOnly d (drive e n) := h.of_same

theorem after_raiseEvt {page : Nat} (h : BlockOnly d e) (b : Nat) (hp : 0x12 ≤ page) : BlockOnly d (raiseEvt e page b) := by
  have h1 : BlockOnly d (pbit e (FOLIO_EVT.BLK page) b true) := h.after_pbit _ _ (by unfold FOLIO_EVT.BLK; dsimp only; omega)
  obtain heq | ⟨n, heq⟩ := raiseEvt_cases (d := e) page b <;> rw [heq]
  · exact h1
  · exact h1.after_drive n

theorem after_setLevel (h : BlockOnly d e) (s : Nat) (b : Bool) : BlockOnly d (setLevel e s b) := by
  unfold setLevel; dsimp only
  split <;> exact h.of_same

theorem after_setLive (h : BlockOnly d e) (s : Nat) (b : Bool) : BlockOnly d (setLive e s b) := by
  have h1 : BlockOnly d (pbit e (TRIPNET_LIVE.LIVE (s / 32)) (s % 32) b) := h.after_pbit _ _ (Nat.le_add_right_of_le (by decide))
  unfold setLive
  split
  · exact h
  · exact h1.of_same

/-! ### Traverse engines -/

theorem after_trip (h : BlockOnly d e) (t : TripSt) : BlockOnly d { e with trip := t } := h.of_same
theorem after_withTrav (h : BlockOnly d e) (u : Nat) (f : TravSt → TravSt) : BlockOnly d (withTrav e u f) := h.of_same

theorem after_travEvt (h : BlockOnly d e) (u k : Nat) : BlockOnly d (travEvt e u k) :=
  h.after_raiseEvt k (Nat.le_add_right_of_le (by decide))

theorem after_feSource (h : BlockOnly d e) (u : Nat) : BlockOnly d (feSource e u) := h.after_setLive ..

theorem after_freshCheck (h : BlockOnly d e) (u : Nat) : BlockOnly d (freshCheck e u) := h.after_withTrav ..

theorem after_setStw (h : BlockOnly d e) (u k : Nat) (v : Word) : BlockOnly d (setStw e u k v) :=
  h.after_wr v (Nat.le_add_right_of_le (Nat.le_add_right_of_le (by decide)))

theorem after_setOvst (h : BlockOnly d e) (u n : Nat) : BlockOnly d (setOvst e u n) :=
  h.after_pf n (Nat.le_add_right_of_le (by decide))

theorem after_setFet (h : BlockOnly d e) (u : Nat) : BlockOnly d (setFet e u) := by
  have h1 : BlockOnly d (feSource (travEvt (pb e (TRAV_FESTAT.FET u) true) u 6) u) :=
    ((h.after_pb true (Nat.le_add_right_of_le (by decide))).after_travEvt u 6).after_feSource u
  unfold setFet; dsimp only
  split
  · exact h1.after_withTrav ..
  · exact h1

theorem after_feSyncAs (h : BlockOnly d e) (u : Nat) (en : Bool) (time : Nat) (restart : Bool) :
    BlockOnly d (feSyncAs e u en time restart) := by
  have h1 (n : Nat) (f : TravSt → TravSt) : BlockOnly d (withTrav (pf e (TRAV_FECNT.CNT u) n) u f) :=
    (h.after_pf n (Nat.le_add_right_of_le (by decide))).after_withTrav u f
  unfold feSyncAs; dsimp only
  split
  · exact (h1 ..).after_setFet u
  · exact h1 ..

theorem after_feClear (h : BlockOnly d e) (u : Nat) : BlockOnly d (feClear e u) := by
  have h1 := h.after_pf (f := TRAV_FECNT.CNT u) 0 (Nat.le_add_right_of_le (by decide))
  have h2 := h1.after_pb (f := TRAV_FESTAT.FET u) false (Nat.le_add_right_of_le (by decide))
  have h3 := h2.after_pb (f := TRAV_FESTAT.COND u) false (Nat.le_add_right_of_le (by decide))
  have h4 := h3.after_pb (f := TRAV_FESTAT.SAFE u) false (Nat.le_add_right_of_le (by decide))
  exact (h4.after_withTrav u _).after_feSource u

theorem after_travTrigger (h : BlockOnly d e) (u : Nat) : BlockOnly d (travTrigger e u) :=
  (h.after_pbit 4 true (Nat.le_add_right_of_le (by decide))).after_freshCheck u

theorem after_arrive (h : BlockOnly d e) (u n : Nat) (v : F32) (ts : Word) (depth : Nat) :
    BlockOnly d (arrive e u n v ts depth) := by
  have h1 {x : Dev} (hx : BlockOnly d x) (f : TravSt → TravSt) : BlockOnly d (freshCheck (pbit (withTrav
      (wr (wr x (TRAV_LAT.at u n) (v.setWidth 36)) (TRAV_LATTS.at u n) ts) u f) (TRAV_STAT.FRESH u) n true) u) :=
    ((((hx.after_wr _ (Nat.le_add_right_of_le (Nat.le_add_right_of_le (by decide)))).after_wr _
      (Nat.le_add_right_of_le (Nat.le_add_right_of_le (by decide)))).after_withTrav u f).after_pbit n true
        (Nat.le_add_right_of_le (by decide))).after_freshCheck u
  unfold arrive; dsimp only
  split
  · exact h.after_travEvt ..
  · split
    · exact h1 ((h.after_incF 1 (Nat.le_add_right_of_le (by decide))).after_travEvt ..) _
    · exact h1 h _

theorem after_writeStw (h : BlockOnly d e) (u k : Nat) (v : Word) : BlockOnly d (writeStw e u k v) := by
  unfold writeStw
  split
  · exact ((h.after_setStw u 8 0).after_pf _ (Nat.le_add_right_of_le (by decide))).after_withTrav ..
  · exact h

theorem after_onOvcfg (h : BlockOnly d e) (u : Nat) : BlockOnly d (onOvcfg e u) := by
  unfold onOvcfg; dsimp only
  split
  · exact (h.after_setOvst u 0).after_withTrav ..
  split
  · exact (((h.after_setOvst u 1).after_pb _ (Nat.le_add_right_of_le (by decide))).after_setStw ..).after_withTrav ..
  · exact h.after_withTrav ..

theorem after_onTrav (h : BlockOnly d e) (u off : Nat) (old v : Word) : BlockOnly d (onTrav e u off old v) := by
  unfold onTrav
  split
  · split
    · exact h
    · exact h.after_withTrav ..
  · exact (h.after_withTrav ..).after_freshCheck u
  · split
    · exact h.after_travTrigger u
    · exact h
  · exact h.after_onOvcfg u
  · split
    · exact h.after_pb _ (Nat.le_add_right_of_le (by decide))
    · exact h
  · exact (h.after_feSyncAs ..).after_feSource u
  · dsimp only
    have h1 := h.after_feSyncAs u (gb e (TRAV_FECFG.EN u)) (fld old 31 0) false
    split
    · have h2 := h1.after_pf (f := TRAV_FECNT.CNT u) (fld v 31 0) (Nat.le_add_right_of_le (by decide))
      split
      · exact h2
      · exact h2.after_setFet u
    · exact h1
  · split
    · exact h.after_feClear u
    · exact h
  · exact h

theorem after_onTravReg (h : BlockOnly d e) (u off : Nat) (old v : Word) : BlockOnly d (onTravReg e u off old v) := by
  unfold onTravReg
  split
  · exact h.after_arrive ..
  split
  · exact h.after_writeStw ..
  · exact h.after_onTrav ..

/-! ### Power outputs -/

theorem after_withComp (h : BlockOnly d e) (k : Nat) (f : CompSt → CompSt) : BlockOnly d (withComp e k f) := h.of_same
theorem after_withTwin (h : BlockOnly d e) (f : TwinSt → TwinSt) : BlockOnly d (withTwin e f) := h.of_same
theorem after_withPair (h : BlockOnly d e) (f n : Nat) (g : PairSt → PairSt) : BlockOnly d (withPair e f n g) := h.of_same

theorem after_contOutputs (h : BlockOnly d e) (k : Nat) : BlockOnly d (contOutputs e k) :=
  (((h.after_setLevel ..).after_setLevel ..).after_setLevel ..).after_setLive ..

theorem after_blankStart (h : BlockOnly d e) (k : Nat) : BlockOnly d (blankStart e k) := by
  unfold blankStart; dsimp only
  split
  · exact h
  · have h1 (f : CompSt → CompSt) : BlockOnly d (pbit (withComp e k f) (CONT_STAT.BLANKED (k / 16)) (k % 16) true) :=
      (h.after_withComp k f).after_pbit _ _ (Nat.le_add_right_of_le (by decide))
    exact (((h1 _).after_trip _).after_contOutputs k).after_trip _

theorem after_slopeEvent (h : BlockOnly d e) (k n : Nat) : BlockOnly d (slopeEvent e k n) := by
  unfold slopeEvent; dsimp only
  split
  · split
    · exact h.after_withComp ..
    · exact h
  · split
    · exact h.after_withComp ..
    · exact h

theorem after_contPinEdge (h : BlockOnly d e) (f n i : Nat) : BlockOnly d (contPinEdge e f n i) := by
  refine after_forUpTo (fun k x hx => ?_) 64 h
  dsimp only
  split
  · have h1 : BlockOnly d (if bit (rd x (CONT_BLANK.at (k / 16) (k % 16))) (8 + i) then blankStart x k else x) := by
      split
      · exact hx.after_blankStart k
      · exact hx
    generalize (if bit (rd x (CONT_BLANK.at (k / 16) (k % 16))) (8 + i) then blankStart x k else x) = y at h1 ⊢
    split_ifs
    · exact h1.after_slopeEvent ..
    · exact h1.after_slopeEvent ..
    · exact h1
  · exact hx

theorem after_commTurnOn (h : BlockOnly d e) (f n : Nat) (rising : Bool) : BlockOnly d (commTurnOn e f n rising) := by
  refine after_forUpTo (fun k x hx => ?_) 64 h
  split
  · split
    · refine (hx.after_withComp ..).after_pf _ ?_
      split <;> exact Nat.le_add_right_of_le (Nat.le_add_right_of_le (by decide))
    · exact hx
  · exact hx

theorem after_commAbort (h : BlockOnly d e) (f n : Nat) : BlockOnly d (commAbort e f n) := by
  refine after_forUpTo (fun k x hx => ?_) 64 h
  split
  · exact hx.after_withComp ..
  · exact hx

theorem after_setOut (h : BlockOnly d e) (f n : Nat) (b on : Bool) (t : Nat) : BlockOnly d (setOut e f n b on t) := by
  unfold setOut; dsimp only
  split
  · exact h
  · have h1 (g : PairSt → PairSt) (i : Nat) := (h.after_withPair f n g).after_contPinEdge f n i
    split
    · exact (h1 _ _).after_commTurnOn ..
    · exact h1 _ _

theorem after_cutPair (h : BlockOnly d e) (f n : Nat) : BlockOnly d (cutPair e f n) :=
  (((h.after_withPair ..).after_commAbort ..).after_setOut ..).after_setOut ..

theorem after_padCheck {f : Nat} (h : BlockOnly d e) (n : Nat) : BlockOnly d (padCheck e f n) := by
  unfold padCheck; dsimp only
  split
  · exact h.after_raiseEvt _ (Nat.le_add_right_of_le (by decide))
  · exact h

theorem after_padFollow (h : BlockOnly d e) (f n : Nat) : BlockOnly d (padFollow e f n) := by
  unfold padFollow; dsimp only
  split
  · exact h
  split
  · exact (h.after_withPair ..).after_cutPair ..
  · split
    · exact ((h.after_withPair ..).after_withPair ..).after_commAbort .. |>.after_padCheck n
    · exact (h.after_withPair ..).after_padCheck n

theorem after_allPadsFollow (h : BlockOnly d e) : BlockOnly d (allPadsFollow e) := by
  unfold allPadsFollow
  refine after_forUpTo (fun f x hx => ?_) 16 h
  unfold padsFollow
  exact after_forUpTo (fun n x hx => hx.after_padFollow f n) 4 hx

theorem after_twinTrip (h : BlockOnly d e) : BlockOnly d (twinTrip e) := h.after_setLive ..

theorem after_ownUpdate (h : BlockOnly d e) : BlockOnly d (ownUpdate e) := by
  have h1 : BlockOnly d (pb e TWIN_STAT.OWNOUT (ownCond e)) := h.after_pb _ (by decide)
  unfold ownUpdate
  exact ((h1.after_withTwin _).after_twinTrip).after_allPadsFollow

end BlockOnly
end

end Sys2Proof.Machine

namespace Sys2Proof.Machine

/-! ## Registers held back -/

section
variable {d e : Dev} {s t : State}

/-! ### Registers held back for an engine's update (R57) -/

theorem BlockOnly.after_defer (h : BlockOnly d e) (g : FolioSt → List (Nat × Word)) :
    BlockOnly d (withFolio e fun f => { f with defer := g f }) where
  core := h.core
  galley := h.galley
  now := h.now
  quoin := h.quoin
  shadows := h.shadows
  clean hd := h.clean hd
  low hd k hk := by
    have he : (withFolio e fun f => { f with defer := g f }).folio.copies = [] := h.clean hd
    rw [rd_clean he, withFolio_regs, ← rd_clean (h.clean hd), h.low hd k hk]

theorem BlockOnly.after_fixStaged {page : Nat} (h : BlockOnly d e) (hp : 0x12 ≤ page) : BlockOnly d (fixStaged e page) :=
  h.after_pb _ (by unfold FOLIO_STAT.STAGED; dsimp only; omega)

/-- What engines do with the words they held back: memories and the reset unit stay, of the device only blocks change. -/
structure Flushed (s t : State) : Prop where
  mem : t.mem = s.mem
  rstc : t.dev.rstc = s.dev.rstc
  dev : BlockOnly s.dev t.dev

theorem Flushed.refl (s : State) : Flushed s s := ⟨rfl, rfl, .refl _⟩

theorem Flushed.after_onD {f : Dev → Dev} (h : Flushed s t) (hr : (f t.dev).rstc = t.dev.rstc)
    (hf : BlockOnly s.dev (f t.dev)) : Flushed s (onD t f) :=
  ⟨h.mem, hr.trans h.rstc, hf⟩

theorem Flushed.after_foldl {α : Type} {f : State → α → State} (hf : ∀ t x, Flushed s t → Flushed s (f t x))
    (l : List α) (h : Flushed s t) : Flushed s (l.foldl f t) := by
  induction l generalizing t with
  | nil => exact h
  | cons x l ih => exact ih (hf t x h)

theorem Flushed.after_commitStaged (h : Flushed s t) (ini : Initiator) (i off : Nat) {page : Nat} (v : Word)
    (hp : 0x12 ≤ page) : Flushed s (commitStaged ini .trav i page off v t) := by
  unfold commitStaged; dsimp only
  split
  · exact h.after_onD (by simp) ((h.dev.after_defer _).after_fixStaged hp)
  · have h1 : Flushed s (onD t fun d => wr d (page * 256 + off) v) :=
      h.after_onD (by simp) (h.dev.after_wr v (by omega))
    exact h1.after_onD (f := fun d => onTravReg d i off _ v) (by simp) (h1.dev.after_onTravReg ..)

theorem Flushed.after_flushDefer (h : Flushed s t) (u : Nat) : Flushed s (flushDefer u t) := by
  have hp : 0x12 ≤ travPage u := Nat.le_add_right_of_le (by decide)
  unfold flushDefer; dsimp only
  refine Flushed.after_foldl (fun t x ht => ht.after_commitStaged _ _ _ _ hp) _ ?_
  exact h.after_onD (by simp) ((h.dev.after_defer _).after_fixStaged hp)

theorem deferFlush_flushed (s : State) : Flushed s (deferFlush s) := by
  refine Flushed.after_foldl (fun t e ht => ?_) _ (.refl s)
  split
  · exact ht.after_flushDefer e
  · exact ht

end

end Sys2Proof.Machine

namespace Sys2Proof.Machine

/-! ## SWRST -/

section
variable {ini : Initiator} {page off i n : Nat} {b : Blk} {r : RegDef} {v : Word} {s t : State}

/-! ### A quoin pair on a guarded register (R60 to R63) -/

theorem galleyRun_idle (h : s.dev.galley.cmds = []) : galleyRun s = s := by simp [galleyRun, h]

/-- A device that hears an initiator has started. -/
theorem Open.started (h : Open ini page s) : s.dev.rstc.phase = .started := by
  have hs := h.served
  simp only [iniServed, Bool.and_eq_true, decide_eq_true_eq] at hs
  exact hs.1.1

theorem Open.quoinOf_none (h : Open ini page s) : quoinOf s.dev page ini = none := by
  simp only [quoinOf, List.find?_eq_none, decide_eq_true_eq]
  exact h.noPair

/-- The value of a pair waits for its complement. -/
def pendValue (ini : Initiator) (page off : Nat) (v : Word) (d : Dev) : Dev :=
  withFolio d fun f => { f with quoin := f.quoin ++ [⟨page, off, ini, v, d.now⟩] }

theorem rd_pendValue (d : Dev) (h : d.folio.copies = []) (k : Nat) : rd (pendValue ini page off v d) k = rd d k := by
  have h' : (pendValue ini page off v d).folio.copies = [] := h
  rw [rd_clean h', rd_clean h]; rfl

theorem quoinOf_pendValue (h : Open ini page s) :
    quoinOf (pendValue ini page off v s.dev) page ini = some ⟨page, off, ini, v, s.dev.now⟩ := by
  have hn := h.quoinOf_none
  unfold quoinOf at hn ⊢
  rw [pendValue, withFolio_folio, List.find?_append, hn]
  simp

/-- A guarded register below the complement ports, on a page that is neither the debug unit's nor the flash controller's. -/
structure GuardedReg (page off : Nat) (b : Blk) (i : Nat) (r : RegDef) : Prop where
  block : blockOf page = some (b, i)
  reg : ∃ n, regAt page off = some (r, n)
  guarded : r.guarded = true
  low : off < 0x80
  notDbg : b ≠ .dbg
  notFlash : b ≠ .flashc

theorem GuardedReg.guardedAt (h : GuardedReg page off b i r) : guardedAt page off = some r := by
  obtain ⟨n, hr⟩ := h.reg
  simp [Machine.guardedAt, hr, h.guarded]

/-- A store to a page that takes writes comes to the quoin. -/
theorem folioStore_heard (hg : GuardedReg page off b i r) (k : Nat) (hi : debugShut s.dev ini = false)
    (hl : gb s.dev (FOLIO_STAT.BRST_PEND page) = false) :
    (folioStore ini page k v s).1 = galleyRun (deferFlush (quoinWrite ini b i page k v s)) := by
  simp [folioStore, hg.block, hi, hg.notDbg, hg.notFlash, hl]

theorem quoinWrite_value (hg : GuardedReg page off b i r) (ho : Open ini page s) :
    quoinWrite ini b i page off v s = onD s (pendValue ini page off v) := by
  obtain ⟨n, hr⟩ := hg.reg
  have hq := ho.quoinOf_none
  have hroom := ho.room
  have h0 : quoinTimeout s.dev page ini = s.dev := by simp [quoinTimeout, hq]
  have hs : (onD s fun d => quoinTimeout d page ini) = s := by simp [onD, h0]
  have hlow : ¬ 0x80 ≤ off := Nat.not_le.mpr hg.low
  have hfull : ¬ 4 ≤ (s.dev.folio.quoin.filter fun q => decide (q.page = page)).length := Nat.not_le.mpr hroom
  simp only [quoinWrite, hs, hq, freshWrite, ge_iff_le, hlow, if_false, hr, hg.guarded, if_true, hfull]
  rfl

theorem quoinWrite_complement {tick : Nat} (hg : GuardedReg page off b i r)
    (hq : quoinOf s.dev page ini = some ⟨page, off, ini, v, tick⟩) (ht : s.dev.now < tick + 4096) :
    quoinWrite ini b i page (off + 0x80) (~~~v) s = applyWrite ini b i page off r v (onD s fun d => quoinDrop d page ini) := by
  have h0 : quoinTimeout s.dev page ini = s.dev := by
    simp [quoinTimeout, hq, quoinExpired, Nat.not_le.mpr ht]
  have hs : (onD s fun d => quoinTimeout d page ini) = s := by simp [onD, h0]
  simp [quoinWrite, hs, hq, hg.guardedAt]

/-- The pair applies its value: to a state that differs from the one before only in what engines had held back. -/
theorem folioPair_applies (hg : GuardedReg page off b i r) (hp : page < 0x12) (hc : s.dev.folio.copies = [])
    (ho : Open ini page s) : ∃ t, folioPair ini page off v s = galleyRun (deferFlush (applyWrite ini b i page off r v t)) ∧
      t.mem = s.mem ∧ t.dev.rstc = s.dev.rstc ∧ t.dev.core = s.dev.core ∧ t.dev.galley = s.dev.galley := by
  have hf := deferFlush_flushed (onD s (pendValue ini page off v))
  have h1 : (folioStore ini page off v s).1 = deferFlush (onD s (pendValue ini page off v)) := by
    rw [folioStore_heard hg _ ho.initiator ho.live, quoinWrite_value hg ho, galleyRun_idle (by rw [hf.dev.galley]; exact ho.idle)]
  generalize deferFlush (onD s (pendValue ini page off v)) = s1 at hf h1
  have hlow (k : Nat) (hk : k < 0x1200) : rd s1.dev k = rd s.dev k :=
    (hf.dev.low hc k hk).trans (rd_pendValue s.dev hc k)
  have hq : quoinOf s1.dev page ini = some ⟨page, off, ini, v, s.dev.now⟩ := by
    rw [quoinOf, hf.dev.quoin]; exact quoinOf_pendValue ho
  have hnow : s1.dev.now = s.dev.now := hf.dev.now
  have hi : debugShut s1.dev ini = false := by
    have h := ho.initiator
    simpa only [debugShut, dbgOpen, gb, gf, hlow SEC_STAT.DBGUNL.reg (by decide)] using h
  have hl : gb s1.dev (FOLIO_STAT.BRST_PEND page) = false := by
    have h := ho.live
    have hk : (FOLIO_STAT.BRST_PEND page).reg < 0x1200 := by unfold FOLIO_STAT.BRST_PEND; dsimp only; omega
    simpa only [gb, gf, hlow _ hk] using h
  refine ⟨onD s1 fun d => quoinDrop d page ini, ?_, hf.mem, hf.rstc, hf.dev.core, hf.dev.galley⟩
  rw [folioPair, h1, folioStore_heard hg _ hi hl, quoinWrite_complement hg hq (by omega)]

/-! ### The command (R470) -/

/-- The cause of a software warm reset that an initiator asks for. -/
def swrstSource (ini : Initiator) : ResetSource := if ini = .pcie ∨ ini = .sec then .hostreq else .swreq

/-- RSTC_SWRST in the register table. -/
def swrstReg : RegDef := ⟨"RSTC_SWRST", 0x10, 1, 1, false, false, true, false, [⟨0, 0, .wo, 0x0⟩]⟩

theorem guardedReg_swrst : GuardedReg 1 0x10 .rstc 0 swrstReg where
  block := by decide +kernel
  reg := ⟨0, by decide +kernel⟩
  guarded := rfl
  low := by decide
  notDbg := by decide
  notFlash := by decide

theorem forwardWrite_go_twin (d : Dev) (page off : Nat) (v : Word) : ∃ f, forwardWrite.go d page off v = withTwin d f := by
  unfold forwardWrite.go
  split
  · exact ⟨id, rfl⟩
  · exact ⟨_, rfl⟩

/-- Forwarding to a standby is the twin unit's alone. -/
theorem forwardWrite_twin (d : Dev) (ini : Initiator) (page off : Nat) (v : Word) :
    ∃ f, forwardWrite d ini page off v = withTwin d f := by
  have hgo := forwardWrite_go_twin d page off v
  have hkept : ∃ f, d = withTwin d f := ⟨id, rfl⟩
  unfold forwardWrite
  repeat' split
  all_goals assumption

@[simp] theorem forwardWrite_core (d : Dev) (ini : Initiator) (page off : Nat) (v : Word) :
    (forwardWrite d ini page off v).core = d.core := by
  obtain ⟨f, h⟩ := forwardWrite_twin d ini page off v
  rw [h]; rfl

@[simp] theorem forwardWrite_galley (d : Dev) (ini : Initiator) (page off : Nat) (v : Word) :
    (forwardWrite d ini page off v).galley = d.galley := by
  obtain ⟨f, h⟩ := forwardWrite_twin d ini page off v
  rw [h]; rfl

theorem applyWrite_swrst (ini : Initiator) (t : State) : applyWrite ini .rstc 0 1 0x10 swrstReg 1 t =
    onD t fun d =>
      forwardWrite (forwardWrite (warmReq (wr d RSTC_SWRST.at 0) (swrstSource ini)) ini 1 0x10 1) ini 1 0x90 (~~~1) := by
  have hlock : startLocked t.dev ini .rstc = false := by simp [startLocked]
  have hval : (1 : Word) &&& (swrstReg.mask .rw ||| swrstReg.mask .wo ||| swrstReg.mask .w1c) = 1 := by decide
  have hmerge (old : Word) : mergeWord swrstReg old 1 = 0 := by
    have hrw : swrstReg.mask .rw = 0 := by decide
    have hro : swrstReg.mask .ro ||| (swrstReg.mask .w1c &&& ~~~1) = 0 := by decide
    rw [mergeWord, hrw, hro]; simp
  have hverdict (old : Word) : verdict ini .rstc 0 0x10 old 1 t = .ok := by simp [verdict]
  have hhook (d : Dev) : onRstc d ini 0x10 1 = warmReq d (swrstSource ini) := by
    have hbit : bit (1 : Word) 0 = true := by decide
    rw [onRstc, if_pos rfl, if_pos hbit]; rfl
  have hstaged : swrstReg.staged = false := rfl
  have hguarded : swrstReg.guarded = true := rfl
  have hkey : (1 : Nat) * 256 + 0x10 = RSTC_SWRST.at := rfl
  simp only [applyWrite, hlock, hkey, hval, hmerge, hverdict, hstaged, hguarded, selfKept, folioHook]
  simp only [onD, setDev_dev, setDev_setDev, hhook]
  simp

/-- SWRST leaves the warm reset asked for; memories, cores and Galley stay. -/
theorem ownWrite_swrst {ini : Initiator} {s : State} (hc : Calm s) (ho : Open ini 1 s) :
    let t := ownWrite ini RSTC_SWRST.at 1 s
    t.mem = s.mem ∧ t.dev.rstc = { s.dev.rstc with req := [swrstSource ini] } ∧ t.dev.core = s.dev.core ∧
      t.dev.galley = s.dev.galley := by
  obtain ⟨t, ht, hmem, hrstc, hcore, hgalley⟩ := folioPair_applies (v := 1) guardedReg_swrst (by decide) hc.upright ho
  have hpair : ownWrite ini RSTC_SWRST.at 1 s = folioPair ini 1 0x10 1 s := by
    have hk : RSTC_SWRST.at / 256 = 1 ∧ RSTC_SWRST.at % 256 = 0x10 := by decide
    simp [ownWrite, hk, ho.served, ho.notBarred, guardedReg_swrst.guardedAt]
  have hf := deferFlush_flushed (applyWrite ini .rstc 0 1 0x10 swrstReg 1 t)
  have hg : (deferFlush (applyWrite ini .rstc 0 1 0x10 swrstReg 1 t)).dev.galley = s.dev.galley := by
    rw [hf.dev.galley, applyWrite_swrst]; simpa [warmReq] using hgalley
  have hidle : (deferFlush (applyWrite ini .rstc 0 1 0x10 swrstReg 1 t)).dev.galley.cmds = [] := by rw [hg]; exact ho.idle
  rw [hpair, ht, galleyRun_idle hidle]
  refine ⟨?_, ?_, ?_, hg⟩
  · rw [hf.mem, applyWrite_swrst]; exact hmem
  · rw [hf.rstc, applyWrite_swrst]; simp [warmReq, hrstc, hc.noReset]
  · rw [hf.dev.core, applyWrite_swrst]; simpa [warmReq] using hcore

/-- SWRST completes; of the reset unit it changes only what waits to assert. -/
theorem exec_swrst {ini : Initiator} {s : State} (hc : Calm s) (ho : Open ini 1 s) :
    ∃ t, exec (.swrst ini) s = .next t ∧ t.pending = s.pending ∧ t.mem = s.mem ∧
      t.dev.rstc = { s.dev.rstc with req := [swrstSource ini] } ∧ t.dev.core = s.dev.core := by
  obtain ⟨hmem, hrstc, hcore, hgalley⟩ := ownWrite_swrst hc ho
  refine ⟨_, onState_calm (fun s => ownWrite ini RSTC_SWRST.at 1 s) hc (by rw [hgalley]; exact hc.noWait)
    (by rw [hrstc]; exact hc.settled), rfl, hmem, ?_, ?_⟩
  · exact (evalUpdate_rstc ..).trans hrstc
  · exact (evalUpdate_core ..).trans hcore

end

end Sys2Proof.Machine

namespace Sys2Proof.Machine

/-! ## WARM_RESET -/

section
variable {src : ResetSource} {d e : Dev} {s : State}

/-! ### A flash operation that the reset aborts leaves the reset unit alone (R434) -/

@[simp] theorem programOtp_rstc (d : Dev) (k : Nat) (v : Word) : (programOtp d k v).rstc = d.rstc := rfl
@[simp] theorem burnFuses_rstc (d : Dev) (k j n : Nat) : (burnFuses d k j n).rstc = d.rstc := rfl
@[simp] theorem onGate_rstc (d : Dev) (old : Bool) : (onGate d old).rstc = d.rstc := rfl
@[simp] theorem sealBlock_rstc (a : Nat) (s : State) : (sealBlock a s).dev.rstc = s.dev.rstc := rfl
@[simp] theorem partSeal_rstc (a : Nat) (r : Word) (s : State) : (partSeal a r s).dev.rstc = s.dev.rstc := rfl
@[simp] theorem programCells_rstc (a : Nat) (v : Word) (syn : Nat) (s : State) :
    (programCells a v syn s).dev.rstc = s.dev.rstc := rfl
@[simp] theorem eraseSector_rstc (n : Nat) (s : State) : (eraseSector n s).dev.rstc = s.dev.rstc := rfl

@[simp] theorem otpAbort_rstc (d : Dev) (id : Nat) (r : Word) : (otpAbort d id r).rstc = d.rstc := by
  unfold otpAbort
  split
  · rfl
  · dsimp only
    split_ifs <;> simp

@[simp] theorem opEnd_rstc (d : Dev) : (opEnd d).rstc = d.rstc := by
  unfold opEnd
  split
  · rfl
  · dsimp only
    split <;> rfl

@[simp] theorem opAbort_rstc (s : State) : (opAbort s).dev.rstc = s.dev.rstc := by
  unfold opAbort
  split
  · rfl
  · rw [setDev_dev, opEnd_rstc]
    dsimp only
    split_ifs <;> simp

/-! ### The device in reset -/

/-- The device is in reset: nothing waits in it and no field has copies that differ. -/
structure InReset (d : Dev) : Prop where
  phase : d.rstc.phase = .asserted
  noEntry : d.rstc.parkEntry = false
  noWait : d.galley.waiters = []
  upright : d.folio.copies = []
  noShadow : d.folio.shadows = []

namespace InReset

theorem after_wr (h : InReset d) (k : Nat) (v : Word) : InReset (wr d k v) :=
  ⟨h.phase, h.noEntry, h.noWait, wr_copies h.upright .., h.noShadow⟩

theorem after_pf (h : InReset d) (f : Fd) (n : Nat) : InReset (pf d f n) := h.after_wr ..
theorem after_pb (h : InReset d) (f : Fd) (b : Bool) : InReset (pb d f b) := h.after_wr ..

theorem after_foldl {α : Type} {f : Dev → α → Dev} (hf : ∀ d x, InReset d → InReset (f d x)) (l : List α)
    (h : InReset d) : InReset (l.foldl f d) := by
  induction l generalizing d with
  | nil => exact h
  | cons x l ih => exact ih (hf d x h)

theorem after_forUpTo {f : Nat → Dev → Dev} (hf : ∀ i d, InReset d → InReset (f i d)) (n : Nat) (h : InReset d) :
    InReset (forUpTo n f d) :=
  after_foldl (fun d i => hf i d) _ h

theorem carryOutside (d : Dev) (h : InReset e) : InReset (carryOutside d e) := by
  have h1 : InReset (forUpTo 4 (fun i n => wr n (GPIO_IN.at i) (rd d (GPIO_IN.at i)))
      (forUpTo 16 (fun u n => pf n (BRNG_STAT.LVL u) (gf d (BRNG_STAT.LVL u)))
        (pb e TWIN_STAT.OWNIN (gb d TWIN_STAT.OWNIN)))) :=
    after_forUpTo (fun _ _ h => h.after_wr ..) 4 (after_forUpTo (fun _ _ h => h.after_pf ..) 16 (h.after_pb ..))
  exact ⟨h1.phase, h1.noEntry, h1.noWait, h1.upright, h1.noShadow⟩

/-- A warm reset puts the device in reset (R466). -/
theorem warmDev (d : Dev) : InReset (warmDev d) := by
  refine after_forUpTo (fun _ _ h => h.after_pb ..) 24 (after_pb (after_pf (after_pf (after_pf (after_foldl
    (fun _ _ h => h.after_pb ..) _ (carryOutside d ?_)) ..) ..) ..) ..)
  exact ⟨rfl, rfl, rfl, rfl, rfl⟩

end InReset

/-! ### The cause of the reset (R459) -/

theorem causesOf_cons (x : ResetSource) (l : List ResetSource) (w : Word) :
    causesOf (x :: l) w = causesOf l (setBitW w x.bit true) := rfl

theorem bit_setBitW_source (src : ResetSource) (w : Word) : bit (setBitW w src.bit true) src.bit = true :=
  bit_setBitW_same w true (by cases src <;> decide)

/-- Recording a cause keeps those recorded before. -/
theorem bit_causesOf_of_bit {l : List ResetSource} {w : Word} (h : bit w src.bit = true) : bit (causesOf l w) src.bit = true := by
  induction l generalizing w with
  | nil => exact h
  | cons x l ih =>
    rw [causesOf_cons]
    refine ih ?_
    by_cases hx : src.bit = x.bit
    · rw [hx]; exact bit_setBitW_source x w
    · rw [bit_setBitW_ne w true hx]; exact h

/-- Every source that asked is among the causes. -/
theorem bit_causesOf_of_mem {l : List ResetSource} (w : Word) (h : src ∈ l) : bit (causesOf l w) src.bit = true := by
  induction l generalizing w with
  | nil => cases h
  | cons x l ih =>
    rw [causesOf_cons]
    obtain rfl | h := List.mem_cons.mp h
    · exact bit_causesOf_of_bit (bit_setBitW_source src w)
    · exact ih _ h

/-- A warm reset is asserted and RSTC_CAUSE shows the source. -/
structure WarmReset (src : ResetSource) (d : Dev) : Prop extends InReset d where
  warm : d.rstc.cold = false
  cause : bit (rd d RSTC_CAUSE.at) src.bit = true

namespace WarmReset

theorem after_wr (h : WarmReset src d) {k : Nat} (v : Word) (hk : k ≠ RSTC_CAUSE.at) : WarmReset src (wr d k v) where
  toInReset := h.toInReset.after_wr k v
  warm := h.warm
  cause := by rw [rd_wr_ne h.upright v hk.symm]; exact h.cause

theorem after_pf (h : WarmReset src d) {f : Fd} (n : Nat) (hk : f.reg ≠ RSTC_CAUSE.at) : WarmReset src (pf d f n) :=
  h.after_wr _ hk

/-- The reset unit's own state may change, as long as the warm reset stands in it. -/
theorem of_rstc (h : InReset d) (hc : bit (rd d RSTC_CAUSE.at) src.bit = true) (r : RstcSt) (hp : r.phase = .asserted)
    (hn : r.parkEntry = false) (hw : r.cold = false) : WarmReset src { d with rstc := r } :=
  ⟨⟨hp, hn, h.noWait, h.upright, h.noShadow⟩, hw, hc⟩

/-- The power pins follow: the reset unit and the low registers stay. -/
theorem pinsSafe (h : WarmReset src d) : WarmReset src (pinsSafe d) := by
  have hb : BlockOnly d (ownUpdate d) := (BlockOnly.refl d).after_ownUpdate
  have hr : (ownUpdate d).rstc = d.rstc := ownUpdate_rstc d
  have hp : Machine.pinsSafe d = ownUpdate d := rfl
  rw [hp]
  refine ⟨⟨?_, ?_, ?_, hb.clean h.upright, hb.shadows.trans h.noShadow⟩, ?_, ?_⟩
  · rw [hr]; exact h.phase
  · rw [hr]; exact h.noEntry
  · rw [hb.galley]; exact h.noWait
  · rw [hr]; exact h.warm
  · rw [hb.low h.upright RSTC_CAUSE.at (by decide)]; exact h.cause

/-- A Colophon latch that is voted may ask for another reset; this one stays asserted. -/
theorem scrubLatch (h : WarmReset src d) (k : Nat) : WarmReset src (scrubLatch d k) := by
  unfold Machine.scrubLatch
  split
  · exact h
  · rename_i t _
    have h1 : WarmReset src { d with flash := { d.flash with latchCopies := tabErase d.flash.latchCopies k } } :=
      ⟨⟨h.phase, h.noEntry, h.noWait, h.upright, h.noShadow⟩, h.warm, h.cause⟩
    dsimp only
    split
    · exact ⟨⟨h1.phase, h1.noEntry, h1.noWait, h1.upright, h1.noShadow⟩, h1.warm, h1.cause⟩
    · have h2 := ((h1.after_pf (f := RSTC_DETAIL.VPAGE) 0x1FF (by decide)).after_pf (f := RSTC_DETAIL.KIND) 3
        (by decide)).after_pf (f := RSTC_CRITADDR.ADDR) (0x8400000 + k) (by decide)
      exact ⟨⟨h2.phase, h2.noEntry, h2.noWait, h2.upright, h2.noShadow⟩, h2.warm, h2.cause⟩

theorem voteUse (h : WarmReset src s.dev) : WarmReset src (voteUse s).dev := by
  unfold Machine.voteUse voteScrub
  split
  · exact h
  split
  · exact h
  · have hl (l : List Nat) (d : Dev) (hd : WarmReset src d) : WarmReset src (l.foldl Machine.scrubLatch d) := by
      induction l generalizing d with
      | nil => exact hd
      | cons k l ih => exact ih _ (hd.scrubLatch k)
    simp only [h.upright, List.map_nil, List.foldl_nil, onD_dev, h.noShadow]
    exact hl _ _ h

theorem evalUpdate (h : WarmReset src d) : WarmReset src (evalUpdate d) := by
  refine ⟨⟨?_, ?_, ?_, ?_, ?_⟩, ?_, ?_⟩
  · rw [evalUpdate_rstc]; exact h.phase
  · rw [evalUpdate_rstc]; exact h.noEntry
  · rw [evalUpdate_galley]; exact h.noWait
  · rw [evalUpdate_folio h.upright]; exact h.upright
  · rw [evalUpdate_folio h.upright]; exact h.noShadow
  · rw [evalUpdate_rstc]; exact h.warm
  · rw [rd_evalUpdate h.upright (by decide)]; exact h.cause

end WarmReset

/-- The cause register takes every waiting source. -/
theorem bit_rd_causes (h : InReset d) {l : List ResetSource} (w : Word) (hl : src ∈ l) :
    bit (rd (wr d RSTC_CAUSE.at (causesOf l w)) RSTC_CAUSE.at) src.bit = true := by
  rw [rd_wr_same h.upright]; exact bit_causesOf_of_mem w hl

/-- The waiting sources assert (R459, R465): each of them is a cause. -/
theorem warmAssert_asserts (h : WarmAsked src s.dev.rstc) : WarmReset src (warmAssert s).dev := by
  have hp : ¬ (opAbort s).dev.rstc.phase = .asserted := by rw [opAbort_rstc]; exact h.released
  have hin := InReset.warmDev (setPeerFollow (opAbort s).dev false)
  unfold warmAssert; dsimp only
  rw [if_neg hp, setDev_dev]
  generalize warmDev (setPeerFollow (opAbort s).dev false) = n at hin
  refine WarmReset.pinsSafe ?_
  have hc := bit_rd_causes hin (rd (opAbort s).dev RSTC_CAUSE.at) h.asked
  have h1 := hin.after_wr RSTC_CAUSE.at (causesOf s.dev.rstc.req (rd (opAbort s).dev RSTC_CAUSE.at))
  generalize wr n RSTC_CAUSE.at (causesOf s.dev.rstc.req (rd (opAbort s).dev RSTC_CAUSE.at)) = n1 at h1 hc
  have h2 := h1.after_pb RSTC_STAT.SAFECP (opAbort s).dev.rstc.safeCopy.isSome
  have h3 := h2.after_pf RSTC_HOLD.HOLD 0x3F
  refine .of_rstc h3 ?_ _ h3.phase h3.noEntry rfl
  rw [rd_pf h2.upright, if_neg (by decide), rd_pb h1.upright, if_neg (by decide)]
  exact hc

/-- WARM_RESET where a source asked for one and the device is not in reset (R465). -/
theorem exec_warmReset (h : WarmAsked src s.dev.rstc) :
    ∃ t, exec .warmReset s = .next t ∧ t.pending = s.pending ∧ WarmReset src t.dev := by
  have hu : WarmReset src (voteUse (resetFirst s)).dev := by
    have hreq : ¬ s.dev.rstc.req = [] := List.ne_nil_of_mem h.asked
    rw [resetFirst, if_neg hreq, if_neg h.released]
    exact (warmAssert_asserts (landStores_warmAsked h)).voteUse
  refine ⟨_, rfl, rfl, ?_⟩
  have hp : parkFinish (voteUse (resetFirst s)) = voteUse (resetFirst s) := by simp [parkFinish, hu.noEntry]
  change WarmReset src (settle (parkFinish (voteUse (resetFirst s)))).dev
  rw [hp, settle_calm hu.noWait]
  exact hu.evalUpdate

/-- A field of one bit is that bit. -/
theorem gb_of_oneBit (d : Dev) (k i : Nat) : gb d ⟨k, i, i⟩ = bit (rd d k) i := by
  have hlt : fld (rd d k) i i < 2 := by simp only [fld, Nat.add_sub_cancel_left, pow_one]; omega
  have h0 : (fld (rd d k) i i).testBit 0 = bit (rd d k) i := by rw [testBit_fld]; simp [bit]
  rw [← h0]
  change (fld (rd d k) i i == 1) = _
  interval_cases fld (rd d k) i i <;> rfl

/-- The cause bit of a software warm reset, as the field that R470 names. -/
theorem gb_swrstCause (ini : Initiator) (d : Dev) :
    gb d (if ini = .pcie ∨ ini = .sec then RSTC_CAUSE.HOSTREQ else RSTC_CAUSE.SWREQ) =
      bit (rd d RSTC_CAUSE.at) (swrstSource ini).bit := by
  unfold swrstSource
  split
  · exact gb_of_oneBit d _ 9
  · exact gb_of_oneBit d _ 8

end

/-- Settles O59: the pair leaves one source waiting, HOSTREQ or SWREQ by its initiator; stores that land before the assertion
do not take it back, and the assertion records every waiting source. -/
theorem softwareWarmReset : Obligations.SoftwareWarmReset := by
  unfold Obligations.SoftwareWarmReset
  intro s hc
  constructor <;> intro ini ho <;> obtain ⟨t, ht, hpending, hmem, hrstc, hcore⟩ := exec_swrst hc ho
  · have hasked : WarmAsked (swrstSource ini) t.dev.rstc := by
      rw [hrstc]
      exact ⟨by simp [ho.started], by simp⟩
    obtain ⟨u, hu, hup, hw⟩ := exec_warmReset hasked
    exact ⟨t, ht, hpending, u, hu, hup, hw.phase, hw.warm, (gb_swrstCause ini u.dev).trans hw.cause⟩
  · exact ⟨t, ht, hpending, congrArg RstcSt.req hrstc, hmem, hcore⟩

end Sys2Proof.Machine
